-- ==== Sys2Proof/Word.lean ====
section
/-!
DEFINITION. Sys2Proof/Word.lean: the word types of the KLG-7208-L and the index types of its
units (spec/00_scope.md, "Hierarchy and indices"). Registers and bytes are bit vectors; indices
of units are bounded naturals; everything that is counted is a natural number.
-/

-- Threads of the elaborator each take memory of their own; the package is one large text.
set_option Elab.async false

namespace Sys2Proof

/-- A byte of any memory. -/
abbrev Byte := BitVec 8
/-- A 32-bit register (R493: every register access is 32 bits wide). -/
abbrev Word := BitVec 32

/-- Region index g, 0 to 15. -/
abbrev RegionId := Fin 16
/-- Block ID g × 16 + b, 0 to 255 (R390). -/
abbrev BlockId := Fin 256
/-- Global tile ID g × 1,024 + b × 64 + t, 0 to 16,383 (R3). -/
abbrev TileId := Fin 16384
/-- Tier index k, 0 to 7. -/
abbrev TierId := Fin 8
/-- Tile-tier unit ID, global tile ID × 8 + k, 0 to 131,071 (R390). -/
abbrev TileTierId := Fin 131072
/-- Job slot j, 0 to 63 (R205 context, spec/07). -/
abbrev SlotId := Fin 64
/-- Clearing line l, 0 to 31 (R334). -/
abbrev LineId := Fin 32
/-- Logical link port, 0 to 31 (R344). -/
abbrev PortId := Fin 32
/-- Mailbox m, 0 to 15 (R459). -/
abbrev MailboxId := Fin 16
/-- Host window w, 0 to 15 (R287). -/
abbrev WindowId := Fin 16
/-- XFER doorbell slot, 0 to 63 (R450). -/
abbrev DoorbellId := Fin 64

end Sys2Proof
end

