-- ==== Sys2Proof/Syntax.lean ====
section
/-!
DEFINITION. Sys2Proof/Syntax.lean: the commands of the KLG-7208-L, one constructor of `Instr` for each
row of spec/opcode_table.json, with the operands the row's rules name. What the world outside the
device decides at an event (a voltage, a temperature, a received message, a test's outcome, a fault a
check finds) is an operand of the event's command.
-/
namespace Sys2Proof

/-- Who makes a register access (R503: each requester, the host and the MP, has its own lock). -/
inductive Writer where
  | host | mp
  deriving DecidableEq, Repr

/-- The shape of one register access (R493): BAR0 offset, width in bytes and byte enables. -/
structure Access where
  off   : Nat
  bytes : Nat
  be    : Nat
  deriving DecidableEq, Repr

/-- What a self-test that did not pass on its first run came to (R579, R581): its number, the failing
unit, and whether the re-run failed as well. -/
structure TestOutcome where
  test  : Nat
  kind  : Nat
  unit  : Nat
  again : Bool
  deriving DecidableEq, Repr

/-- A storage error that the accesses of one step find (R281, R284): in the block store or in an HBM
stack, at a byte address, and whether the code cannot correct it; `onDie`: a correction that the stack's own ECC
made and reports (after R284). -/
structure MemErr where
  hbm    : Bool
  unit   : Nat
  addr   : Nat
  double : Bool
  onDie  : Bool := false
  deriving DecidableEq, Repr

/-- What a command acts on, and the storage errors that its accesses find (R281, R284). -/
structure At (α : Type) where
  what : α
  errs : List MemErr
  deriving DecidableEq, Repr

/-- A page of a record that is read again, and whether that read has a poisoned completion (R272). -/
structure PageRead where
  page : Nat
  bad  : Bool
  deriving DecidableEq, Repr

/-- Where a segment of a Ciand message comes from: a device, and for a link-local one the port (R351, R487). -/
structure MgmtFrom where
  dev  : Nat
  link : Option PortId
  deriving DecidableEq, Repr

/-- What reads of the digital-mode partition meet (R51): page reads in which the ECC corrected bits, page reads that
return no data (of the calibration areas), pages of the ring journal that return no data, each by its erase block
(oldest first) and its page, and such pages of the other areas of R53, each by its area (0 commit and recovery, 1 and 2
configuration copies A and B, 3 residency, 4 firmware's own), erase block and page. -/
structure PartReads where
  fixed  : Nat
  failed : Nat
  lost   : List (Nat × Nat)
  other  : List (Nat × Nat × Nat)
  deriving DecidableEq, Repr

/-- What the checks of one vector instruction find (R201, R202): `res` 0 no residue failure, 1 one that
passes on re-execution, 2 one that repeats; `ecc` 0 no register error, 1 a corrected one, 2 an
uncorrectable one; `lane`: the first lane concerned (R200). -/
structure VeFault where
  res  : Nat
  ecc  : Nat
  lane : Nat := 0
  deriving DecidableEq, Repr

/-- A flit as it arrives at a port: whether its CRC-64 and (when encrypted) its tag hold, whether the receive buffer
finds an uncorrectable error in it, whether it is the first of a new key generation, the FEC symbols corrected,
the credits that it returns for virtual channels 0 to 3, how many of the flits sent it acknowledges, and whether the peer
asks for the rest again (R357 to R359, R529, R530). -/
structure FlitIn where
  crcOk   : Bool
  tagOk   : Bool
  eccUnc  : Bool
  newGen  : Bool
  symbols : Nat
  credits : List Nat
  acks    : Nat := 0
  nak     : Bool := false
  deriving DecidableEq, Repr

/-- A stage header (CHDR, spec/11): the round and stage it belongs to, by fabric job ID, group, rail, step, ROUND,
attempt and stage; the sender's member index, c, KMAX, local non-finite flag and CFG_PREFIX. -/
structure Chdr where
  fjob    : Nat
  group   : Nat
  rail    : Nat
  step    : Nat
  round   : Nat
  attempt : Nat
  stage   : Nat
  op      : Nat
  wfmt    : Nat
  digest  : Nat
  member  : Nat
  c       : Nat
  kmax    : Nat
  nf      : Bool
  cfgPrefix : Nat
  deriving DecidableEq, Repr

/-- One tile of a stage with its digest block (CDATA, spec/11): the round and stage, the sequence number, whether the
CRC-32C holds, the words of the digest block and the tile's bytes. -/
structure Cdata where
  fjob    : Nat
  group   : Nat
  rail    : Nat
  step    : Nat
  round   : Nat
  attempt : Nat
  stage   : Nat
  seq     : Nat
  crcOk   : Bool
  words   : List Nat
  data    : List Byte
  deriving DecidableEq, Repr

/-- One weight of an image as it is read back from the IMAGE window: tile-tier unit ID, row, column and the 4-byte image
entry (spec/13). -/
structure ImgRec where
  unit : Nat
  row  : Nat
  col  : Nat
  val  : Nat
  deriving DecidableEq, Repr

/-- A stage of a PLDM firmware update of a component (R485): bytes transferred at an offset, verification of an image of a
length, activation. -/
inductive PldmStage where
  | transfer (comp off : Nat) (data : List Byte)
  | verify (comp len : Nat)
  | activate (comp : Nat)
  deriving DecidableEq, Repr

/-- What a restart reads from the IMAGE window: the base image, the carry-journal entries to replay (in order), and the
image of the restart step. -/
structure ImgSet where
  base : List ImgRec
  segs : List Nat
  img  : List ImgRec
  deriving DecidableEq, Repr

/-- What firmware meets from outside while it serves a request: an image set for REC_BEGIN, and the session that an SPDM
exchange opens (with mutual authentication or not) or ends, and what its reads of the partition meet. -/
structure ServeIn where
  img   : ImgSet
  opens : Option (Nat × Bool)
  ends  : Option Nat
  reads : PartReads
  deriving DecidableEq, Repr

/-- What the check pass of a matrix-core request observes beside the sums that the model forms: kind 0 nothing,
1 a residue failure of PE (m, n) at block k ÷ 32 = `blk`, 2 a failing column n, 3 a failing row m (R159 to
R164). -/
structure MatFault where
  kind : Nat
  m    : Nat
  n    : Nat
  blk  : Nat
  deriving DecidableEq, Repr

/-- A power domain: a region rail or a block switch (spec/18). -/
inductive PowerDomain where
  | region (g : RegionId)
  | block (b : BlockId)
  deriving DecidableEq, Repr

/-- An SPDM request over MCTP (R522, R524): its source, its bytes, and what the exchange comes to: the session that a FINISH
opens, with mutual authentication or without, and the session that ends; or a secured message (R524): its session and the
sealed bytes after its header. -/
structure SpdmIn where
  src   : Nat
  bytes : List Byte
  opens : Option (Nat × Bool)
  ends  : Option Nat
  data  : Option (Nat × List Byte) := none
  deriving DecidableEq, Repr

/-- The commands, in the order of spec/opcode_table.json. -/
inductive Instr where
  | powerApplied (vin : Nat) (enc : Option Nat) (rd : PartReads)
  | powerRemoved
  | resetNAssert
  | resetNRelease (enc : Option Nat) (rd : PartReads)
  | bootComplete (outs : List TestOutcome)
  | selfTestComplete (outs : List TestOutcome)
  | lockstepMiscompare (enc : Option Nat) (rd : PartReads)
  | watchdogExpiry (enc : Option Nat) (rd : PartReads)
  | hostDieReset
  | protectiveShutdown (cause : Nat)
  | inputVoltageSample (mv us : Nat)
  | firmwareTick (x : ServeIn) (late : Bool)
  | drainTimeout (j : SlotId)
  | drainComplete
  | tileReadStart (t : TileId) (errs : List MemErr)
  | phaseLatch (t : TileId) (pmon : Bool)
  | tileReadComplete (t : TileId)
  | dsliceCombine (t : TileId)
  | programPulse (t : At TileId)
  | verifyRead (t : At TileId)
  | sweepRead (t : At TileId)
  | sweepDue (u : TileTierId)
  | eraseSubPulse (t : TileId)
  | eraseVerify (t : TileId)
  | fenceTimeout (t : TileId)
  | coppiceSwap (t : TileId)
  | tierLoadDone (u : TileTierId)
  | adoptionSweepDone (u : TileTierId)
  | thermalSensorSample (g : RegionId) (readings : List Nat)
  | updateTask (b : BlockId) (errs : List MemErr)
  | matmulStart (b : BlockId) (errs : List MemErr)
  | matmulCheckPass (b : BlockId) (f : MatFault)
  | matmulWritePass (b : BlockId)
  | matmulWriteDone (b : At BlockId)
  | veNop (b : BlockId)
  | veLd (b : BlockId) (errs : List MemErr)
  | veSt (b : BlockId) (errs : List MemErr) (f : VeFault)
  | veLds (b : BlockId) (errs : List MemErr)
  | veSts (b : BlockId) (errs : List MemErr)
  | veSeta (b : BlockId)
  | veAdda (b : BlockId)
  | veSets (b : BlockId)
  | veSetsl (b : BlockId)
  | veFadd (b : BlockId) (f : VeFault)
  | veFsub (b : BlockId) (f : VeFault)
  | veFmul (b : BlockId) (f : VeFault)
  | veFma (b : BlockId) (f : VeFault)
  | veFmax (b : BlockId) (f : VeFault)
  | veFmin (b : BlockId) (f : VeFault)
  | veFabs (b : BlockId) (f : VeFault)
  | veFneg (b : BlockId) (f : VeFault)
  | veFscale (b : BlockId) (f : VeFault)
  | veFrcp (b : BlockId) (f : VeFault)
  | veFrsq (b : BlockId) (f : VeFault)
  | veFexp2 (b : BlockId) (f : VeFault)
  | veFlog2 (b : BlockId) (f : VeFault)
  | veFtanh (b : BlockId) (f : VeFault)
  | veFsigm (b : BlockId) (f : VeFault)
  | veFcmplt (b : BlockId) (f : VeFault)
  | veFcmple (b : BlockId) (f : VeFault)
  | veFcmpeq (b : BlockId) (f : VeFault)
  | veSel (b : BlockId) (f : VeFault)
  | veIadd (b : BlockId) (f : VeFault)
  | veIsub (b : BlockId) (f : VeFault)
  | veImul (b : BlockId) (f : VeFault)
  | veIand (b : BlockId) (f : VeFault)
  | veIor (b : BlockId) (f : VeFault)
  | veIxor (b : BlockId) (f : VeFault)
  | veIshl (b : BlockId) (f : VeFault)
  | veIshra (b : BlockId) (f : VeFault)
  | veIshrl (b : BlockId) (f : VeFault)
  | veIcmpltu (b : BlockId) (f : VeFault)
  | veCvtw (b : BlockId) (f : VeFault)
  | veCvtn (b : BlockId) (f : VeFault)
  | veCvti (b : BlockId) (f : VeFault)
  | veCvtfi (b : BlockId) (f : VeFault)
  | veRsumr (b : BlockId) (f : VeFault)
  | veRsumc (b : BlockId) (f : VeFault)
  | veRsums (b : BlockId) (f : VeFault)
  | veRmaxr (b : BlockId) (f : VeFault)
  | veRmaxc (b : BlockId) (f : VeFault)
  | veRamaxr (b : BlockId) (f : VeFault)
  | veRamaxc (b : BlockId) (f : VeFault)
  | veCmb (b : BlockId) (f : VeFault)
  | veFacc (b : BlockId) (f : VeFault)
  | veFmaxacc (b : BlockId) (f : VeFault)
  | veSpr (b : BlockId)
  | veLoop (b : BlockId)
  | veEnd (b : At BlockId)
  | veSync (b : BlockId)
  | illegalInstruction (b : BlockId)
  | nanReport (j : SlotId) (n : Nat)
  | nanTrapClear (w : Writer) (a : Access) (v : Nat)
  | veTrapClear (w : Writer) (a : Access) (v : Nat)
  | numModeWrite (w : Writer) (a : Access) (v : Nat)
  | zgwWrite (w : Writer) (a : Access) (v : Nat)
  | tsContextWrite (w : Writer) (a : Access) (v : Nat)
  | taskDeliver (g : RegionId)
  | taskIssue (b : BlockId)
  | taskComplete (b : BlockId) (num : Nat)
  | creditSignal (b : BlockId) (c : Fin 64) (n : Nat)
  | controlNop (b : BlockId)
  | mbAdmit (b : BlockId)
  | mbAbort (b : BlockId)
  | arrive (b : BlockId)
  | clearingLineRelease (l : LineId)
  | clEnWrite (w : Writer) (a : Access) (v : Nat)
  | clMparriveWrite (w : Writer) (a : Access) (v : Nat)
  | testWindowOpen (b : BlockId)
  | testWindowOverrun (b : BlockId)
  | seqWinWrite (w : Writer) (a : Access) (v : Nat)
  | moveTask (b : BlockId) (mover : Fin 2) (errs : List MemErr)
  | tokenGrant (g : At RegionId)
  | tokenLotReturn (g : RegionId)
  | allocTask (b : BlockId)
  | freeTask (b : BlockId)
  | queryTask (h : Nat)
  | allocQueueServe (owner queue : Nat)
  | allocTimeout (owner queue : Nat)
  | allocZeroFillDone (h : Nat)
  | offloadComplete (j : At SlotId) (h : Nat)
  | offloadRetry (j : SlotId) (h : Nat)
  | prefetchComplete (j : At SlotId) (h : Nat)
  | prefetchPageReread (j : SlotId) (h : Nat) (page : PageRead)
  | hbmScrub (g : RegionId) (page : Nat) (errs : List MemErr)
  | cxlMemRead (hdm : Nat) (errs : List MemErr)
  | cxlMemWrite (hdm data be : Nat) (errs : List MemErr)
  | cxlSnoop
  | hwinRegisterWrite (w : Writer) (a : Access) (v : Nat)
  | windowDrainDone (w : WindowId)
  | reduceScatter (b : BlockId) (errs : List MemErr)
  | allGather (b : BlockId) (errs : List MemErr)
  | allReduce (b : BlockId) (errs : List MemErr)
  | beat (b : BlockId)
  | chdrReceive (h : Chdr)
  | cdataReceive (d : At Cdata)
  | stageDataLost (i : Nat)
  | blameNotice
  | beatSlotBoundary (now : Nat)
  | beatReceive (src : Nat) (payload : List Byte)
  | verdictApply (i : Nat)
  | singleDeviceVerdict (j : SlotId)
  | beatTimeout (i : Nat)
  | redundancyCompare (b : BlockId) (num : Nat)
  | stepCommit (j : SlotId)
  | commitLogProgram
  | imageCopyDone (j : At SlotId) (u : TileTierId)
  | restoreComplete (j : SlotId)
  | egressGrad (b : BlockId) (errs : List MemErr)
  | egressScan (b : BlockId) (errs : List MemErr)
  | egressSend (b : BlockId) (errs : List MemErr)
  | egressNormOut (b : At BlockId)
  | egressClipfact (b : BlockId) (errs : List MemErr)
  | egressData (b : BlockId) (errs : List MemErr)
  | ingressDelta (b : At BlockId) (bad : Bool)
  | ingressData (b : At BlockId) (bad : Bool)
  | ingressCrcgen (b : BlockId) (errs : List MemErr)
  | xfDbellWrite (w : Writer) (a : Access) (v : Nat)
  | ingressTimeout (b : BlockId)
  | ucieLinkDown
  | ucieTrainingDone (good repaired : Nat)
  | linkCfgWrite (w : Writer) (a : Access) (v : Nat)
  | linkTrainingDone (p : PortId) (lanes : Nat)
  | linkTrainingRetry (p : PortId)
  | helloSend (p : PortId)
  | helloReceive (p : PortId) (payload : List Byte)
  | helloTimeout (p : PortId)
  | flitAlignmentLoss (p : PortId)
  | flitReceive (p : PortId) (f : FlitIn)
  | messageRoute (p : PortId) (src dst cls hops seq tag : Nat) (local' : Bool) (payload : List Byte)
  | timeSyncInterval
  | timeMessage (t1 t2 t3 t4 : Nat)
  | linkKeyEstablished (p : PortId)
  | linkKeyTimeout (p : PortId) (failed : Bool)
  | linkKeyRetry (p : PortId)
  | linkRekey (p : PortId)
  | oldKeyErase (p : PortId)
  | journalPageProgram
  | journalCompaction (rd : PartReads)
  | journalBulkCompaction (rd : PartReads)
  | aggregatorWindowEnd (g : RegionId)
  | rateSummary
  | testDue (b : BlockId) (test : Fin 5)
  | testForced (b : BlockId) (test : Fin 5)
  | inFieldTestDone (b : BlockId) (test : Fin 5) (pass : Bool) (unit : Nat)
  | railCtlWrite (w : Writer) (a : Access) (v : Nat)
  | inrushGrant (g : RegionId)
  | inrushGrantTimeout (g : RegionId)
  | domainRampDone (d : PowerDomain)
  | domainRampDownDone (d : PowerDomain)
  | clkTargetWrite (w : Writer) (a : Access) (v : Nat)
  | capLoopTick (mw curr : Nat) (rails : List Nat)
  | pwrCapWrite (w : Writer) (a : Access) (v : Nat)
  | voltageSensorSample (g : RegionId) (readings : List Nat)
  | railMinClear (w : Writer) (a : Access) (v : Nat)
  | coolantSample (flow : Nat) (inlet outlet : Int)
  | regionTempEval (g : RegionId)
  | calRunWrite (w : Writer) (a : Access) (v : Nat)
  | calibrationMeasurement (t : TileId) (meas : List Int)
  | gradualTap (t : TileId)
  | stepModeTaps (t : TileId)
  | stepModeFallback (g : RegionId)
  | inServiceRecord (g : RegionId)
  | drbgReseed
  | noiseSourceFailure (test : Nat)
  | spdmMctpMessage (q : SpdmIn)
  | vendorDefinedRequest (src sess : Nat) (ek : List Byte)
  | mailboxRing (w : Writer) (a : Access) (v : Nat)
  | mailboxAreaWrite (w : Writer) (a : Access) (v : Nat)
  | mailboxRelease (w : Writer) (a : Access) (v : Nat)
  | mctpMessageReceive (src : Nat) (bytes : List Byte) (more : Bool)
  | mctpReassemblyTimeout (src : Nat)
  | mctpControl (src : Nat) (req : List Byte)
  | pldmRequest (src : Nat) (sensor : Option Nat) (req : List Byte)
  | pldmFirmwareUpdate (src : Nat) (st : PldmStage)
  | pldmActivateFirmware (enc : Option Nat) (rd : PartReads)
  | mgmtSegmentReceive (src : MgmtFrom) (tag : Nat) (payload : List Byte)
  | operationComplete (oph : Nat)
  | fabForwardResponse (src box : Nat) (resp : Option (List Byte))
  | getInfo (m : MailboxId)
  | getState (m : MailboxId)
  | getTiers (m : MailboxId)
  | getJobs (m : MailboxId)
  | opStatus (m : MailboxId)
  | evtRead (m : MailboxId)
  | cfgGet (m : MailboxId)
  | cfgStage (m : MailboxId)
  | cfgCommit (m : MailboxId)
  | localSet (m : MailboxId)
  | localGet (m : MailboxId)
  | resDefine (m : MailboxId)
  | resPieces (m : MailboxId)
  | resQuery (m : MailboxId)
  | resLoad (m : MailboxId)
  | resAdopt (m : MailboxId)
  | resRelease (m : MailboxId)
  | resDiscard (m : MailboxId)
  | jobAdmit (m : MailboxId)
  | jobTensors (m : MailboxId)
  | jobWindow (m : MailboxId)
  | jobGraphStage (m : MailboxId)
  | jobGraphLoad (m : MailboxId)
  | jobStart (m : MailboxId)
  | jobStop (m : MailboxId)
  | jobResume (m : MailboxId)
  | jobStatus (m : MailboxId)
  | jobEnd (m : MailboxId)
  | calStatus (m : MailboxId)
  | calRun (m : MailboxId)
  | calRead (m : MailboxId) (rd : PartReads)
  | pwrGet (m : MailboxId)
  | pwrLimit (m : MailboxId)
  | pwrClearMin (m : MailboxId)
  | jrnRead (m : MailboxId) (rd : PartReads)
  | jrnUnits (m : MailboxId)
  | evtSubscribe (m : MailboxId)
  | fltGet (m : MailboxId)
  | testRun (m : MailboxId)
  | testResult (m : MailboxId)
  | postResult (m : MailboxId)
  | fwInfo (m : MailboxId)
  | fwStage (m : MailboxId)
  | fwVerify (m : MailboxId)
  | fwActivate (m : MailboxId)
  | spdmMsg (m : MailboxId) (opens : Option (Nat × Bool)) (ends : Option Nat)
  | secStatus (m : MailboxId)
  | secZeroise (m : MailboxId)
  | fabSetId (m : MailboxId)
  | fabRoute (m : MailboxId)
  | fabNeighbours (m : MailboxId)
  | fabPorts (m : MailboxId)
  | fabTime (m : MailboxId)
  | fabGroup (m : MailboxId)
  | fabForward (m : MailboxId)
  | recImageDone (m : MailboxId)
  | recRestart (m : MailboxId)
  | recRestoreJob (m : MailboxId)
  | recBegin (m : MailboxId) (x : ImgSet)
  | recStatus (m : MailboxId)
  | recClearFlag (m : MailboxId)
  | chipUnlockWrite (w : Writer) (a : Access) (v : Nat)
  | keyLockTimeout (w : Writer)
  | regionBroadcastWrite (w : Writer) (a : Access) (v : Nat)
  | blockBroadcastWrite (w : Writer) (a : Access) (v : Nat)
  | crossingTimeout (w : Writer) (a : Access) (v : Option Nat)
  | registerReadRefused (w : Writer) (a : Access)
  | rcRegisterRead (w : Writer) (a : Access)
  | tierUpkeepWrite (w : Writer) (a : Access) (v : Nat)
  | vePstoreWrite (w : Writer) (a : Access) (v : Nat)
  | registerWrite (w : Writer) (a : Access) (v : Nat)
  | lowWordCaptureRead (w : Writer) (a : Access)
  | dynamicAddressAssignment (addr : Nat)
  deriving DecidableEq, Repr

end Sys2Proof
end

