-- ==== Sys2Proof/Decode.lean ====
section
/-!
DEFINITION. Sys2Proof/Decode.lean: the command that a word spells. No row of spec/opcode_table.json gives its
command a bit (every row's list of fields is empty: the commands are operations and events, not words), so no word
spells one.
-/
namespace Sys2Proof

/-- The command that the word `w` of `nbits` bits spells by the bits of the opcode table: none, for every word. -/
def decodeTableWord (nbits w : Nat) : Option Instr :=
  match nbits, w with
  | _, _ => none

end Sys2Proof
end

