-- ==== Sys2Proof/Config.lean ====
section
/-!
DEFINITION. Sys2Proof/Config.lean: what one module fixes at manufacture, and the free values: the
quantities the spec leaves open or leaves to chance. None has a body, so no proof can see a value.
Each is named in the assumption log.
-/
namespace Sys2Proof.Config

/-- The fused module serial number (CHIP_SERIAL, "fused value"). -/
opaque serial : BitVec 64

/-- Rounding-generator bits (R213: "its output is not reproducible"): the k-th 16-bit value of the stream
that a task was given at its issue. -/
opaque roundBits : Nat → Nat → BitVec 16

/-- Bits of a link port's own rounding generator (R213), for each draw. -/
opaque linkBits : Nat → BitVec 16

/-- How many carry-journal entries a region's journal buffer holds (R431, R432: the spec gives no size). -/
opaque journalCap : Nat

/-- The error of one conversion, in thousandths of a charge unit (spec/03 after R72: a standard
deviation only), for each draw. -/
opaque adcError : Nat → Int

/-- The error of one verify read of one pair, in 1/64 code step (spec/04, "Program and verify": a
standard deviation only), for each draw. -/
opaque verifyError : Nat → Int

/-- A cell's own response to a pulse (R601), in thousandths of a level step beside the nominal lowering, by
cell and by kind (true: a full pulse); fixed for the cell. -/
opaque cellResponse : Nat → Bool → Int

/-- The part of a pulse's response that varies at every pulse (R601), for each draw. The model clamps the sum
to the absolute bounds R601 states. -/
opaque pulseVariation : Nat → Bool → Int

/-- The raise one erase sub-pulse gives one cell, in thousandths of a level step (R600). -/
opaque eraseRaise : Nat → Nat

/-- The erased level of one cell above level 30.7, in thousandths (R600: 31 ± 0.3). -/
opaque erasedLevel : Nat → Nat

/-- A byte or a value that the spec calls undefined, for each draw. -/
opaque undefValue : Nat → Nat

/-- The approximations of R181's six transcendental instructions (errors of 1 or 2 ulp allowed), by
opcode and operand code. -/
opaque transcendental : Nat → BitVec 32 → BitVec 32

/-- Whether the Ed25519 and the ML-DSA-65 signature of an image header verify, by its 8,192 bytes (R514). -/
opaque edOk : List Byte → Bool
opaque mldsaOk : List Byte → Bool

/-- The fused key digests of the four key slots (R514). -/
opaque keyDigest : Nat → BitVec 384

/-- The key slots that the revocation list in an image's payload names (R521: no layout given). -/
opaque revokeList : List Byte → Nat

/-- The measurement of an image installed at manufacture, by type. -/
opaque shippedMeas : Nat → BitVec 384

/-- Version of an image installed at manufacture, by type, and of the enclave ROM. -/
opaque shippedVersion : Nat → BitVec 32
opaque romVersion : BitVec 32

/-- Factory calibration: the bytes of tile records that hold codes, slopes and the SPARE field, by tile and offset
(spec/19, measured at manufacture). -/
opaque factoryByte : Nat → Nat → Byte

/-- The factory voltage–frequency table, in 25 MHz units by mV (R537 gives three of its points). -/
opaque vfTable : Nat → Nat

/-- The measurement of the enclave ROM (R522). -/
opaque romMeas : BitVec 384

/-- Bytes an SPDM responder answers to a request, by request, measurement blocks at that moment (R522) and draw. -/
opaque spdmAnswer : List Byte → List (List Byte) → Nat → List Byte

/-- Bytes of an ML-KEM-768 ciphertext, by encapsulation key, draw and index (R523). -/
opaque kemCipher : List Byte → Nat → Nat → Byte

/-- Answers of the MP to MCTP control messages and PLDM base and FRU requests (R483: DMTF standards), by request and
draw. -/
opaque mctpReply : List Byte → Nat → List Byte

/-- What a task graph says of one of its tasks that is a part of a fused kernel (spec/08, "The kernel library"): the task,
the kernel, the step of the kernel that the task is, the instance (norm site, tile pair or adapter) it belongs to, the
participating blocks by global index, its sizes (tokens or rows, columns of the block, width of the whole row or head),
which of the task's address fields plays each part of the kernel's formula, its FP32 constants, and for attention the
causal mask with the first query and key index of the tile pair. -/
structure KCall where
  task   : Nat
  kid    : Nat
  stage  : Nat
  inst   : Nat
  parts  : List Nat
  rows   : Nat
  cols   : Nat
  width  : Nat
  fields : List Nat
  consts : List Nat
  causal : Bool
  i0     : Nat
  j0     : Nat
  deriving DecidableEq, Repr

/-- The kernels that a graph's records name and the tasks of theirs (the spec gives no field for a kernel ID), and the
kernels that a staged library image holds, by its bytes. -/
opaque kernelsNamed : List Nat → List Nat
opaque kernelCalls : List Nat → List KCall
opaque imageKernels : List (Nat × Byte) → List Nat

/-- The program-store words and element-program slots (2,048 on) that the kernels of a graph fill in a block, by the
block's records. -/
opaque kernelWords : List Nat → List (Nat × Nat)

/-- The export master secret of an SPDM session, by the session's ID or the peer's serial number and a draw (R523: that of the
DMTF key schedule). -/
opaque exportMaster : Nat → Nat → BitVec 384

/-- The ML-KEM-768 shared secret, by encapsulation key and draw (R523). -/
opaque kemSecret : List Byte → Nat → BitVec 256

/-- What the device answers to application data of a session, by session, data and draw: the spec names no application. -/
opaque appAnswer : Nat → List Byte → Nat → List Byte

end Sys2Proof.Config
end

