-- ==== Sys2Proof/Machine/Regs.lean ====
section
/-!
DEFINITION. Sys2Proof/Machine/Regs.lean: every register of the spec as one row of a table (name,
offset, stride and count within its window, reset value, access masks, clock domain), and the
decoding of a BAR0 offset to a register (R10, R491, R492). The rows are those of the register
sections of spec/03 to spec/19; the masks say which bits each access code of R10 covers. Bits in no
mask are read-only or reserved.
-/
namespace Sys2Proof.Machine

/-- The registers, by the names of the spec (LO and HI halves of 64-bit registers apart). -/
inductive RegId where
  | tileCfg | tileBudget | tileArb | tileTier | tileStatus | tileSatcnt | tileChkcnt
  | tileLastchk | tilePhasesLo | tilePhasesHi | tileZerovec | ceCfg | ceHr | ceLimits | ceStatus
  | ceCarries | ceFolds | tierUpkeep | tileFence | mcCfg | mcStatus | mcErrcnt | mcLasterr
  | mcOps | mcCycLo | mcCycHi | veCfg | veStatus | veTrap0 | veTrap1 | veTrap2 | veTrap3
  | veEpslot | veErrcnt | veInsnLo | veInsnHi | vePstore | numMode | numStatus | numLscale
  | numSkipcnt | numNancnt | nanTrap0 | nanTrap1 | nanTrap2 | nanTrap3 | zgwTensor | zgwCfg
  | zgwRun | zgwNz | tsSporeKey0 | tsSporeKey1 | tsSporeStep | tsActCfg | tsNormCfg | tsClip
  | tsActStatus | tsActStallcnt | tsClipfact | bsStatus | bsErrcnt | bsConflict | raCfg
  | raStatus | raHbm | raLasterr | raLasthdl | hbmStatus | hbmErrcnt | hbmScrub | hwinBaseLo
  | hwinBaseHi | hwinSize | hwinCtl | ccVal | ccCtl | ccDrift | clEn | seqStatus | seqWin
  | seqTok | ptCfg | ptStatus | ptReserve | clMparrive | clCfg | clStatus | linkCfg | lpStatus
  | lpPeer | lpPeerEpoch | lpPeerPrefixLo | lpPeerPrefixHi | lpErrcnt | lpFec | lpDelay | route
  | fabId | fabCfg | fabTo | cfgEpoch | fabErrcnt | cfgDigest | timeLo | timeHi | timeCfg
  | timeStatus | fhState | fhCfg | rjStatus | rjSupcnt | aggCfg | aggStatus | redCfg | redStatus
  | redCnt | xfDbell | xfCtl | xfStatus | ucieStatus | ucieErrcnt | mbDoorbell | mbStatus
  | chipId | chipSerialLo | chipSerialHi | chipUnlock | chipLock | bcastSel | bcastGrp0
  | bcastGrp | bcastStatus | regErr | regErrAddr | regErrcnt | rgnInfo | rcStatus | pwrInput
  | pwrPower | pwrCap | pwrStatus | railCtl | railMin | railMinTLo | railMinTHi | railI
  | thermStatus | thermCfg | clkTarget | clkStatus | clkStretch | coolTemp | coolFlow | calCfg
  | calRstatus | calRtemp | calRuns
  | msixAddrLo | msixAddrHi | msixData | msixCtl | msixPba
  deriving DecidableEq, Repr

/-- Clock domains of R498. -/
inductive Domain where
  | chip | region | block | link | power
  deriving DecidableEq, Repr

/-- One row of the register table: word i of the row (i < count) lies at off + i × stride. -/
structure RegDesc where
  id     : RegId
  off    : Nat
  stride : Nat
  count  : Nat
  reset  : Nat
  rw     : Nat := 0
  rwk    : Nat := 0
  w1c    : Nat := 0
  w1s    : Nat := 0
  wo     : Nat := 0
  rc     : Nat := 0
  dom    : Domain
  deriving DecidableEq, Repr

/-- Registers of the TILE[g,b,t] window. -/
def tileRegs : List RegDesc :=
  [ { id := .tileCfg, off := 0x0, stride := 0x0, count := 1, reset := 0x323, rw := 0x337, dom := .block },
    { id := .tileBudget, off := 0x4, stride := 0x0, count := 1, reset := 0x400280, rw := 0xFF07FF, dom := .block },
    { id := .tileArb, off := 0x8, stride := 0x0, count := 1, reset := 0x48, rw := 0x7F, dom := .block },
    { id := .tileTier, off := 0xC, stride := 0x0, count := 1, reset := 0x0, rwk := 0xFFFF, dom := .block },
    { id := .tileStatus, off := 0x10, stride := 0x0, count := 1, reset := 0x0, w1c := 0x3F, dom := .block },
    { id := .tileSatcnt, off := 0x14, stride := 0x0, count := 1, reset := 0x0, rc := 0xFFFFFFFF, dom := .block },
    { id := .tileChkcnt, off := 0x18, stride := 0x0, count := 1, reset := 0x0, rc := 0xFFFFFFFF, dom := .block },
    { id := .tileLastchk, off := 0x1C, stride := 0x0, count := 1, reset := 0x0, dom := .block },
    { id := .tilePhasesLo, off := 0x20, stride := 0x0, count := 1, reset := 0x0, dom := .block },
    { id := .tilePhasesHi, off := 0x24, stride := 0x0, count := 1, reset := 0x0, dom := .block },
    { id := .tileZerovec, off := 0x28, stride := 0x0, count := 1, reset := 0x0, dom := .block } ]

/-- Registers of the BLK[g,b] window, tiles apart. -/
def blockRegs0 : List RegDesc :=
  [ { id := .ceCfg, off := 0x2000, stride := 0x0, count := 1, reset := 0xA0608C, rw := 0x1FFFFFF, dom := .block },
    { id := .ceHr, off := 0x2004, stride := 0x0, count := 1, reset := 0x400100, rw := 0xFFFFFFFF, dom := .block },
    { id := .ceLimits, off := 0x2008, stride := 0x0, count := 1, reset := 0x40003E8, rw := 0xFFFFFFFF, dom := .block },
    { id := .ceStatus, off := 0x200C, stride := 0x0, count := 1, reset := 0x0, w1c := 0x3F, dom := .block },
    { id := .ceCarries, off := 0x2010, stride := 0x0, count := 1, reset := 0x0, rc := 0xFFFFFFFF, dom := .block },
    { id := .ceFolds, off := 0x2014, stride := 0x0, count := 1, reset := 0x0, rc := 0xFFFFFFFF, dom := .block },
    { id := .tierUpkeep, off := 0x3000, stride := 0x4, count := 512, reset := 0x40000, rwk := 0x1FFFFF, dom := .block },
    { id := .tileFence, off := 0x3800, stride := 0x4, count := 64, reset := 0x0, dom := .block },
    { id := .mcCfg, off := 0x4000, stride := 0x0, count := 1, reset := 0x3, rw := 0x3F, dom := .block },
    { id := .mcStatus, off := 0x4004, stride := 0x0, count := 1, reset := 0x0, w1c := 0xFF, dom := .block },
    { id := .mcErrcnt, off := 0x4008, stride := 0x0, count := 1, reset := 0x0, rc := 0xFFFFFFFF, dom := .block },
    { id := .mcLasterr, off := 0x400C, stride := 0x0, count := 1, reset := 0x0, dom := .block },
    { id := .mcOps, off := 0x4010, stride := 0x0, count := 1, reset := 0x0, rc := 0xFFFFFFFF, dom := .block },
    { id := .mcCycLo, off := 0x4018, stride := 0x0, count := 1, reset := 0x0, dom := .block },
    { id := .mcCycHi, off := 0x401C, stride := 0x0, count := 1, reset := 0x0, dom := .block },
    { id := .veCfg, off := 0x5000, stride := 0x0, count := 1, reset := 0x1, rw := 0x1, dom := .block } ]

/-- Registers of the BLK[g,b] window, tiles apart. -/
def blockRegs1 : List RegDesc :=
  [ { id := .veStatus, off := 0x5004, stride := 0x0, count := 1, reset := 0x0, w1c := 0x7FFF, dom := .block },
    { id := .veTrap0, off := 0x5008, stride := 0x0, count := 1, reset := 0x0, dom := .block },
    { id := .veTrap1, off := 0x500C, stride := 0x0, count := 1, reset := 0x0, dom := .block },
    { id := .veTrap2, off := 0x5010, stride := 0x0, count := 1, reset := 0x0, dom := .block },
    { id := .veTrap3, off := 0x5014, stride := 0x0, count := 1, reset := 0x0, dom := .block },
    { id := .veEpslot, off := 0x5020, stride := 0x4, count := 8, reset := 0x0, rw := 0x801F03FF, dom := .block },
    { id := .veErrcnt, off := 0x5040, stride := 0x0, count := 1, reset := 0x0, rc := 0xFFFFFFFF, dom := .block },
    { id := .veInsnLo, off := 0x5048, stride := 0x0, count := 1, reset := 0x0, dom := .block },
    { id := .veInsnHi, off := 0x504C, stride := 0x0, count := 1, reset := 0x0, dom := .block },
    { id := .vePstore, off := 0x6000, stride := 0x4, count := 2048, reset := 0x0, rw := 0xFFFFFFFF, dom := .block },
    { id := .bsStatus, off := 0x1000, stride := 0x0, count := 1, reset := 0x5F00000, w1c := 0x3, dom := .block },
    { id := .bsErrcnt, off := 0x1004, stride := 0x0, count := 1, reset := 0x0, rc := 0xFFFFFFFF, dom := .block },
    { id := .bsConflict, off := 0x1008, stride := 0x0, count := 1, reset := 0x0, rc := 0xFFFFFFFF, dom := .block },
    { id := .ccVal, off := 0xC000, stride := 0x4, count := 64, reset := 0x0, rw := 0xFFFF, w1c := 0x70000, dom := .block },
    { id := .ccCtl, off := 0xC100, stride := 0x4, count := 64, reset := 0x0, rwk := 0x1FFFFFFF, dom := .block },
    { id := .ccDrift, off := 0xC200, stride := 0x4, count := 64, reset := 0x0, dom := .block } ]

/-- Registers of the BLK[g,b] window, tiles apart. -/
def blockRegs2 : List RegDesc :=
  [ { id := .clEn, off := 0xC300, stride := 0x0, count := 1, reset := 0x0, rwk := 0xFFFFFFFF, dom := .block },
    { id := .seqStatus, off := 0xC304, stride := 0x0, count := 1, reset := 0x0, w1c := 0x3000000, dom := .block },
    { id := .seqWin, off := 0xC308, stride := 0x0, count := 1, reset := 0x0, rwk := 0x1, w1c := 0x4, dom := .block },
    { id := .seqTok, off := 0xC30C, stride := 0x0, count := 1, reset := 0x0, dom := .block },
    { id := .redCfg, off := 0x800, stride := 0x0, count := 1, reset := 0x4000, rwk := 0xFF01, dom := .block },
    { id := .redStatus, off := 0x804, stride := 0x0, count := 1, reset := 0x0, w1c := 0x3, dom := .block },
    { id := .redCnt, off := 0x808, stride := 0x0, count := 1, reset := 0x0, rc := 0xFFFFFFFF, dom := .block } ]

/-- Registers of the BLK[g,b] window, tiles apart. -/
def blockRegs : List RegDesc := blockRegs0 ++ blockRegs1 ++ blockRegs2

/-- Registers of the RGN[g] common window (offsets within it). -/
def regionRegs : List RegDesc :=
  [ { id := .raCfg, off := 0x2000, stride := 0x0, count := 1, reset := 0x64, rw := 0xFFFF, dom := .region },
    { id := .raStatus, off := 0x2004, stride := 0x0, count := 1, reset := 0x0, w1c := 0x70000, dom := .region },
    { id := .raHbm, off := 0x2008, stride := 0x0, count := 1, reset := 0xBE00BE00, dom := .region },
    { id := .raLasterr, off := 0x200C, stride := 0x0, count := 1, reset := 0x0, dom := .region },
    { id := .raLasthdl, off := 0x2010, stride := 0x0, count := 1, reset := 0x0, dom := .region },
    { id := .hbmStatus, off := 0x3000, stride := 0x0, count := 1, reset := 0x0, w1c := 0x7, dom := .region },
    { id := .hbmErrcnt, off := 0x3004, stride := 0x0, count := 1, reset := 0x0, rc := 0xFFFFFFFF, dom := .region },
    { id := .hbmScrub, off := 0x3008, stride := 0x0, count := 1, reset := 0x18, rw := 0xFF, dom := .region },
    { id := .ptCfg, off := 0x4000, stride := 0x0, count := 1, reset := 0xFA03458, rwk := 0xFFFFFFFF, dom := .region },
    { id := .ptStatus, off := 0x4004, stride := 0x0, count := 1, reset := 0x0, dom := .region },
    { id := .aggCfg, off := 0x5000, stride := 0x0, count := 1, reset := 0xA, rw := 0xFF, dom := .region },
    { id := .aggStatus, off := 0x5004, stride := 0x0, count := 1, reset := 0x0, rc := 0xFFFFFFFF, dom := .region },
    { id := .rgnInfo, off := 0x0, stride := 0x0, count := 1, reset := 0x0, dom := .region },
    { id := .rcStatus, off := 0x4, stride := 0x0, count := 1, reset := 0x0, dom := .region } ]

/-- Registers of physical link port p (its 0x1_0000 window). -/
def linkRegs : List RegDesc :=
  [ { id := .linkCfg, off := 0x0, stride := 0x0, count := 1, reset := 0x30A00, rwk := 0xFFF1F, dom := .link },
    { id := .lpStatus, off := 0x100, stride := 0x100, count := 2, reset := 0x0, w1c := 0x1F0000, dom := .link },
    { id := .lpPeer, off := 0x104, stride := 0x100, count := 2, reset := 0x0, dom := .link },
    { id := .lpPeerEpoch, off := 0x108, stride := 0x100, count := 2, reset := 0x0, dom := .link },
    { id := .lpPeerPrefixLo, off := 0x10C, stride := 0x100, count := 2, reset := 0x0, dom := .link },
    { id := .lpPeerPrefixHi, off := 0x110, stride := 0x100, count := 2, reset := 0x0, dom := .link },
    { id := .lpErrcnt, off := 0x114, stride := 0x100, count := 2, reset := 0x0, rc := 0xFFFFFFFF, dom := .link },
    { id := .lpFec, off := 0x118, stride := 0x100, count := 2, reset := 0x0, rc := 0xFFFFFFFF, dom := .link },
    { id := .lpDelay, off := 0x11C, stride := 0x100, count := 2, reset := 0x0, dom := .link } ]

/-- Registers of mailbox m (its 0x1_0000 window). -/
def mailboxRegs : List RegDesc :=
  [ { id := .mbDoorbell, off := 0x0, stride := 0x0, count := 1, reset := 0x0, wo := 0x1, dom := .chip },
    { id := .mbStatus, off := 0x4, stride := 0x0, count := 1, reset := 0x0, w1c := 0x18, dom := .chip } ]

/-- Registers at chip-level BAR0 offsets, the power window included. -/
def chipRegs0 : List RegDesc :=
  [ { id := .numMode, off := 0x4000, stride := 0x40, count := 64, reset := 0x7D00104, rw := 0xFFFF03FF, dom := .chip },
    { id := .numStatus, off := 0x4004, stride := 0x40, count := 64, reset := 0x0, rwk := 0x10000, w1c := 0x1F, dom := .chip },
    { id := .numLscale, off := 0x4008, stride := 0x40, count := 64, reset := 0x10, rw := 0xFFFF003F, dom := .chip },
    { id := .numSkipcnt, off := 0x400C, stride := 0x40, count := 64, reset := 0x0, rc := 0xFFFFFFFF, dom := .chip },
    { id := .numNancnt, off := 0x4010, stride := 0x40, count := 64, reset := 0x0, rc := 0xFFFFFFFF, dom := .chip },
    { id := .nanTrap0, off := 0x4014, stride := 0x40, count := 64, reset := 0x0, dom := .chip },
    { id := .nanTrap1, off := 0x4018, stride := 0x40, count := 64, reset := 0x0, dom := .chip },
    { id := .nanTrap2, off := 0x401C, stride := 0x40, count := 64, reset := 0x0, dom := .chip },
    { id := .nanTrap3, off := 0x4020, stride := 0x40, count := 64, reset := 0x0, dom := .chip },
    { id := .zgwTensor, off := 0x10000, stride := 0x10, count := 4096, reset := 0x0, rw := 0xFFFFFFFF, dom := .chip },
    { id := .zgwCfg, off := 0x10004, stride := 0x10, count := 4096, reset := 0x400014, rw := 0xFFFF0FFF, dom := .chip },
    { id := .zgwRun, off := 0x10008, stride := 0x10, count := 4096, reset := 0x0, dom := .chip },
    { id := .zgwNz, off := 0x1000C, stride := 0x10, count := 4096, reset := 0x0, dom := .chip },
    { id := .tsSporeKey0, off := 0x5000, stride := 0x40, count := 64, reset := 0x0, rw := 0xFFFFFFFF, dom := .chip },
    { id := .tsSporeKey1, off := 0x5004, stride := 0x40, count := 64, reset := 0x0, rw := 0xFFFFFFFF, dom := .chip },
    { id := .tsSporeStep, off := 0x5008, stride := 0x40, count := 64, reset := 0x0, rw := 0xFFFFFFFF, dom := .chip } ]

/-- Registers at chip-level BAR0 offsets, the power window included. -/
def chipRegs1 : List RegDesc :=
  [ { id := .tsActCfg, off := 0x500C, stride := 0x40, count := 64, reset := 0x122, rw := 0x1FF, dom := .chip },
    { id := .tsNormCfg, off := 0x5010, stride := 0x40, count := 64, reset := 0x0, rw := 0x3, dom := .chip },
    { id := .tsClip, off := 0x5014, stride := 0x40, count := 64, reset := 0x3F800000, rw := 0xFFFFFFFF, dom := .chip },
    { id := .tsActStatus, off := 0x5018, stride := 0x40, count := 64, reset := 0x0, w1c := 0x7, dom := .chip },
    { id := .tsActStallcnt, off := 0x501C, stride := 0x40, count := 64, reset := 0x0, rc := 0xFFFFFFFF, dom := .chip },
    { id := .tsClipfact, off := 0x5020, stride := 0x40, count := 64, reset := 0x3F800000, dom := .chip },
    { id := .hwinBaseLo, off := 0x6000, stride := 0x10, count := 16, reset := 0x0, rwk := 0xFFE00000, dom := .chip },
    { id := .hwinBaseHi, off := 0x6004, stride := 0x10, count := 16, reset := 0x0, rwk := 0xFFFFFFFF, dom := .chip },
    { id := .hwinSize, off := 0x6008, stride := 0x10, count := 16, reset := 0x0, rwk := 0x7FFFF, dom := .chip },
    { id := .hwinCtl, off := 0x600C, stride := 0x10, count := 16, reset := 0x0, rwk := 0x1FF, dom := .chip },
    { id := .ptReserve, off := 0x20000, stride := 0x0, count := 1, reset := 0xC80, rwk := 0xFFFF, dom := .chip },
    { id := .clMparrive, off := 0x20010, stride := 0x0, count := 1, reset := 0x0, rwk := 0xFFFFFFFF, dom := .chip },
    { id := .clCfg, off := 0x20100, stride := 0x8, count := 32, reset := 0x0, rwk := 0x3FF, dom := .chip },
    { id := .clStatus, off := 0x20104, stride := 0x8, count := 32, reset := 0x0, dom := .chip },
    { id := .route, off := 0x30000, stride := 0x4, count := 4096, reset := 0x0, rw := 0xFFFFFFFF, dom := .chip },
    { id := .fabId, off := 0x34000, stride := 0x0, count := 1, reset := 0x0, rwk := 0x3FFF, dom := .chip } ]

/-- Registers at chip-level BAR0 offsets, the power window included. -/
def chipRegs2 : List RegDesc :=
  [ { id := .fabCfg, off := 0x34004, stride := 0x0, count := 1, reset := 0x12805, rwk := 0x3FFFF, dom := .chip },
    { id := .fabTo, off := 0x34008, stride := 0x0, count := 1, reset := 0x3E80064, rwk := 0xFFFFFFFF, dom := .chip },
    { id := .cfgEpoch, off := 0x34010, stride := 0x0, count := 1, reset := 0x0, dom := .chip },
    { id := .fabErrcnt, off := 0x34014, stride := 0x0, count := 1, reset := 0x0, rc := 0xFFFFFFFF, dom := .chip },
    { id := .cfgDigest, off := 0x34020, stride := 0x4, count := 12, reset := 0x0, dom := .chip },
    { id := .timeLo, off := 0x34080, stride := 0x0, count := 1, reset := 0x0, dom := .chip },
    { id := .timeHi, off := 0x34084, stride := 0x0, count := 1, reset := 0x0, dom := .chip },
    { id := .timeCfg, off := 0x34088, stride := 0x0, count := 1, reset := 0x800, rwk := 0xFF7F, dom := .chip },
    { id := .timeStatus, off := 0x3408C, stride := 0x0, count := 1, reset := 0x0, w1c := 0xC, dom := .chip },
    { id := .fhState, off := 0x40000, stride := 0x0, count := 1, reset := 0x0, dom := .chip },
    { id := .fhCfg, off := 0x40004, stride := 0x0, count := 1, reset := 0x180A, rwk := 0xFFFF, dom := .chip },
    { id := .rjStatus, off := 0x40008, stride := 0x0, count := 1, reset := 0x0, dom := .chip },
    { id := .rjSupcnt, off := 0x41000, stride := 0x0, count := 1, reset := 0x0, rc := 0xFFFFFFFF, dom := .chip },
    { id := .xfDbell, off := 0x50000, stride := 0x10, count := 64, reset := 0x0, rw := 0xFFFFFFFF, dom := .chip },
    { id := .xfCtl, off := 0x50004, stride := 0x10, count := 64, reset := 0x3E8, rw := 0xFFFF, dom := .chip },
    { id := .xfStatus, off := 0x50008, stride := 0x10, count := 64, reset := 0x0, w1c := 0x7, dom := .chip } ]

/-- Registers at chip-level BAR0 offsets, the power window included. -/
def chipRegs3 : List RegDesc :=
  [ { id := .ucieStatus, off := 0x51000, stride := 0x0, count := 1, reset := 0x0, w1c := 0x300, dom := .chip },
    { id := .ucieErrcnt, off := 0x51004, stride := 0x0, count := 1, reset := 0x0, rc := 0xFFFFFFFF, dom := .chip },
    { id := .chipId, off := 0x0, stride := 0x0, count := 1, reset := 0xB17208, dom := .chip },
    { id := .chipSerialLo, off := 0x8, stride := 0x0, count := 1, reset := 0x0, dom := .chip },
    { id := .chipSerialHi, off := 0xC, stride := 0x0, count := 1, reset := 0x0, dom := .chip },
    { id := .chipUnlock, off := 0x10, stride := 0x0, count := 1, reset := 0x0, wo := 0xFFFF, dom := .chip },
    { id := .chipLock, off := 0x14, stride := 0x0, count := 1, reset := 0x0, w1c := 0x10000, dom := .chip },
    { id := .bcastSel, off := 0x20, stride := 0x0, count := 1, reset := 0x0, rw := 0x77, dom := .chip },
    { id := .bcastGrp0, off := 0x40, stride := 0x0, count := 1, reset := 0xFFFFFFFF, dom := .chip },
    { id := .bcastGrp, off := 0x44, stride := 0x4, count := 7, reset := 0x0, rw := 0xFFFFFFFF, dom := .chip },
    { id := .bcastStatus, off := 0x60, stride := 0x0, count := 1, reset := 0x0, dom := .chip },
    { id := .regErr, off := 0x80, stride := 0x0, count := 1, reset := 0x0, w1c := 0x1, dom := .chip },
    { id := .regErrAddr, off := 0x84, stride := 0x0, count := 1, reset := 0x0, dom := .chip },
    { id := .regErrcnt, off := 0x88, stride := 0x0, count := 1, reset := 0x0, rc := 0xFFFFFFFF, dom := .chip },
    { id := .pwrInput, off := 0x300000, stride := 0x0, count := 1, reset := 0x0, dom := .power },
    { id := .pwrPower, off := 0x300004, stride := 0x0, count := 1, reset := 0x0, dom := .power } ]

/-- Registers at chip-level BAR0 offsets, the power window included. -/
def chipRegs4 : List RegDesc :=
  [ { id := .pwrCap, off := 0x300008, stride := 0x0, count := 1, reset := 0x2800CE4, rwk := 0xFFFFFFFF, dom := .power },
    { id := .pwrStatus, off := 0x30000C, stride := 0x0, count := 1, reset := 0x3C00F0, w1c := 0x6, dom := .power },
    { id := .railCtl, off := 0x310000, stride := 0x1000, count := 16, reset := 0x28A0000, rwk := 0x3FF0001, dom := .power },
    { id := .railMin, off := 0x310004, stride := 0x1000, count := 16, reset := 0xFFFF, w1s := 0x80000000, dom := .power },
    { id := .railMinTLo, off := 0x310008, stride := 0x1000, count := 16, reset := 0x0, dom := .power },
    { id := .railMinTHi, off := 0x31000C, stride := 0x1000, count := 16, reset := 0x0, dom := .power },
    { id := .railI, off := 0x310010, stride := 0x1000, count := 16, reset := 0x0, dom := .power },
    { id := .thermStatus, off := 0x320000, stride := 0x1000, count := 16, reset := 0xF00000, w1c := 0x30000, dom := .power },
    { id := .thermCfg, off := 0x320004, stride := 0x1000, count := 16, reset := 0x35F, rwk := 0xFFF, dom := .power },
    { id := .clkTarget, off := 0x330000, stride := 0x100, count := 256, reset := 0x30, rwk := 0x13F, dom := .power },
    { id := .clkStatus, off := 0x330004, stride := 0x100, count := 256, reset := 0x0, w1c := 0x10000, dom := .power },
    { id := .clkStretch, off := 0x330008, stride := 0x100, count := 256, reset := 0x0, rc := 0xFFFFFFFF, dom := .power },
    { id := .coolTemp, off := 0x340000, stride := 0x0, count := 1, reset := 0x0, dom := .power },
    { id := .coolFlow, off := 0x340004, stride := 0x0, count := 1, reset := 0x0, w1c := 0x30000, dom := .power },
    { id := .calCfg, off := 0x350000, stride := 0x0, count := 1, reset := 0xC001E, rwk := 0x1F01FF, dom := .power },
    { id := .calRstatus, off := 0x350100, stride := 0x10, count := 16, reset := 0x0, w1c := 0x18, w1s := 0x20, dom := .power } ]

/-- Registers at chip-level BAR0 offsets, the power window included. -/
def chipRegs5 : List RegDesc :=
  [ { id := .calRtemp, off := 0x350104, stride := 0x10, count := 16, reset := 0x0, dom := .power },
    { id := .calRuns, off := 0x350108, stride := 0x10, count := 16, reset := 0x0, rc := 0xFFFFFFFF, dom := .power } ]

/-- Registers at chip-level BAR0 offsets, the power window included. -/
def chipRegs : List RegDesc := chipRegs0 ++ chipRegs1 ++ chipRegs2 ++ chipRegs3 ++ chipRegs4 ++ chipRegs5


/-- The MSI-X table (0x007_0000, 73 entries) and its pending bits (0x007_8000), spec/14 and R491. The
spec names no fields; the layout and the masked-at-reset bit are the PCI family's (PRESUMED). -/
def msixRegs : List RegDesc :=
  [ { id := .msixAddrLo, off := 0x70000, stride := 0x10, count := 73, reset := 0, rw := 0xFFFFFFFC, dom := .chip },
    { id := .msixAddrHi, off := 0x70004, stride := 0x10, count := 73, reset := 0, rw := 0xFFFFFFFF, dom := .chip },
    { id := .msixData, off := 0x70008, stride := 0x10, count := 73, reset := 0, rw := 0xFFFFFFFF, dom := .chip },
    { id := .msixCtl, off := 0x7000C, stride := 0x10, count := 73, reset := 1, rw := 1, dom := .chip },
    { id := .msixPba, off := 0x78000, stride := 4, count := 4, reset := 0, dom := .chip } ]

/-- A register of the device: its row, its unit (region g, block g × 16 + b, global tile ID, physical
port or mailbox; 0 for chip registers) and its index in the row. -/
structure RegRef where
  desc : RegDesc
  unit : Nat
  idx  : Nat
  deriving DecidableEq, Repr

/-- The row that holds offset x of a window, with the word's index. -/
def findDesc (x : Nat) : List RegDesc → Option (RegDesc × Nat)
  | [] => none
  | d :: ds =>
    let i := if d.stride = 0 then 0 else (x - d.off) / d.stride
    if d.off ≤ x ∧ i < d.count ∧ d.off + i * d.stride = x then some (d, i) else findDesc x ds

def mkRef (unit : Nat) (r : Option (RegDesc × Nat)) : Option RegRef :=
  r.map fun (d, i) => { desc := d, unit := unit, idx := i }

/-- The register at offset x of the region window of region g (R492). -/
def regAtRegion (g x : Nat) : Option RegRef :=
  if x < 0x100000 then mkRef g (findDesc x regionRegs)
  else
    let b := (x - 0x100000) / 0x10000
    let y := x % 0x10000
    if 0x8000 ≤ y ∧ y < 0xC000 then
      mkRef (g * 1024 + b * 64 + (y - 0x8000) / 0x100) (findDesc (y % 0x100) tileRegs)
    else mkRef (g * 16 + b) (findDesc y blockRegs)

/-- The register at a BAR0 offset, if the location is implemented (R491, R492). Message areas and
broadcast windows hold no register. -/
def regAt (a : Nat) : Option RegRef :=
  if 0x2000000 ≤ a then
    if a < 0x4000000 then regAtRegion ((a - 0x2000000) / 0x200000) (a % 0x200000) else none
  else if 0x200000 ≤ a ∧ a < 0x300000 then
    mkRef ((a - 0x200000) / 0x10000) (findDesc (a % 0x10000) linkRegs)
  else if 0x100000 ≤ a ∧ a < 0x200000 then
    mkRef ((a - 0x100000) / 0x10000) (findDesc (a % 0x10000) mailboxRegs)
  else if 0x70000 ≤ a ∧ a < 0x80000 then mkRef 0 (findDesc a msixRegs)
  else mkRef 0 (findDesc a chipRegs)

/-- The reset value of the register at a BAR0 offset (0 where there is none). -/
def regReset (a : Nat) : Word :=
  match regAt a with
  | none => 0
  | some r =>
    match r.desc.id with
    | .chipSerialLo => Config.serial.truncate 32
    | .chipSerialHi => (Config.serial >>> 32).truncate 32
    | .rgnInfo => BitVec.ofNat 32 r.unit
    | .redCfg => BitVec.ofNat 32 (r.desc.reset + r.unit % 2 * 2)
    | _ => BitVec.ofNat 32 r.desc.reset

/-! BAR0 offsets of the registers of one unit (R492). -/

def blockBase (b : Nat) : Nat := 0x2100000 + b / 16 * 0x200000 + b % 16 * 0x10000
def blockReg (b x : Nat) : Nat := blockBase b + x
def tileReg (t x : Nat) : Nat := blockBase (t / 64) + 0x8000 + t % 64 * 0x100 + x
def regionReg (g x : Nat) : Nat := 0x2000000 + g * 0x200000 + x
/-- TIER_UPKEEP of a tile-tier unit ID (global tile ID × 8 + k). -/
def tierReg (u : Nat) : Nat := blockReg (u / 512) (0x3000 + u % 512 * 4)
def numReg (j x : Nat) : Nat := 0x4000 + j * 0x40 + x
def tsReg (j x : Nat) : Nat := 0x5000 + j * 0x40 + x
def hwinReg (w x : Nat) : Nat := 0x6000 + w * 0x10 + x
def zgwReg (e x : Nat) : Nat := 0x10000 + e * 0x10 + x
def clReg (l x : Nat) : Nat := 0x20100 + l * 8 + x
def xfReg (j x : Nat) : Nat := 0x50000 + j * 0x10 + x
def mbReg (m x : Nat) : Nat := 0x100000 + m * 0x10000 + x
def linkReg (p x : Nat) : Nat := 0x200000 + p * 0x10000 + x
/-- Register x of logical port h (offsets from the port's 0x100 area). -/
def lportReg (h x : Nat) : Nat := 0x200000 + h / 2 * 0x10000 + 0x100 + h % 2 * 0x100 + x
def railReg (g x : Nat) : Nat := 0x310000 + g * 0x1000 + x
def thermReg (g x : Nat) : Nat := 0x320000 + g * 0x1000 + x
def clkReg (b x : Nat) : Nat := 0x330000 + b * 0x100 + x
def calReg (g x : Nat) : Nat := 0x350100 + g * 0x10 + x

/-- Bits [hi:lo] of a word value. -/
def fld (n hi lo : Nat) : Nat := n / 2 ^ lo % 2 ^ (hi + 1 - lo)

def inR (n lo hi : Nat) : Bool := lo ≤ n && n ≤ hi

/-- A loss-scale exponent, i6, lies in −8 to 24 (NUM_MODE.LS_INIT, NUM_LSCALE.EXP). -/
def lsExpOk (n : Nat) : Bool := n ≤ 24 || 56 ≤ n

/-- Check 6 of R497 (R97, R496): the value v written to a register of kind `id` sets no reserved
encoding in any field that the register's section restricts. -/
def encOk (id : RegId) (v : Nat) : Bool :=
  match id with
  | .tileCfg => inR (fld v 2 0) 1 5
  | .tileBudget => inR (fld v 10 0) 15 1920
  | .tileArb => inR (fld v 3 0) 1 15 && inR (fld v 6 4) 1 7
  | .ceCfg => inR (fld v 3 0) 8 15 && inR (fld v 9 4) 2 32 && inR (fld v 15 10) 4 63 &&
      inR (fld v 21 16) 8 63 && fld v 24 22 != 0
  | .ceHr => fld v 15 0 != 0
  | .ceLimits => inR (fld v 15 0) 1 60000
  | .tierUpkeep => fld v 18 16 ≤ 5
  | .numMode => lsExpOk (fld v 9 4) && fld v 31 16 != 0
  | .numLscale => lsExpOk (fld v 5 0)
  | .zgwCfg => inR (fld v 5 1) 1 24 && fld v 31 16 != 0
  | .tsActCfg => inR (fld v 7 4) 1 8
  | .tsNormCfg => fld v 0 0 = 1 || fld v 1 1 = 0
  | .tsClip => 0 < v && v < 0x7F800000
  | .raCfg => inR (fld v 15 0) 1 60000
  | .hbmScrub => inR (fld v 7 0) 4 168
  | .hwinSize => fld v 18 0 ≤ 262144
  | .hwinCtl => fld v 2 1 != 3
  | .ptCfg => fld v 15 0 != 0 && inR (fld v 31 16) 8 (fld v 15 0)
  | .linkCfg => (fld v 2 2 = 1 || fld v 1 1 = 0) && fld v 4 3 ≤ 1 && fld v 15 8 != 0 && fld v 19 16 != 0
  | .fabCfg => inR (fld v 7 0) 1 50 && inR (fld v 11 8) 2 15
  | .fabTo => inR (fld v 15 0) 1 60000 && inR (fld v 31 16) 1 60000
  | .timeCfg => fld v 15 8 != 0
  | .fhCfg => fld v 7 0 != 0 && inR (fld v 15 8) 1 168
  | .aggCfg => fld v 7 0 != 0
  | .xfCtl => inR (fld v 15 0) 1 60000
  | .pwrCap => inR (fld v 15 0) 1000 3300 && inR (fld v 31 16) 100 640
  | .railCtl => inR (fld v 25 16) 550 850
  | .thermCfg => inR (fld v 7 0) 80 100 && inR (fld v 11 8) 1 10
  | .clkTarget => inR (fld v 5 0) 24 60
  | .calCfg => inR (fld v 7 0) 5 200 && inR (fld v 20 16) 4 31
  | _ => true

end Sys2Proof.Machine
end

