-- ==== Sys2Proof/Machine/State.lean ====
section
/-!
DEFINITION. Sys2Proof/Machine/State.lean: the state of the KLG-7208-L as plain data: everything the spec
gives the device, the queue of waiting commands, the reasons a command has no next state, and the state
after reset.
-/
namespace Sys2Proof.Machine

/-- A sparse store: pairs of a key and a value in ONE canonical form, keys strictly rising and no
entry equal to what an unlisted key reads as (`SMap.wf`, Ops.lean). -/
abbrev SMap (α : Type) := List (Nat × α)

/-- Who made a task: job slot, task ID, step number stamped at delivery (R312), and the sequencer's
own number of the running task (0 when the work belongs to no task). -/
structure TaskRef where
  job  : Nat
  id   : Nat
  step : Nat
  num  : Nat
  deriving DecidableEq, Repr

/-! ### Tiles (spec/02, spec/03, spec/04) -/

/-- One planned phase: a row group for one slice (R67), with (line, slice value) pairs. `retry` marks a
retry or re-run phase; `lin` is the check re-run it belongs to (R83, R87), 0 for none. -/
structure Phase where
  high  : Bool
  neg   : Bool
  lines : List (Nat × Nat)
  retry : Bool
  lin   : Nat
  deriving DecidableEq, Repr

/-- A queued tile read request: its 16 bytes as one number (spec/03, "Read requests"); `ds`: one half of a
double-slice request (R75). -/
structure ReadReq where
  req  : Nat
  ds   : Bool
  task : TaskRef
  deriving DecidableEq, Repr

/-- A check re-run under way (R83 to R87): its groups still to pass, whether one has failed again, and the
check sets that failed in the first run. -/
structure Rerun where
  id   : Nat
  left : Nat
  bad  : Bool
  sets : List Nat
  deriving DecidableEq, Repr

/-- The read in progress: the request, TILE_CFG and TILE_BUDGET as they stood at its request boundary, E, the phases
still to run (the head is in flight), the partial sums, and the counts and flags of the output record. -/
structure ReadRun where
  req       : ReadReq
  cfg       : Nat
  budget    : Nat
  exp       : Int
  todo      : List Phase
  sums      : SMap Int
  phases    : Nat
  retries   : Nat
  flags     : Nat
  reruns    : List Rerun
  nextLin   : Nat
  zero      : Bool       -- no phase was planned (R68)
  deriving DecidableEq, Repr

/-- Queued carries of one row of one tier: the epoch tag (none for a repair of a tensor no job
writes, R115), the writing job, and the code change of each pair (R119). -/
structure RowCarry where
  tier    : Nat
  row     : Nat
  tag     : Option Nat
  job     : Option Nat
  changes : SMap Int
  deriving DecidableEq, Repr

/-- Where a row's program-and-verify stands (R119). -/
inductive RowStage where
  | fullRounds | verify | trimRound
  deriving DecidableEq, Repr

/-- The row under program-and-verify (R117, R119): a carry, or a fresh write when `fresh`, of the records that belong to
the tier `src` (of a coppice into a free tier, the old one). -/
structure RowRun where
  carry   : RowCarry
  fresh   : Bool
  src     : Nat
  stage   : RowStage
  rounds  : Nat
  done    : Nat
  trims   : Nat
  blocked : List Nat
  bad     : List Nat                -- pairs of invalid or poisoned records (R603)
  vals    : List (Nat × Int × Nat)  -- last verify: pair, value in 1/64 step, level of the lower cell
  deriving DecidableEq, Repr

/-- What firmware is doing to a tier (R126, R127, R130, R134, R136). -/
inductive ProcKind where
  | load | adopt | sweep | coppiceFree (newTier : Nat) | coppiceInPlace
  deriving DecidableEq, Repr

/-- Stages of a tier procedure. -/
inductive ProcStage where
  | sweeping | erasing | erased | writing | swapping | finished
  deriving DecidableEq, Repr

/-- A tier procedure in progress on a tile, with its next row and its counts. -/
structure TierProc where
  kind   : ProcKind
  tier   : Nat
  stage  : ProcStage
  row    : Nat
  exc    : Nat        -- exceptions found (R133, R136)
  low    : Nat        -- rows with a lower cell at HR_LOW or below (R136)
  pulses : Nat        -- erase sub-pulses applied
  extra  : Nat        -- further sub-pulses of R35
  verify : Bool       -- an erase verify is due
  skip   : Bool       -- the sweep-read is omitted (R136, DORMANT tiers)
  rows   : List Nat   -- rows with exceptions of an adoption sweep, repaired when it passes
  deriving DecidableEq, Repr

/-- One tile: queues, running work, arbitration state, fence counters (R111 to R114), calibration. -/
structure Tile where
  readQ    : List ReadReq
  read     : Option ReadRun
  carries  : List RowCarry
  row      : Option RowRun
  procs    : List TierProc
  calLeft  : Nat                 -- calibration measurements still queued (R559)
  curTier  : Nat
  readsSinceCredit : Nat         -- R91
  credits  : Nat                 -- R91
  upkNext  : Bool                -- round-robin pointer of R92
  serve    : Bool                -- the head request was held and its carries or row have ended: it is served next (R93, R94)
  fence    : List Nat            -- open counters by epoch mod 4 (R111)
  fenceEp  : List Nat            -- the epoch each counter counts
  fenceMs  : Nat                 -- how long carries have waited on an unsatisfied fence (R118)
  tempHold : Bool                -- R42
  holdTold : Bool                -- event 0x0124 raised in this hold (R43)
  tokens   : Bool                -- the tile holds its 8 tokens (R326)
  deriving DecidableEq, Repr

def Tile.init : Tile :=
  { readQ := [], read := none, carries := [], row := none, procs := [], calLeft := 0, curTier := 0,
    readsSinceCredit := 0, credits := 0, upkNext := false, serve := false, fence := [0, 0, 0, 0], fenceEp := [0, 0, 0, 0], fenceMs := 0,
    tempHold := false, holdTold := false, tokens := false }

/-- What a tile tier holds, by its residency record (R53, R135, R140), and its erase history. -/
structure TierInfo where
  tensor   : Option Nat
  piece    : Nat
  dslice   : Bool
  rows     : Nat
  cols     : Nat
  sigma    : Int
  shadow   : Nat       -- byte address of the piece's shadow area in the home stack (R102)
  fold     : Nat       -- byte address of its fold area
  erases   : Nat       -- erase count of the ring journal (R411)
  eraseOpen : Bool     -- an erase start without its completion record (R58)
  lastErase : Bool     -- the last recorded operation was an erase (R134)
  sweepS   : Nat       -- seconds left in the tier's sweep interval (R130)
  deriving DecidableEq, Repr

def TierInfo.init : TierInfo :=
  { tensor := none, piece := 0, dslice := false, rows := 0, cols := 0, sigma := 0, shadow := 0,
    fold := 0, erases := 0, eraseOpen := false, lastErase := false, sweepS := 21600 }

/-! ### Matrix core (spec/05) -/

/-- A queued matrix-core request: its 32 bytes as one number (R141). -/
structure McReq where
  req  : Nat
  task : TaskRef
  slot : Nat           -- element-program slot of a chained request
  deriving DecidableEq, Repr

/-- How far a request whose updates are complete has come: its check pass is due, it awaits its write pass, its
output is being written, or an element program takes it. -/
inductive McStage where
  | checking | checked | writing | chained
  deriving DecidableEq, Repr

/-- A request whose bank is in use: accumulators by m × 128 + n as codes of the R148 format, the checksum row and
column and their magnitude sums, all in that format. -/
structure McRun where
  req     : McReq
  stage   : McStage
  cfg     : Nat          -- MC_CFG as it stood when the request started
  acc     : SMap Nat
  csRow   : SMap Nat
  csCol   : SMap Nat
  muRow   : SMap Nat
  muCol   : SMap Nat
  rerun   : Nat          -- 0 none, 1 after a residue failure, 2 after a checksum failure (R159, R164)
  nan     : Option (Nat × Nat × Nat)  -- (m, n, k) of the first NaN (R154)
  ovf     : Bool         -- an output conversion overflowed
  deriving DecidableEq, Repr

/-- The matrix core: its queue, and the requests that hold its two banks, oldest first (R143, R168). -/
structure MatCore where
  queue : List McReq
  runs  : List McRun
  bank  : Bool
  deriving DecidableEq, Repr

/-! ### Vector engine (spec/06) -/

/-- An active hardware loop (R191): first word, length, passes asked for, passes completed. -/
structure VeLoop where
  start : Nat
  len   : Nat
  total : Nat
  done  : Nat
  deriving DecidableEq, Repr

/-- The program the engine runs: of a VECTOR task, or the element program of a chained request, with
its chunk number q (R193). -/
structure VeRun where
  task     : TaskRef
  chain    : Bool
  chunk    : Nat
  entry    : Nat
  len      : Nat
  m        : Nat        -- rows and columns of the chained request (R194)
  n        : Nat
  kernel   : Bool       -- the program is a part of a fused kernel, whose formulas give what it stores (R244)
  undo     : List (Nat × List Byte × List Nat)  -- what the present chunk has overwritten: address, bytes, poison marks cleared
  denorm   : Bool
  deriving DecidableEq, Repr

structure VecEngine where
  v     : SMap Nat      -- lane (reg × 512 + r × 16 + c) to its 32 bits (R171)
  a     : SMap Nat      -- address registers, 17 bits, in lines
  s     : SMap Nat      -- scalar registers
  pc    : Nat
  loops : List VeLoop   -- innermost first, at most two
  ctr0  : Nat           -- loop counters as the trap registers report them
  ctr1  : Nat
  run   : Option VeRun
  cfg   : Nat           -- VE_CFG as it stood at the start of the task
  deriving DecidableEq, Repr

/-! ### Block sequencer (spec/10) -/

/-- The engines of a block (R318). -/
inductive Engine where
  | tile (t : Nat) | matrix | vector | mover0 | mover1 | carry | alloc | link | control
  deriving DecidableEq, Repr

/-- A delivered task: its 128-byte record as one number, with what delivery stamped on it (R312). -/
structure QTask where
  record : Nat
  job    : Nat
  step   : Nat
  epoch  : Nat
  stalled : Bool         -- already counted as held for its records (R270)
  waitMs  : Nat          -- how long an INGRESS has waited for its doorbell alone (R450)
  deriving DecidableEq, Repr

/-- A bound address of a task (R315): the memory of the handle it is bound to (POOL; block or region; base
byte, or base page for pool 0b010) and the offset in it. -/
structure BAddr where
  pool : Nat
  unit : Nat
  base : Nat
  off  : Nat
  deriving DecidableEq, Repr

/-- A task in an engine: its parts still outstanding, and how it stands. -/
structure RTask where
  task     : QTask
  num      : Nat
  engine   : Engine
  left     : Nat                -- parts (read requests, requests, programs) still to complete
  sent     : Nat                -- read requests of a TILE_READ task already at their tile (R62)
  poisoned : Bool
  handles  : List Nat           -- handles counted in INUSE
  addrs    : List BAddr         -- bound address fields, in order
  writes   : List (Nat × Nat × List Byte)  -- in a redundant pair: what it has written, as unit, byte address and the bytes that stood there (R398, R402)
  sumDi    : Int                -- sum of d_i of an UPDATE (R398)
  stream   : Nat                -- its rounding stream, and how many values it has taken (R213, R397)
  rng      : Nat
  redundant : Bool              -- runs in both blocks of a pair (R396)
  odd      : Bool               -- the odd block's copy
  reran    : Bool               -- re-run after a failed comparison (R402)
  first    : Bool               -- the first request of the step into its tie-group buffer (R258)
  passed   : Bool               -- the comparison passed or was decided (R401)
  arrived  : Bool               -- an ARRIVE that has arrived; false: held for the following release (R335)
  deriving DecidableEq, Repr

/-- One tile's completed half of a double-slice request, kept until the other is complete (R75). -/
structure DHalf where
  tile    : Nat
  req     : ReadReq
  exp     : Int
  flags   : Nat
  phases  : Nat
  retries : Nat
  sums    : SMap Int
  deriving DecidableEq, Repr

/-- What a verify or sweep of one row returned and the carry engine has still to fold (R121, R123, R131):
deviations of the verified values from the slice codes, by pair in 1/64 slice step, of the even (or only) tile
and of the odd tile; pairs blocked; pairs that do not fold. `half`: only that tile has reported so far of a
double-slice row. `sweep`: a sweep read reported, not a program-and-verify. -/
structure FoldReq where
  unit    : Nat       -- tile-tier unit of the piece (the even tile's for a double-slice piece)
  row     : Nat
  half    : Option Nat
  sweep   : Bool
  hi      : SMap Int
  lo      : SMap Int
  blocked : List Nat
  skip    : List Nat
  deriving DecidableEq, Repr

structure Block where
  queue    : List QTask
  running  : List RTask
  nextNum  : Nat
  mc       : MatCore
  ve       : VecEngine
  arrived  : List Nat           -- lines on which the block has arrived (R335)
  winWait  : Bool               -- issuing stopped for a test window (R339)
  rrEngine : Nat                -- round-robin pointer of R319
  halves   : List DHalf
  folds    : List FoldReq       -- rows of double-slice pieces one of whose tiles has reported
  deferred : List FoldReq       -- folds held until an image copy completes (R427) or the carry engine holds tokens (R326)
  deriving DecidableEq, Repr

/-! ### Memory and allocation (spec/09) -/

/-- States of a handle-table entry (spec/09, after R291). -/
inductive HState where
  | free | live | freeing | away
  deriving DecidableEq, Repr

/-- A handle-table entry. `fw` marks firmware ownership, `pager` an activation record. -/
structure HEntry where
  state : HState
  gen   : Nat
  pool  : Nat
  block : Nat
  base  : Nat
  pages : Nat
  job   : Nat
  fw    : Bool
  pager : Bool
  inuse : Nat
  away  : Bool          -- a pager record whose pages are in its window (R305)
  zeroing : Bool        -- an ALLOC with ZERO whose fill has not completed (R299); of an AWAY record: its prefetch has its pages (R306)
  deriving DecidableEq, Repr

def HEntry.init : HEntry :=
  { state := .free, gen := 0, pool := 0, block := 0, base := 0, pages := 0, job := 0, fw := false,
    pager := false, inuse := 0, away := false, zeroing := false }

/-- Who made an allocator request: a task of a block (global block ID and its running number), the
activation pager (with the record's handle), or firmware. -/
inductive AllocBy where
  | task (block num : Nat) | pager (handle : Nat) | firmware
  deriving DecidableEq, Repr

/-- An allocator request (spec/09, "Allocator request fields"), with its requester and the region
whose registers report it (R607). -/
structure AllocReq where
  op     : Nat
  pool   : Nat
  block  : Nat
  job    : Nat
  fw     : Bool
  pages  : Nat
  zero   : Bool
  wait   : Bool
  handle : Nat
  reg    : Nat          -- handle register written by an ALLOC task (R314)
  by_    : AllocBy
  region : Nat
  waitMs : Nat          -- how long it has been queued (R300)
  deriving DecidableEq, Repr

/-- The last response of an allocator: status code, handle, and for a QUERY the entry (R606). -/
structure AllocResp where
  status : Nat
  handle : Nat
  entry  : Option HEntry
  deriving DecidableEq, Repr

/-- One allocator: its handle table, the slot after its previous allocation, its queues (block stores 0
to 15, then 16 for the stack; the chip allocator uses queue 0) and its last response. -/
structure Allocator where
  table : SMap HEntry
  next  : Nat
  ptr   : Nat                     -- round-robin pointer over requesters, by block ID (R301)
  queues : SMap (List AllocReq)
  zeros : List (Nat × AllocReq)   -- handles being zero-filled, with their requests (R299)
  last  : AllocResp
  deriving DecidableEq, Repr

def Allocator.init : Allocator :=
  { table := [], next := 0, ptr := 0, queues := [], zeros := [], last := { status := 0, handle := 0, entry := none } }

/-! ### Training support (spec/08, spec/09) -/

/-- An activation record on its way (R268 to R273, R304 to R307): its handle, micro-batch, layer and
the window page index of each page. The page's CRC-32C and poison mark stand in the record's page list in the firmware area
(R304). -/
structure ActRec where
  handle : Nat
  job    : Nat
  region : Nat
  block  : Nat
  mb     : Nat
  layer  : Nat
  step   : Nat
  state  : Nat             -- 0 kept on chip, 1 offload running, 2 window full, 3 away, 4 prefetch running, 5 prefetch waits for pages, 6 offload running with its prefetch due (R271)
  pages  : List Nat        -- window page index of each page
  rereads : List Nat       -- pages read a second time (R272)
  bad    : List Nat        -- pages that failed twice
  deriving DecidableEq, Repr

/-- The arbiters of host traffic (R273), in 4 KiB transfers. -/
structure HostArb where
  off  : Nat   -- transfers that the offload which waits beside a gradient egress has had
  eg   : Nat   -- transfers that the gradient egress which waits beside an offload has had
  turn : Nat   -- whose turn it is: 0 the offloads', 1 the gradient egress'
  pre  : Nat   -- transfers of prefetches since the last of delta ingress, while both wait
  got  : Nat   -- those of them that the prefetch which still waits has had
  deriving DecidableEq, Repr

def HostArb.init : HostArb := { off := 0, eg := 0, turn := 0, pre := 0, got := 0 }

/-- The scrubber of a stack (R285): the next page of the interval, and the ms since the interval began. -/
structure Scrub where
  next : Nat
  ms   : Nat
  deriving DecidableEq, Repr

def Scrub.init : Scrub := { next := 0, ms := 0 }

/-- A tie-group buffer's count of one step (R258 to R260). -/
structure Tie where
  buf    : Nat             -- block-store byte address of the buffer in its block
  block  : Nat
  count  : Nat
  expect : Nat
  disp   : Nat             -- requests dispatched, and those of aborted micro-batches that never run
  begun  : Bool            -- a request of the step has been dispatched: later ones add (R258)
  step   : Nat
  deriving DecidableEq, Repr

/-! ### Faults (spec/12) -/

/-- A report of one event: code, unit kind and ID (R390), job slot (255 none), task ID, the number of occurrences it stands
for, and further words that the event carries (R237). -/
structure Report where
  code  : Nat
  kind  : Nat
  unit  : Nat
  job   : Nat
  task  : Nat
  count : Nat
  info  : List Nat := []
  deriving DecidableEq, Repr

/-- A journal record (R403): the fields the device computes; the magic number and the CRC-32C follow
from them. `detail` holds the bytes of DETAIL. -/
structure JRec where
  typ    : Nat
  cls    : Nat
  jclock : Nat
  seq    : Nat
  time   : Nat
  event  : Nat
  kind   : Nat
  unit   : Nat
  job    : Nat
  task   : Nat
  count  : Nat
  boots  : Nat
  detail : List Nat
  deriving DecidableEq, Repr

/-- The ring journal (R403 to R411): the programmed pages by erase block in ring order, the staged page,
and what firmware keeps in MP memory. -/
structure Journal where
  erased  : Nat                    -- free erase blocks
  blocks  : List (List (List JRec)) -- erase blocks in use, oldest first, each its programmed pages
  staged  : List JRec
  stagedMs : Nat                   -- ms since the first staged record
  nextSeq : Nat
  jclock  : Nat                    -- seconds
  msInSec : Nat
  inSec   : Nat                    -- EVENT records written in this second (R413)
  src     : List (Nat × Nat × Nat × Nat)  -- source counters: event, kind, unit, count
  others  : Nat
  hidden  : List (Nat × Nat × Nat) -- pages that the scan at BOOT did not find: erase block, first page, end (R51, R407)
  full    : Bool                   -- 0x0418 raised in this boot
  boots   : Nat
  hist    : List (Nat × Nat × Nat × Nat)  -- correctable history: kind, unit, jclock, event (R393, R395)
  warned  : List Nat               -- tiers whose 0x0120 was raised (R38)
  deriving DecidableEq, Repr

def Journal.init : Journal :=
  { erased := 768, blocks := [], staged := [], stagedMs := 0, nextSeq := 0, jclock := 0, msInSec := 0,
    inSec := 0, src := [], others := 0, hidden := [], full := false, boots := 0, hist := [], warned := [] }

/-! ### Links, fabric, collectives (spec/11, spec/17) -/

/-- What leaves the device, in the order it leaves. -/
inductive OutMsg where
  | hello (port : Nat) (payload : List Byte)
  | routed (port src dst cls hops seq tag : Nat) (payload : List Byte)
  | linkLocal (port src cls tag : Nat) (payload : List Byte)
  | unreachable (port dst hops tag : Nat)
  | credit (port vc n : Nat)
  | resent (port flits : Nat)
  | own (src cls tag : Nat) (payload : List Byte)
  | timeMsg (port : Nat)
  | mctp (dst : Nat) (payload : List Byte)
  | msix (vector : Nat)
  | cxlRead (data : List Byte) (poison : Bool)
  | cxlSnoop
  | regRead (value : Nat) (abort : Bool)
  | regWrite (abort : Bool)
  | alert (on : Bool)
  | replaceMe (on : Bool)
  | chdr (port dst hops seq : Nat) (h : Chdr)
  | cdata (port dst hops seq : Nat) (d : Cdata)
  deriving DecidableEq, Repr

/-- A message on its way out of a port (R357): its class, the ingress port whose receive buffer holds it (32: it is the
device's own), its flits still to go, those of its receive buffer, and the message. -/
structure TxMsg where
  cls  : Nat
  src  : Nat
  left : Nat
  held : Nat
  msg  : OutMsg
  deriving DecidableEq, Repr

/-- One logical port, beside its registers: training, hello and key timers, replays, credits and the
receive sequence, link keys (R525 to R530), messages that wait for credits and the pointers of the egress (R357), and the
replay buffer (R358). -/
structure Port where
  trainMs  : Nat            -- ms in TRAINING since the last attempt (R345)
  trainFailed : Bool        -- trained on neither half: retries every 1 s
  helloMs  : Nat            -- ms since the last hello was sent
  missMs   : Nat            -- ms since the last hello was received (R349)
  changed  : Bool           -- a field the hello carries has changed (R346)
  replays  : List Nat       -- device times (ns) of the replays of the last second (R358)
  flitFails : Nat           -- failures of the flit that fails now (R358)
  tagFails : Nat            -- tag failures of the flit that fails now (R530)
  credits  : List Nat       -- credits held per virtual channel 0 to 3 (R357)
  txQ      : List TxMsg
  turn     : Nat            -- flits that channel 3 may still send in its turn; 0: channel 1 has the turn (R357)
  inPtr    : List Nat       -- round-robin pointer over ingress ports, per virtual channel (R357)
  replay   : List (Nat × OutMsg) -- flits sent and not acknowledged, oldest first, by message (R358)
  txFlits  : Nat            -- the flit counter of the present key generation (R527)
  keyOk    : Bool           -- the encrypted session is up
  keying   : Bool           -- key establishment is under way (R525)
  keyMs    : Nat            -- ms since it began, or since it failed (R526)
  keyFailed : Bool
  gen      : Nat            -- key generation sent
  rxGen    : Nat            -- key generation received
  oldKey   : Bool           -- the receiver still holds the previous generation's key
  oldMs    : Nat
  tx       : List Byte      -- traffic secret of the direction sent, and of the one received (R527)
  rx       : List Byte
  rxOld    : List Byte      -- the secret of the previous generation received, until it is erased (R529)
  peerSerial : Nat          -- serial number of the last hello
  deriving DecidableEq, Repr

def Port.init : Port :=
  { trainMs := 0, trainFailed := false, helloMs := 0, missMs := 0, changed := false, replays := [],
    flitFails := 0, tagFails := 0, credits := [16, 64, 32, 1024], txQ := [], turn := 0,
    inPtr := [0, 0, 0, 0], replay := [], txFlits := 0, keyOk := false, keying := false,
    keyMs := 0, keyFailed := false, gen := 0, rxGen := 0, oldKey := false, oldMs := 0, tx := [], rx := [], rxOld := [], peerSerial := 0 }

/-- One rail of a loaded group (R360): the ring order as device IDs, this member's first-hop port, and how many rails the
group has. -/
structure Rail where
  members : List Nat
  port    : Nat
  total   : Nat
  deriving DecidableEq, Repr

/-- One rail of a round: the stage and tile that arrive next, whether the stage's header has arrived, c and KMAX of
the header, and the next CDATA SEQ. -/
structure RailRun where
  stage : Nat
  tile  : Nat
  hdr   : Bool
  c     : Nat
  kmax  : Nat
  seq   : Nat
  deriving DecidableEq, Repr

def RailRun.init : RailRun := { stage := 0, tile := 0, hdr := false, c := 0, kmax := 0, seq := 0 }

/-- A collective round of this member, or the step's verdict beat when `beatOnly` (R360 to R380). -/
structure Round where
  job     : Nat
  fjob    : Nat
  group   : Nat
  step    : Nat
  round   : Nat
  attempt : Nat
  beatOnly : Bool
  block   : Nat          -- the block and running number of its COLLECTIVE task
  num     : Nat
  task    : Nat          -- task ID
  op      : Nat
  cls     : Nat
  wfmt    : Nat
  digest  : Nat
  norm    : Bool
  src     : BAddr
  dst     : BAddr
  csum    : BAddr
  len     : Nat
  runs    : List RailRun -- by rail
  nf      : Bool
  reject  : Bool
  lost    : Bool
  refused : Bool
  blame   : Nat
  done    : Bool         -- this member's own part is complete
  ups     : List Nat     -- children whose up beat has arrived
  upSent  : Bool
  down    : Option (Nat × Nat × Nat)  -- BITS, BLAME, APPLY_AT
  reruns  : Nat
  waitMs  : Nat          -- ms since the own part completed (R380)
  dataMs  : Nat          -- ms since data last came (R374)
  deriving DecidableEq, Repr

/-- A collective message that came before this member's own task, or attempt, of its round (R362, R376). -/
inductive Early where
  | chdr (h : Chdr)
  | cdata (d : Cdata)
  | beat (src : Nat) (payload : List Byte)
  deriving DecidableEq, Repr

structure Fabric where
  ports  : SMap Port
  groups : SMap Rail       -- by slot × 64 + group × 4 + rail
  rounds : List Round
  early  : List Early
  offset : Int             -- offset of device time still to be slewed, in 0.25 ns (R384)
  locked : Bool            -- has locked since BOOT
  syncUs : Nat
  seqs   : SMap Nat        -- next sequence number by class × 8,192 + destination
  out    : List OutMsg
  deriving DecidableEq, Repr

/-! ### Jobs, survival (spec/13, spec/15) -/

/-- States of a job in its slot (spec/15, JOB_STATUS; the spec names the states, not codes). -/
inductive JobState where
  | free | admitted | loading | loaded | running | trapStopped | stopping | stopped
  deriving DecidableEq, Repr

/-- An open micro-batch (R323 to R325): its epoch and the tiles not yet closed. -/
structure OpenMb where
  mb    : Nat
  step  : Nat
  epoch : Nat
  tiles : List Nat
  deriving DecidableEq, Repr

/-- One region's dispatch list of a job: the staged bytes, and the position of the pass (R310, R316). -/
structure DList where
  bytes   : SMap Byte
  len     : Nat            -- bytes staged
  records : List Nat       -- 128-byte records, once loaded
  calls   : List Config.KCall  -- those of its tasks that are parts of fused kernels (R243)
  pos     : List Nat       -- records of this pass not yet delivered (indices)
  pass    : Nat            -- step number of this pass
  deriving DecidableEq, Repr

def DList.init : DList := { bytes := [], len := 0, records := [], calls := [], pos := [], pass := 0 }

/-- A NaN report on its way to a numeric context (R219, R221): requester (regions 0 to 15, link complex 16,
gradient egress 17), unit, opcode, block field, task ID, the step of its task, coordinates X, Y, Z, W. -/
structure NanRep where
  req  : Nat
  unit : Nat
  op   : Nat
  blk  : Nat
  task : Nat
  step : Nat
  x    : Nat
  y    : Nat
  z    : Nat
  w    : Nat
  deriving DecidableEq, Repr

/-- Partial values of one participating block on their way to their row owner (R245): of a kernel's instance in a micro-batch
and step, the buffer to which the sums return (bytes from row to row, values in a row), and the FP32 codes. -/
structure KPart where
  kid   : Nat
  inst  : Nat
  mb    : Nat
  step  : Nat
  block : Nat
  dst   : BAddr
  pitch : Nat
  cols  : Nat
  vals  : List Nat
  deriving DecidableEq, Repr

/-- The private P buffers of one tile pair of ATTN_BWD (R249): their handles, and the requests of step 6 still to complete. -/
structure PBuf where
  region  : Nat
  inst    : Nat
  mb      : Nat
  step    : Nat
  handles : List Nat
  left    : Nat
  deriving DecidableEq, Repr

/-- A job slot: what JOB_ADMIT sets (R474) and what the job's commands and steps change. -/
structure Slot where
  state    : JobState
  fjob     : Nat
  flags    : Nat           -- FLAGS of JOB_ADMIT
  lines    : Nat
  stepLine : Nat
  counters : Nat
  blocks   : Nat
  bsQuota  : Nat
  hbmQuota : Nat
  spQuota  : Nat
  imgInt   : Nat
  baseInt  : Nat
  jrnMin   : Nat
  jrnRate  : Nat
  tensors  : List (Nat × Bool)   -- tensor ID and WRITABLE
  lists    : SMap DList          -- by region
  step     : Nat
  epoch    : Nat
  graph    : Bool                -- the graph is loaded
  verdicts : List (Nat × Bool)   -- verdicts formed, by step (true: non-finite), the last four
  normRes  : Option (Nat × List Nat) -- step and FP32 codes of the accepted norm round (R265)
  gradDone : SMap Nat            -- tasks with GRAD completed, by step (R231)
  stepS    : List (Nat × Int)    -- s of a step once its first backward task is dispatched (R223)
  open_    : List OpenMb
  mbEpochs : List (Nat × Nat × Nat)  -- micro-batch, step and weight epoch of micro-batches whose first read has issued (R16)
  stopCause : Nat
  stopEvt  : Nat
  failTask : Nat
  aborted  : List Nat
  stopAtLine : Bool              -- stops at the next step-line release (R415)
  winForced : Bool               -- WIN_EN set by R420
  committed : Bool               -- the step's commit marker is written
  hregs    : SMap Nat            -- handle registers, region × 256 + register (R314)
  ties     : List Tie
  kparts   : List KPart          -- partial values at their row owners (R245)
  pbufs    : List PBuf           -- P buffers of tile pairs (R249)
  acts     : List ActRec
  zgwN     : SMap Nat            -- elements sent, by step × 4,096 + watch entry (R235)
  zgwNz    : SMap Nat
  fwdLast  : Nat
  imgStep  : Nat                 -- latest complete image step
  baseStep : Nat
  imgCopy  : List Nat            -- tile-tier IDs whose image copy has not completed (R427)
  imgFull  : List Nat            -- tensors of which the present image holds full records (R426)
  segOff   : Nat                 -- where the next segment copy goes in its IMAGE window (R432)
  segs     : List (Nat × Nat × Bool × List Nat)  -- carry-journal segments: step, region, closed, entries (R430 to R432)
  jmeth    : List Nat            -- tensors on the journal method (R425)
  carryN   : SMap Nat            -- by tensor: code changes since the last image step (R425)
  rests    : Nat                 -- restart step of RESTART
  restKind : Nat                 -- kind of REC_BEGIN
  restOrd  : Nat                 -- order reached (R436)
  restOp   : Nat
  restored : Bool
  actFull  : Bool                -- 0x0624 raised in this step (R307)
  nanPtr   : Nat                 -- round-robin pointer of the trap latch (R221)
  nanQ     : List NanRep         -- reports on their way (R219)
  vstep    : Nat                 -- the step that awaits its verdict (R228)
  skipped  : List Nat            -- steps whose verdict was non-finite
  openSeg  : Nat                 -- the carry-journal segment that is open (R431)
  twinH    : List (Nat × Nat × Nat × Nat)  -- of a redundant job's second copies (R396): tensor, region, shadow handle, fold handle
  deriving DecidableEq, Repr

def Slot.init : Slot :=
  { state := .free, fjob := 0, flags := 0, lines := 0, stepLine := 0, counters := 0, blocks := 0,
    bsQuota := 0, hbmQuota := 0, spQuota := 0, imgInt := 100, baseInt := 10000, jrnMin := 32,
    jrnRate := 100, tensors := [], lists := [], step := 0, epoch := 0, graph := false, verdicts := [],
    normRes := none, gradDone := [], stepS := [], open_ := [], mbEpochs := [], stopCause := 0, stopEvt := 0, failTask := 0, aborted := [],
    stopAtLine := false, winForced := false, committed := false, hregs := [], ties := [], kparts := [], pbufs := [], acts := [],
    zgwN := [], zgwNz := [], fwdLast := 0, imgStep := 0, baseStep := 0, imgCopy := [], imgFull := [], segOff := 0, segs := [],
    jmeth := [], carryN := [], rests := 0, restKind := 0, restOrd := 0, restOp := 0, restored := false,
    actFull := false, nanPtr := 0, nanQ := [], vstep := 0, skipped := [],
    openSeg := 0, twinH := [] }

/-- A tensor's definition (R475, R609): state code, layout, pieces by index (tile-tier ID, rows, columns,
σ), and the region handles of R303. -/
structure Tensor where
  state   : Nat
  layout  : Nat
  count   : Nat
  pieces  : SMap (Nat × Nat × Nat × Int)
  handles : SMap (Nat × Nat × Nat)     -- by region: shadow handle, fold handle, pieces
  deriving DecidableEq, Repr

/-- A commit marker (R433). -/
structure Marker where
  typ   : Nat
  job   : Nat
  fjob  : Nat
  step  : Nat
  epoch : Nat
  time  : Nat
  lscale : Nat
  image : Nat
  base  : Nat
  deriving DecidableEq, Repr

/-- A running or completed operation (R471). -/
structure Op where
  oph    : Nat
  opcode : Nat
  arg    : Nat           -- slot, tensor, type or mask, by opcode
  path   : Nat           -- 0 host, 1 BMC, 2 links
  dst    : Nat           -- device ID or mailbox the request came from
  link   : Option Nat    -- port of a link-local request (R351)
  notify : Bool
  done   : Bool
  status : Nat
  detail : Nat
  progress : Nat
  result : List Byte
  deriving DecidableEq, Repr

/-- A mailbox beside its registers: the message area and the stored response (R462, R469). -/
structure Mailbox where
  area   : SMap Byte
  src    : Nat           -- source device ID, or the BMC endpoint
  link   : Option Nat    -- port of a link-local request (R351)
  nextSeg : Nat          -- next segment index expected (R488)
  filling : Bool         -- a partial message is being filled
  lastKey : Option (Nat × Nat)   -- SEQ and OPCODE of the last completed request
  lastResp : List Byte
  deriving DecidableEq, Repr

def Mailbox.init : Mailbox :=
  { area := [], src := 0, link := none, nextSeg := 0, filling := false, lastKey := none, lastResp := [] }

/-- An event notice (R486). -/
structure Notice where
  event : Nat
  kind  : Nat
  job   : Nat
  unit  : Nat
  time  : Nat
  deriving DecidableEq, Repr

/-- An in-field test of one block (R418 to R423): which test, since when it is due, how often an overrun
abandoned it, and its last result. -/
structure BlockTest where
  dueS     : Nat          -- seconds until due
  due      : Bool
  dueFor   : Nat          -- seconds since falling due
  overruns : Nat
  forced   : Bool         -- 0x0415 was raised for it (R420)
  failedOnce : Bool
  result   : Nat
  lastRun  : Nat
  deriving DecidableEq, Repr

def BlockTest.init : BlockTest :=
  { dueS := 86400, due := false, dueFor := 0, overruns := 0, forced := false, failedOnce := false, result := 0,
    lastRun := 0 }

/-- A boot-flash slot (R480, FW_INFO): the bytes staged into it, or the image installed at manufacture
(`shipped`), whether the enclave has verified it, and what its header names. -/
structure FwSlot where
  data     : SMap Byte
  shipped  : Bool
  verified : Bool
  version  : Nat
  svn      : Nat
  commit   : Bool          -- FLAGS.COMMIT_SVN
  keyIdx   : Nat
  revokes  : Nat           -- key slots that its revocation list names (R521)
  deriving DecidableEq, Repr

def FwSlot.init : FwSlot :=
  { data := [], shipped := false, verified := false, version := 0, svn := 0, commit := false, keyIdx := 0, revokes := 0 }

/-- An image of manufacture. -/
def FwSlot.factory : FwSlot := { FwSlot.init with shipped := true, verified := true }

/-- What firmware keeps: mailboxes, operations, notices, reports waiting, the device's configuration and
persistent parameters. -/
structure Firmware where
  boxes    : SMap Mailbox
  ptr      : Nat                 -- service pointer (R464)
  ops      : List Op
  nextOph  : Nat
  notices  : List Notice
  subs     : List Nat            -- class masks by path: host, BMC, links
  manager  : Nat
  reports  : List Report         -- reports delivered to firmware, in order
  overruns : Nat                 -- TICK_OVERRUNS
  tensors  : SMap (Option Tensor)
  cfgStage : SMap Byte
  cfg      : List Byte           -- the active configuration record
  locals   : SMap Nat            -- LOCAL parameters set
  commitLog : List Marker        -- commit log in MP memory, not yet programmed
  commitMs : Nat
  tests    : SMap BlockTest      -- by block × 8 + test
  drainMs  : Nat
  causeSeq : Nat
  postTest : Nat                 -- failing self-test, 255 none
  postKind : Nat
  postUnit : Nat
  postDetail : List Nat          -- first bytes of its unit's status and last-error registers (R582)
  reasm    : List (Nat × List Byte × Nat)  -- MCTP reassembly: endpoint, bytes, ms since last packet
  mctpAddr : Option Nat          -- I3C dynamic address
  deriving DecidableEq, Repr

/-- An in-service calibration record (R571). -/
structure CalRec where
  seq    : Nat
  region : Nat
  clock  : Nat
  tcal   : Int
  codes  : List Nat
  deriving DecidableEq, Repr

/-- A tile tier's residency record (R53, R135): the tier, and the tensor, piece, double-slice layout and σ that it names. -/
structure ResRec where
  unit   : Nat
  tensor : Nat
  piece  : Nat
  dslice : Bool
  sigma  : Int
  deriving DecidableEq, Repr

/-- What a programmed page of the partition outside the ring journal and the calibration areas holds (R50, R53): commit
markers; part `part` of the `parts` pages of a configuration copy, with its epoch; the residency records of the tiers
256 × group to 256 × group + 255 that name a tensor; the firmware's own values. How records lie in a page is the model's
choice (assumption 143). -/
inductive PartPage where
  | markers (l : List Marker)
  | config (epoch part parts : Nat) (bytes : List Byte)
  | residency (group : Nat) (l : List ResRec)
  | settings (fabId : Nat) (locals : SMap Nat)
  deriving DecidableEq, Repr

/-- An area of the partition (R53): its erased erase blocks, and those in use, oldest first, each its programmed pages. -/
structure PartArea where
  free   : Nat
  blocks : List (List PartPage)
  deriving DecidableEq, Repr

/-- The digital-mode partition beside the ring journal and the factory copies (R53). The reserved area is never
programmed. -/
structure Partition where
  commit  : PartArea
  cfgA    : PartArea
  cfgB    : PartArea
  resid   : PartArea
  firm    : PartArea
  calIn   : List CalRec         -- in-service records, by record sequence
  deriving DecidableEq, Repr

/-! ### Security enclave (spec/17) -/

/-- States of the enclave (SEC_STATUS encodings 0 to 3). -/
inductive EncState where
  | selftest | operational | error | zeroised
  deriving DecidableEq, Repr

/-- An SPDM session (R522 to R524): its number and whether the hybrid secret has been formed. -/
structure Session where
  id     : Nat
  hybrid : Bool
  mutAuth : Bool
  secret : List Byte := []     -- S_H, 48 bytes, once the session is hybrid (R523)
  rxSeq  : Nat := 0            -- application messages received and sent (R524)
  txSeq  : Nat := 0
  deriving DecidableEq, Repr

structure Enclave where
  state    : EncState
  failed   : Nat               -- failed self-test, 255 none
  sessions : List Session
  revoked  : Nat               -- revocation fuses
  minSvn   : List Nat          -- fused minimum SVN of image types 0 to 3
  reseeds  : Nat               -- DRBG reseeds since boot
  drbgReqs : Nat               -- generate requests since the last reseed
  drbgMs   : Nat
  hybrids  : Nat               -- hybrid sessions completed since boot
  slots    : SMap FwSlot       -- boot-flash slots: type × 2 + slot (A 0, B 1)
  active   : List Nat          -- active slot of each type (boot record)
  next     : List Nat          -- slot selected for the next boot
  recovery : Bool              -- a recovery image was activated in GLADE (R519)
  deriving DecidableEq, Repr

/-! ### Power, clocks, cooling, calibration (spec/18, spec/19) -/

/-- One region's power tokens (R326 to R329): the pointer over its requesters, the requesters that hold tokens
apart from tiles (`tokReq`, Sched.lean) with what they hold, and the lots borrowed. -/
structure Tokens where
  ptr  : Nat
  held : List (Nat × Nat)
  lots : Nat
  overTok : Bool   -- TOKENS was lowered below the tokens held: nothing is granted until they fall below it (R329)
  overTile : Bool  -- the same of TILE_MAX and the tokens that tiles hold
  deriving DecidableEq, Repr

def Tokens.init : Tokens := { ptr := 0, held := [], lots := 0, overTok := false, overTile := false }

/-- One region's supply and sensors beside its registers. -/
structure Supply where
  full     : Bool              -- ramping at full slew (R543)
  waitUs   : Nat               -- µs in WAIT_GRANT (R544)
  warned   : Bool              -- 0x0702 raised since RAIL_MIN was cleared (R539)
  volts    : List Nat          -- latest readings of the 64 voltage sensors, mV
  sensors  : List Nat          -- latest 16 thermal readings, 0.1 °C
  heatUs   : Nat               -- µs above THROT since CEIL last fell (R552)
  coolUs   : Nat               -- µs since CEIL last rose
  cooled   : Bool              -- TMAX has fallen below THROT − HYST
  hotUs    : List Nat          -- by sensor: µs at 105 °C or more (R554)
  deriving DecidableEq, Repr

def Supply.init : Supply :=
  { full := false, waitUs := 0, warned := false, volts := [], sensors := [], heatUs := 0, coolUs := 0, cooled := false,
    hotUs := [] }

structure Power where
  supplies : SMap Supply       -- by region
  droop    : List (Nat × Nat × Nat)  -- stretching blocks: the part of a cycle run, in 1/60, and calm cycles (R551)
  belowUs  : Nat               -- µs input power has stayed below 98 % of the cap (R548)
  vinTold  : Bool              -- the present input excursion has been reported (R536)
  flowTold : Bool
  inletTold : Bool
  cause    : Nat               -- cause latched in the first-stage controller (R540): event code, 0 none
  shut     : Bool              -- off after a protective shutdown with 50 V still applied
  vin      : Nat               -- input voltage, mV
  pwrgood  : Bool
  deriving DecidableEq, Repr

/-- One region's calibration beside its registers. Trims have keys tile × 576 + trim, trims of a tile in the order PD,
CR, VT of the factory record. -/
structure CalRegion where
  base     : Int               -- region temperature whose factory prediction unlisted codes hold (R565), 0.1 °C
  codes    : List (Nat × Nat)  -- present codes of the other trims
  targets  : List (Nat × Nat)  -- targets of trims with pending taps
  fromOn   : Bool              -- the running recalibration started with the rail (R565)
  held     : Bool              -- a start request held during MEASURING (R564)
  waitMs   : Nat               -- ms since the end of measurement (R567)
  gradual  : Bool              -- step mode has fallen back (R567)
  limited  : List Nat          -- trims whose 0x0140 was raised in this boot
  last     : List (Nat × Nat)  -- by tile: device time of its last gradual tap (R566)
  deriving DecidableEq, Repr

def CalRegion.init : CalRegion :=
  { base := 0, codes := [], targets := [], fromOn := false, held := false, waitMs := 0, gradual := false, limited := [], last := [] }

/-! ### The device -/

/-- Device states (R4, R5). -/
inductive DevState where
  | off | boot | selftest | glade | ready | running | draining | flagged
  deriving DecidableEq, Repr

def MatCore.init : MatCore := { queue := [], runs := [], bank := false }

def VecEngine.init : VecEngine :=
  { v := [], a := [], s := [], pc := 0, loops := [], ctr0 := 0, ctr1 := 0, run := none, cfg := 1 }

def Block.init : Block :=
  { queue := [], running := [], nextNum := 1, mc := MatCore.init, ve := VecEngine.init, arrived := [], winWait := false, rrEngine := 0, halves := [], folds := [],
    deferred := [] }

/-- Registers, cells and memories: everything kept as a sparse store in canonical form. -/
structure Store where
  /-- Registers by BAR0 offset; an unlisted register holds its reset value (`regReset`). -/
  regs   : SMap Word
  /-- Cell levels in thousandths of a level step, by ((tile × 8 + k) × 1,024 + row) × 2,112 + pair × 2 +
  side (0 plus, 1 minus); an unlisted cell is at level 31. -/
  cells  : SMap Nat
  /-- Block stores (block × 6 MiB + byte); an unlisted byte is 0, as are those of the next two. -/
  bstore : SMap Byte
  /-- HBM (stack × 2^37 + byte). -/
  hbm    : SMap Byte
  /-- Host memory, by host physical address. -/
  host   : SMap Byte
  /-- Norm tables: FP32 codes by (region × 64 + slot) × 4,096 + entry (R264). -/
  norms  : SMap Nat
  deriving DecidableEq, Repr

/-- The whole device, and the queue of commands that wait for it. -/
structure State where
  pending  : List Instr
  /-- The model's own: how many free values have been drawn (DESIGN CHOICE, notes/assumptions/1.md). -/
  draws    : Nat
  dev      : DevState
  /-- RESET_N is asserted (R574). -/
  resetN   : Bool
  /-- The firmware that runs is the glade monitor (R586). -/
  monitor  : Bool
  /-- The MP runs: firmware, or the glade monitor. -/
  mpUp     : Bool
  /-- The host die runs (its reset is released, R517, R589). -/
  hostUp   : Bool
  /-- Device time, ns. -/
  time     : Nat
  /-- Registers and memories. -/
  store    : Store
  /-- High words captured by a read of a low word (R493 and the counters' sections). -/
  capHi    : SMap Word
  /-- Low halves written and not yet in effect (R493), and the low half of a program-store word (R204). -/
  lowHalf  : SMap Word
  /-- The key-guard locks (R503): true while open. -/
  hostLock : Bool
  mpLock   : Bool
  /-- The MP's own broadcast selector (spec/16, "Broadcast"). -/
  mpBcast  : Nat
  tiles    : SMap Tile
  tiers    : SMap TierInfo
  blocks   : SMap Block
  /-- Poison marks: 64-byte accesses of HBM (stack × 2^31 + byte ÷ 64, R284) and 8-byte words of the block
  stores (block × 786,432 + byte ÷ 8, R281). -/
  hbmPoison : List Nat
  bsPoison : List Nat
  /-- Region allocators 0 to 15 and the chip allocator, 16. -/
  allocs   : SMap Allocator
  /-- Arbiters of host traffic (R273). -/
  arb      : HostArb
  /-- Scrubbers by stack (R285). -/
  scrub    : SMap Scrub
  /-- Power tokens by region. -/
  toks     : SMap Tokens
  /-- Region schedulers' pointers over job slots (R316). -/
  schedPtr : SMap Nat
  /-- Credit signals on their way: block, counter, signed amount, oldest first (R321, R331). -/
  sigs     : List (Nat × Nat × Int)
  /-- Held reports by region (R412). -/
  aggs     : SMap (List Report)
  slots    : SMap Slot
  fab      : Fabric
  jrn      : Journal
  part     : Partition
  fw       : Firmware
  sec      : Enclave
  pwr      : Power
  cal      : SMap CalRegion
  deriving DecidableEq, Repr

/-- The machine stops. No command of this device ends in a fault: everything the spec calls an error is an
event, a refused access or a failed command, after which the device goes on. -/
inductive Fault where
  /-- Raised by nothing; a closed type needs a member. Safe. -/
  | none
  deriving DecidableEq, Repr

/-- Why a command has no next state: every row of the table has its meaning, so no command is refused. -/
inductive Refusal where
  /-- The command has no meaning in the model. Raised by nothing: `exec` gives every command one. Safe. -/
  | notModelled (mnemonic : String)
  deriving DecidableEq, Repr

def Fabric.init : Fabric :=
  { ports := [], groups := [], rounds := [], early := [], offset := 0, locked := false, syncUs := 0, seqs := [], out := [] }

def Firmware.init : Firmware :=
  { boxes := [], ptr := 0, ops := [], nextOph := 1, notices := [], subs := [0, 0, 0], manager := 0,
    reports := [], overruns := 0, tensors := [], cfgStage := [], cfg := [], locals := [],
    commitLog := [], commitMs := 0, tests := [], drainMs := 0, causeSeq := 0, postTest := 255,
    postKind := 0, postUnit := 0, postDetail := [], reasm := [], mctpAddr := none }

def Partition.init : Partition :=
  { commit := { free := 256, blocks := [] }, cfgA := { free := 32, blocks := [] }, cfgB := { free := 32, blocks := [] },
    resid := { free := 128, blocks := [] }, firm := { free := 256, blocks := [] }, calIn := [] }

def Enclave.init : Enclave :=
  { state := .selftest, failed := 255, sessions := [], revoked := 0, minSvn := [0, 0, 0, 0], reseeds := 0,
    drbgReqs := 0, drbgMs := 0, hybrids := 0,
    slots := [(0, FwSlot.factory), (2, FwSlot.factory), (4, FwSlot.factory), (6, FwSlot.factory)], active := [0, 0, 0, 0], next := [0, 0, 0, 0],
    recovery := false }

def Power.init : Power :=
  { supplies := [], droop := [], belowUs := 0, vinTold := false, flowTold := false,
    inletTold := false, cause := 0, shut := false, vin := 50000, pwrgood := true }

/-- The machine right after reset: a module that has never run, with 50 V applied and RESET_N asserted
(R573, R574). Every register is at its reset value, every queue is empty and the device is in BOOT
(R5); RESET_N_RELEASE starts it. -/
def State.reset : State :=
  { pending := [], draws := 0, dev := .boot, resetN := true, monitor := false, mpUp := false, hostUp := false, time := 0,
    store := { regs := [], cells := [], bstore := [], hbm := [], host := [], norms := [] }, capHi := [], lowHalf := [], hostLock := false,
    mpLock := false, mpBcast := 0, tiles := [], tiers := [],
    blocks := [], hbmPoison := [], bsPoison := [], allocs := [],
    arb := HostArb.init, scrub := [],
    toks := [], schedPtr := [], sigs := [], aggs := [], slots := [], fab := Fabric.init, jrn := Journal.init, part := Partition.init,
    fw := Firmware.init, sec := Enclave.init, pwr := Power.init, cal := [] }

end Sys2Proof.Machine
end

