-- ==== Sys2Proof/Machine/Num.lean ====
section
/-!
DEFINITION. Sys2Proof/Machine/Num.lean: the number formats and the rounding of
spec/07_number_formats_and_rounding.md (R205 to R212, R215, R602): exact binary values, the
formats as records, decoding a code, and the ONE rounding from an exact value to a code.
-/
namespace Sys2Proof.Machine

/-- An exact value: `fin s m e` is (−1)^s × m × 2^e (m = 0 is a signed zero), or an infinity, or
a NaN with its sign (R208: the device keeps no payload). -/
inductive FpNum where
  | fin (neg : Bool) (m : Nat) (e : Int)
  | inf (neg : Bool)
  | nan (neg : Bool)
  deriving DecidableEq, Repr

/-- The rounding modes of R210, in the order of their RM codes. -/
inductive RM where
  | nearest | towardZero | down | up | stochastic
  deriving DecidableEq, Repr

/-- RM of R173's field; 5 to 7 are reserved. -/
def RM.ofCode (n : Nat) : Option RM :=
  match n with
  | 0 => some .nearest
  | 1 => some .towardZero
  | 2 => some .down
  | 3 => some .up
  | 4 => some .stochastic
  | _ => none

/-- A binary floating format (R205). `special` says which codes of the top exponent are special:
0 none (E2M1), 1 the IEEE rule (infinity and NaN), 2 only the all-ones code is NaN (E4M3). -/
structure Fmt where
  width   : Nat
  expBits : Nat
  manBits : Nat
  bias    : Int
  special : Nat
  deriving DecidableEq, Repr

def fp32 : Fmt := { width := 32, expBits := 8, manBits := 23, bias := 127, special := 1 }
def bf16 : Fmt := { width := 16, expBits := 8, manBits := 7, bias := 127, special := 1 }
def fp16 : Fmt := { width := 16, expBits := 5, manBits := 10, bias := 15, special := 1 }
def e4m3 : Fmt := { width := 8, expBits := 4, manBits := 3, bias := 7, special := 2 }
def e5m2 : Fmt := { width := 8, expBits := 5, manBits := 2, bias := 15, special := 1 }
def e2m1 : Fmt := { width := 4, expBits := 2, manBits := 1, bias := 1, special := 0 }
/-- The matrix core's accumulator (R148): FP32 precision, a 10-bit exponent biased by 511. It has
no subnormals and its range is never left by finite operands. -/
def accFmt : Fmt := { width := 34, expBits := 10, manBits := 23, bias := 511, special := 1 }

/-- Exponent of the smallest normal. -/
def Fmt.minNormalExp (f : Fmt) : Int := 1 - f.bias
/-- Exponent of the smallest subnormal's place. -/
def Fmt.subPlace (f : Fmt) : Int := 1 - f.bias - f.manBits
/-- The largest finite magnitude of R205 as (integer, place). -/
def Fmt.maxFinite (f : Fmt) : Nat × Int :=
  let topExp : Int := (2 ^ f.expBits : Nat) - (if f.special = 1 then 2 else 1) - f.bias
  let top : Nat := if f.special = 2 then 2 ^ (f.manBits + 1) - 2 else 2 ^ (f.manBits + 1) - 1
  (top, topExp - f.manBits)

/-- Number of bits of a natural number (0 for 0). -/
def bitLen (m : Nat) : Nat := if m = 0 then 0 else Nat.log2 m + 1

/-- m × 2^e as an integer part at `place`: N = ⌊m × 2^(e − place)⌋, whether anything is left,
the comparison of what is left with one half (0 less, 1 equal, 2 more), and the first 16 bits of
the fraction (R212). -/
def splitAt (m : Nat) (e place : Int) : Nat × Bool × Nat × Nat :=
  if place ≤ e then (m * 2 ^ (e - place).toNat, false, 0, 0)
  else
    let k := (place - e).toNat
    let n := m / 2 ^ k
    let r := m % 2 ^ k
    let half := 2 ^ (k - 1)
    (n, r != 0, (if r < half then 0 else if r = half then 1 else 2), r * 65536 / 2 ^ k)

/-- The integer magnitude that rounding m × 2^e at `place` gives (R210, R212); `g` is the 16-bit
draw of stochastic rounding. -/
def roundMag (rm : RM) (neg : Bool) (g : Nat) (m : Nat) (e place : Int) : Nat :=
  let (n, inexact, cmpHalf, f) := splitAt m e place
  match rm with
  | .nearest => if cmpHalf = 2 ∨ (cmpHalf = 1 ∧ n % 2 = 1) then n + 1 else n
  | .towardZero => n
  | .down => if neg ∧ inexact then n + 1 else n
  | .up => if ¬ neg ∧ inexact then n + 1 else n
  | .stochastic => if 65536 ≤ f + g % 65536 then n + 1 else n

/-- Sign bit of a code of format f. -/
def Fmt.signBit (f : Fmt) (neg : Bool) : Nat := if neg then 2 ^ (f.expBits + f.manBits) else 0

/-- The canonical NaN of R208, with the sign given. -/
def Fmt.nanCode (f : Fmt) (neg : Bool) : Nat :=
  f.signBit neg +
    (if f.special = 2 then 2 ^ (f.expBits + f.manBits) - 1
     else (2 ^ f.expBits - 1) * 2 ^ f.manBits + 2 ^ (f.manBits - 1))

/-- The infinity code of a format with infinities. -/
def Fmt.infCode (f : Fmt) (neg : Bool) : Nat :=
  f.signBit neg + (2 ^ f.expBits - 1) * 2 ^ f.manBits

/-- The largest finite code, with the sign given. -/
def Fmt.maxCode (f : Fmt) (neg : Bool) : Nat :=
  f.signBit neg +
    (match f.special with
     | 1 => (2 ^ f.expBits - 1) * 2 ^ f.manBits - 1
     | 2 => 2 ^ (f.expBits + f.manBits) - 2
     | _ => 2 ^ (f.expBits + f.manBits) - 1)

/-- The code of the magnitude n × 2^place, which the format represents. -/
def Fmt.encodeMag (f : Fmt) (neg : Bool) (n : Nat) (place : Int) : Nat :=
  if n = 0 then f.signBit neg
  else
    let lead : Int := place + (bitLen n : Int) - 1
    let place' : Int := if lead < f.minNormalExp then f.subPlace else lead - f.manBits
    let sig : Nat := if place' ≤ place then n * 2 ^ (place - place').toNat
                     else n / 2 ^ (place' - place).toNat
    let ef : Nat := if lead < f.minNormalExp then 0 else (lead + f.bias).toNat
    f.signBit neg + (if ef = 0 then sig else ef * 2 ^ f.manBits + (sig - 2 ^ f.manBits))

/-- The value of a code (R205). -/
def Fmt.decode (f : Fmt) (code : Nat) : FpNum :=
  let neg := (code / 2 ^ (f.expBits + f.manBits)) % 2 = 1
  let ef := (code / 2 ^ f.manBits) % 2 ^ f.expBits
  let mf := code % 2 ^ f.manBits
  if f.special = 1 ∧ ef = 2 ^ f.expBits - 1 then
    if mf = 0 then .inf neg else .nan neg
  else if f.special = 2 ∧ ef = 2 ^ f.expBits - 1 ∧ mf = 2 ^ f.manBits - 1 then .nan neg
  else if ef = 0 then .fin neg mf f.subPlace
  else .fin neg (mf + 2 ^ f.manBits) ((ef : Int) - f.bias - f.manBits)

/-- Is the code a nonzero subnormal of the format? -/
def Fmt.isSubnormal (f : Fmt) (code : Nat) : Bool :=
  (code / 2 ^ f.manBits) % 2 ^ f.expBits = 0 && code % 2 ^ f.manBits != 0

/-- What rounding delivers: a code, and what happened on the way. -/
structure Rounded where
  code    : Nat
  ovf     : Bool  -- R211: overflowed
  flushed : Bool  -- R217: a nonzero value became zero
  deriving DecidableEq, Repr

/-- An overflowing result, by mode (R211's table). -/
def Fmt.overflowCode (f : Fmt) (rm : RM) (neg : Bool) : Nat :=
  if f.special = 1 then
    match rm with
    | .nearest => f.infCode neg
    | .stochastic => f.infCode neg
    | .towardZero => f.maxCode neg
    | .down => if neg then f.infCode neg else f.maxCode neg
    | .up => if neg then f.maxCode neg else f.infCode neg
  else f.maxCode neg

/-- m × 2^e compared with n × 2^p: is the first greater? -/
def magGt (m : Nat) (e : Int) (n : Nat) (p : Int) : Bool :=
  if e ≤ p then n * 2 ^ (p - e).toNat < m else n < m * 2 ^ (e - p).toNat

/-- THE rounding of an exact finite value to a format (R210 to R212, R215, R602): rounded once at
full precision, which decides overflow and tininess; a tiny result is zero of the same sign
when `denorm` is false, and otherwise rounded once at the subnormal place. -/
def Fmt.roundFin (f : Fmt) (rm : RM) (denorm : Bool) (g : Nat) (neg : Bool) (m : Nat) (e : Int) :
    Rounded :=
  if m = 0 then { code := f.signBit neg, ovf := false, flushed := false }
  else
    let lead : Int := e + (bitLen m : Int) - 1
    let place := lead - f.manBits
    let n := roundMag rm neg g m e place
    let mx := f.maxFinite
    if magGt n place mx.1 mx.2 then { code := f.overflowCode rm neg, ovf := true, flushed := false }
    else if magGt 1 f.minNormalExp n place then
      if denorm then
        let n2 := roundMag rm neg g m e f.subPlace
        { code := f.encodeMag neg n2 f.subPlace, ovf := false, flushed := n2 = 0 }
      else { code := f.signBit neg, ovf := false, flushed := true }
    else { code := f.encodeMag neg n place, ovf := false, flushed := false }

/-- Rounding of any exact value; an infinity stays one and a NaN becomes the canonical NaN with
the sign given (R208). A format without NaN or infinity never meets one here. -/
def Fmt.round (f : Fmt) (rm : RM) (denorm : Bool) (g : Nat) (x : FpNum) : Rounded :=
  match x with
  | .fin s m e => f.roundFin rm denorm g s m e
  | .inf s => { code := if f.special = 1 then f.infCode s else f.maxCode s,
                ovf := f.special != 1, flushed := false }
  | .nan s => { code := if f.special = 0 then f.signBit s else f.nanCode s,
                ovf := false, flushed := false }

/-- An input code with the job's DENORM bit applied (R215): a subnormal of a format other than
E2M1 becomes zero of its sign when `denorm` is false (R216 keeps E2M1). The Bool says it flushed. -/
def Fmt.input (f : Fmt) (denorm : Bool) (code : Nat) : FpNum × Bool :=
  if f.isSubnormal code && !denorm && f.special != 0 then
    match f.decode code with
    | .fin s _ _ => (.fin s 0 0, true)
    | x => (x, false)
  else (f.decode code, false)

def FpNum.isNaN : FpNum → Bool
  | .nan _ => true
  | _ => false

def FpNum.isInf : FpNum → Bool
  | .inf _ => true
  | _ => false

def FpNum.isFinite : FpNum → Bool
  | .fin _ _ _ => true
  | _ => false

def FpNum.isZero : FpNum → Bool
  | .fin _ m _ => m == 0
  | _ => false

def FpNum.sign : FpNum → Bool
  | .fin s _ _ => s
  | .inf s => s
  | .nan s => s

def FpNum.neg : FpNum → FpNum
  | .fin s m e => .fin (!s) m e
  | .inf s => .inf (!s)
  | .nan s => .nan (!s)

def FpNum.abs : FpNum → FpNum
  | .fin _ m e => .fin false m e
  | .inf _ => .inf false
  | .nan _ => .nan false

/-- The integer (with sign) of a finite value at place p ≤ its exponent. -/
def FpNum.intAt (neg : Bool) (m : Nat) (e p : Int) : Int :=
  let v : Int := (m * 2 ^ (e - p).toNat : Nat)
  if neg then -v else v

/-- An exact value from an integer and a place; `z` is the sign of a zero result. -/
def FpNum.ofInt (z : Bool) (v : Int) (p : Int) : FpNum :=
  if v = 0 then .fin z 0 0 else .fin (v < 0) v.natAbs p

/-- IEEE 754 exact sum. The sign of an exact zero sum of opposite signs is minus only when
rounding toward −infinity. R208 gives a NaN result the positive sign. -/
def FpNum.add (rm : RM) (x y : FpNum) : FpNum :=
  match x, y with
  | .nan _, _ => .nan false
  | _, .nan _ => .nan false
  | .inf a, .inf b => if a = b then .inf a else .nan false
  | .inf a, _ => .inf a
  | _, .inf b => .inf b
  | .fin a m e, .fin b n f =>
    if m = 0 ∧ n = 0 then .fin (if a = b then a else rm = .down) 0 0
    else
      let p := min e f
      FpNum.ofInt (rm = .down) (FpNum.intAt a m e p + FpNum.intAt b n f p) p

/-- IEEE 754 exact product. -/
def FpNum.mul (x y : FpNum) : FpNum :=
  match x, y with
  | .nan _, _ => .nan false
  | _, .nan _ => .nan false
  | .inf a, .fin b n _ => if n = 0 then .nan false else .inf (a != b)
  | .fin a m _, .inf b => if m = 0 then .nan false else .inf (a != b)
  | .inf a, .inf b => .inf (a != b)
  | .fin a m e, .fin b n f => .fin (a != b) (m * n) (e + f)

/-- Multiplication by 2^k, exact. -/
def FpNum.scale (x : FpNum) (k : Int) : FpNum :=
  match x with
  | .fin s m e => .fin s m (e + k)
  | y => y

/-- −1, 0 or 1: comparison of two values that are no NaN; ±0 are equal. -/
def FpNum.cmp (x y : FpNum) : Int :=
  let key : FpNum → Int × Nat × Int := fun z =>
    match z with
    | .inf s => (if s then -2 else 2, 0, 0)
    | .fin s m e => (if m = 0 then 0 else if s then -1 else 1, m, e)
    | .nan _ => (0, 0, 0)
  let (a, m, e) := key x
  let (b, n, f) := key y
  if a < b then -1 else if b < a then 1
  else if a = 1 then (if magGt m e n f then 1 else if magGt n f m e then -1 else 0)
  else if a = -1 then (if magGt m e n f then -1 else if magGt n f m e then 1 else 0)
  else 0

/-- ⌊log2 |x|⌋ of a nonzero finite value. -/
def FpNum.exp (x : FpNum) : Int :=
  match x with
  | .fin _ m e => e + (bitLen m : Int) - 1
  | _ => 0

/-- The value of an integer. -/
def FpNum.ofI (v : Int) : FpNum := FpNum.ofInt false v 0

/-- Nearest integer of (−1)^neg m 2^e under a rounding mode. -/
def roundInt (rm : RM) (g : Nat) (neg : Bool) (m : Nat) (e : Int) : Int :=
  let n : Int := roundMag rm neg g m e 0
  if neg then -n else n

/-- ⌊(−1)^neg m 2^e⌋. -/
def floorDy (neg : Bool) (m : Nat) (e : Int) : Int := roundInt .down 0 neg m e

/-- Two's complement reading of the low w bits. -/
def sext (w n : Nat) : Int :=
  let v := n % 2 ^ w
  if v < 2 ^ (w - 1) then v else (v : Int) - (2 ^ w : Nat)

/-- Two's complement encoding in w bits. -/
def enc2c (w : Nat) (v : Int) : Nat := (v % (2 ^ w : Nat)).toNat

/-- Bits [hi:lo] of a natural number. -/
def bits (n hi lo : Nat) : Nat := n / 2 ^ lo % 2 ^ (hi + 1 - lo)

/-- Bit i of a natural number. -/
def bit (n i : Nat) : Bool := n / 2 ^ i % 2 = 1

/-- The number 1 or 0 of a Bool. -/
def b2n (b : Bool) : Nat := if b then 1 else 0

/-- Little-endian value of a list of bytes. -/
def leNat : List (BitVec 8) → Nat
  | [] => 0
  | b :: bs => b.toNat + 256 * leNat bs

/-- The low n bytes of a number, little-endian. -/
def leBytes : Nat → Nat → List (BitVec 8)
  | 0, _ => []
  | n + 1, v => BitVec.ofNat 8 v :: leBytes n (v / 256)

end Sys2Proof.Machine
end

