-- ==== Sys2Proof/Machine/Ops.lean ====
section
/-!
DEFINITION. Sys2Proof/Machine/Ops.lean: the named operations over the state that every family uses:
sparse stores, registers and their fields, memories, cells, free values, and raising an event (R389,
R390, R412, R613).
-/
namespace Sys2Proof.Machine

/-- An outcome of the device. -/
abbrev Out := Host.Outcome State Fault Refusal

/-- What a command answers whose event comes about under the condition b: the event's state t, or, where the device does
not let the event come about, the state as it was (DESIGN CHOICE, assumption 5). -/
def whenever (b : Bool) (s t : State) : Out := .next (if b then t else s)

/-! ### Sparse stores -/

/-- The value at key k; an unlisted key reads as `d k`. -/
def SMap.get {α : Type} (d : Nat → α) (m : SMap α) (k : Nat) : α :=
  match m with
  | [] => d k
  | (k', v) :: r => if k' = k then v else SMap.get d r k

/-- The value written at key k, keeping the canonical form. -/
def SMap.set {α : Type} [DecidableEq α] (d : Nat → α) (m : SMap α) (k : Nat) (v : α) : SMap α :=
  match m with
  | [] => if v = d k then [] else [(k, v)]
  | (k', v') :: r =>
    if k' < k then (k', v') :: SMap.set d r k v
    else
      let rest := ((k', v') :: r).filter fun e => e.1 != k
      if v = d k then rest else (k, v) :: rest

/-- Every value changed by f, keeping the canonical form. -/
def SMap.mapVals {α : Type} [DecidableEq α] (d : Nat → α) (f : α → α) (m : SMap α) : SMap α :=
  (m.map fun e => (e.1, f e.2)).filter fun e => e.2 != d e.1

/-- The canonical form: keys strictly rising, all at least `lo`, and no value equal to what an unlisted
key reads as. -/
def SMap.wfFrom {α : Type} [DecidableEq α] (d : Nat → α) (lo : Nat) : SMap α → Bool
  | [] => true
  | (k, v) :: r => lo ≤ k && v != d k && SMap.wfFrom d (k + 1) r

def SMap.wf {α : Type} [DecidableEq α] (d : Nat → α) (m : SMap α) : Bool := SMap.wfFrom d 0 m

/-- The canonical form of all that `Store` holds (`Memory.wf` of the whole device). -/
def Store.wf (m : Store) : Bool :=
  SMap.wf regReset m.regs && SMap.wf (fun _ => 31000) m.cells && SMap.wf (fun _ => 0#8) m.bstore &&
  SMap.wf (fun _ => 0#8) m.hbm && SMap.wf (fun _ => 0#8) m.host && SMap.wf (fun _ => 0) m.norms

/-! ### Registers -/

/-- The value held at BAR0 offset a. -/
def State.reg (s : State) (a : Nat) : Word := SMap.get regReset s.store.regs a
/-- The same as a number. -/
def State.rn (s : State) (a : Nat) : Nat := (s.reg a).toNat
def State.setReg (s : State) (a : Nat) (v : Word) : State :=
  { s with store := { s.store with regs := SMap.set regReset s.store.regs a v } }
def State.setRn (s : State) (a n : Nat) : State := s.setReg a (BitVec.ofNat 32 n)
/-- Field [hi:lo] of the register at a. -/
def State.rf (s : State) (a hi lo : Nat) : Nat := fld (s.rn a) hi lo
/-- n with its field [hi:lo] replaced by v. -/
def putFld (n hi lo v : Nat) : Nat :=
  n - fld n hi lo * 2 ^ lo + v % 2 ^ (hi + 1 - lo) * 2 ^ lo
def State.setRf (s : State) (a hi lo v : Nat) : State := s.setRn a (putFld (s.rn a) hi lo v)
/-- A sticky bit set by hardware (R502: it wins over a clear). -/
def State.setBit (s : State) (a i : Nat) : State := s.setRf a i i 1
def State.rbit (s : State) (a i : Nat) : Bool := s.rf a i i = 1
/-- A counter field that saturates. -/
def State.bump (s : State) (a hi lo k : Nat) : State :=
  s.setRf a hi lo (min (2 ^ (hi + 1 - lo) - 1) (s.rf a hi lo + k))
/-- A 64-bit counter in two registers, low word first, wrapping at 2^64. -/
def State.bump64 (s : State) (a k : Nat) : State :=
  let n := (s.rn a + s.rn (a + 4) * 2 ^ 32 + k) % 2 ^ 64
  (s.setRn a n).setRn (a + 4) (n / 2 ^ 32)

/-! ### Units -/

def State.tile (s : State) (t : Nat) : Tile := SMap.get (fun _ => Tile.init) s.tiles t
def State.setTile (s : State) (t : Nat) (x : Tile) : State :=
  { s with tiles := SMap.set (fun _ => Tile.init) s.tiles t x }
def State.tier (s : State) (u : Nat) : TierInfo := SMap.get (fun _ => TierInfo.init) s.tiers u
def State.setTier (s : State) (u : Nat) (x : TierInfo) : State :=
  { s with tiers := SMap.set (fun _ => TierInfo.init) s.tiers u x }
def State.block (s : State) (b : Nat) : Block := SMap.get (fun _ => Block.init) s.blocks b
def State.setBlock (s : State) (b : Nat) (x : Block) : State :=
  { s with blocks := SMap.set (fun _ => Block.init) s.blocks b x }
def State.slot (s : State) (j : Nat) : Slot := SMap.get (fun _ => Slot.init) s.slots j
def State.setSlot (s : State) (j : Nat) (x : Slot) : State :=
  { s with slots := SMap.set (fun _ => Slot.init) s.slots j x }
def State.port (s : State) (p : Nat) : Port := SMap.get (fun _ => Port.init) s.fab.ports p
def State.setPort (s : State) (p : Nat) (x : Port) : State :=
  { s with fab := { s.fab with ports := SMap.set (fun _ => Port.init) s.fab.ports p x } }
def State.alloc (s : State) (i : Nat) : Allocator := SMap.get (fun _ => Allocator.init) s.allocs i
def State.setAlloc (s : State) (i : Nat) (x : Allocator) : State :=
  { s with allocs := SMap.set (fun _ => Allocator.init) s.allocs i x }
def State.tensor (s : State) (n : Nat) : Option Tensor := SMap.get (fun _ => none) s.fw.tensors n
def State.setTensor (s : State) (n : Nat) (x : Option Tensor) : State :=
  { s with fw := { s.fw with tensors := SMap.set (fun _ => none) s.fw.tensors n x } }
def State.box (s : State) (m : Nat) : Mailbox := SMap.get (fun _ => Mailbox.init) s.fw.boxes m
def State.setBox (s : State) (m : Nat) (x : Mailbox) : State :=
  { s with fw := { s.fw with boxes := SMap.set (fun _ => Mailbox.init) s.fw.boxes m x } }
def State.tok (s : State) (g : Nat) : Tokens := SMap.get (fun _ => Tokens.init) s.toks g
def State.setTok (s : State) (g : Nat) (x : Tokens) : State :=
  { s with toks := SMap.set (fun _ => Tokens.init) s.toks g x }
def State.supply (s : State) (g : Nat) : Supply := SMap.get (fun _ => Supply.init) s.pwr.supplies g
def State.setSupply (s : State) (g : Nat) (x : Supply) : State :=
  { s with pwr := { s.pwr with supplies := SMap.set (fun _ => Supply.init) s.pwr.supplies g x } }
def State.calR (s : State) (g : Nat) : CalRegion := SMap.get (fun _ => CalRegion.init) s.cal g
def State.setCal (s : State) (g : Nat) (x : CalRegion) : State :=
  { s with cal := SMap.set (fun _ => CalRegion.init) s.cal g x }

/-- One free value (notes/assumptions/1.md): the next index, and the state that has drawn it. -/
def State.draw (s : State) : Nat × State := (s.draws, { s with draws := s.draws + 1 })

/-! ### Memories -/

/-- A byte-addressed memory: the store of block b, the stack of region g, host memory. -/
inductive Space where
  | bs (b : Nat) | hbm (g : Nat) | host
  deriving DecidableEq, Repr

/-- Bytes of one block store: 6 MiB. -/
def bsSize : Nat := 6291456
/-- Bytes of one HBM stack: 96 GiB (spec/09). -/
def hbmSize : Nat := 103079215104

def State.rdByte (s : State) (sp : Space) (a : Nat) : Byte :=
  match sp with
  | .bs b => SMap.get (fun _ => 0#8) s.store.bstore (b * bsSize + a)
  | .hbm g => SMap.get (fun _ => 0#8) s.store.hbm (g * 2 ^ 37 + a)
  | .host => SMap.get (fun _ => 0#8) s.store.host a

def State.wrByte (s : State) (sp : Space) (a : Nat) (v : Byte) : State :=
  match sp with
  | .bs b => { s with store := { s.store with bstore := SMap.set (fun _ => 0#8) s.store.bstore (b * bsSize + a) v } }
  | .hbm g => { s with store := { s.store with hbm := SMap.set (fun _ => 0#8) s.store.hbm (g * 2 ^ 37 + a) v } }
  | .host => { s with store := { s.store with host := SMap.set (fun _ => 0#8) s.store.host a v } }

def State.rdBytes (s : State) (sp : Space) (a : Nat) : Nat → List Byte
  | 0 => []
  | n + 1 => s.rdByte sp a :: s.rdBytes sp (a + 1) n

def State.wrBytes (s : State) (sp : Space) (a : Nat) : List Byte → State
  | [] => s
  | v :: r => (s.wrByte sp a v).wrBytes sp (a + 1) r

/-- Little-endian number of n bytes. -/
def State.rdN (s : State) (sp : Space) (a n : Nat) : Nat := leNat (s.rdBytes sp a n)
def State.wrN (s : State) (sp : Space) (a n v : Nat) : State := s.wrBytes sp a (leBytes n v)

/-- Size of the unit that carries a poison mark: 8 bytes of a block store, 64 bytes of HBM. -/
def Space.grain : Space → Nat
  | .bs _ => 8
  | _ => 64

/-- The mark of the poison unit with index i in a memory. -/
def Space.mark (sp : Space) (i : Nat) : Nat :=
  match sp with
  | .bs b => b * (bsSize / 8) + i
  | .hbm g => g * 2 ^ 31 + i
  | .host => i

def State.marks (s : State) (sp : Space) : List Nat :=
  match sp with
  | .bs _ => s.bsPoison
  | .hbm _ => s.hbmPoison
  | .host => []

def State.setMarks (s : State) (sp : Space) (l : List Nat) : State :=
  match sp with
  | .bs _ => { s with bsPoison := l }
  | .hbm _ => { s with hbmPoison := l }
  | .host => s

/-- Is any byte of [a, a + n) read poisoned? -/
def State.poisoned (s : State) (sp : Space) (a n : Nat) : Bool :=
  let lo := sp.mark (a / sp.grain)
  let hi := sp.mark ((a + n - 1) / sp.grain)
  n != 0 && (s.marks sp).any fun k => lo ≤ k && k ≤ hi

/-- Every unit that [a, a + n) touches becomes poisoned. -/
def State.poison (s : State) (sp : Space) (a n : Nat) : State :=
  let lo := a / sp.grain
  let cnt := (a + n - 1) / sp.grain + 1 - lo
  let new := ((List.range cnt).map fun i => sp.mark (lo + i)).filter fun k => !(s.marks sp).contains k
  if n = 0 then s else s.setMarks sp (s.marks sp ++ new)

/-- Every unit wholly inside [a, a + n) loses its mark (a whole write gives it a fresh code, R281, R284). -/
def State.unpoison (s : State) (sp : Space) (a n : Nat) : State :=
  let lo := sp.mark ((a + sp.grain - 1) / sp.grain)
  let hi := sp.mark ((a + n) / sp.grain)
  s.setMarks sp ((s.marks sp).filter fun k => !(decide (lo ≤ k) && decide (k < hi)))

/-- A store of bytes at a: the bytes, and the marks it clears. -/
def State.wr (s : State) (sp : Space) (a : Nat) (l : List Byte) : State :=
  (s.wrBytes sp a l).unpoison sp a l.length

/-- A little-endian store of n bytes. -/
def State.wrLe (s : State) (sp : Space) (a n v : Nat) : State := s.wr sp a (leBytes n v)

/-- Cell key of a pair's side (0 plus, 1 minus) in a row of tile-tier u. -/
def cellKey (u row pair side : Nat) : Nat := (u * 1024 + row) * 2112 + pair * 2 + side
/-- A cell's level, in thousandths of a level step. -/
def State.cell (s : State) (k : Nat) : Nat := SMap.get (fun _ => 31000) s.store.cells k
def State.setCell (s : State) (k v : Nat) : State :=
  { s with store := { s.store with cells := SMap.set (fun _ => 31000) s.store.cells k v } }
def State.norm (s : State) (k : Nat) : Nat := SMap.get (fun _ => 0) s.store.norms k
def State.setNorm (s : State) (k v : Nat) : State :=
  { s with store := { s.store with norms := SMap.set (fun _ => 0) s.store.norms k v } }

/-! ### Events -/

/-- Classes of events (R389, R613), as CLASS of R403 numbers them. -/
def eventClass (code : Nat) : Nat :=
  if [0x0102, 0x0133, 0x0240, 0x0242, 0x0252, 0x0254, 0x0600, 0x0280, 0x0502, 0x0610, 0x0650, 0x0414,
      0x0640].contains code then 1
  else if [0x0103, 0x0123, 0x0241, 0x0243, 0x0253, 0x0255, 0x0601, 0x0611, 0x0635, 0x0651, 0x0506,
      0x0413, 0x0641].contains code then 2
  else if [0x0522, 0x0281].contains code then 3
  else if [0x0105, 0x0106, 0x0230, 0x0244, 0x0250, 0x0251, 0x0260, 0x0261, 0x0270, 0x0271, 0x0272,
      0x0274, 0x0300, 0x0400, 0x0462, 0x0463, 0x0524, 0x0526, 0x0528, 0x0620, 0x0621, 0x0622, 0x0623,
      0x0626].contains code then 4
  else 0

/-- The region whose aggregator takes the events of a unit (R390; link and chip events have none). -/
def unitRegion (kind unit : Nat) : Option Nat :=
  match kind with
  | 1 => some (unit / 8192)
  | 2 => some (unit / 16)
  | 3 => some unit
  | 4 => some unit
  | 6 => some (unit / 16384)
  | _ => none

/-- Adds to the held report of the same code and unit; `none` when none is held. -/
def mergeHeld (r : Report) : List Report → Option (List Report)
  | [] => none
  | h :: hs =>
    if h.code = r.code ∧ h.kind = r.kind ∧ h.unit = r.unit then some ({ h with count := h.count + r.count } :: hs)
    else (mergeHeld r hs).map (h :: ·)

/-- An event is raised: to the region's aggregator, which holds and coalesces non-critical reports
(R412), or to firmware at once (critical events; link and chip events). -/
def State.report (s : State) (r : Report) : State :=
  let direct : State := { s with fw := { s.fw with reports := s.fw.reports ++ [r] } }
  match unitRegion r.kind r.unit with
  | none => direct
  | some g =>
    if eventClass r.code = 2 ∨ eventClass r.code = 3 then direct
    else
      let held := SMap.get (fun _ => []) s.aggs g
      match mergeHeld r held with
      | some h =>
        State.bump { s with aggs := SMap.set (fun _ => []) s.aggs g h } (regionReg g 0x5004) 31 0 r.count
      | none =>
        { s with aggs := SMap.set (fun _ => []) s.aggs g (held ++ [r]) }

/-- An event of a unit, of no job or task. -/
def State.raise (s : State) (code kind unit : Nat) : State :=
  s.report { code := code, kind := kind, unit := unit, job := 255, task := 0, count := 1 }

/-- An event of a unit, for a job and task. -/
def State.raiseJ (s : State) (code kind unit job task : Nat) : State :=
  s.report { code := code, kind := kind, unit := unit, job := job, task := task, count := 1 }

/-- A memory error that an access finds (R281, R284): the byte it hit, and whether the code corrects it. -/
def State.memFault (s : State) (sp : Space) (a : Nat) (double : Bool) : State :=
  match sp with
  | .bs b =>
    if double then
      (((s.poison sp a 1).setBit (blockReg b 0x1000) 1).bump (blockReg b 0x1004) 31 16 1).raise 0x0601 2 b
    else ((s.setBit (blockReg b 0x1000) 0).bump (blockReg b 0x1004) 15 0 1).raise 0x0600 2 b
  | .hbm g =>
    if double then
      (((s.poison sp a 1).setBit (regionReg g 0x3000) 1).bump (regionReg g 0x3004) 31 16 1).raise 0x0611 4 g
    else ((s.setBit (regionReg g 0x3000) 0).bump (regionReg g 0x3004) 15 0 1).raise 0x0610 4 g
  | .host => s

/-! ### Small helpers -/

/-- Replaces the element at an index (no change beyond the end). -/
def setAt {α : Type} : List α → Nat → α → List α
  | [], _, _ => []
  | _ :: r, 0, v => v :: r
  | x :: r, n + 1, v => x :: setAt r n v

/-- Applies a state change to each element in order. -/
def State.each {α : Type} (s : State) (f : State → α → State) : List α → State
  | [] => s
  | x :: r => (f s x).each f r

/-- The first element that satisfies p, with the list without it. -/
def pickFirst {α : Type} (p : α → Bool) : List α → Option (α × List α)
  | [] => none
  | x :: r => if p x then some (x, r) else (pickFirst p r).map fun (y, l) => (y, x :: l)

/-- Signed 16-bit and 32-bit readings. -/
def i16 (n : Nat) : Int := sext 16 n
def i32 (n : Nat) : Int := sext 32 n

end Sys2Proof.Machine
end

