-- ==== Sys2Proof/Machine/Gcm.lean ====
section
/-!
DEFINITION. Sys2Proof/Machine/Gcm.lean: AES-256-GCM (spec/17, R524). The spec names this function; its body is that of
FIPS 197 and SP 800-38D (PRESUMED, assumption 151).
-/
namespace Sys2Proof.Machine

/-! ### AES-256 -/

/-- A byte of the AES field times x. -/
def aesDouble (b : Byte) : Byte := (b <<< 1) ^^^ (if b.msb then 0x1B#8 else 0#8)

/-- The product of two bytes of the AES field, from the lowest `n` bits of the second. -/
def aesMul : Nat → Byte → Byte → Byte
  | 0, _, _ => 0#8
  | n + 1, a, b => (if b.getLsbD 0 then a else 0#8) ^^^ aesMul n (aesDouble a) (b >>> 1)

/-- The S-box: the inverse in the field (the 254th power), then the affine map. -/
def aesSub (b : Byte) : Byte :=
  let y := (List.replicate 127 b).foldl (fun p x => aesMul 8 p (aesMul 8 x x)) 1#8
  y ^^^ y.rotateLeft 1 ^^^ y.rotateLeft 2 ^^^ y.rotateLeft 3 ^^^ y.rotateLeft 4 ^^^ 0x63#8

/-- The next word of the key schedule; `w` holds the words so far, the latest first. -/
def aesNext (w : List (List Byte)) : List Byte :=
  let i := w.length
  let t := w.headD []
  let t := if i % 8 = 0 then
      match (t.drop 1 ++ t.take 1).map aesSub with
      | x :: r => (x ^^^ (1#8 <<< (i / 8 - 1))) :: r
      | [] => []
    else if i % 8 = 4 then t.map aesSub
    else t
  List.zipWith (fun x y => x ^^^ y) (w.getD 7 []) t

/-- The key schedule: `n` further words. -/
def aesExpand : Nat → List (List Byte) → List (List Byte)
  | 0, w => w
  | n + 1, w => aesExpand n (aesNext w :: w)

/-- The 15 round keys of a 32-byte key, 16 bytes each. -/
def aesKeys (key : List Byte) : List (List Byte) :=
  let first := (List.range 8).map fun i => (key.drop (4 * i)).take 4
  let ws := (aesExpand 52 first.reverse).reverse
  (List.range 15).map fun r => ((ws.drop (4 * r)).take 4).flatten

/-- The bytes of a state, substituted and with its rows shifted. -/
def aesShift (s : List Byte) : List Byte :=
  let t := s.map aesSub
  (List.range 16).map fun i => t.getD ((i + 4 * (i % 4)) % 16) 0#8

/-- One column mixed. -/
def aesMix : List Byte → List Byte
  | a :: b :: c :: d :: r =>
    let all := a ^^^ b ^^^ c ^^^ d
    (a ^^^ all ^^^ aesDouble (a ^^^ b)) :: (b ^^^ all ^^^ aesDouble (b ^^^ c)) ::
      (c ^^^ all ^^^ aesDouble (c ^^^ d)) :: (d ^^^ all ^^^ aesDouble (d ^^^ a)) :: aesMix r
  | _ => []

def xorBytes (a b : List Byte) : List Byte := List.zipWith (fun x y => x ^^^ y) a b

/-- The rounds after the first key. -/
def aesRounds : List (List Byte) → List Byte → List Byte
  | [], s => s
  | [k], s => xorBytes (aesShift s) k
  | k :: r, s => aesRounds r (xorBytes (aesMix (aesShift s)) k)

/-- One block of 16 bytes under the round keys. -/
def aesBlock (ks : List (List Byte)) (x : List Byte) : List Byte := aesRounds (ks.drop 1) (xorBytes x (ks.headD []))

/-! ### GCM -/

/-- The product in the field of GHASH, from the highest `n` bits of the first. -/
def ghashMul : Nat → BitVec 128 → BitVec 128 → BitVec 128
  | 0, _, _ => 0
  | n + 1, x, v =>
    (if x.msb then v else 0) ^^^
      ghashMul n (x <<< 1) ((v >>> 1) ^^^ (if v.getLsbD 0 then 0xE1#128 <<< 120 else 0))

/-- Blocks of 16 bytes, the last filled with zeros. -/
def blocks16 : Nat → List Byte → List (List Byte)
  | 0, _ => []
  | _ + 1, [] => []
  | n + 1, l => (l.take 16 ++ List.replicate (16 - l.length) 0#8) :: blocks16 n (l.drop 16)

/-- GHASH of whole blocks under H. -/
def ghash (h : BitVec 128) (l : List (List Byte)) : BitVec 128 :=
  l.foldl (fun y x => ghashMul 128 (y ^^^ BitVec.ofNat 128 (beNat x)) h) 0

/-- The key stream of a 12-byte IV, from counter value `c`, over a message. -/
def gcmStream (ks : List (List Byte)) (iv : List Byte) (c : Nat) (l : List Byte) : List Byte :=
  ((blocks16 l.length l).zipIdx.map fun (x, i) => xorBytes x (aesBlock ks (iv ++ beBytes 4 (c + i)))).flatten.take l.length

/-- The tag of a ciphertext and its associated data. -/
def gcmTag (ks : List (List Byte)) (iv aad c : List Byte) : List Byte :=
  let h := BitVec.ofNat 128 (beNat (aesBlock ks (List.replicate 16 0#8)))
  let ls := beBytes 8 (8 * aad.length) ++ beBytes 8 (8 * c.length)
  let s := ghash h (blocks16 aad.length aad ++ blocks16 c.length c ++ [ls])
  xorBytes (beBytes 16 s.toNat) (aesBlock ks (iv ++ beBytes 4 1))

/-- A message sealed: ciphertext and tag. -/
def gcmSeal (key iv aad p : List Byte) : List Byte :=
  let ks := aesKeys key
  let c := gcmStream ks iv 2 p
  c ++ gcmTag ks iv aad c

/-- A sealed message opened, when its tag holds. -/
def gcmOpen (key iv aad m : List Byte) : Option (List Byte) :=
  let ks := aesKeys key
  let c := m.take (m.length - 16)
  if m.drop (m.length - 16) = gcmTag ks iv aad c then some (gcmStream ks iv 2 c) else none

end Sys2Proof.Machine
end

