-- ==== Sys2Proof/Machine/Tasks.lean ====
section
/-!
DEFINITION. Sys2Proof/Machine/Tasks.lean: what every engine does to the task it works for: its record's
fields (R313, R314), the end of a part, poison (R392), failure (R322), and the handles a task holds
(R291, R295, R296).
-/
namespace Sys2Proof.Machine

/-! ### The task record (R313, R315) -/

/-- Bits [hi:lo] of the record, counted from byte offset `off`. -/
def recF (r off hi lo : Nat) : Nat := bits r (off * 8 + hi) (off * 8 + lo)

def recId (r : Nat) : Nat := recF r 0 31 0
def recKind (r : Nat) : Nat := recF r 4 3 0
def recPass (r : Nat) : Nat := recF r 4 5 4
def recBlock (r : Nat) : Nat := recF r 4 9 6
def recLs (r : Nat) : Bool := recF r 4 16 16 = 1
def recLastT (r : Nat) : Bool := recF r 4 17 17 = 1
def recRecLast (r : Nat) : Bool := recF r 4 18 18 = 1
def recBwdFirst (r : Nat) : Bool := recF r 4 19 19 = 1
def recGrad (r : Nat) : Bool := recF r 4 20 20 = 1
def recMb (r : Nat) : Nat := recF r 8 15 0
def recLayer (r : Nat) : Nat := recF r 8 25 16
/-- WAIT i, 16 bits. -/
def recWait (r i : Nat) : Nat := recF r (12 + 2 * i) 15 0
/-- SIG i, 32 bits. -/
def recSig (r i : Nat) : Nat := recF r (16 + 4 * i) 31 0
/-- BIND of address field i. -/
def recBind (r i : Nat) : Nat := recF r 24 (2 * i + 1) (2 * i)
def recHuse (r h : Nat) : Bool := recF r 28 h h = 1
def recHrec (r h : Nat) : Bool := recF r 28 (4 + h) (4 + h) = 1
def recHandle (r h : Nat) : Nat := recF r (32 + 4 * h) 31 0

/-! ### Handles (R291) -/

def hSlot (h : Nat) : Nat := bits h 15 0
def hOwner (h : Nat) : Nat := bits h 20 16
def hPool (h : Nat) : Nat := bits h 23 21
def hGen (h : Nat) : Nat := bits h 31 24

def Allocator.entry (a : Allocator) (i : Nat) : HEntry := SMap.get (fun _ => HEntry.init) a.table i
def Allocator.setEntry (a : Allocator) (i : Nat) (e : HEntry) : Allocator :=
  { a with table := SMap.set (fun _ => HEntry.init) a.table i e }

def State.hentry (s : State) (h : Nat) : HEntry := (s.alloc (hOwner h)).entry (hSlot h)
def State.setHentry (s : State) (h : Nat) (e : HEntry) : State :=
  s.setAlloc (hOwner h) ((s.alloc (hOwner h)).setEntry (hSlot h) e)

/-- Does the handle's OWNER, POOL and GEN match an entry that is not FREE, or a FREE one of the same GEN?
A null or malformed handle matches none (R291, R298). -/
def State.hmatch (s : State) (h : Nat) : Bool :=
  let e := s.hentry h
  h != 0 && hOwner h ≤ 16 && hGen h != 0 && hGen h = e.gen && hPool h = e.pool &&
    (if hOwner h = 16 then hSlot h < 4096 && hPool h = 2 else hSlot h < 16384 && hPool h < 2)

/-- A record's prefetch that still waits for pages is given up. -/
def State.dropPrefetch (s : State) (h : Nat) : State :=
  let a := s.alloc (hOwner h)
  s.setAlloc (hOwner h) { a with
    queues := a.queues.foldl (fun m (i, l) => SMap.set (fun _ => []) m i (l.filter fun q => q.by_ != .pager h)) [] }

/-- The entry becomes FREE and its pages return; a record's window pages return with it (R296), and its prefetch that still
waits for pages is given up (R306). The generation stays, so that a second FREE is known. -/
def State.freeEntry (s : State) (h : Nat) : State :=
  let e := s.hentry h
  let s := s.setHentry h { e with state := .free, inuse := 0, zeroing := false }
  if e.pager then
    let s := s.dropPrefetch h
    let sl := s.slot e.job
    s.setSlot e.job { sl with acts := sl.acts.filter fun r => r.handle != h }
  else s

/-- INUSE falls by one; a FREEING entry whose count reaches 0 is freed (R296). -/
def State.decUse (s : State) (h : Nat) : State :=
  let e := s.hentry h
  let s := s.setHentry h { e with inuse := e.inuse - 1 }
  if e.state = .freeing ∧ e.inuse ≤ 1 then s.freeEntry h else s

/-! ### Running tasks -/

def findRun (num : Nat) (l : List RTask) : Option RTask := l.find? fun r => r.num = num

def State.run (s : State) (b num : Nat) : Option RTask := findRun num (s.block b).running

def State.modRun (s : State) (b num : Nat) (f : RTask → RTask) : State :=
  let B := s.block b
  s.setBlock b { B with running := B.running.map fun r => if r.num = num then f r else r }

/-! ### Fused kernels (R243) -/

/-- The part of a fused kernel that a task of region g's list is. -/
def Slot.kcall (sl : Slot) (g id : Nat) : Option Config.KCall :=
  (SMap.get (fun _ => DList.init) sl.lists g).calls.find? fun c => c.task == id

/-- The task is a part of kernel k. -/
def Slot.isKernel (sl : Slot) (k g id : Nat) : Bool := match sl.kcall g id with | some c => c.kid == k | none => false

/-- The part of a fused kernel that a task of block b is. -/
def State.kernelOf (s : State) (j b id : Nat) : Option Config.KCall := (s.slot j).kcall (b / 16) id

/-! ### Tokens of engines (R326) -/

def mmReq (r : Nat) : Nat := recF r 0x30 255 0
def mvBits (r : Nat) : Nat := recF r 0x30 31 0
def mvMover (r : Nat) : Nat := bits (mvBits r) 7 7
def mvSrc (r : Nat) : Nat := bits (mvBits r) 2 0
def mvDst (r : Nat) : Nat := bits (mvBits r) 6 4

/-- Requester numbers of a region's token arbiter: its tiles by b × 64 + t, then matrix cores, movers 0, movers 1
and carry engines by b, then pager transfers (`pagerReq`). -/
def tokMatrix (b : Nat) : Nat := 1024 + b % 16
def tokMover (b m : Nat) : Nat := 1040 + 16 * m + b % 16
def tokCarry (b : Nat) : Nat := 1072 + b % 16

/-- Cost of a matrix request by its operand format. -/
def mmCost (q : Nat) : Nat := if bits q 6 4 = 0 then 250 else if bits q 6 4 ≤ 2 then 300 else 400

/-- What a requester holds, tiles apart. -/
def State.held (s : State) (g req : Nat) : Nat := (((s.tok g).held.filter fun x => x.1 == req).map fun x => x.2).sum

/-- A MOVE that ends in HBM at either end. -/
def mvHbm (r : Nat) : Bool := [1, 2].contains (mvSrc r) || [1, 2].contains (mvDst r)

/-- The tokens a task's engine must hold to start it: requester and amount. -/
def taskTokens (b r : Nat) : Option (Nat × Nat) :=
  match recKind r with
  | 2 => some (tokMatrix b, mmCost (mmReq r))
  | 4 => if mvHbm r then some (tokMover b (mvMover r), 200) else none
  | 6 => some (tokCarry b, 200)
  | _ => none

/-- A requester of block b gives back the tokens that no running task of its engine needs. -/
def State.trimTokens (s : State) (b req : Nat) : State :=
  let need := ((s.block b).running.filterMap fun x => match taskTokens b x.task.record with
    | some (q, n) => if q = req then some n else none
    | none => none).foldl max 0
  let k := s.tok (b / 16)
  let rest := k.held.filter fun x => x.1 != req
  s.setTok (b / 16) { k with held := if need = 0 then rest else rest ++ [(req, min need (s.held (b / 16) req))] }

/-- The engine of a task that leaves gives back the tokens that it no longer needs, however the task ends (R322, R326). -/
def State.returnTokens (s : State) (b r : Nat) : State :=
  match taskTokens b r with
  | none => s
  | some (req, _) => s.trimTokens b req

/-- The task leaves its engine; its handles' INUSE counts fall (R295), its tokens return (R326), and a half of a
double-slice request that waits for its other half goes with it. -/
def State.dropRun (s : State) (b num : Nat) : State :=
  match s.run b num with
  | none => s
  | some r =>
    let B := s.block b
    let s := s.setBlock b { B with running := B.running.filter (fun x => x.num != num), halves := B.halves.filter fun h => h.req.task.num != num }
    (s.each (fun s h => s.decUse h) r.handles).returnTokens b r.task.record

/-- One part of a task's work is complete. -/
def State.partDone (s : State) (b num : Nat) : State := s.modRun b num fun r => { r with left := r.left - 1 }

/-- The task's results are marked poisoned (R392 applies when it completes). -/
def State.poisonTask (s : State) (b num : Nat) : State := s.modRun b num fun r => { r with poisoned := true }

/-! ### Bound addresses (R292, R315) -/

/-- Where byte i of a bound address lies. -/
def BAddr.at (a : BAddr) (i : Nat) : Space × Nat :=
  let o := a.off + i
  match a.pool with
  | 0 => (.bs a.unit, a.base + o)
  | 1 => (.hbm a.unit, a.base + o)
  | _ => (.hbm (o / 2 ^ 21 % 16), 2 ^ 21 * (a.base + o / 2 ^ 25) + o % 2 ^ 21)

/-- Absolute byte address of a block-store address field. -/
def BAddr.abs (a : BAddr) : Nat := a.base + a.off
/-- Address field i of a task. -/
def addrAt (l : List BAddr) (i : Nat) : BAddr := l.getD i { pool := 0, unit := 0, base := 0, off := 0 }

def BAddr.plus (a : BAddr) (n : Nat) : BAddr := { a with off := a.off + n }

def State.rdAt (s : State) (a : BAddr) (n : Nat) : List Byte :=
  (List.range n).map fun i => s.rdByte (a.at i).1 (a.at i).2

def State.rdNAt (s : State) (a : BAddr) (n : Nat) : Nat := leNat (s.rdAt a n)

/-- Is any of n bytes read poisoned? -/
def State.poisonedAt (s : State) (a : BAddr) (n : Nat) : Bool :=
  (List.range n).any fun i => s.poisoned (a.at i).1 (a.at i).2 1

/-- A store that crosses pages of the spread pool, page by page. -/
def State.wrPages (s : State) (a : BAddr) : Nat → List Byte → State
  | 0, _ => s
  | _ + 1, [] => s
  | n + 1, l =>
    let first := 2 ^ 21 - a.off % 2 ^ 21
    (s.wr (a.at 0).1 (a.at 0).2 (l.take first)).wrPages (a.plus first) n (l.drop first)

/-- A store of bytes through a bound address. -/
def State.wrAt (s : State) (a : BAddr) (l : List Byte) : State :=
  if a.pool < 2 then s.wr (a.at 0).1 (a.at 0).2 l else s.wrPages a l.length l

def State.poisonAt (s : State) (a : BAddr) (n : Nat) : State :=
  s.each (fun s i => s.poison (a.at i).1 (a.at i).2 1) (List.range n)

/-- Number of a memory for `RTask.writes`. -/
def Space.code : Space → Nat
  | .bs b => b
  | .hbm g => 256 + g
  | .host => 272

/-- A running task writes: the bytes, and the note that R398 needs. -/
def State.wrT (s : State) (b num : Nat) (sp : Space) (a : Nat) (l : List Byte) : State :=
  let old := s.rdBytes sp a l.length
  (s.wr sp a l).modRun b num fun r => if r.redundant then { r with writes := r.writes ++ [(sp.code, a, old)] } else r

/-- The same through a bound address. -/
def State.wrTAt (s : State) (b num : Nat) (a : BAddr) (l : List Byte) : State :=
  let old := s.rdAt a l.length
  (s.wrAt a l).modRun b num fun r =>
    if r.redundant then { r with writes := r.writes ++ [((a.at 0).1.code, (a.at 0).2, old)] } else r

/-- A task fails (R322): it sends no signal, TASKFAIL is set and event 0x0272 names it. -/
def State.failTask (s : State) (b num : Nat) : State :=
  match s.run b num with
  | none => s
  | some r =>
    let s := if r.redundant then s.dropRun (b + 1 - 2 * (b % 2)) num else s
    ((s.dropRun b num).setBit (blockReg b 0xC304) 24).raiseJ 0x0272 2 b r.task.job (recId r.task.record)

/-- The storage errors that a step's accesses find. A correction by the on-die ECC of a stack sets HBM_STATUS.ONDIE and
counts as nothing more (after R284). -/
def State.memErrs (s : State) (l : List MemErr) : State :=
  s.each (fun s e =>
    if e.hbm && e.onDie then s.setBit (regionReg (e.unit % 16) 0x3000) 2
    else s.memFault (if e.hbm then .hbm (e.unit % 16) else .bs (e.unit % 256)) e.addr e.double) l

/-- A block's global ID from a tile's. -/
def tileBlock (t : Nat) : Nat := t / 64

end Sys2Proof.Machine
end

