-- ==== Sys2Proof/Machine/Numeric.lean ====
section
/-!
DEFINITION. Sys2Proof/Machine/Numeric.lean: the numeric contexts of spec/07: the flush flag (R217), NaN
reports and the first-NaN trap (R219 to R221), the local non-finite flags (R227, R228), scale overflow,
the loss scale (R223 to R226), the zero-gradient watch (R235 to R238) and the rounding generators
(R212, R213).
-/
namespace Sys2Proof.Machine

/-- NUM_MODE.DENORM of a slot (R215). -/
def State.denorm (s : State) (j : Nat) : Bool := s.rbit (numReg j 0) 0
/-- NUM_MODE.NUMPOL of a slot: true is NUMPOL_SUMS (R214). -/
def State.sums (s : State) (j : Nat) : Bool := s.rbit (numReg j 0) 1

/-- A unit working for the job replaced a nonzero value by zero (R217). -/
def State.flushed (s : State) (j : Nat) : State := s.setBit (numReg j 4) 0

/-- The local non-finite flag of step n is set (R227, R228). -/
def State.setNf (s : State) (j n : Nat) : State :=
  let v := (s.slot j).vstep
  if n = v then s.setBit (numReg j 4) 5
  else if n = v + 1 then s.setBit (numReg j 4) 6
  else s

/-- The local non-finite flag of step n. -/
def State.nf (s : State) (j n : Nat) : Bool :=
  let v := (s.slot j).vstep
  if n = v then s.rbit (numReg j 4) 5 else if n = v + 1 then s.rbit (numReg j 4) 6 else false

/-- A unit meets a NaN: its report sets out for the job's numeric context (R219). -/
def State.nanReport (s : State) (j : Nat) (r : NanRep) : State :=
  let sl := s.slot j
  s.setSlot j { sl with nanQ := sl.nanQ ++ [r] }

/-- A scale overflow (R156, R158, R199): SCALE_OVF, the step's non-finite flag (R227), event 0x0920. -/
def State.scaleOvf (s : State) (b : Nat) (t : TaskRef) : State :=
  ((s.setBit (numReg t.job 4) 2).setNf t.job t.step).raiseJ 0x0920 2 b t.job t.id

/-- The report that the latch takes among those that arrive together: the first requester at or after the
pointer (R221). -/
def pickReport (ptr : Nat) : Nat → List NanRep → Option NanRep
  | 0, _ => none
  | n + 1, l =>
    match l.find? fun r => r.req = ptr % 18 with
    | some r => some r
    | none => pickReport (ptr + 1) n l

/-- A report is latched into the trap registers (R220). -/
def State.latchNan (s : State) (j : Nat) (r : NanRep) : State :=
  let s := (s.setBit (numReg j 4) 3).setRn (numReg j 0x14) (r.unit + r.op * 256 + r.blk * 65536)
  let s := s.setRn (numReg j 0x18) r.task
  let s := s.setRn (numReg j 0x1C) (r.x % 65536 + r.y % 65536 * 65536)
  let s := s.setRn (numReg j 0x20) (r.z % 65536 + r.w % 65536 * 65536)
  let sl := s.slot j
  let s := s.setSlot j { sl with nanPtr := (r.req + 1) % 18 }
  s.raiseJ 0x0900 0 0 j r.task

/-- `n` reports reach a numeric context in one cycle (R219 to R221, R227). The step's flag of a report of the link complex
(requester 16) is held in its round until the accept verdict (R230). -/
def State.nanArrive (s : State) (j n : Nat) : State :=
  let sl := s.slot j
  let now := sl.nanQ.take n
  let trapped := s.rbit (numReg j 4) 3
  let s := s.setSlot j { sl with nanQ := sl.nanQ.drop n }
  let s := (s.setBit (numReg j 4) 1).bump (numReg j 0x10) 31 0 now.length
  let s := s.each (fun s r => if r.req = 16 then s else s.setNf j r.step) now
  if trapped then s
  else
    match pickReport sl.nanPtr 18 now with
    | some r => s.latchNan j r
    | none => s

/-- NAN_REPORT: the `n` oldest reports on their way to slot j arrive in one cycle (R219 to R221). -/
def execNanReport (j : SlotId) (n : Nat) (s : State) : Out :=
  whenever (n != 0 && n ≤ (s.slot j.val).nanQ.length) s
    (s.nanArrive j.val n)

/-! ### Loss scale and verdict (R224 to R226) -/

/-- s of a slot, or none with LS_EN = 0. -/
def State.lossExp (s : State) (j : Nat) : Int :=
  if s.rbit (numReg j 0) 2 then sext 6 (s.rf (numReg j 8) 5 0) else 0

/-- s of a step: that which its first backward task has fixed, or the present one before (R223, R224). -/
def State.lossAt (s : State) (j step : Nat) : Int := SMap.get (fun _ => s.lossExp j) (s.slot j).stepS step

/-- The FP32 code of 2^k (k within the normal range). -/
def pow2Code (k : Int) : Nat := fp32.encodeMag false 1 k

/-- The loss-scale update at a verdict (R226), LAST_VERDICT, the skip count, and the shift of the two local
flags to the next step (R228). -/
def State.verdictNumeric (s : State) (j : Nat) (nonfinite : Bool) : State :=
  let lsEn := s.rbit (numReg j 0) 2
  let e := sext 6 (s.rf (numReg j 8) 5 0)
  let clean := s.rf (numReg j 8) 31 16
  let interval := s.rf (numReg j 0) 31 16
  let s := s.setRf (numReg j 4) 7 7 (b2n nonfinite)
  let s := s.setRf (numReg j 4) 5 5 (s.rf (numReg j 4) 6 6)
  let s := s.setRf (numReg j 4) 6 6 0
  let sl := s.slot j
  let s := s.setSlot j { sl with vstep := sl.vstep + 1 }
  if nonfinite then
    let s := (s.bump (numReg j 0xC) 31 0 1).raiseJ 0x0910 0 0 j 0
    if !lsEn then s
    else if -8 < e then s.setRn (numReg j 8) (enc2c 6 (e - 1))
    else ((s.setBit (numReg j 4) 4).setRf (numReg j 8) 31 16 0).raiseJ 0x0912 0 0 j 0
  else if !lsEn then s
  else if clean + 1 < interval then s.setRf (numReg j 8) 31 16 (clean + 1)
  else if e < 24 then (s.setRn (numReg j 8) (enc2c 6 (e + 1))).raiseJ 0x0911 0 0 j 0
  else s.setRf (numReg j 8) 31 16 0

/-- Key of a watch entry's counts in a step (R235). -/
def zgwKey (step e : Nat) : Nat := step * 4096 + e

/-- One watch entry at a finite verdict (R236, R237). -/
def State.watchEval (s : State) (j e : Nat) : State :=
  let cfg := s.rn (zgwReg e 4)
  let sl := s.slot j
  let n := SMap.get (fun _ => 0) sl.zgwN (zgwKey sl.vstep e)
  let nz := SMap.get (fun _ => 0) sl.zgwNz (zgwKey sl.vstep e)
  if fld cfg 0 0 = 1 ∧ fld cfg 11 6 = j ∧ n ≠ 0 then
    let s := s.setRn (zgwReg e 0xC) (min nz (2 ^ 32 - 1))
    if nz * 2 ^ fld cfg 5 1 < n then
      let run := min 65535 (s.rf (zgwReg e 8) 15 0 + 1)
      let s := s.setRf (zgwReg e 8) 15 0 run
      if fld cfg 31 16 ≤ run ∧ ¬ s.rbit (zgwReg e 8) 16 then
        (s.setBit (zgwReg e 8) 16).report
          { code := 0x0940, kind := 0, unit := 0, job := j, task := s.rn (zgwReg e 0), count := 1, info := [e, nz] }
      else s
    else s.setRn (zgwReg e 8) 0
  else s

/-- Every watch entry of the job at a finite verdict; the counts of the step are over (R235, R236). -/
def State.watchVerdict (s : State) (j : Nat) (nonfinite : Bool) : State :=
  let s := if nonfinite then s else s.each (fun s e => s.watchEval j e) (List.range 4096)
  let sl := s.slot j
  let later (m : SMap Nat) : SMap Nat := m.filter fun x => decide (zgwKey (sl.vstep + 1) 0 ≤ x.1)
  s.setSlot j { sl with zgwN := later sl.zgwN, zgwNz := later sl.zgwNz }

/-! ### Rounding generators (R212, R213, R397) -/

/-- The next n 16-bit values of a running task's stream, as a function of their index, and the state that has
taken them. Both blocks of a redundant pair share a task's stream (R397). -/
def State.drawRound (s : State) (b num n : Nat) : (Nat → Nat) × State :=
  match s.run b num with
  | none => (fun k => (Config.roundBits s.draws k).toNat, { s with draws := s.draws + 1 })
  | some r =>
    (fun k => (Config.roundBits r.stream (r.rng + k)).toNat, s.modRun b num fun x => { x with rng := x.rng + n })

end Sys2Proof.Machine
end

