-- ==== Sys2Proof/Machine/Trans.lean ====
section
/-!
DEFINITION. Sys2Proof/Machine/Trans.lean: square root and quotient of exact values, and the functions of the six
transcendental instructions (spec/06, the table after R181) to within far less than an ulp, from which a free value chooses
a code inside the error bound that the table states.
-/
namespace Sys2Proof.Machine

/-- Integer square root, from a given bit down. -/
def isqrtFrom (n : Nat) : Nat → Nat → Nat
  | 0, r => if (r + 1) * (r + 1) ≤ n then r + 1 else r
  | i + 1, r =>
    let c := r + 2 ^ (i + 1)
    isqrtFrom n i (if c * c ≤ n then c else r)

/-- √x, with a sticky last bit for its rounding. -/
def FpNum.sqrt (x : FpNum) : FpNum :=
  match x with
  | .fin false m e =>
    if m = 0 then x
    else
      let k : Int := e - 128
      let odd := k % 2 = 1 || k % 2 = -1
      let n := m * 2 ^ (if odd then 129 else 128)
      let k := if odd then k - 1 else k
      let r := isqrtFrom n 120 0
      .fin false (2 * r + (if r * r = n then 0 else 1)) (k / 2 - 1)
  | .fin true m e => if m = 0 then .fin true m e else .nan false
  | .inf false => .inf false
  | _ => .nan false

/-- x ÷ y for y ≠ 0, with a sticky last bit for its rounding. -/
def FpNum.div (x y : FpNum) : FpNum :=
  match x, y with
  | .fin a m e, .fin b n f =>
    if n = 0 then .nan false
    else
      let q := m * 2 ^ 80 / n
      .fin (a != b) (2 * q + (if m * 2 ^ 80 % n = 0 then 0 else 1)) (e - f - 81)
  | .fin a _ _, .inf b => .fin (a != b) 0 0
  | .inf a, .fin b _ _ => .inf (a != b)
  | _, _ => .nan false

/-! ### Fixed point: 160 bits after the point -/

def fixOne : Nat := 2 ^ 160
/-- ln 2 and log2 e. -/
def fixLn2 : Nat := 1013035739299659071135698605846798551586536899366
def fixLog2e : Nat := 2108501164428393954197770173035669514763056903505

/-- Σ x^k ÷ k! from term k on, `t` being the term before it. -/
def fixExpFrom (x : Nat) : Nat → Nat → Nat → Nat
  | 0, _, _ => 0
  | n + 1, k, t => let t := t * x / fixOne / k; t + fixExpFrom x n (k + 1) t

/-- 2^f for f below 1. -/
def fixExp2 (f : Nat) : Nat := fixOne + fixExpFrom (f * fixLn2 / fixOne) 60 1 fixOne

/-- Σ y^(2k+1) ÷ (2k + 1) from k on, `t` being y^(2k+1). -/
def fixAtanhFrom (y2 : Nat) : Nat → Nat → Nat → Nat
  | 0, _, _ => 0
  | n + 1, k, t => t / (2 * k + 1) + fixAtanhFrom y2 n (k + 1) (t * y2 / fixOne)

/-- log2 m for m from 1 to below 2. -/
def fixLog2 (m : Nat) : Nat :=
  let y := (m - fixOne) * fixOne / (m + fixOne)
  2 * fixAtanhFrom (y * y / fixOne) 80 0 y * fixOne / fixLn2

/-- |x| as a fixed-point number (exact for every FP32 value up to 2^128). -/
def fixOf (m : Nat) (e : Int) : Nat := m * 2 ^ (e + 160).toNat / 2 ^ (-(e + 160)).toNat

/-- 2^v for a fixed-point v of either sign: an exact value, and whether v is an integer. -/
def exp2Fix (v : Int) : FpNum × Bool :=
  let n := v / (fixOne : Int)
  let f := (v % (fixOne : Int)).toNat
  (.fin false (fixExp2 f) (n - 160), f == 0)

/-- e^|x|, in fixed point (x below 300). -/
def fixExpE (m : Nat) (e : Int) : Nat :=
  let v := fixOf m e * fixLog2e / fixOne
  fixExp2 (v % fixOne) * 2 ^ (v / fixOne)

/-- The function of a transcendental opcode at a finite nonzero operand, of which a square root or logarithm has one: the value,
and whether it is exact. -/
def transVal (op : Nat) (s : Bool) (m : Nat) (e : Int) : FpNum × Bool :=
  let even (x : FpNum) : Bool := match x with | .fin _ n _ => n % 2 == 0 | _ => true
  let small := e + (bitLen m : Int) < -20
  match op with
  | 0x1A => let y := FpNum.div (.fin s 1 0) (.fin false m e); (y, even y)
  | 0x1B =>
    let q := FpNum.div (.fin false 1 0) (.fin false m e)
    let y := q.sqrt
    (y, even q && even y)
  | 0x1C => let v : Int := fixOf m e; exp2Fix (if s then -v else v)
  | 0x1D =>
    let l := bitLen m - 1
    let v : Int := (e + (l : Int)) * (fixOne : Int) + (fixLog2 (m * fixOne / 2 ^ l) : Int)
    (FpNum.ofInt false v (-160), m == 2 ^ l)
  | 0x1E =>
    if small then (.fin s (m * 2 ^ 64 - 1) (e - 64), false)
    else if fixOf m e ≥ 32 * fixOne then (.fin s (2 ^ 64 - 1) (-64), false)
    else let x := fixExpE (2 * m) e; (.fin s ((x - fixOne) * fixOne / (x + fixOne)) (-160), false)
  | _ =>
    if fixOf m e ≥ 256 * fixOne then (if s then (.fin false 1 (-300), false) else (.fin false (2 ^ 64 - 1) (-64), false))
    else
      let x := fixExpE m e
      let n := if s then fixOne else x
      (.fin false (n * 2 ^ 400 / (fixOne + x)) (-400), false)

/-- A code within u ulp of an exact value whose truncation has the code c: a free value t chooses it. -/
def withinUlp (u : Nat) (exact : Bool) (t c : Nat) : Nat :=
  if exact then c + t % (2 * u + 1) - u else c + t % (2 * u) - (u - 1)

end Sys2Proof.Machine
end

