-- ==== Sys2Proof/Machine/Vector.lean ====
section
/-!
DEFINITION. Sys2Proof/Machine/Vector.lean: the vector engine (spec/06, R171 to R202; spec/08, R250 to R253):
the instruction word, what makes a word illegal, operands and broadcasts, the effect of every opcode on
the lanes, traps and checks, and the one way every instruction is executed.
-/
namespace Sys2Proof.Machine

/-! ### The instruction word (R173) -/

def wOp (w : Nat) : Nat := bits w 7 0
def wVd (w : Nat) : Nat := bits w 12 8
def wVa (w : Nat) : Nat := bits w 17 13
def wVb (w : Nat) : Nat := bits w 22 18
def wVc (w : Nat) : Nat := bits w 27 23
def wBa (w : Nat) : Nat := bits w 29 28
def wBb (w : Nat) : Nat := bits w 31 30
def wBc (w : Nat) : Nat := bits w 33 32
def wRm (w : Nat) : Nat := bits w 36 34
def wSb (w : Nat) : Bool := bits w 37 37 = 1
def wImm (w : Nat) : Nat := bits w 63 40

/-- Memory immediate fields. -/
def wStride (w : Nat) : Nat := bits (wImm w) 11 0
def wOffset (w : Nat) : Nat := bits (wImm w) 19 12
def wSw (w : Nat) : Nat := bits (wImm w) 21 20
def wCh (w : Nat) : Bool := bits (wImm w) 22 22 = 1
def wPart (w : Nat) : Nat := bits w 25 23
/-- Bytes per row of an LD or ST. -/
def wWidth (w : Nat) : Nat := 64 / 2 ^ wSw w

/-- Convert fields: FMT, PART, MX, XS. -/
def cFmt (w : Nat) : Nat := bits (wImm w) 2 0
def cPart (w : Nat) : Nat := bits (wImm w) 5 3
def cMx (w : Nat) : Bool := bits (wImm w) 6 6 = 1
def cXs (w : Nat) : Int := sext 8 (bits (wImm w) 15 8)

/-- The format of FMT (0b101, INT8, is no binary format). -/
def cFormat (n : Nat) : Fmt :=
  match n with
  | 0 => bf16
  | 1 => fp16
  | 2 => e4m3
  | 3 => e5m2
  | _ => e2m1

/-- Bits of one packed element. -/
def cBits (n : Nat) : Nat := if n = 5 then 8 else (cFormat n).width

/-- Limit of PART without and with an MX group (R185 to R187). -/
def cPartMax (n : Nat) : Nat := 32 / cBits n

/-- Which fields an opcode uses: VD, VA, VB, VC as registers of the given count (0: unused), broadcasts, SB,
the IMM bits, and how it treats RM: 0 none but 0b000, 1 no rounding (0b000 or 0b100), 2 any mode, 3 a sum
tree (0b000 or 0b100). -/
structure VeUse where
  vd : Nat
  va : Nat
  vb : Nat
  vc : Nat
  sb : Bool
  imm : Nat
  rm : Nat
  deriving DecidableEq, Repr

/-- The opcode table (spec/06, "Opcodes and timing"). -/
def veUse (op : Nat) : Option VeUse :=
  let two (rm : Nat) : Option VeUse := some { vd := 32, va := 32, vb := 32, vc := 0, sb := true, imm := 0, rm := rm }
  let one (imm rm : Nat) : Option VeUse := some { vd := 32, va := 32, vb := 0, vc := 0, sb := false, imm := imm, rm := rm }
  match op with
  | 0x00 => some { vd := 0, va := 0, vb := 0, vc := 0, sb := false, imm := 0, rm := 1 }
  | 0x01 => some { vd := 32, va := 0, vb := 8, vc := 8, sb := false, imm := 0x7FFFFF, rm := 1 }
  | 0x02 => some { vd := 0, va := 32, vb := 8, vc := 8, sb := false, imm := 0x7FFFFF, rm := 1 }
  | 0x03 => some { vd := 16, va := 0, vb := 8, vc := 8, sb := false, imm := 0x4FF000, rm := 1 }
  | 0x04 => some { vd := 0, va := 16, vb := 8, vc := 8, sb := false, imm := 0x4FF000, rm := 1 }
  | 0x08 => some { vd := 8, va := 0, vb := 0, vc := 0, sb := false, imm := 0x1FFFF, rm := 1 }
  | 0x09 => some { vd := 8, va := 0, vb := 0, vc := 0, sb := false, imm := 0xFFFFFF, rm := 1 }
  | 0x0A => some { vd := 16, va := 0, vb := 0, vc := 0, sb := false, imm := 0xFFFFFF, rm := 1 }
  | 0x0B => some { vd := 16, va := 0, vb := 0, vc := 0, sb := false, imm := 0xFF, rm := 1 }
  | 0x10 => two 2 | 0x11 => two 2 | 0x12 => two 2
  | 0x13 => some { vd := 32, va := 32, vb := 32, vc := 32, sb := true, imm := 0, rm := 2 }
  | 0x14 => two 1 | 0x15 => two 1
  | 0x16 => one 0 1 | 0x17 => one 0 1
  | 0x18 => one 0xFF 2
  | 0x1A => one 0 0 | 0x1B => one 0 0 | 0x1C => one 0 0 | 0x1D => one 0 0 | 0x1E => one 0 0 | 0x1F => one 0 0
  | 0x20 => two 1 | 0x21 => two 1 | 0x22 => two 1
  | 0x23 => some { vd := 32, va := 32, vb := 32, vc := 32, sb := true, imm := 0, rm := 1 }
  | 0x28 => two 1 | 0x29 => two 1 | 0x2A => two 1 | 0x2B => two 1 | 0x2C => two 1 | 0x2D => two 1
  | 0x2E => two 1 | 0x2F => two 1 | 0x30 => two 1 | 0x31 => two 1
  | 0x38 => some { vd := 32, va := 32, vb := 32, vc := 0, sb := false, imm := 0xFF7F, rm := 0 }
  | 0x39 => some { vd := 32, va := 32, vb := 32, vc := 0, sb := false, imm := 0xFF7F, rm := 2 }
  | 0x3A => one 0xFF 2 | 0x3B => one 0xFF 2
  | 0x40 => one 0 3 | 0x41 => one 0 3
  | 0x42 => one 0 1 | 0x43 => one 0 1 | 0x44 => one 0 1 | 0x45 => one 0 1
  | 0x46 => some { vd := 16, va := 32, vb := 0, vc := 0, sb := false, imm := 0, rm := 3 }
  | 0x48 => some { vd := 32, va := 32, vb := 16, vc := 32, sb := true, imm := 0xFF, rm := 2 }
  | 0x4C => one 0 2 | 0x4D => one 0 1
  | 0x50 => some { vd := 32, va := 0, vb := 0, vc := 0, sb := false, imm := 0x7F, rm := 0 }
  | 0x60 => some { vd := 0, va := 0, vb := 0, vc := 0, sb := false, imm := 0x1FFFFF, rm := 1 }
  | 0x61 => some { vd := 0, va := 0, vb := 0, vc := 0, sb := false, imm := 0, rm := 1 }
  | 0x62 => some { vd := 0, va := 0, vb := 0, vc := 0, sb := false, imm := 0, rm := 1 }
  | _ => none

/-- A register field below its count; an unused one 0. -/
def regOk (n v : Nat) : Bool := if n = 0 then v = 0 else v < n

/-- R175, apart from what depends on the state of the loops: the word is legal in a vector program, or in an
element program when `chain` (R195). -/
def veLegal (chain : Bool) (w : Nat) : Bool :=
  match veUse (wOp w) with
  | none => false
  | some u =>
    let op := wOp w
    let mem := op = 1 ∨ op = 2
    let cvt := op = 0x38 ∨ op = 0x39
    regOk u.vd (wVd w) && regOk u.va (wVa w) && regOk (if wSb w then 16 else u.vb) (wVb w) && regOk u.vc (wVc w) &&
    bits w 39 38 == 0 &&
    (wBa w == 0 || (u.va == 32)) &&
    (wBb w == 0 || (u.vb == 32 && !wSb w)) &&
    (wBc w == 0 || (u.vc == 32)) &&
    (!wSb w || u.sb) && (op != 0x48 || wSb w) &&
    wImm w &&& (0xFFFFFF - u.imm) == 0 &&
    (match u.rm with
     | 0 => wRm w == 0
     | 2 => decide (wRm w ≤ 4)
     | _ => wRm w == 0 || wRm w == 4) &&
    (!decide mem || (decide (wPart w < 64 / wWidth w) && (op != 1 || wSw w == 0) && (op != 2 || wStride w != 0) &&
      (chain || !wCh w))) &&
    (!decide cvt || (decide (cFmt w ≤ 5) && (cFmt w == 5 || bits (wImm w) 15 8 == 0) &&
      (!cMx w || (decide (2 ≤ cFmt w) && decide (cFmt w ≤ 4))) &&
      (if cMx w ∧ op = 0x39 then decide (cPart w < cPartMax (cFmt w) / 2) && wVa w % 2 == 0 && wBb w == 0
       else decide (cPart w < cPartMax (cFmt w))) &&
      (cMx w || (wVb w == 0 && wBb w == 0)))) &&
    (op != 0x50 || (decide (bits (wImm w) 3 0 ≤ 10) && decide (bits (wImm w) 5 4 ≤ 1) && (chain || bits (wImm w) 6 6 == 0))) &&
    (op != 0x60 || bits (wImm w) 20 16 != 0) &&
    ((op != 0x4C && op != 0x4D) || chain) &&
    (!chain ||
      (!([0x60, 0x61, 0x62, 0x08, 0x09, 0x0A, 0x0B, 0x03, 0x04, 0x46].contains op) &&
       (u.vd == 0 || (decide ((if op = 0x4C ∨ op = 0x4D then 16 else 24) ≤ wVd w) && decide (wVd w ≤ 30))) &&
       (op != 0x39 || !cMx w || (decide (24 ≤ wVb w) && decide (wVb w ≤ 30)))))

/-! ### Effects on lanes -/

/-- What one lane's result is, and what happened on the way. -/
structure LaneRes where
  code    : Nat
  nan     : Bool := false   -- a NaN was read or produced (R198)
  sovf    : Bool := false   -- scale overflow (R185, R186)
  ovf     : Bool := false   -- R181
  divz    : Bool := false
  sat     : Bool := false
  nanLost : Bool := false
  flushed : Bool := false
  deriving DecidableEq, Repr

/-- FP32 input under R180. -/
def inF (denorm : Bool) (code : Nat) : FpNum × Bool := fp32.input denorm code

/-- An exact result rounded to FP32 (R180, R181). -/
def outF (rm : RM) (denorm : Bool) (g : Nat) (flushIn nanIn : Bool) (x : FpNum) : LaneRes :=
  let r := fp32.round rm denorm g x
  { code := r.code, nan := nanIn || x.isNaN, ovf := r.ovf, flushed := flushIn || r.flushed }

/-- A two-operand FP32 operation. -/
def fp2 (f : FpNum → FpNum → FpNum) (rm : RM) (denorm : Bool) (g a b : Nat) : LaneRes :=
  let (x, p) := inF denorm a
  let (y, q) := inF denorm b
  outF rm denorm g (p || q) (x.isNaN || y.isNaN) (f x y)

def addL (rm : RM) (denorm : Bool) (g a b : Nat) : LaneRes := fp2 (FpNum.add rm) rm denorm g a b

/-- FMA: one rounding. -/
def fmaL (rm : RM) (denorm : Bool) (g a b c : Nat) : LaneRes :=
  let (x, p) := inF denorm a
  let (y, q) := inF denorm b
  let (z, r) := inF denorm c
  outF rm denorm g (p || q || r) (x.isNaN || y.isNaN || z.isNaN) (FpNum.add rm (FpNum.mul x y) z)

/-- maximum of IEEE 754-2019: a NaN wins, +0 is above −0. -/
def numMax (x y : FpNum) : FpNum :=
  match x, y with
  | .nan _, _ => .nan false
  | _, .nan _ => .nan false
  | _, _ =>
    let c := FpNum.cmp x y
    if c = 1 then x else if c = -1 then y else if x.sign then y else x

def numMin (x y : FpNum) : FpNum := (numMax x.neg y.neg).neg

/-- Minimum with the NaN of R208. -/
def numMin' (x y : FpNum) : FpNum := if x.isNaN || y.isNaN then .nan false else numMin x y

/-- A comparison: false with a NaN (R182). -/
def cmpL (p : Int → Bool) (denorm : Bool) (a b : Nat) : LaneRes :=
  let (x, fa) := inF denorm a
  let (y, fb) := inF denorm b
  let nan := x.isNaN || y.isNaN
  { code := if !nan && p (FpNum.cmp x y) then 0xFFFFFFFF else 0, nan := nan, flushed := fa || fb }

/-- A transcendental result: a code within u ulp of the exact value, chosen by a free value (the table after R181), beyond the
range an infinity (R181), tiny under R180. An exact zero is delivered as it is. -/
def transOut (op u : Nat) (denorm fa : Bool) (code : Nat) (y : FpNum) (exact : Bool) : LaneRes :=
  let r := fp32.round .towardZero true 0 y
  let sign := fp32.signBit y.sign
  if y.isZero then { code := sign, flushed := fa }
  else
    let mag := if r.ovf then fp32.infCode false
      else withinUlp u exact (Config.transcendental op (BitVec.ofNat 32 code)).toNat (r.code - sign)
    if fp32.infCode false ≤ mag then { code := fp32.infCode y.sign, ovf := true, flushed := fa }
    else if fp32.isSubnormal mag && !denorm then { code := sign, flushed := true }
    else { code := sign + mag, flushed := fa }

/-- The six transcendental instructions: the special values stated, else a code within the stated error. What the table
leaves out (−0 of FRSQ and FLOG2) is a free value. -/
def transL (op : Nat) (denorm : Bool) (a : Nat) : LaneRes :=
  let (x, fa) := inF denorm a
  let code := if x.isZero then fp32.signBit x.sign else a
  let val (c : Nat) : LaneRes := { code := c, flushed := fa }
  let nan : LaneRes := { code := fp32.nanCode false, nan := true, flushed := fa }
  let free : LaneRes := val (Config.transcendental op (BitVec.ofNat 32 code)).toNat
  let approx : LaneRes :=
    match x with
    | .fin s m e =>
      if m = 0 then transOut op 2 denorm fa code (if op = 0x1E then x else .fin false 1 (if op = 0x1C then 0 else -1)) true
      else let (y, exact) := transVal op s m e; transOut op (if op ≤ 0x1B then 1 else 2) denorm fa code y exact
    | _ => free
  match x with
  | .nan _ => nan
  | _ =>
    match op with
    | 0x1A =>
      if x.isZero then { val (fp32.infCode x.sign) with divz := true }
      else if x.isInf then val (fp32.signBit x.sign) else approx
    | 0x1B =>
      if x.isZero then (if x.sign then free else { val (fp32.infCode false) with divz := true })
      else if x.sign then nan else if x.isInf then val 0 else approx
    | 0x1C =>
      if FpNum.cmp x (FpNum.ofI 128) = 1 then { val (fp32.infCode false) with ovf := x.isFinite }
      else if FpNum.cmp x (FpNum.ofI (-150)) = -1 then { val 0 with flushed := fa || x.isFinite }
      else approx
    | 0x1D =>
      if x.isZero then (if x.sign then free else { val (fp32.infCode true) with divz := true })
      else if x.sign then nan else if x.isInf then val (fp32.infCode false) else approx
    | 0x1E => if x.isInf then val (pow2Code 0 + fp32.signBit x.sign) else approx
    | _ => if x.isInf then val (if x.sign then 0 else pow2Code 0) else approx

/-- Integer operations on 32-bit lanes. -/
def intL (op a b : Nat) : Nat :=
  match op with
  | 0x28 => (a + b) % 2 ^ 32
  | 0x29 => (a + 2 ^ 32 - b) % 2 ^ 32
  | 0x2A => a * b % 2 ^ 32
  | 0x2B => a &&& b
  | 0x2C => a ||| b
  | 0x2D => a ^^^ b
  | 0x2E => a * 2 ^ (b % 32) % 2 ^ 32
  | 0x2F => enc2c 32 (i32 a / (2 ^ (b % 32) : Nat))
  | 0x30 => a / 2 ^ (b % 32)
  | _ => if a < b then 0xFFFFFFFF else 0

/-- CVTI and CVTFI (R188). -/
def cvtiL (rm : RM) (denorm : Bool) (g : Nat) (k : Int) (a : Nat) : LaneRes :=
  outF rm denorm g false false ((FpNum.ofI (i32 a)).scale k)

def cvtfiL (rm : RM) (denorm : Bool) (g : Nat) (k : Int) (a : Nat) : LaneRes :=
  let (x, fa) := inF denorm a
  let hi : Int := 2147483647
  let lo : Int := -2147483648
  match x with
  | .nan _ => { code := 0, nan := true, nanLost := true }
  | .inf s => { code := enc2c 32 (if s then lo else hi), sat := true }
  | .fin s m e =>
    let v := roundInt rm g s m (e + k)
    { code := enc2c 32 (max lo (min hi v)), sat := decide (v < lo) || decide (hi < v), flushed := fa }

/-- CVTW of one packed element with the scale byte of its block, if any (R185). -/
def cvtwL (denorm : Bool) (fmt : Nat) (xs : Int) (scale : Option Nat) (code : Nat) : LaneRes :=
  if fmt = 5 then
    let r := fp32.round .nearest denorm 0 ((FpNum.ofI (sext 8 code)).scale xs)
    { code := r.code, sovf := r.ovf, flushed := r.flushed }
  else
    let (x, fl) := (cFormat fmt).input denorm code
    match scale with
    | some 255 => { code := fp32.nanCode false, nan := true }
    | _ =>
      let k : Int := match scale with | some b => (b : Int) - 127 | none => 0
      let r := fp32.round .nearest denorm 0 (x.scale k)
      { code := r.code, nan := x.isNaN, sovf := r.ovf, flushed := fl || r.flushed }

/-- CVTN of one value without MX (R186). DEDUCED (assumption 68): an INT8 code i stands for i × 2^XS (R205, R207), so the value
is divided by 2^XS before it is rounded. -/
def cvtnL (rm : RM) (denorm : Bool) (g fmt : Nat) (xs : Int) (a : Nat) : LaneRes :=
  let (x, fl) := inF denorm a
  if fmt = 5 then
    match x with
    | .nan _ => { code := 0, nan := true, nanLost := true }
    | .inf s => { code := enc2c 8 (if s then -127 else 127), sat := true }
    | .fin s m e =>
      let v := roundInt rm g s m (e - xs)
      { code := enc2c 8 (max (-127) (min 127 v)), sat := decide (127 < v.natAbs), flushed := fl }
  else
    let f := cFormat fmt
    match x with
    | .nan _ => { code := if fmt = 4 then 0 else (f.round rm denorm g x).code, nan := true, nanLost := fmt = 4 }
    | .inf _ => { code := (f.round rm denorm g x).code, sovf := true }
    | .fin _ _ _ =>
      let r := f.round rm (denorm || fmt = 4) g x
      { code := r.code, sovf := r.ovf && rm != .towardZero, flushed := fl || r.flushed }

/-- e_max of R157 and R187. -/
def cEmax (f : Fmt) : Int := if f.width = 4 then 2 else if f.expBits = 4 then 8 else 15

/-- Largest ⌊log2 |x|⌋ of the nonzero finite values. DESIGN CHOICE (assumption 149): a NaN of the group counts for
nothing (R157). -/
def groupExp : List FpNum → Option Int
  | [] => none
  | x :: r =>
    if x.isFinite && !x.isZero then
      match groupExp r with
      | none => some x.exp
      | some m => some (max x.exp m)
    else groupExp r

/-- An MX group (R157, R158, R187): its scale byte and its elements. DESIGN CHOICE (assumption 150): where the scale is
0xFE for a group with X > 127 or an infinity, every element that is not NaN becomes maximum or infinity. -/
def mxGroup (f : Fmt) (rm : RM) (denorm : Bool) (g : Nat → Nat) (xs : List FpNum) : Nat × List LaneRes :=
  let big : LaneRes × (FpNum → Nat) := ({ code := 0, sovf := true }, fun x =>
    if f.expBits = 5 then f.infCode x.sign else f.maxCode x.sign)
  let nan (x : FpNum) : LaneRes :=
    { code := if f.special = 0 then 0 else (f.round rm denorm 0 x).code, nan := true, nanLost := f.special = 0 }
  let conv (k : Int) : List LaneRes := xs.zipIdx.map fun (x, i) =>
    if x.isNaN then nan x
    else
      let y := x.scale (-k)
      let r := f.round rm (denorm || f.special = 0) (g i) y
      { code := if r.ovf then f.maxCode x.sign else r.code, flushed := r.flushed }
  let tooBig : List LaneRes := xs.map fun x => if x.isNaN then nan x else { big.1 with code := big.2 x }
  if xs.any FpNum.isInf then (0xFE, tooBig)
  else
    match groupExp xs with
    | none => (0, conv 0)
    | some m =>
      let k := m - cEmax f
      if 127 < k then (0xFE, tooBig)
      else if k < -127 then (0, conv (-127))
      else ((k + 127).toNat, conv k)

/-- One level of the summation tree of R183, its draws from index k on. -/
def treeLevel (rm : RM) (denorm : Bool) (g : Nat → Nat) : Nat → List LaneRes → List LaneRes
  | k, a :: b :: r =>
    let s := addL rm denorm (g k) a.code b.code
    { s with nan := s.nan || a.nan || b.nan, ovf := s.ovf || a.ovf || b.ovf, flushed := s.flushed || a.flushed || b.flushed } ::
      treeLevel rm denorm g (k + 1) r
  | _, l => l

/-- The tree of R183 over 2^n values. -/
def treeSum (rm : RM) (denorm : Bool) (g : Nat → Nat) : Nat → Nat → List LaneRes → LaneRes
  | 0, _, l => l.headD { code := 0 }
  | n + 1, k, l => treeSum rm denorm g n (k + 2 ^ n) (treeLevel rm denorm g k l)

/-- A NaN that an operation delivers is positive (R208). -/
def positiveNaN (x : FpNum) : FpNum := if x.isNaN then .nan false else x

/-- Maximum (or maximum magnitude) of a list, none when it is empty (R184). -/
def maxList (mag denorm : Bool) : List Nat → Option LaneRes
  | [] => none
  | a :: r =>
    let (x, fl) := inF denorm a
    let x := if mag then x.abs else x
    match maxList mag denorm r with
    | none => some { code := (fp32.round .nearest true 0 (positiveNaN x)).code, nan := x.isNaN, flushed := fl }
    | some m =>
      let y := numMax x (fp32.decode m.code)
      some { code := (fp32.round .nearest true 0 y).code, nan := m.nan || x.isNaN, flushed := m.flushed || fl }

/-! ### The spore generator (R250, R251) -/

def sporeC : List Nat :=
  [0x6C2F8A53, 0xB14D07E9, 0x3E95C26B, 0xD7085F1A, 0x2A61E4C7, 0x85F31B2D, 0x4BD096A8, 0xF21C7D35, 0x1789A3F6,
   0xC45E6B02]

def rotl32 (v n : Nat) : Nat := v * 2 ^ n % 2 ^ 32 + v / 2 ^ (32 - n)

/-- The ten rounds, from round i. -/
def sporeRounds (k0 k1 : Nat) : Nat → Nat → Nat × Nat × Nat × Nat → Nat × Nat × Nat × Nat
  | 0, _, x => x
  | n + 1, i, (x0, x1, x2, x3) =>
    let k := if i % 2 = 0 then k0 else k1
    let x0 := (x0 + x1 + (k ^^^ sporeC.getD i 0)) % 2 ^ 32
    let x3 := rotl32 (x3 ^^^ x0) ([13, 9, 21, 5].getD (i % 4) 0)
    let x2 := (x2 + x3) % 2 ^ 32
    let x1 := rotl32 (x1 ^^^ x2) ([11, 17, 6, 24].getD (i % 4) 0)
    sporeRounds k0 k1 n (i + 1) (x1, x2, x3, x0)

/-- The four words of a spore block. -/
def sporeBlock (k0 k1 c0 c1 c2 c3 : Nat) : List Nat :=
  let (x0, x1, x2, x3) := sporeRounds k0 k1 10 0 (c0, c1, c2, c3)
  [(x0 + k0) % 2 ^ 32, x1 ^^^ k1, (x2 + c2) % 2 ^ 32, x3 ^^^ c3]

/-- The spore value of element e. -/
def sporeValue (k0 k1 site mb step e : Nat) : Nat :=
  (sporeBlock k0 k1 (e / 8) site mb step).getD (e / 2 % 4) 0 / 2 ^ (16 * (e % 2)) % 65536

/-! ### Reading the engine's registers -/

/-- Block index i, j of a chunk q (R193), and the accumulator row and column of a lane. -/
def chunkM (q l : Nat) : Nat := 32 * (q / 8) + l / 16
def chunkN (q l : Nat) : Nat := 16 * (q % 8) + l % 16

/-- The lane is one that an element program skips (R194). -/
def VeRun.skips (R : VeRun) (l : Nat) : Bool :=
  R.chain && (decide (R.m ≤ chunkM R.chunk l) || decide (R.n ≤ chunkN R.chunk l))

/-- Lane l of a tile register; in an element program V31 is the current chunk (R193, R194). -/
def State.veReg (s : State) (b : Nat) (R : VeRun) (reg l : Nat) : Nat :=
  let B := s.block b
  if R.chain ∧ reg = 31 then
    if R.skips l then 0
    else
      match B.mc.runs.find? fun r => r.stage == .chained with
      | some r => (fp32.round .nearest R.denorm 0
          (accFmt.decode (SMap.get (fun _ => 0) r.acc (chunkM R.chunk l * 128 + chunkN R.chunk l)))).code
      | none => 0
  else SMap.get (fun _ => 0) B.ve.v (reg * 512 + l)

/-- A source operand with its broadcast (R174). -/
def State.veSrc (s : State) (b : Nat) (R : VeRun) (reg bc l : Nat) : Nat :=
  match bc with
  | 1 => s.veReg b R reg (l % 16)
  | 2 => s.veReg b R reg (l / 16 * 16)
  | 3 => s.veReg b R reg 0
  | _ => s.veReg b R reg l

def State.veS (s : State) (b n : Nat) : Nat := SMap.get (fun _ => 0) (s.block b).ve.s n
def State.veA (s : State) (b n : Nat) : Nat := SMap.get (fun _ => 0) (s.block b).ve.a n

/-- The second operand: a tile register or, with SB, a scalar register. -/
def State.veSnd (s : State) (b : Nat) (R : VeRun) (w l : Nat) : Nat :=
  if wSb w then s.veS b (wVb w) else s.veSrc b R (wVb w) (wBb w) l

/-- A register row as a 512-bit number (R171). -/
def State.veRow (s : State) (b : Nat) (R : VeRun) (reg bc r : Nat) : Nat :=
  (List.range 16).foldr (fun c n => s.veSrc b R reg bc (r * 16 + c) + 2 ^ 32 * n) 0

def State.modVe (s : State) (b : Nat) (f : VecEngine → VecEngine) : State :=
  let B := s.block b
  s.setBlock b { B with ve := f B.ve }

/-- Lanes of a tile register are written. -/
def State.veSet (s : State) (b reg : Nat) (l : List (Nat × Nat)) : State :=
  s.modVe b fun e => { e with v := l.foldl (fun m (i, v) => SMap.set (fun _ => 0) m (reg * 512 + i) v) e.v }

def State.setVeS (s : State) (b n v : Nat) : State :=
  s.modVe b fun e => { e with s := SMap.set (fun _ => 0) e.s n v }
def State.setVeA (s : State) (b n v : Nat) : State :=
  s.modVe b fun e => { e with a := SMap.set (fun _ => 0) e.a n v }

/-- The 64-bit word at address p of the program store. -/
def State.veWord (s : State) (b p : Nat) : Nat :=
  s.rn (blockReg b (0x6000 + p * 8)) + s.rn (blockReg b (0x6004 + p * 8)) * 2 ^ 32

/-! ### Traps (R198 to R202) -/

/-- The trap registers latch the first trap (R200). -/
def State.veLatch (s : State) (b kind w l : Nat) (R : VeRun) : State :=
  if s.rbit (blockReg b 0x5004) 14 then s
  else
    let e := (s.block b).ve
    let s := s.setBit (blockReg b 0x5004) 14
    let s := s.setRn (blockReg b 0x5008) (kind + wOp w * 256 + l / 16 % 32 * 65536 + l % 16 * 2 ^ 24)
    let q := if R.chain then R.chunk * 2 ^ 24 + 2 ^ 29 else 0
    let s := s.setRn (blockReg b 0x500C) (e.pc % 1024 + wVd w * 65536 + q)
    let s := s.setRn (blockReg b 0x5010) (e.ctr0 % 65536 + e.ctr1 % 65536 * 65536)
    s.setRn (blockReg b 0x5014) R.task.id

/-- The NaN report of an instruction (R198, R219). -/
def State.veNan (s : State) (b w l : Nat) (R : VeRun) : State :=
  let e := (s.block b).ve
  let s := (s.setBit (blockReg b 0x5004) 2).veLatch b 1 w l R
  let (x, y, z, u) := if R.chain then (chunkM R.chunk l, chunkN R.chunk l, R.chunk, 65535)
                      else (l / 16, l % 16, e.ctr0, e.ctr1)
  s.nanReport R.task.job { req := b / 16, unit := 3, op := wOp w, blk := b, task := R.task.id, step := R.task.step,
                           x := x, y := y, z := z, w := u }

/-- The conditions that the lanes of one instruction met, with the first lane concerned. -/
def State.veFlags (s : State) (b w : Nat) (R : VeRun) (l : List (Nat × LaneRes)) : State :=
  let st := blockReg b 0x5004
  let s := if l.any (fun (_, r) => r.ovf) then s.setBit st 4 else s
  let s := if l.any (fun (_, r) => r.divz) then s.setBit st 5 else s
  let s := if l.any (fun (_, r) => r.sat) then s.setBit st 6 else s
  let s := if l.any (fun (_, r) => r.nanLost) then s.setBit st 7 else s
  let s := if l.any (fun (_, r) => r.flushed) then (s.setBit st 8).flushed R.task.job else s
  let nan := l.find? fun (_, r) => r.nan
  let sov := l.find? fun (_, r) => r.sovf
  let doNan (s : State) : State := match nan with | some (i, _) => s.veNan b w i R | none => s
  let doSov (s : State) : State :=
    match sov with
    | some (i, _) => ((s.setBit st 3).veLatch b 2 w i R).scaleOvf b R.task
    | none => s
  match nan, sov with
  | some (i, _), some (k, _) => if k < i then doNan (doSov s) else doSov (doNan s)
  | _, _ => doSov (doNan s)

/-! ### The end of a program -/

/-- The engine is idle. -/
def State.veIdle (s : State) (b : Nat) : State := s.modVe b fun e => { e with run := none, loops := [] }

/-- The program stops with its task failed (R175, R179): a chained request ends without further output. -/
def State.veFail (s : State) (b : Nat) (R : VeRun) : State :=
  let s := s.veIdle b
  let B := s.block b
  let s := if R.chain then s.setBlock b { B with mc := { B.mc with runs := B.mc.runs.filter fun r => r.stage != .chained } } else s
  s.failTask b R.task.num

/-- The program stops with its task poisoned (R201, R202); a chained request goes to the end of its write
pass. -/
def State.vePoison (s : State) (b : Nat) (R : VeRun) : State :=
  let s := (s.veIdle b).poisonTask b R.task.num
  if R.chain then s else s.partDone b R.task.num

/-- The private registers V24 to V30 of a chunk are undefined at its start (R196). -/
def State.vePrivate (s : State) (b : Nat) : State :=
  let d := s.draws
  let put (m : SMap Nat) (i : Nat) : SMap Nat :=
    SMap.set (fun _ => 0) m (24 * 512 + i) (Config.undefValue (d + i) % 2 ^ 32)
  let s := s.modVe b fun e => { e with v := (List.range 3584).foldl put e.v }
  { s with draws := d + 3584 }

/-- Loops that end at the word before address p (R191): the address that comes next. -/
def loopNext : List VeLoop → Nat → List VeLoop × Nat
  | [], p => ([], p)
  | L :: r, p =>
    if p = L.start + L.len then
      if L.done + 1 < L.total then ({ L with done := L.done + 1 } :: r, L.start)
      else loopNext r p
    else (L :: r, p)

/-- Completed passes of the loop at depth d (0 outer), or `old` when it is not active. -/
def ctrOf (before after : List VeLoop) (d old : Nat) : Nat :=
  match after.reverse[d]?, before.reverse[d]? with
  | some L, _ => L.done
  | none, some L => L.total
  | none, none => old

/-- The next word: of the program, with its loops, or of the element program, with its chunks (R191, R193). -/
def State.veAdvance (s : State) (b : Nat) (R : VeRun) : State :=
  let e := (s.block b).ve
  if R.chain then
    if e.pc + 1 < R.entry + R.len then s.modVe b fun e => { e with pc := e.pc + 1 }
    else if R.chunk < 31 then
      (s.modVe b fun e => { e with pc := R.entry, run := some { R with chunk := R.chunk + 1, undo := [] } }).vePrivate b
    else s.veIdle b
  else
    let (l, p) := loopNext e.loops (e.pc + 1)
    s.modVe b fun e =>
      { e with pc := p, loops := l, ctr0 := ctrOf e.loops l 0 e.ctr0, ctr1 := ctrOf e.loops l 1 e.ctr1 }

/-! ### Executing one word -/

/-- A word's legality where it stands: LOOP and END against the active loops (R191). -/
def State.veLegalHere (s : State) (b : Nat) (R : VeRun) : Bool :=
  let e := (s.block b).ve
  let w := s.veWord b e.pc
  decide (e.pc < 1024) && veLegal R.chain w &&
  (wOp w != 0x61 || e.loops.isEmpty) &&
  (wOp w != 0x60 || (decide (e.loops.length < 2) &&
    (match e.loops with
     | L :: _ => decide (e.pc + 1 + bits (wImm w) 20 16 ≤ L.start + L.len)
     | [] => true)))

/-- The instructions whose datapaths carry residue checks (R202). -/
def resChecked (op : Nat) : Bool := [0x10, 0x11, 0x12, 0x13, 0x40, 0x41, 0x46, 0x48, 0x4C].contains op

/-- An instruction with opcode `op` is executed: register errors and residue failures first (R201, R202), then
its effect, then the next word (R176). -/
def State.veExec (s : State) (b op : Nat) (f : VeFault) (act : State → VeRun → Nat → State) : Out :=
  match (s.block b).ve.run with
  | none => .next s
  | some R =>
    let w := s.veWord b (s.block b).ve.pc
    whenever (wOp w == op && s.veLegalHere b R) s
      (let s := s.bump64 (blockReg b 0x5048) 1
       let st := blockReg b 0x5004
       let res := if resChecked op && (s.block b).ve.cfg % 2 == 1 then f.res else 0
       let s := if f.ecc = 1 then (s.setBit st 12).raiseJ 0x0252 2 b R.task.job R.task.id else s
       if f.ecc = 2 then
         (((s.setBit st 13).veLatch b 6 w f.lane R).raiseJ 0x0253 2 b R.task.job R.task.id).vePoison b R
       else if res = 2 then
         ((((s.setBit st 11).bump (blockReg b 0x5040) 31 16 1).veLatch b 5 w f.lane R).raiseJ 0x0255 2 b
           R.task.job R.task.id).vePoison b R
       else
         let s := if res = 1 then ((s.setBit st 10).bump (blockReg b 0x5040) 15 0 1).raiseJ 0x0254 2 b R.task.job R.task.id
                  else s
         act s R w)

/-- The lanes' results are written to VD, their conditions reported, and the engine goes on. -/
def State.vePut (s : State) (b w : Nat) (R : VeRun) (l : List (Nat × LaneRes)) : State :=
  ((s.veSet b (wVd w) (l.map fun (i, r) => (i, r.code))).veFlags b w R l).veAdvance b R

/-- Draws for an instruction: taken only under stochastic rounding (R175). -/
def State.veDraw (s : State) (b w n : Nat) (R : VeRun) : (Nat → Nat) × State :=
  if wRm w = 4 then s.drawRound b R.task.num n else (fun _ => 0, s)

def wMode (w : Nat) : RM := (RM.ofCode (wRm w)).getD .nearest

/-- A lane-by-lane instruction: `f` gives a lane's result from its index and its draw. -/
def State.veLanes (s : State) (b w : Nat) (R : VeRun) (f : Nat → Nat → LaneRes) : State :=
  let (g, s') := s.veDraw b w 512 R
  s'.vePut b w R ((List.range 512).map fun l => (l, f l (g l)))

/-- What an element program's chunk has stored is undone: the bytes, and the poison marks that the stores cleared. -/
def State.veUndo (s : State) (b : Nat) (R : VeRun) : State :=
  s.each (fun s (a, old, marks) =>
    let s := s.wrBytes (.bs b) a old
    s.setMarks (.bs b) (s.marks (.bs b) ++ marks)) R.undo

/-- An address fault with the first lane concerned (R179, R200). The faulting chunk of an element program stores nothing ("Outcomes
when events coincide"). -/
def State.veAddrFault (s : State) (b w l : Nat) (R : VeRun) : State :=
  ((((s.veUndo b R).setBit (blockReg b 0x5004) 1).veLatch b 4 w l R).raiseJ 0x0251 2 b R.task.job R.task.id).veFail b R

/-- The engine stores bytes of its block store. A store of an element program's chunk can be undone; one of a kernel's
program leaves to the kernel's formulas what memory holds (R244). -/
def State.vePoke (s : State) (b a : Nat) (R : VeRun) (l : List Byte) : State :=
  let m := s.marks (.bs b)
  let old := s.rdBytes (.bs b) a l.length
  let s := s.wrT b R.task.num (.bs b) a l
  if R.chain then
    let lost := m.filter fun k => !(s.marks (.bs b)).contains k
    s.modVe b fun e => { e with run := e.run.map fun R => { R with undo := (a, old, lost) :: R.undo } }
  else s

/-- Byte address of row r of an LD or ST (R177). -/
def State.veRowAddr (s : State) (b w : Nat) (R : VeRun) (r : Nat) : Nat :=
  let rr := if wCh w then 32 * (R.chunk / 8) + r else r
  let x := if wCh w then R.chunk % 8 else wPart w
  64 * (s.veA b (wVb w) + wOffset w + rr * wStride w) + wWidth w * x

/-- LD (R177 to R179, R281). -/
def State.veLoad (s : State) (b : Nat) (errs : List MemErr) (R : VeRun) (w : Nat) : State :=
  let addr (r : Nat) : Nat := s.veRowAddr b w R (if wStride w = 0 then 0 else r)
  match (List.range 32).find? fun r => bsSize < addr r + 64 with
  | some r => s.veAddrFault b w (16 * r) R
  | none =>
    let s := s.memErrs errs
    let s := if (List.range 32).any fun r => s.poisoned (.bs b) (addr r) 64 then s.poisonTask b R.task.num else s
    (s.veSet b (wVd w) ((List.range 512).map fun l =>
      (l, s.rdN (.bs b) (addr (l / 16) + 4 * (l % 16)) 4))).veAdvance b R

/-- Bytes of one row that an ST stores: pairs of an offset in the row and four bytes; an element program skips
the lanes of R194. -/
def State.veStoreRow (s : State) (b w : Nat) (R : VeRun) (r : Nat) : List (Nat × List Byte) :=
  (List.range (wWidth w / 4)).filterMap fun c =>
    if R.skips (r * 16 + c) then none
    else some (4 * c, leBytes 4 (s.veSrc b R (wVa w) (wBa w) (r * 16 + c)))

/-- ST (R177 to R179, R194). -/
def State.veStore (s : State) (b : Nat) (errs : List MemErr) (R : VeRun) (w : Nat) : State :=
  let rows := (List.range 32).map fun r => (s.veRowAddr b w R r, s.veStoreRow b w R r)
  let beyond := rows.zipIdx.findSome? fun ((a, l), r) =>
    (l.find? fun (o, v) => bsSize < a + o + v.length).map fun (o, _) => 16 * r + o / 4
  match beyond with
  | some l => s.veAddrFault b w l R
  | none =>
    let s := s.memErrs errs
    let s := if R.kernel then s
      else s.each (fun s (a, l) =>
        if l.length * 4 = wWidth w then s.vePoke b a R ((l.map fun (_, v) => v).flatten)
        else s.each (fun s (o, v) => s.vePoke b (a + o) R v) l) rows
    s.veAdvance b R

/-- Byte address of the word of LDS and STS. -/
def State.veWordAddr (s : State) (b w : Nat) : Nat :=
  64 * (s.veA b (wVb w) + wOffset w) + 4 * (wPart w * 2 + b2n (wCh w))

/-- The engine's report of an illegal word (R175). -/
def State.veIllegal (s : State) (b : Nat) (R : VeRun) : State :=
  let pc := (s.block b).ve.pc
  let w := if pc < 1024 then s.veWord b pc else 0
  (((s.setBit (blockReg b 0x5004) 0).veLatch b 3 w 0 R).raiseJ 0x0250 2 b R.task.job R.task.id).veFail b R

end Sys2Proof.Machine
end

