-- ==== Sys2Proof/Machine/Kernels.lean ====
section
/-!
DEFINITION. Sys2Proof/Machine/Kernels.lean: what the fused kernels compute (spec/08, R244 to R249, R262, R263). A task that
is a part of a kernel runs a program of the kernel library, whose words the spec does not give; what the part leaves in
memory is given here by the kernel's formulas. The layout of its buffers is the model's choice (assumption 27).
-/
namespace Sys2Proof.Machine

/-! ### FP32 operations of a kernel (R244) -/

/-- A result with what its operands met. -/
def LaneRes.after (r : LaneRes) (l : List LaneRes) : LaneRes :=
  { r with nan := r.nan || l.any (fun x => x.nan), ovf := r.ovf || l.any (fun x => x.ovf), sovf := r.sovf || l.any (fun x => x.sovf),
           flushed := r.flushed || l.any fun x => x.flushed }

/-- Every FP32 operation of a kernel rounds to nearest with ties to even. -/
def kAdd (dn : Bool) (a b : LaneRes) : LaneRes := (addL .nearest dn 0 a.code b.code).after [a, b]
def kSub (dn : Bool) (a b : LaneRes) : LaneRes := (fp2 (fun x y => FpNum.add .nearest x y.neg) .nearest dn 0 a.code b.code).after [a, b]
def kMul (dn : Bool) (a b : LaneRes) : LaneRes := (fp2 FpNum.mul .nearest dn 0 a.code b.code).after [a, b]
def kDiv (dn : Bool) (a b : LaneRes) : LaneRes := (fp2 FpNum.div .nearest dn 0 a.code b.code).after [a, b]

def kZero : LaneRes := { code := 0 }
/-- A count as an FP32 value. -/
def kNat (n : Nat) : LaneRes := { code := (fp32.round .nearest true 0 (FpNum.ofI n)).code }

/-- A sum over a row of a block: the tree of R183 within each register row of 16 columns, and the registers in increasing
column from +0. -/
def kSum (dn : Bool) (l : List LaneRes) : LaneRes :=
  (List.range ((l.length + 15) / 16)).foldl (fun acc i =>
    let xs := (l.drop (16 * i)).take 16
    kAdd dn acc (treeSum .nearest dn (fun _ => 0) 4 0 (xs ++ List.replicate (16 - xs.length) kZero))) kZero

/-- Partial values added in the order given, starting from +0 (R245). -/
def kFold (dn : Bool) (l : List LaneRes) : LaneRes := l.foldl (kAdd dn) kZero

/-- A word of a buffer. -/
def State.kWord (s : State) (a : BAddr) (i : Nat) : LaneRes := { code := s.rdNAt (a.plus (4 * i)) 4 }

/-! ### The combine of tile partial sums (R189, R190) -/

/-- Where record p of token t begins among those of a combine: 4,160 bytes each, the tokens of a projection together. -/
def kRecord (a : BAddr) (rows p t : Nat) : BAddr := a.plus (4160 * (p * rows + t))

/-- One CMB of column c of a record with the piece's σ. -/
def State.kCmb (s : State) (dn : Bool) (a : BAddr) (sigma : Nat) (c : Nat) (v : LaneRes) : LaneRes :=
  let h := s.rdNAt a 4
  if bit h 16 then { code := fp32.nanCode false, nan := true }
  else kAdd dn v (cvtiL .nearest dn 0 (i16 (h % 65536) + sext 8 sigma) (s.rdNAt (a.plus (64 + 4 * c)) 4))

/-- The combine over all records of a token, from +0. -/
def State.kCombine (s : State) (dn : Bool) (a : BAddr) (rows : Nat) (sigmas : List Nat) (t c : Nat) : LaneRes :=
  sigmas.zipIdx.foldl (fun v (x, p) => s.kCmb dn (kRecord a rows p t) x c v) kZero

/-- A record that the combine reads is poisoned (R190). -/
def State.kPoison (s : State) (a : BAddr) (rows n : Nat) : Bool :=
  (List.range (n * rows)).any fun i => bit (s.rdNAt (a.plus (4160 * i)) 4) 19 || s.poisonedAt (a.plus (4160 * i)) 4160

/-- A value that a kernel leaves at an address, in `size` bytes. -/
structure KOut where
  dst  : BAddr
  size : Nat
  res  : LaneRes
  deriving DecidableEq, Repr

def kOut (a : BAddr) (i : Nat) (r : LaneRes) : KOut := { dst := a.plus (4 * i), size := 4, res := r }

/-! ### Normalisation backward (R246, R247) -/

/-- What both norm kernels take at a token and column: dy, x̂ and u = γ ⊙ dy. Fields: 0 the records of the transposed reads,
1 x, 2 the kept statistics, 3 γ, 4 the per-token sums, 5 the residual-stream gradient, 6 and 7 the gradients of γ and β. -/
def State.normAt (s : State) (dn layer : Bool) (c : Config.KCall) (f : Nat → BAddr) (t i : Nat) : LaneRes × LaneRes × LaneRes :=
  let dy := s.kCombine dn (f 0) c.rows c.consts t i
  let x := s.kWord (f 1) (t * c.cols + i)
  let xh := if layer then kMul dn (kSub dn x (s.kWord (f 2) (2 * t))) (s.kWord (f 2) (2 * t + 1)) else kMul dn x (s.kWord (f 2) t)
  (dy, xh, kMul dn (s.kWord (f 3) i) dy)

/-- Sums per token: Σ u ⊙ x̂, and before it Σ u for the layer form. -/
def normSums (layer : Bool) : Nat := if layer then 2 else 1

/-- The first part: the partial sums of the block's columns. -/
def State.normPartial (s : State) (dn layer : Bool) (c : Config.KCall) (f : Nat → BAddr) : List KOut :=
  ((List.range c.rows).map fun t =>
    let l := (List.range c.cols).map fun i => s.normAt dn layer c f t i
    let ux := kSum dn (l.map fun (_, xh, u) => kMul dn u xh)
    if layer then [kOut (f 4) (2 * t) (kSum dn (l.map fun (_, _, u) => u)), kOut (f 4) (2 * t + 1) ux]
    else [kOut (f 4) t ux]).flatten

/-- The second part, with the sums of R245: dx = r ⊙ (u − x̂ × ρ), or r ⊙ (u − ρ1 − x̂ × ρ2), is added into the residual-stream
gradient, dy ⊙ x̂ into the gradient of γ and dy into that of β, token by token. -/
def State.normBack (s : State) (dn layer : Bool) (c : Config.KCall) (f : Nat → BAddr) : List KOut :=
  let rho (t k : Nat) : LaneRes := kDiv dn (s.kWord (f 4) (normSums layer * t + k)) (kNat c.width)
  let r (t : Nat) : LaneRes := s.kWord (f 2) (if layer then 2 * t + 1 else t)
  let dx (t i : Nat) : LaneRes :=
    let (_, xh, u) := s.normAt dn layer c f t i
    if layer then kMul dn (r t) (kSub dn (kSub dn u (rho t 0)) (kMul dn xh (rho t 1)))
    else kMul dn (r t) (kSub dn u (kMul dn xh (rho t 0)))
  let into (i : Nat) (a : BAddr) (g : Nat → LaneRes) : KOut :=
    kOut a i ((List.range c.rows).foldl (fun acc t => kAdd dn acc (g t)) (s.kWord a i))
  ((List.range c.rows).map fun t => (List.range c.cols).map fun i =>
    kOut (f 5) (t * c.cols + i) (kAdd dn (s.kWord (f 5) (t * c.cols + i)) (dx t i))).flatten ++
  ((List.range c.cols).map fun i => into i (f 6) fun t => let (dy, xh, _) := s.normAt dn layer c f t i; kMul dn dy xh) ++
  (if layer then (List.range c.cols).map fun i => into i (f 7) fun t => (s.normAt dn layer c f t i).1 else [])

/-! ### Soft-maximum backward (the table after R247, R248, R249) -/

/-- Step 0: D_i = Σ_c dO_ic × O_ic. Fields: 0 dO, 1 O, 2 D. -/
def State.attnD (s : State) (dn : Bool) (c : Config.KCall) (f : Nat → BAddr) : List KOut :=
  (List.range c.rows).map fun t => kOut (f 2) t (kSum dn ((List.range c.width).map fun i =>
    kMul dn (s.kWord (f 0) (t * c.width + i)) (s.kWord (f 1) (t * c.width + i))))

/-- The keep factor of element (m, n) of a tile pair, by SPR in mode 0b01 (R251 to R253). Constants: 0 d^(−1/2), 1 E0, 2 SITE
and DRAW, 3 the micro-batch index, 4 P16, 5 the keep scale, 6 the row pitch. -/
def State.attnKeep (s : State) (t : TaskRef) (c : Config.KCall) (m n : Nat) : LaneRes :=
  let k (i : Nat) : Nat := c.consts.getD i 0
  let e := (k 1 + m * k 6 + n) % 2 ^ 32
  let v := sporeValue (s.rn (tsReg t.job 0)) (s.rn (tsReg t.job 4)) (k 2) (k 3) t.step e
  { code := if k 4 % 65536 ≤ v then k 5 else 0 }

/-- P of one element of S (step 2): 2^(S × S1 − lse2_i), and 0 for j > i under a causal mask. -/
def State.attnP (s : State) (dn : Bool) (b : Nat) (c : Config.KCall) (f : Nat → BAddr) (x : LaneRes) (m n : Nat) : LaneRes :=
  if c.causal && decide (c.i0 + m < c.j0 + n) then kZero
  else
    let z := kSub dn (kMul dn x { code := s.veS b 1 }) (s.kWord (f 0) m)
    (transL 0x1C dn z.code).after [z]

/-- A tile of FP8 E4M3 with one scale for 32 columns: element (m, n) at byte 128 m + n, its scale at byte 16,384 +
128 ⌊n ÷ 32⌋ + m. -/
def kTile (dn : Bool) (a : BAddr) (mm nn : Nat) (v : Nat → Nat → LaneRes) : List KOut :=
  ((List.range mm).map fun m =>
    ((List.range ((nn + 31) / 32)).map fun j =>
      let xs := (List.range (min 32 (nn - 32 * j))).map fun i => v m (32 * j + i)
      let (sc, l) := mxGroup e4m3 .nearest dn (fun _ => 0) (xs.map fun x => (inF dn x.code).1)
      { dst := a.plus (16384 + 128 * j + m), size := 1, res := { code := sc } } ::
        (l.zip xs).zipIdx.map fun ((y, x), i) => ({ dst := a.plus (128 * m + 32 * j + i), size := 1, res := y.after [x] } : KOut)).flatten).flatten

/-- An element of such a tile as FP32. -/
def State.kTileAt (s : State) (dn : Bool) (a : BAddr) (m n : Nat) : LaneRes :=
  cvtwL dn 2 0 (some (s.rdNAt (a.plus (16384 + 128 * (n / 32) + m)) 1)) (s.rdNAt (a.plus (128 * m + n)) 1)

/-- dS of one element of dP̃ (step 5): P ⊙ (dP̃ ⊙ k − D_i) × d^(−1/2). Fields: 0 D, 1 P, 2 dS. -/
def State.attnDs (s : State) (dn : Bool) (t : TaskRef) (c : Config.KCall) (f : Nat → BAddr) (x : LaneRes) (m n : Nat) : LaneRes :=
  kMul dn (kMul dn (s.kTileAt dn (f 1) m n) (kSub dn (kMul dn x (s.attnKeep t c m n)) (s.kWord (f 0) m)))
    { code := c.consts.getD 0 0 }

/-- A tile pair whose first key index exceeds its last query index is skipped under a causal mask (R248). -/
def skipsPair (c : Config.KCall) : Bool := c.kid == 0x21 && c.stage != 0 && c.causal && decide (c.i0 + c.rows ≤ c.j0)

/-! ### Loss and adapters -/

/-- XENT_BWD: dz_v = (2^(z_v − lse2) − [v = y]) × S7 ÷ T. Fields: 0 the records, 1 lse2, 2 the target index, 3 dz; constants: T,
then σ of each piece. -/
def State.xentBack (s : State) (dn : Bool) (b : Nat) (c : Config.KCall) (f : Nat → BAddr) : List KOut :=
  ((List.range c.rows).map fun t => (List.range c.cols).map fun v =>
    let z := kSub dn (s.kCombine dn (f 0) c.rows (c.consts.drop 1) t v) (s.kWord (f 1) t)
    let p := (transL 0x1C dn z.code).after [z]
    let one : LaneRes := if s.rdNAt ((f 2).plus (4 * t)) 4 = c.j0 + v then kNat 1 else kZero
    kOut (f 3) (t * c.cols + v) (kDiv dn (kMul dn (kSub dn p one) { code := s.veS b 7 }) (kNat (c.consts.getD 0 1)))).flatten

/-- α × h, for the operand of dB_c += α × h^T dy_c. Fields: 0 h, 1 the product; constant 0: α. -/
def State.adaptScale (s : State) (dn : Bool) (c : Config.KCall) (f : Nat → BAddr) : List KOut :=
  (List.range (c.rows * c.cols)).map fun i => kOut (f 1) i (kMul dn { code := c.consts.getD 0 0 } (s.kWord (f 0) i))

/-- ADAPT_APPLY adds each FP32 delta to its element (R263): an FP32 sum to nearest, of a BF16 adapter converted
stochastically under NUMPOL_UPDATE and to nearest under NUMPOL_SUMS. Fields: 0 the deltas, 1 the adapter; constant 0: 1 for
BF16. -/
def State.adaptApply (s : State) (dn sums : Bool) (g : Nat → Nat) (c : Config.KCall) (f : Nat → BAddr) : List KOut :=
  (List.range (c.rows * c.cols)).map fun i =>
    let d := s.kWord (f 0) i
    if c.consts.getD 0 0 = 1 then
      let a := (f 1).plus (2 * i)
      let e := cvtwL dn 0 0 none (s.rdNAt a 2)
      let x := kAdd dn e d
      { dst := a, size := 2, res := (cvtnL (if sums then .nearest else .stochastic) dn (g i) 0 0 x.code).after [x] }
    else kOut (f 1) i (kAdd dn (s.kWord (f 1) i) d)

/-! ### The end of a kernel's program -/

/-- Values are written by a running task. -/
def State.kPut (s : State) (b num : Nat) (l : List KOut) : State :=
  s.each (fun s k => s.wrTAt b num k.dst (leBytes k.size k.res.code)) l

/-- Conditions of results, by lane in the order they come. -/
def State.kFlags (s : State) (b w : Nat) (R : VeRun) (l : List LaneRes) : State :=
  s.veFlags b w R (l.zipIdx.map fun (x, i) => (i % 512, x))

/-- END of a VECTOR task that is a part of a kernel: its results are in memory. -/
def State.kernelEnd (s : State) (b w : Nat) (R : VeRun) : State :=
  match s.kernelOf R.task.job b R.task.id, s.run b R.task.num with
  | some c, some r =>
    let dn := R.denorm
    let f (i : Nat) : BAddr := addrAt r.addrs (c.fields.getD i 0)
    let sums := s.sums R.task.job
    let stoch := c.kid == 0x43 && c.consts.getD 0 0 == 1 && !sums
    let (g, s1) := if stoch then s.drawRound b R.task.num (c.rows * c.cols) else (fun _ => 0, s)
    let (out, recs) : List KOut × Nat := match c.kid with
      | 0x11 => (if c.stage = 0 then s.normPartial dn false c f else s.normBack dn false c f, c.consts.length)
      | 0x12 => (if c.stage = 0 then s.normPartial dn true c f else s.normBack dn true c f, c.consts.length)
      | 0x21 => (if c.stage = 0 then s.attnD dn c f else [], 0)
      | 0x22 => (s.xentBack dn b c f, (c.consts.drop 1).length)
      | 0x42 => (s.adaptScale dn c f, 0)
      | 0x43 => (s.adaptApply dn sums g c f, 0)
      | _ => ([], 0)
    let s2 := if s.kPoison (f 0) c.rows recs then (s1.setBit (blockReg b 0x5004) 9).poisonTask b R.task.num else s1
    (s2.kPut b R.task.num out).kFlags b w R (out.map fun x => x.res)
  | _, _ => s

/-- The element (m, n) that the chained program of a kernel's request computes first, from the accumulator's FP32 value:
P of step 2 and dS of step 5 of ATTN_BWD; y_c = CMB + α × (h B_c) of ADAPT_FWD and dx = CMB + dh A^T of ADAPT_BWD (R262). Fields of
the last two: 0 the records, 1 the result; constants of ADAPT_FWD: α, then σ of each piece, of ADAPT_BWD: σ of each. -/
def State.kernelElem (s : State) (dn : Bool) (b : Nat) (t : TaskRef) (c : Config.KCall) (f : Nat → BAddr) (x : LaneRes) (m n : Nat) : LaneRes :=
  match c.kid with
  | 0x21 => if c.stage = 2 then s.attnP dn b c f x m n else s.attnDs dn t c f x m n
  | 0x41 => kAdd dn (s.kCombine dn (f 0) c.rows (c.consts.drop 1) m (c.j0 + n)) (kMul dn { code := c.consts.getD 0 0 } x)
  | _ => kAdd dn (s.kCombine dn (f 0) c.rows c.consts m (c.j0 + n)) x

/-- What the chained program of a kernel's request of mm × nn elements leaves in memory. -/
def State.kernelTile (s : State) (dn : Bool) (t : TaskRef) (c : Config.KCall) (f : Nat → BAddr) (mm nn : Nat)
    (v : Nat → Nat → LaneRes) : List KOut :=
  match c.kid with
  | 0x21 =>
    if c.stage = 2 then kTile dn (f 1) mm nn v ++ kTile dn (f 2) mm nn fun m n => kMul dn (v m n) (s.attnKeep t c m n)
    else kTile dn (f 2) mm nn v
  | _ => ((List.range mm).map fun m => (List.range nn).map fun n => kOut (f 1) (c.width * m + c.j0 + n) (v m n)).flatten

/-- The chained program of a kernel's request has ended: its results are in memory, and what its chunks met is reported in
chunk order (R193, R198). -/
def State.kernelChain (s : State) (b : Nat) (R : VeRun) (acc : SMap Nat) : State :=
  match s.kernelOf R.task.job b R.task.id, s.run b R.task.num with
  | some c, some r =>
    let dn := R.denorm
    let f (i : Nat) : BAddr := addrAt r.addrs (7 + c.fields.getD i 0)
    let v (m n : Nat) : LaneRes :=
      s.kernelElem dn b R.task c f { code := (fp32.round .nearest dn 0 (accFmt.decode (SMap.get (fun _ => 0) acc (m * 128 + n)))).code } m n
    let recs := match c.kid with | 0x41 => (c.consts.drop 1).length | 0x42 => c.consts.length | _ => 0
    let s1 := if s.kPoison (f 0) c.rows recs then (s.setBit (blockReg b 0x5004) 9).poisonTask b R.task.num else s
    let s2 := s1.kPut b R.task.num (s.kernelTile dn R.task c f R.m R.n v)
    s2.each (fun s q =>
      let R := { R with chunk := q }
      s.veFlags b (s.veWord b R.entry) R
        (((List.range 512).filter fun l => !R.skips l).map fun l => (l, v (chunkM q l) (chunkN q l)))) (List.range 32)
  | _, _ => s

/-! ### The row-owner sum (R245) and the private P buffers (R249) -/

/-- Sums per row that a part of a kernel leaves for R245, if it leaves any: the norms' partial sums, and dy_c B_c^T of
ADAPT_BWD. -/
def partialCols (c : Config.KCall) : Option Nat :=
  if c.stage ≠ 0 then none
  else match c.kid with
    | 0x11 => some 1
    | 0x12 => some 2
    | 0x42 => some c.width
    | _ => none

/-- Where a part's partial values lie: the buffer of the sums, or the output rows of a MATMUL; with the bytes from one
row to the next. -/
def partialAt (c : Config.KCall) (r : RTask) (cols : Nat) : BAddr × Nat :=
  if recKind r.task.record = 2 then (addrAt r.addrs 5, 64 * bits (mmReq r.task.record) 83 72) else (addrAt r.addrs (c.fields.getD 4 0), 4 * cols)

/-- The participating block of lowest global index. -/
def rowOwner (l : List KPart) : Nat := (l.map fun x => x.block).foldl min 255

/-- The sums over the partial values of all participating blocks: in increasing global block index from +0 (R245); for
ADAPT_BWD multiplied by α (dh, R262). -/
def rowSums (dn : Bool) (alpha : Option Nat) (l : List KPart) (n : Nat) : List LaneRes :=
  let sorted := l.mergeSort fun x y => decide (x.block ≤ y.block)
  (List.range n).map fun i =>
    let x := kFold dn (sorted.map fun p => { code := p.vals.getD i 0 })
    match alpha with | some a => kMul dn { code := a } x | none => x

/-- A part of a kernel with partial values completes in block b: they go to the row owner, which, when those of every
participating block are there, adds them and returns the sums to each (R245). -/
def State.rowOwnerSum (s : State) (b : Nat) (r : RTask) : State :=
  let j := r.task.job
  match s.kernelOf j b (recId r.task.record) with
  | none => s
  | some c =>
    match partialCols c with
    | none => s
    | some cols =>
      let (a, pitch) := partialAt c r cols
      let vals := ((List.range c.rows).map fun t => (List.range cols).map fun k => s.rdNAt (a.plus (pitch * t + 4 * k)) 4).flatten
      let key (p : KPart) : Bool := p.kid == c.kid && p.inst == c.inst && p.mb == recMb r.task.record && p.step == r.task.step
      let mine : KPart := { kid := c.kid, inst := c.inst, mb := recMb r.task.record, step := r.task.step, block := b, dst := a,
                            pitch := pitch, cols := cols, vals := vals }
      let sl := s.slot j
      let here := (sl.kparts.filter fun p => key p && p.block != b) ++ [mine]
      let others := sl.kparts.filter fun p => !key p
      if !(c.parts.all fun x => here.any fun p => p.block == x) then s.setSlot j { sl with kparts := others ++ here }
      else
        let s := s.setSlot j { sl with kparts := others }
        let dn := s.denorm j
        let sums := rowSums dn (if c.kid = 0x42 then some (c.consts.getD 0 0) else none) here (c.rows * cols)
        let s := s.each (fun s (p : KPart) => s.each (fun s (x : LaneRes × Nat) =>
          s.wrAt (p.dst.plus (p.pitch * (x.2 / p.cols) + 4 * (x.2 % p.cols))) (leBytes 4 x.1.code)) sums.zipIdx) here
        let o := rowOwner here
        let R : VeRun := { task := { job := j, id := recId r.task.record, step := r.task.step, num := r.num }, chain := false,
                           chunk := 0, entry := 0, len := 0, m := 0, n := 0, kernel := true, undo := [], denorm := dn }
        s.kFlags o 0x10 R sums

/-- Handles of the two buffers that step 2 of a tile pair writes, P and P̃. -/
def pHandles (c : Config.KCall) (r : RTask) (hs : List (Nat × Nat)) : List Nat :=
  ([1, 2].filterMap fun i => (hs.find? fun h => h.1 == recBind r.task.record (7 + c.fields.getD i 0)).map fun h => h.2).eraseDups

/-- Requests of step 6 of a tile pair in the job's list. -/
def Slot.sixes (sl : Slot) (g inst : Nat) : Nat :=
  ((SMap.get (fun _ => DList.init) sl.lists g).calls.filter fun c => c.kid == 0x21 && c.stage == 6 && c.inst == inst).length

/-- The P buffers that a completed task leaves behind: those of a pair whose step 2 completes are noted, and those of a pair
whose last request of step 6 completes are given up; the handles to release (R249). -/
def State.pBuffers (s : State) (b : Nat) (r : RTask) (hs : List (Nat × Nat)) : List Nat × State :=
  let j := r.task.job
  let sl := s.slot j
  match sl.kcall (b / 16) (recId r.task.record) with
  | none => ([], s)
  | some c =>
    let mine (p : PBuf) : Bool := p.region == b / 16 && p.inst == c.inst && p.mb == recMb r.task.record && p.step == r.task.step
    if c.kid ≠ 0x21 ∨ skipsPair c then ([], s)
    else if c.stage = 2 then
      ([], s.setSlot j { sl with pbufs := (sl.pbufs.filter fun p => !mine p) ++
        [{ region := b / 16, inst := c.inst, mb := recMb r.task.record, step := r.task.step, handles := pHandles c r hs,
           left := sl.sixes (b / 16) c.inst }] })
    else if c.stage ≠ 6 then ([], s)
    else
      let l := sl.pbufs.map fun p => if mine p then { p with left := p.left - 1 } else p
      let done := l.filter fun p => mine p && p.left == 0
      ((done.map fun p => p.handles).flatten, s.setSlot j { sl with pbufs := l.filter fun p => !(mine p && p.left == 0) })

/-- The buffers that step 2 of a tile pair writes hold the P of no other pair (R249). -/
def Slot.pPrivate (sl : Slot) (b : Nat) (c : Config.KCall) (mb step : Nat) (hs : List Nat) : Bool :=
  c.kid != 0x21 || c.stage != 2 || sl.pbufs.all fun p =>
    (p.region == b / 16 && p.inst == c.inst && p.mb == mb && p.step == step) || p.handles.all fun h => !hs.contains h

end Sys2Proof.Machine
end

