-- ==== Sys2Proof/Machine/Matmul.lean ====
section
/-!
DEFINITION. Sys2Proof/Machine/Matmul.lean: the matrix core (spec/05, R141 to R169): the request, operand
feeds, block products and accumulation, checksums, the check pass and re-runs, output conversion, the
checksum record, and the start of an element program (R193 to R197).
-/
namespace Sys2Proof.Machine

/-! ### The request (R141, R142) -/

def mqOp (r : Nat) : Nat := bits r 1 0
def mqAKin (r : Nat) : Bool := bits r 2 2 = 1
def mqBKin (r : Nat) : Bool := bits r 3 3 = 1
def mqAFmt (r : Nat) : Nat := bits r 6 4
def mqBFmt (r : Nat) : Nat := bits r 9 7
def mqMx (r : Nat) : Bool := bits r 10 10 = 1
def mqOutFmt (r : Nat) : Nat := bits r 13 11
def mqOutMx (r : Nat) : Bool := bits r 14 14 = 1
def mqChain (r : Nat) : Bool := bits r 15 15 = 1
def mqGacc (r : Nat) : Bool := bits r 16 16 = 1
def mqCsum (r : Nat) : Bool := bits r 17 17 = 1
def mqM (r : Nat) : Nat := bits r 24 18 + 1
def mqN (r : Nat) : Nat := bits r 31 25 + 1
def mqKb (r : Nat) : Nat := bits r 47 32
def mqAStride (r : Nat) : Nat := bits r 59 48
def mqBStride (r : Nat) : Nat := bits r 71 60
def mqCStride (r : Nat) : Nat := bits r 83 72
def mqA (r : Nat) : Nat := bits r 100 84
def mqB (r : Nat) : Nat := bits r 117 101
def mqAs (r : Nat) : Nat := bits r 134 118
def mqBs (r : Nat) : Nat := bits r 151 135
def mqCIn (r : Nat) : Nat := bits r 168 152
def mqCOut (r : Nat) : Nat := bits r 185 169
def mqCsumA (r : Nat) : Nat := bits r 202 186

/-- A_FMT and OUT_FMT as formats. -/
def mcFmt (n : Nat) : Fmt :=
  match n with
  | 0 => fp32
  | 1 => bf16
  | 2 => fp16
  | 3 => e4m3
  | 4 => e5m2
  | _ => e2m1

/-- Bytes of n packed elements. -/
def packed (f n : Nat) : Nat := ((mcFmt f).width * n + 7) / 8

/-- The byte runs of an operand: one for each line (R144). -/
def operandSegs (kin : Bool) (fmt base stride mn k : Nat) : List (Nat × Nat) :=
  if kin then (List.range mn).map fun m => (64 * (base + stride * m), packed fmt k)
  else (List.range k).map fun i => (64 * (base + stride * i), packed fmt mn)

/-- The byte runs that a request reads (R144 to R147). -/
def mqReads (r : Nat) : List (Nat × Nat) :=
  let k := 32 * mqKb r
  operandSegs (mqAKin r) (mqAFmt r) (mqA r) (mqAStride r) (mqM r) k ++
  operandSegs (mqBKin r) (mqBFmt r) (mqB r) (mqBStride r) (mqN r) k ++
  (if mqMx r then
     ((List.range (mqKb r)).map fun j => (64 * mqAs r + 128 * j, mqM r)) ++
     (List.range (mqKb r)).map fun j => (64 * mqBs r + 128 * j, mqN r)
   else []) ++
  (if mqOp r = 1 then (List.range (mqM r)).map fun m => (64 * (mqCIn r + mqCStride r * m), 4 * mqN r) else [])

/-- The byte runs that a request writes (R147, R166). -/
def mqWrites (r : Nat) : List (Nat × Nat) :=
  (if mqChain r then []
   else
     ((List.range (mqM r)).map fun m => (64 * (mqCOut r + mqCStride r * m), packed (mqOutFmt r) (mqN r))) ++
     (if mqOutMx r then
        (List.range (mqM r)).map fun m => (64 * (mqCOut r + mqCStride r * mqM r) + 4 * m, (mqN r + 31) / 32)
      else [])) ++
  (if mqCsum r then [(64 * mqCsumA r, 1088)] else [])

def segsOverlap (a b : List (Nat × Nat)) : Bool :=
  a.any fun (x, n) => b.any fun (y, m) => decide (x < y + m) && decide (y < x + n) && n != 0 && m != 0

/-- R142. -/
def mqBad (r : Nat) : Bool :=
  let fp8 (n : Nat) : Bool := n == 3 || n == 4
  bits r 255 203 != 0 || decide (2 ≤ mqOp r) || decide (6 ≤ mqAFmt r) || decide (6 ≤ mqBFmt r) ||
  decide (5 ≤ mqOutFmt r) || mqKb r == 0 || mqAStride r == 0 || mqBStride r == 0 || mqCStride r == 0 ||
  !(mqAFmt r == mqBFmt r || (fp8 (mqAFmt r) && fp8 (mqBFmt r))) ||
  (mqMx r && decide (mqAFmt r ≤ 2)) || (!mqMx r && mqAFmt r == 5) ||
  (mqOutMx r && !fp8 (mqOutFmt r)) ||
  (mqReads r ++ mqWrites r).any fun (a, n) => decide (bsSize < a + n)

/-- MATMUL_REQUEST: the request is queued, or rejected as malformed (R142, R143, R322). -/
def State.matmulRequest (s : State) (b : Nat) (q : McReq) : State :=
  if mqBad q.req then
    ((s.setBit (blockReg b 0x4004) 4).raiseJ 0x0244 2 b q.task.job q.task.id).failTask b q.task.num
  else
    let B := s.block b
    s.setBlock b { B with mc := { B.mc with queue := B.mc.queue ++ [q] } }

/-! ### Operands (R144 to R146, R153) -/

/-- Code of element (i, k) of an operand, i along M or N. -/
def State.mcCode (s : State) (b : Nat) (kin : Bool) (fmt base stride i k : Nat) : Nat :=
  let line := if kin then i else k
  let e := if kin then k else i
  let a := 64 * (base + stride * line)
  if fmt = 5 then bits (s.rdByte (.bs b) (a + e / 2)).toNat (4 * (e % 2) + 3) (4 * (e % 2))
  else let n := (mcFmt fmt).width / 8; s.rdN (.bs b) (a + n * e) n

def State.mcElemA (s : State) (b r : Nat) (dn : Bool) (m k : Nat) : FpNum × Bool :=
  (mcFmt (mqAFmt r)).input dn (s.mcCode b (mqAKin r) (mqAFmt r) (mqA r) (mqAStride r) m k)
def State.mcElemB (s : State) (b r : Nat) (dn : Bool) (n k : Nat) : FpNum × Bool :=
  (mcFmt (mqBFmt r)).input dn (s.mcCode b (mqBKin r) (mqBFmt r) (mqB r) (mqBStride r) n k)
/-- Scale bytes of block j (R146). -/
def State.mcScaleA (s : State) (b r m j : Nat) : Nat := (s.rdByte (.bs b) (64 * mqAs r + 128 * j + m)).toNat
def State.mcScaleB (s : State) (b r n j : Nat) : Nat := (s.rdByte (.bs b) (64 * mqBs r + 128 * j + n)).toNat
def State.mcCIn (s : State) (b r : Nat) (dn : Bool) (m n : Nat) : FpNum × Bool :=
  fp32.input dn (s.rdN (.bs b) (64 * (mqCIn r + mqCStride r * m) + 4 * n) 4)

/-- A scaled element: its value with its block's scale, NaN with a scale of 0xFF. -/
def scaledElem (mx : Bool) (sc : Nat) (x : FpNum) : FpNum :=
  if !mx then x else if sc = 255 then .nan false else x.scale ((sc : Int) - 127)

def State.mcA (s : State) (b r : Nat) (dn : Bool) (m k : Nat) : FpNum :=
  scaledElem (mqMx r) (s.mcScaleA b r m (k / 32)) (s.mcElemA b r dn m k).1
def State.mcB (s : State) (b r : Nat) (dn : Bool) (n k : Nat) : FpNum :=
  scaledElem (mqMx r) (s.mcScaleB b r n (k / 32)) (s.mcElemB b r dn n k).1

/-! ### Accumulation (R148 to R152) -/

/-- An exact value added into an accumulator, rounded once. -/
def accAdd (rm : RM) (g acc : Nat) (x : FpNum) : Nat :=
  (accFmt.round rm false g (FpNum.add rm (accFmt.decode acc) x)).code

def sumNum (l : List FpNum) : FpNum := l.foldl (FpNum.add .nearest) (.fin false 0 0)

/-- The accumulator of PE (m, n) after all its additions, with the first k at which it became NaN. The additions
are one per block with MX (R149) and one per product without (R150), in increasing k (R151). DESIGN CHOICE (assumption
145): a NaN of C_IN is reported at k = 0, a NaN that arises in the sum of an MX block none of whose products is NaN at the
block's last k. -/
def State.mcPe (s : State) (b r : Nat) (dn : Bool) (rm : RM) (g : Nat → Nat) (m n : Nat) : Nat × Option Nat :=
  let prod (k : Nat) : FpNum := FpNum.mul (s.mcA b r dn m k) (s.mcB b r dn n k)
  let init := if mqOp r = 1 then (accFmt.round .nearest false 0 (s.mcCIn b r dn m n).1).code else 0
  let step (st : Nat × Option Nat) (i : Nat) : Nat × Option Nat :=
    let ks := if mqMx r then (List.range 32).map fun x => 32 * i + x else [i]
    let sum := sumNum (ks.map prod)
    let acc := accAdd rm (g i) st.1 sum
    let nan := if st.2.isSome ∨ ¬ (accFmt.decode acc).isNaN then st.2
               else some ((ks.find? fun k => (prod k).isNaN).getD (ks.getLastD 0))
    (acc, nan)
  (List.range (if mqMx r then mqKb r else 32 * mqKb r)).foldl step
    (init, if (accFmt.decode init).isNaN then some 0 else none)

/-- Σ over i < n of the values of f, exact. -/
def sumTo (n : Nat) (f : Nat → FpNum) : FpNum := sumNum ((List.range n).map f)

/-- One checksum PE: Σ_k u_k × v_k from a start value, one rounding for each k (spec/05, "Checksum
accumulators"). -/
def csAcc (k : Nat) (start : FpNum) (u v : Nat → FpNum) : Nat :=
  (List.range k).foldl (fun acc i => accAdd .nearest 0 acc (FpNum.mul (u i) (v i)))
    (accFmt.round .nearest false 0 start).code

/-- All updates of a request: the accumulators, the checksum row and column, the magnitude sums, the first NaN,
and whether an input was flushed. DESIGN CHOICE (assumption 146): of the PEs that become NaN at the same k, the lowest in
row order is the first (R154). -/
def State.mcUpdate (s : State) (b : Nat) (q : McReq) (cfg rerun : Nat) : McRun × Bool × State :=
  let r := q.req
  let dn := s.denorm q.task.job
  let M := mqM r
  let N := mqN r
  let K := 32 * mqKb r
  let adds := if mqMx r then mqKb r else K
  let sto := mqGacc r && s.sums q.task.job
  let rm : RM := if sto then .stochastic else .nearest
  let (g, s1) := if sto then s.drawRound b q.task.num (16384 * adds) else (fun _ => 0, s)
  let pes := (List.range (M * N)).map fun i =>
    let m := i / N
    let n := i % N
    (m, n, s.mcPe b r dn rm (fun k => g ((m * 128 + n) * adds + k)) m n)
  let acc := pes.foldl (fun a (m, n, c, _) => SMap.set (fun _ => 0) a (m * 128 + n) c) []
  let nan := pes.foldl (fun best (m, n, _, k) =>
    match k, best with
    | none, x => x
    | some k, none => some (m, n, k)
    | some k, some (m', n', k') => if k < k' then some (m, n, k) else some (m', n', k')) (none : Option (Nat × Nat × Nat))
  let cin (m n : Nat) : FpNum := if mqOp r = 1 then (s.mcCIn b r dn m n).1 else .fin false 0 0
  let a (m k : Nat) : FpNum := s.mcA b r dn m k
  let v (n k : Nat) : FpNum := s.mcB b r dn n k
  let put (n : Nat) (f : Nat → Nat) : SMap Nat := (List.range n).foldl (fun x i => SMap.set (fun _ => 0) x i (f i)) []
  let flushed := (List.range K).any fun k =>
    ((List.range M).any fun m => (s.mcElemA b r dn m k).2) || (List.range N).any fun n => (s.mcElemB b r dn n k).2
  let flushed := flushed || (mqOp r == 1 && (List.range (M * N)).any fun i => (s.mcCIn b r dn (i / N) (i % N)).2)
  ({ req := q, stage := .checking, cfg := cfg, acc := acc,
     csRow := put N fun n => csAcc K (sumTo M fun m => cin m n) (fun k => sumTo M fun m => a m k) (fun k => v n k),
     csCol := put M fun m => csAcc K (sumTo N fun n => cin m n) (fun k => a m k) (fun k => sumTo N fun n => v n k),
     muRow := put N fun n => csAcc K (sumTo M fun m => (cin m n).abs) (fun k => sumTo M fun m => (a m k).abs) (fun k => (v n k).abs),
     muCol := put M fun m => csAcc K (sumTo N fun n => (cin m n).abs) (fun k => (a m k).abs) (fun k => sumTo N fun n => (v n k).abs),
     rerun := rerun, nan := nan, ovf := false }, flushed, s1)

/-- Cycles that the array takes for a request's updates (spec/05, "The array and its rate"). -/
def mcCycles (r : Nat) : Nat :=
  let k := 32 * mqKb r
  match mqAFmt r with
  | 0 => 16 * k
  | 1 => 4 * k
  | 2 => 4 * k
  | 5 => k / 2
  | _ => k

def State.setRuns (s : State) (b : Nat) (l : List McRun) : State :=
  let B := s.block b
  s.setBlock b { B with mc := { B.mc with runs := l } }

/-- The request of the head run ends. -/
def State.mcDrop (s : State) (b : Nat) : State := s.setRuns b ((s.block b).mc.runs.drop 1)

/-- Flushes of a request (R153, R156, R217). -/
def State.mcFlush (s : State) (b : Nat) (t : TaskRef) (fl : Bool) : State :=
  if fl then (s.setBit (blockReg b 0x4004) 7).flushed t.job else s

/-- The core may start its next request: a bank is free and no earlier request's output is still to be written
that it reads (R143, R168, R169). -/
def MatCore.canStart (c : MatCore) : Bool :=
  match c.queue with
  | [] => false
  | q :: _ => decide (c.runs.length < 2) && c.runs.all fun r => !segsOverlap (mqReads q.req) (mqWrites r.req.req)

/-- MATMUL_START: the core takes its oldest request and performs all its updates. -/
def execMatmulStart (b : BlockId) (errs : List MemErr) (s : State) : Out :=
  let b := b.val
  let B := s.block b
  whenever B.mc.canStart s
    (match B.mc.queue with
     | [] => s
     | q :: rest =>
       let s := s.memErrs errs
       let B := s.block b
       let s := s.setBlock b { B with mc := { B.mc with queue := rest, bank := !B.mc.bank } }
       let s := if (mqReads q.req).any fun (a, n) => s.poisoned (.bs b) a n then s.poisonTask b q.task.num else s
       let (run, fl, s) := s.mcUpdate b q (s.rn (blockReg b 0x4000)) 0
       let s := (s.mcFlush b q.task fl).bump64 (blockReg b 0x4018) (mcCycles q.req)
       s.setRuns b ((s.block b).mc.runs ++ [run]))

/-! ### The check pass (R159 to R164) -/

def McRun.num (m : SMap Nat) (i : Nat) : FpNum := accFmt.decode (SMap.get (fun _ => 0) m i)

/-- The comparison of R162 for one line: its accumulators, its checksum and magnitude sum, and the count beside
32 × KB. -/
def lineFails (kb cnt slack : Nat) (accs : List FpNum) (cs mu : FpNum) : Bool :=
  if accs.any fun x => !x.isFinite then false
  else
    let diff := (FpNum.add .nearest (sumNum accs) cs.neg).abs
    let tol := (FpNum.mul (FpNum.ofI (32 * kb + cnt : Nat)) mu).scale ((slack : Int) - 22)
    decide (FpNum.cmp diff tol = 1)

/-- The first failing column, else the first failing row, as (kind, line) of MC_LASTERR. -/
def McRun.checkFails (r : McRun) : Option (Nat × Nat) :=
  let q := r.req.req
  let slack := bits r.cfg 5 2
  let col := (List.range (mqN q)).find? fun n =>
    lineFails (mqKb q) (mqM q) slack ((List.range (mqM q)).map fun m => McRun.num r.acc (m * 128 + n))
      (McRun.num r.csRow n) (McRun.num r.muRow n)
  let row := (List.range (mqM q)).find? fun m =>
    lineFails (mqKb q) (mqN q) slack ((List.range (mqN q)).map fun n => McRun.num r.acc (m * 128 + n))
      (McRun.num r.csCol m) (McRun.num r.muCol m)
  match col, row with
  | some n, _ => some (2, n)
  | none, some m => some (3, m)
  | none, none => none

/-- Every accumulator of column n (or of row m) is finite, so that it is compared (R163). -/
def McRun.colFinite (r : McRun) (n : Nat) : Bool :=
  (List.range (mqM r.req.req)).all fun m => (McRun.num r.acc (m * 128 + n)).isFinite
def McRun.rowFinite (r : McRun) (m : Nat) : Bool :=
  (List.range (mqN r.req.req)).all fun n => (McRun.num r.acc (m * 128 + n)).isFinite

/-- A failure that the command brings concerns a PE, a block or a line that the request compares: an idle PE and a line
with a non-finite accumulator fail nothing (R163, "M or N below 128"). -/
def McRun.compares (r : McRun) (f : MatFault) : Bool :=
  let q := r.req.req
  match f.kind with
  | 1 => bit r.cfg 0 && decide (f.m < mqM q) && decide (f.n < mqN q) && decide (f.blk < mqKb q)
  | 2 => bit r.cfg 1 && decide (f.n < mqN q) && r.colFinite f.n
  | 3 => bit r.cfg 1 && decide (f.m < mqM q) && r.rowFinite f.m
  | _ => false

/-- What a check pass finds: kind, line, column, block of MC_LASTERR; none when all comparisons succeed. -/
def McRun.failure (r : McRun) (f : MatFault) : Option (Nat × Nat × Nat × Nat) :=
  if r.compares f then
    some (match f.kind with
      | 1 => (1, f.m, f.n, f.blk)
      | 2 => (2, f.n, 0, 0)
      | _ => (3, f.m, 0, 0))
  else if bit r.cfg 1 then r.checkFails.map fun (k, l) => (k, l, 0, 0)
  else none

/-- The NaN report and the NONFINITE bit of a run that counts (R154). -/
def State.mcNan (s : State) (b : Nat) (r : McRun) : State :=
  let t := r.req.task
  let s := if r.acc.any fun (_, c) => !(accFmt.decode c).isFinite then s.setBit (blockReg b 0x4004) 5 else s
  match r.nan with
  | none => s
  | some (m, n, k) =>
    s.nanReport t.job { req := b / 16, unit := 2, op := mqOp r.req.req, blk := b, task := t.id, step := t.step,
                        x := m, y := n, z := k % 65536, w := k / 65536 }

/-- The oldest request whose check pass is due, with those before and after it. -/
def splitRuns (st : McStage) : List McRun → Option (List McRun × McRun × List McRun)
  | [] => none
  | r :: l => if r.stage = st then some ([], r, l) else (splitRuns st l).map fun (a, x, c) => (r :: a, x, c)

/-- MATMUL_CHECK_PASS: the residue and checksum comparisons accept the request, re-run it once, or poison it
(R159 to R164). DESIGN CHOICE: the task of a poisoned request is marked poisoned and completes with its signals (assumption
147); a re-run that passes is reported by the kind of the first failure, one that fails by the kind of the second
(assumption 148). -/
def execMatmulCheckPass (b : BlockId) (f : MatFault) (s : State) : Out :=
  let b := b.val
  let st := blockReg b 0x4004
  match splitRuns .checking (s.block b).mc.runs with
  | none => .next s
  | some (before, r, after) =>
    let t := r.req.task
    match r.failure f with
    | none =>
      let s := if r.rerun = 0 then s
        else
          let s := s.setBit st (if r.rerun = 1 then 0 else 2)
          (s.bump (blockReg b 0x4008) 15 0 1).raiseJ (if r.rerun = 1 then 0x0240 else 0x0242) 2 b t.job t.id
      let s := s.mcNan b r
      .next (s.setRuns b (before ++ { r with stage := .checked } :: after))
    | some (kind, line, col, blk) =>
      if r.rerun = 0 then
        let (r', fl, s) := s.mcUpdate b r.req r.cfg (if kind = 1 then 1 else 2)
        let s := (s.mcFlush b t fl).bump64 (blockReg b 0x4018) (mcCycles r.req.req)
        .next (s.setRuns b (before ++ r' :: after))
      else
        let s := (s.setBit st (if kind = 1 then 1 else 3)).bump (blockReg b 0x4008) 31 16 1
        let s := s.setRn (blockReg b 0x400C) (kind + line % 128 * 4 + col % 128 * 512 + min 65535 blk * 65536)
        let s := (s.mcNan b r).raiseJ (if kind = 1 then 0x0241 else 0x0243) 2 b t.job t.id
        .next (((s.setRuns b (before ++ after)).poisonTask b t.num).partDone b t.num)

/-! ### Output (R155 to R158, R166) -/

/-- One output without MX (R156). -/
def mcOut (f : Fmt) (dn : Bool) (x : FpNum) : LaneRes :=
  let r := f.round .nearest dn 0 x
  { code := r.code, sovf := x.isInf || r.ovf, flushed := r.flushed }

/-- The outputs of one row with their scale bytes (R157, R158): groups of 32 along n. -/
def McRun.outRow (r : McRun) (dn : Bool) (m : Nat) : List LaneRes × List Nat :=
  let q := r.req.req
  let f := mcFmt (mqOutFmt q)
  let xs := (List.range (mqN q)).map fun n => McRun.num r.acc (m * 128 + n)
  if mqOutMx q then
    let gs := (List.range ((mqN q + 31) / 32)).map fun j => mxGroup f .nearest dn (fun _ => 0) ((xs.drop (32 * j)).take 32)
    ((gs.map fun (_, l) => l).flatten, gs.map fun (c, _) => c)
  else (xs.map (mcOut f dn), [])

/-- A word of the checksum record, in FP32 (R166). -/
def csWord (dn : Bool) (x : FpNum) : Rounded := fp32.round .nearest dn 0 x

/-- A word of the checksum record is flushed to zero (R217). -/
def McRun.recordFlushed (r : McRun) (dn : Bool) : Bool :=
  let fl (x : FpNum) : Bool := (csWord dn x).flushed
  fl (sumTo (mqN r.req.req) fun n => McRun.num r.csRow n) ||
  (List.range (mqN r.req.req)).any (fun n => fl (McRun.num r.csRow n)) ||
  (List.range (mqM r.req.req)).any fun m => fl (McRun.num r.csCol m)

/-- The checksum record (R166). -/
def McRun.record (r : McRun) (dn : Bool) : List Byte :=
  let q := r.req.req
  let w (x : FpNum) : Nat := (csWord dn x).code
  let nonf := r.acc.any fun (_, c) => !(accFmt.decode c).isFinite
  leBytes 4 r.req.task.id ++ leBytes 1 (mqM q) ++ leBytes 1 (mqN q) ++
  leBytes 2 (b2n nonf + 2 * b2n (r.rerun != 0) + 4 * b2n r.ovf) ++
  leBytes 4 (w (sumTo (mqN q) fun n => McRun.num r.csRow n)) ++ leBytes 4 (mqKb q) ++ leBytes 48 0 ++
  ((List.range 128).map fun n => leBytes 4 (if n < mqN q then w (McRun.num r.csRow n) else 0)).flatten ++
  ((List.range 128).map fun m => leBytes 4 (if m < mqM q then w (McRun.num r.csCol m) else 0)).flatten

/-- The run of a chained request's element program, from its slot's entry and length. -/
def State.chainRun (s : State) (b : Nat) (r : McRun) : VeRun :=
  let t := r.req.task
  let ep := s.rn (blockReg b (0x5020 + 4 * r.req.slot))
  { task := t, chain := true, chunk := 0, entry := bits ep 9 0, len := bits ep 20 16 + 1, m := mqM r.req.req, n := mqN r.req.req,
    kernel := (s.kernelOf t.job b t.id).isSome, undo := [], denorm := s.denorm t.job }

/-- A chained request's element program starts (R172, R193, R195): its registers are loaded and its first chunk
is in V31. An invalid slot or an illegal word ends the request instead. -/
def State.startChain (s : State) (b : Nat) (r : McRun) (before after : List McRun) : State :=
  let t := r.req.task
  let ep := s.rn (blockReg b (0x5020 + 4 * r.req.slot))
  let R := s.chainRun b r
  let entry := R.entry
  let len := R.len
  let bad := (List.range len).find? fun i => decide (1024 ≤ entry + i) || !veLegal true (s.veWord b (entry + i))
  let chained := s.setRuns b (before ++ { r with stage := .chained } :: after)
  match bit ep 31, bad with
  | true, none =>
    let rec' := match s.run b t.num with | some x => x.task.record | none => 0
    let addrs := match s.run b t.num with | some x => x.addrs | none => []
    let s := chained.modVe b fun e =>
      let sv := (List.range 8).foldl (fun m i => SMap.set (fun _ => 0) m i (recF rec' (0x50 + 4 * i) 31 0)) e.s
      let av := (List.range 8).foldl (fun m i =>
        SMap.set (fun _ => 0) m i (if i < 4 then (match addrs[7 + i]? with
          | some a => (a.base + a.off) / 64 % 2 ^ 17 | none => 0) else 0)) e.a
      { e with s := sv, a := av, pc := entry, loops := [], run := some R, cfg := s.rn (blockReg b 0x5000) }
    (if recLs rec' then
       let k := s.lossAt t.job t.step
       (s.setVeS b 6 (pow2Code (-k))).setVeS b 7 (pow2Code k)
     else s).vePrivate b
  | _, _ => (chained.modVe b fun e => { e with pc := entry + bad.getD 0 }).veIllegal b R

/-- MATMUL_WRITE_PASS: the oldest checked request's output conversion and write pass begin (R155 to R158, R165,
R168); a chained one's element program starts when the vector engine is idle (R197). -/
def execMatmulWritePass (b : BlockId) (s : State) : Out :=
  let b := b.val
  match (s.block b).mc.runs with
  | [] => .next s
  | r :: rest =>
    let q := r.req.req
    let t := r.req.task
    whenever (r.stage == .checked && (!mqChain q || (s.block b).ve.run.isNone)) s
      (if mqChain q then s.startChain b r [] rest
       else
         let dn := s.denorm t.job
         let outs := ((List.range (mqM q)).map fun m => (r.outRow dn m).1).flatten
         let ovf := outs.any fun x => x.sovf
         let s := s.mcFlush b t (outs.any fun x => x.flushed)
         let s := if ovf then (s.setBit (blockReg b 0x4004) 6).scaleOvf b t else s
         s.setRuns b ({ r with stage := .writing, ovf := ovf } :: rest))

/-- One row's packed bytes. -/
def packRow (f : Fmt) (l : List LaneRes) : List Byte :=
  leBytes ((f.width * l.length + 7) / 8) (l.foldr (fun x n => x.code + 2 ^ f.width * n) 0)

/-- A tie-group buffer's completed request is counted (R259). -/
def State.tieDone (s : State) (b : Nat) (t : TaskRef) (cOut : Nat) : State :=
  let sl := s.slot t.job
  s.setSlot t.job { sl with ties := sl.ties.map fun x =>
    if x.block = b ∧ x.buf = 64 * cOut ∧ x.step = t.step then { x with count := x.count + 1 } else x }

/-- MATMUL_WRITE_DONE: the write pass ends; the output and then the checksum record are in the block store, and
the request is complete (R147, R165 to R167). -/
def execMatmulWriteDone (x : At BlockId) (s : State) : Out :=
  let b := x.what.val
  match (s.block b).mc.runs with
  | [] => .next s
  | r :: _ =>
    let q := r.req.req
    let t := r.req.task
    whenever (r.stage == .writing || (r.stage == .chained && (s.block b).ve.run.isNone)) s
      (let s := s.memErrs x.errs
       let dn := s.denorm t.job
       let row (s : State) (m : Nat) : State :=
         let (l, sc) := r.outRow dn m
         let s := s.wrT b t.num (.bs b) (64 * (mqCOut q + mqCStride q * m)) (packRow (mcFmt (mqOutFmt q)) l)
         if mqOutMx q then
           s.wrT b t.num (.bs b) (64 * (mqCOut q + mqCStride q * mqM q) + 4 * m) ((sc.map fun c => leBytes 1 c).flatten)
         else s
       let s := if mqChain q then s.kernelChain b (s.chainRun b r) r.acc else s.each row (List.range (mqM q))
       let s := if mqCsum q then
           (s.wrT b t.num (.bs b) (64 * mqCsumA q) (r.record dn)).mcFlush b t (r.recordFlushed dn)
         else s
       let s := if mqGacc q then s.tieDone b t (mqCOut q) else s
       ((s.bump (blockReg b 0x4010) 31 0 1).mcDrop b).partDone b t.num)

end Sys2Proof.Machine
end

