-- ==== Sys2Proof/Machine/Alloc.lean ====
section
/-!
DEFINITION. Sys2Proof/Machine/Alloc.lean: the hardware allocator (spec/09, R291 to R302, R606, R607): page
runs, requests and their checks, queues, frees, queries, timeouts and zero fill.
-/
namespace Sys2Proof.Machine

/-! ### Page runs (R292) -/

/-- The entry holds its pages: a record that is away holds none until its prefetch has them (R296, R305, R306). -/
def HEntry.holds (e : HEntry) : Bool := e.state != .free && (!e.away || e.zeroing)

/-- The runs (base, length) taken in the pages that an ALLOC of a pool searches: block b of the region's stores,
the region's stack, or every stack for the spread pool. -/
def State.usedRuns (s : State) (pool region block : Nat) : List (Nat × Nat) :=
  let own (g p b : Nat) : List (Nat × Nat) :=
    (s.alloc g).table.filterMap fun (_, e) =>
      if e.holds && e.pool == p && (p != 0 || e.block == b) then some (e.base, e.pages) else none
  let spread : List (Nat × Nat) :=
    (s.alloc 16).table.filterMap fun (_, e) => if e.holds then some (e.base, e.pages / 16) else none
  match pool with
  | 0 => own region 0 block
  | 1 => own region 1 0 ++ spread
  | _ => ((List.range 16).map fun g => own g 1 0).flatten ++ spread

/-- First allocatable page and the page after the last. -/
def poolBounds (pool : Nat) : Nat × Nat := if pool = 0 then (16, 1536) else (512, 49152)

/-- Is [p, p + n) free? -/
def runFree (used : List (Nat × Nat)) (p n : Nat) : Bool :=
  used.all fun (b, l) => decide (p + n ≤ b) || decide (b + l ≤ p)

/-- Where a free run can begin: the first page, and the end of every run taken. -/
def runStarts (lo : Nat) (used : List (Nat × Nat)) : List Nat := lo :: used.map fun (b, l) => b + l

/-- The lowest-addressed run of n free pages (R292). -/
def lowestRun (bounds : Nat × Nat) (used : List (Nat × Nat)) (n : Nat) : Option Nat :=
  (runStarts bounds.1 used).foldl (fun best p =>
    if bounds.1 ≤ p ∧ p + n ≤ bounds.2 ∧ runFree used p n = true then
      (match best with | some q => some (min p q) | none => some p)
    else best) none

/-- Length of the free run that begins at p. -/
def runFrom (hi : Nat) (used : List (Nat × Nat)) (p : Nat) : Nat :=
  if runFree used p 1 then (used.foldl (fun m (b, _) => if p ≤ b then min m b else m) hi) - p else 0

def largestRun (bounds : Nat × Nat) (used : List (Nat × Nat)) : Nat :=
  (runStarts bounds.1 used).foldl (fun m p => max m (runFrom bounds.2 used p)) 0

def freePages (bounds : Nat × Nat) (used : List (Nat × Nat)) : Nat :=
  bounds.2 - bounds.1 - used.foldl (fun n (_, l) => n + l) 0

/-! ### Slots and generations (R294) -/

/-- Slots in an owner's handle table. -/
def tableSize (owner : Nat) : Nat := if owner = 16 then 4096 else 16384

/-- The lowest FREE slot at or after `i`, trying `n` slots and wrapping at the end. -/
def Allocator.findSlot (a : Allocator) (size : Nat) : Nat → Nat → Option Nat
  | 0, _ => none
  | n + 1, i => if (a.entry (i % size)).state = .free then some (i % size) else a.findSlot size n (i + 1)

def mkHandle (slot owner pool gen : Nat) : Nat := slot + owner * 2 ^ 16 + pool * 2 ^ 21 + gen * 2 ^ 24

/-! ### Requests (R293, R300) -/

/-- The allocator that a request reaches, and its queue (R300). -/
def AllocReq.owner (q : AllocReq) : Nat := if q.pool = 2 then 16 else q.region
def AllocReq.queue (q : AllocReq) : Nat := if q.pool = 0 then q.block else if q.pool = 1 then 16 else 0

/-- Pages of a job's quota that are in use or queued (R293). -/
def State.quotaUsed (s : State) (q : AllocReq) : Nat :=
  let a := s.alloc q.owner
  let same (pool block : Nat) : Bool := pool == q.pool && (q.pool != 0 || block == q.block)
  a.table.foldl (fun n (_, e) => if e.holds && !e.fw && e.job == q.job && same e.pool e.block then n + e.pages else n) 0 +
  a.queues.foldl (fun n (_, l) =>
    l.foldl (fun n x => if !x.fw && x.job == q.job && same x.pool x.block then n + x.pages else n) n) 0

def State.quota (s : State) (q : AllocReq) : Nat :=
  let sl := s.slot q.job
  match q.pool with
  | 0 => sl.bsQuota
  | 1 => sl.hbmQuota
  | _ => sl.spQuota

/-- R293, first check: an ALLOC's field ranges and encodings. -/
def AllocReq.bad (q : AllocReq) : Bool :=
  decide (2 < q.pool) || q.pages == 0 ||
  decide ((match q.pool with | 0 => 1520 | 1 => 48640 | _ => 778240) < q.pages) ||
  (q.pool == 2 && q.pages % 16 != 0) || (q.fw && q.by_ != .firmware)

/-- Pages of a run in one memory. -/
def AllocReq.run (q : AllocReq) : Nat := if q.pool = 2 then q.pages / 16 else q.pages

def State.queueOf (s : State) (owner i : Nat) : List AllocReq := SMap.get (fun _ => []) (s.alloc owner).queues i
def State.setQueue (s : State) (owner i : Nat) (l : List AllocReq) : State :=
  let a := s.alloc owner
  s.setAlloc owner { a with queues := SMap.set (fun _ => []) a.queues i l }

/-- A request of the pager's prefetch re-uses its record's entry. -/
def AllocReq.forRecord (q : AllocReq) : Bool := match q.by_ with | .pager _ => true | _ => false

/-- The status of an ALLOC that is served now (R293), and the run it would take. -/
def State.allocCheck (s : State) (q : AllocReq) : Nat × Nat :=
  let a := s.alloc q.owner
  if q.bad then (5, 0)
  else if !q.fw && decide (s.quota q < s.quotaUsed q + q.pages) then (2, 0)
  else if !q.forRecord && (a.findSlot (tableSize q.owner) (tableSize q.owner) a.next).isNone then (7, 0)
  else
    match lowestRun (poolBounds q.pool) (s.usedRuns q.pool q.region q.block) q.run with
    | some p => (0, p)
    | none => (1, 0)

/-! ### Memory of an allocation -/

/-- Where the pages of a run lie: memories with a first byte and a length. -/
def runSpaces (pool region block base run : Nat) : List (Space × Nat × Nat) :=
  match pool with
  | 0 => [(.bs (region * 16 + block), base * 4096, run * 4096)]
  | 1 => [(.hbm region, base * 2 ^ 21, run * 2 ^ 21)]
  | _ => (List.range 16).map fun g => (.hbm g, base * 2 ^ 21, run * 2 ^ 21)

/-- Entries of a sparse memory outside [a, a + n). -/
def SMap.clear {α : Type} (m : SMap α) (a n : Nat) : SMap α :=
  m.filter fun (k, _) => decide (k < a) || decide (a + n ≤ k)

/-- Every byte of [a, a + n) becomes 0. -/
def State.zeroBytes (s : State) (sp : Space) (a n : Nat) : State :=
  let s := match sp with
    | .bs b => { s with store := { s.store with bstore := s.store.bstore.clear (b * bsSize + a) n } }
    | .hbm g => { s with store := { s.store with hbm := s.store.hbm.clear (g * 2 ^ 37 + a) n } }
    | .host => { s with store := { s.store with host := s.store.host.clear a n } }
  s.unpoison sp a n

/-- Every byte of [a, a + n) becomes undefined: free values (R299). -/
def State.scramble (s : State) (sp : Space) (a n : Nat) : State :=
  let d := s.draws
  let t := s.each (fun s i => s.wrByte sp (a + i) (BitVec.ofNat 8 (Config.undefValue (d + i)))) (List.range n)
  { s with store := t.store, draws := d + n }

/-! ### Responses -/

/-- The response of a request: to the task that made it, whose handle register takes the handle of a successful
ALLOC (R314) and which fails when it is refused; to firmware; a prefetch goes on (Pager.lean). -/
def State.respond (s : State) (q : AllocReq) (status handle : Nat) : State :=
  let a := s.alloc q.owner
  let s := s.setAlloc q.owner { a with last := { status := status, handle := handle, entry := none } }
  match q.by_ with
  | .task b num =>
    if status ≠ 0 then s.failTask b num
    else
      let sl := s.slot q.job
      let s := if q.op = 0 then
          s.setSlot q.job { sl with hregs := SMap.set (fun _ => 0) sl.hregs (q.region * 256 + q.reg) handle }
        else s
      s.partDone b num
  | .pager h =>
    let sl := s.slot q.job
    let st := if status = 0 then 4 else 3
    s.setSlot q.job { sl with acts := sl.acts.map fun r => if r.handle = h then { r with state := st } else r }
  | .firmware => s

/-- A refusal is latched (R607) and answered. -/
def State.refuse (s : State) (q : AllocReq) (status : Nat) : State :=
  let g := q.region
  let blk := if q.pool = 0 ∧ q.op = 0 then q.block else 0
  let s := s.setRn (regionReg g 0x200C) (status + q.job * 16 + blk * 1024)
  let s := s.setRn (regionReg g 0x2010) q.handle
  let s := match status with
    | 3 => (s.setBit (regionReg g 0x2004) 16).raiseJ 0x0621 3 g q.job 0
    | 4 => (s.setBit (regionReg g 0x2004) 17).raiseJ 0x0622 3 g q.job 0
    | 6 => (s.setBit (regionReg g 0x2004) 18).raiseJ 0x0623 3 g q.job 0
    | _ => s
  s.respond q status 0

/-- An ALLOC takes its run (R292, R294, R299, R306). -/
def State.grant (s : State) (q : AllocReq) (base : Nat) : State :=
  let o := q.owner
  match q.by_ with
  | .pager h =>
    let e := s.hentry h
    (s.setHentry h { e with base := base, zeroing := true }).respond q 0 h
  | _ =>
    let a := s.alloc o
    match a.findSlot (tableSize o) (tableSize o) a.next with
    | none => s.refuse q 7
    | some i =>
      let gen := (a.entry i).gen % 255 + 1
      let h := mkHandle i o q.pool gen
      let e : HEntry := { state := .live, gen := gen, pool := q.pool, block := q.block, base := base, pages := q.pages,
                          job := q.job, fw := q.fw, pager := false, inuse := 0, away := false, zeroing := q.zero }
      let a := a.setEntry i e
      let zs := if q.zero then a.zeros ++ [(h, q)] else a.zeros
      let s := s.setAlloc o { a with next := (i + 1) % tableSize o, zeros := zs }
      let s := s.each (fun s (sp, x, n) => if q.zero then s else s.scramble sp x n)
        (runSpaces q.pool q.region q.block base q.run)
      if q.zero then s else s.respond q 0 h

/-- An ALLOC reaches its allocator (R292 to R294, R300). -/
def State.allocate (s : State) (q : AllocReq) : State :=
  let (status, base) := s.allocCheck q
  let l := s.queueOf q.owner q.queue
  if status = 0 ∧ l.isEmpty then s.grant q base
  else if status = 0 ∨ status = 1 then
    if q.wait then s.setQueue q.owner q.queue (l ++ [q]) else s.refuse q 1
  else s.refuse q status

/-- A FREE reaches its allocator (R296 to R298). -/
def State.release (s : State) (q : AllocReq) : State :=
  let h := q.handle
  let e := s.hentry h
  if !s.hmatch h then s.refuse q 3
  else
    match e.state with
    | .free => s.refuse q 4
    | .freeing => s.refuse q 4
    | _ =>
      let s := if e.inuse = 0 then s.freeEntry h else s.setHentry h { e with state := .freeing }
      s.respond q 0 h

/-! ### The commands -/

/-- The request that a running MEM task makes (R313). -/
def RTask.memReq (r : RTask) (s : State) (b : Nat) : AllocReq :=
  let t := r.task.record
  let reg := recF t 0x38 7 0
  let free := recF t 0x30 1 0 = 1
  let h := SMap.get (fun _ => 0) (s.slot r.task.job).hregs (b / 16 * 256 + reg)
  { op := recF t 0x30 1 0, pool := if free then hPool h else recF t 0x30 4 2, block := recF t 0x30 8 5, job := r.task.job,
    fw := false, pages := recF t 0x34 19 0, zero := recF t 0x30 9 9 = 1, wait := recF t 0x30 10 10 = 1,
    handle := if free then h else 0, reg := reg, by_ := .task b r.num, region := b / 16, waitMs := 0 }

/-- The MEM task of block b whose request has not been made: its part is left and no queue or fill holds it. -/
def State.memTask (s : State) (b : Nat) (op : Nat) : Option RTask :=
  (s.block b).running.find? fun r =>
    r.engine == .alloc && decide (0 < r.left) && recF r.task.record 0x30 1 0 == op && !r.arrived

/-! ### Turns (R301) -/

/-- The blocks whose MEM tasks have a request of an OP for an allocator. -/
def State.memWaiting (s : State) (op owner : Nat) : List Nat :=
  (s.blocks.map fun x => x.1).filter fun b =>
    match s.memTask b op with
    | some r => (r.memReq s b).owner == owner
    | none => false

/-- The head of some queue of an allocator can be served now. -/
def State.queueReady (s : State) (owner : Nat) : Bool :=
  (s.alloc owner).queues.any fun (i, l) =>
    match l with
    | [] => false
    | q :: rest => ((s.setQueue owner i rest).allocCheck q).1 == 0

/-- Whose turn it is among blocks that wait for an allocator: the first at or after the pointer. -/
def State.memTurn (s : State) (op owner b : Nat) : Bool :=
  let l := s.memWaiting op owner
  match l.find? fun x => decide ((s.alloc owner).ptr ≤ x) with
  | some x => x == b
  | none => l.head? == some b

/-- The pointer advances past the block that is served. -/
def State.memServed (s : State) (owner b : Nat) : State := s.setAlloc owner { s.alloc owner with ptr := (b + 1) % 256 }

/-- ALLOC: the running ALLOC task of a block makes its request, in its turn, after any FREE and any queued request that the
allocator can serve (R292 to R294, R299 to R301). -/
def execAlloc (b : BlockId) (s : State) : Out :=
  let b := b.val
  match s.memTask b 0 with
  | none => .next s
  | some r =>
    let q := r.memReq s b
    whenever ((s.memWaiting 1 q.owner).isEmpty && !s.queueReady q.owner && s.memTurn 0 q.owner b) s
      (((s.memServed q.owner b).modRun b r.num fun x => { x with arrived := true }).allocate q)

/-- A firmware request. -/
def fwReq (op h region : Nat) : AllocReq :=
  { op := op, pool := hPool h, block := 0, job := 0, fw := true, pages := 0, zero := false, wait := false, handle := h,
    reg := 0, by_ := .firmware, region := region, waitMs := 0 }

/-- A FREE of a job's own buffer that no MEM task asks for. -/
def jobFree (j h region : Nat) : AllocReq := { fwReq 1 h region with job := j, fw := false }

/-- QUERY: firmware asks for a handle (R298, R606); a malformed handle is asked of region 0. -/
def execQuery (h : Nat) (s : State) : Out :=
  let q := fwReq 2 h (if hOwner h ≤ 15 then hOwner h else 0)
  let e := s.hentry h
  if s.hmatch h && e.state != .free then
    let a := s.alloc (hOwner h)
    .next (s.setAlloc (hOwner h) { a with last := { status := 0, handle := h, entry := some e } })
  else .next (s.refuse q 3)

/-- ALLOC_QUEUE_SERVE: the head of an allocator's queue is served when space has come free, after any FREE (R300, R301). -/
def execAllocQueueServe (owner queue : Nat) (s : State) : Out :=
  match s.queueOf owner queue with
  | [] => .next s
  | q :: rest =>
    let s1 := s.setQueue owner queue rest
    let (status, base) := s1.allocCheck q
    whenever (status == 0 && (s.memWaiting 1 owner).isEmpty) s (s1.grant q base)

/-- Milliseconds after which a queued request times out: RA_CFG of its region (R300, R607). -/
def State.allocTo (s : State) (q : AllocReq) : Nat := s.rf (regionReg q.region 0x2000) 15 0

/-- ALLOC_TIMEOUT: the oldest request of a queue has waited RA_CFG.ALLOC_TO and fails (R300); firmware stops
its job at its next tick. -/
def execAllocTimeout (owner queue : Nat) (s : State) : Out :=
  match pickFirst (fun q => decide (s.allocTo q ≤ q.waitMs)) (s.queueOf owner queue) with
  | none => .next s
  | some (q, rest) => .next ((s.setQueue owner queue rest).refuse q 6)

/-- ALLOC_ZERO_FILL_DONE: the zero fill of a handle completes and the handle is returned (R299). -/
def execAllocZeroFillDone (h : Nat) (s : State) : Out :=
  let o := hOwner h
  match pickFirst (fun x => x.1 == h) (s.alloc o).zeros with
  | none => .next s
  | some ((_, q), rest) =>
    let a := s.alloc o
    let e := s.hentry h
    let s := s.setAlloc o { a with zeros := rest }
    let s := s.setHentry h { e with zeroing := false }
    let s := s.each (fun s (sp, x, n) => s.zeroBytes sp x n) (runSpaces e.pool q.region e.block e.base q.run)
    .next (s.respond q 0 h)

/-- R302: a job's handles are freed, its handle registers cleared, its queued requests discarded. -/
def State.freeJobHandles (s : State) (j : Nat) : State :=
  let s := s.each (fun s o =>
    let a := s.alloc o
    let qs : SMap (List AllocReq) := a.queues.foldl (fun m (i, l) =>
      SMap.set (fun _ => []) m i (l.filter fun q => q.fw || q.job != j)) []
    let s := s.setAlloc o { a with queues := qs, zeros := a.zeros.filter fun (_, q) => q.fw || q.job != j }
    s.each (fun s (i, e) =>
      if e.job = j ∧ e.fw = false ∧ e.state ≠ .free then
        let h := mkHandle i o e.pool e.gen
        if e.inuse = 0 then s.freeEntry h else s.setHentry h { e with state := .freeing, zeroing := false }
      else s) a.table) (List.range 17)
  let sl := s.slot j
  s.setSlot j { sl with hregs := [], acts := [] }

end Sys2Proof.Machine
end

