-- ==== Sys2Proof/Machine/Crc.lean ====
section
/-!
DEFINITION. Sys2Proof/Machine/Crc.lean: the two check codes of the spec over lists of bytes: CRC-32C
(R272, R403, R432, R433, R469) and CRC-64 with the ECMA-182 polynomial, initial value 0, no reflection and
no final inversion (R398, R451). The spec gives no parameters for CRC-32C; those of its standard are taken
(PRESUMED, notes/assumptions).
-/
namespace Sys2Proof.Machine

/-- One bit of the reflected CRC-32C division. -/
def crc32Bit (c : BitVec 32) : BitVec 32 :=
  if c &&& 1#32 = 1#32 then (c >>> 1) ^^^ 0x82F63B78#32 else c >>> 1

def crc32Bits : Nat → BitVec 32 → BitVec 32
  | 0, c => c
  | n + 1, c => crc32Bits n (crc32Bit c)

def crc32Byte (c : BitVec 32) (b : BitVec 8) : BitVec 32 := crc32Bits 8 (c ^^^ b.zeroExtend 32)

/-- CRC-32C of a list of bytes. -/
def crc32c (l : List (BitVec 8)) : BitVec 32 := l.foldl crc32Byte 0xFFFFFFFF#32 ^^^ 0xFFFFFFFF#32

/-- One bit of the CRC-64 division, most significant bit first. -/
def crc64Bit (c : BitVec 64) : BitVec 64 :=
  if c.msb then (c <<< 1) ^^^ 0x42F0E1EBA9EA3693#64 else c <<< 1

def crc64Bits : Nat → BitVec 64 → BitVec 64
  | 0, c => c
  | n + 1, c => crc64Bits n (crc64Bit c)

def crc64Byte (c : BitVec 64) (b : BitVec 8) : BitVec 64 := crc64Bits 8 (c ^^^ (b.zeroExtend 64 <<< 56))

/-- CRC-64 of a list of bytes (R451). -/
def crc64 (l : List (BitVec 8)) : BitVec 64 := l.foldl crc64Byte 0#64

end Sys2Proof.Machine
end

