-- ==== Sys2Proof/Machine/HostPath.lean ====
section
/-!
DEFINITION. Sys2Proof/Machine/HostPath.lean: host windows and every access through them (spec/09, R287 to
R290; spec/14, R439, R440), CXL.mem (R283, R284, R444 to R446), the scrubber (R285) and the UCIe link (R441,
R442).
-/
namespace Sys2Proof.Machine

/-! ### Windows -/

def kindAct : Nat := 0
def kindXfer : Nat := 1
def kindImage : Nat := 2

/-- The windows of a job and kind with VALID, lowest first. -/
def State.windows (s : State) (j kind : Nat) : List Nat :=
  (List.range 16).filter fun w => s.rbit (hwinReg w 0xC) 0 && s.rf (hwinReg w 0xC) 8 3 == j && s.rf (hwinReg w 0xC) 2 1 == kind

def State.winBase (s : State) (w : Nat) : Nat := s.rn (hwinReg w 0) + s.rn (hwinReg w 4) * 2 ^ 32
/-- Size in bytes. -/
def State.winSize (s : State) (w : Nat) : Nat := s.rf (hwinReg w 8) 18 0 * 2 ^ 21

/-- The LPDDR6 range of R439. -/
def inLpddr (a n : Nat) : Bool := decide (0x80000000 ≤ a) && decide (a + n ≤ 0x10080000000)

/-- What a window access comes to: the host physical address, or the event that it raises (R288, R440). -/
inductive HostAcc where
  | at (a : Nat)
  | err (event : Nat)
  deriving DecidableEq, Repr

/-- An access of n bytes at an offset of a window. -/
def State.winAcc (s : State) (w off n : Nat) : HostAcc :=
  if s.winSize w < off + n then .err 0x0620
  else if inLpddr (s.winBase w + off) n then .at (s.winBase w + off) else .err 0x0463

/-- The ACT window of a job, while it is valid or its accesses in flight complete (R290). -/
def State.actWindow (s : State) (j : Nat) : Option Nat :=
  (List.range 16).find? fun w => (s.rbit (hwinReg w 0xC) 0 || s.rbit (hwinReg w 0xC) 16) && s.rf (hwinReg w 0xC) 8 3 == j &&
    s.rf (hwinReg w 0xC) 2 1 == kindAct

/-- An access in flight of the pager through the job's ACT window (R288, R290). -/
def State.actAcc (s : State) (j off n : Nat) : HostAcc :=
  match s.actWindow j with
  | none => .err 0x0620
  | some w => s.winAcc w off n

/-- An access of n bytes at an offset of the `sel`-th window of a job and kind. -/
def State.hostAcc (s : State) (j kind sel off n : Nat) : HostAcc :=
  match (s.windows j kind)[sel]? with
  | none => .err 0x0620
  | some w => s.winAcc w off n

/-- The UCIe link is active (UCIE_STATUS.ACTIVE). -/
def State.ucieUp (s : State) : Bool := s.rbit 0x51000 0

/-- A task's window access fails: its event, HOSTERR of the slot for a completion error, and the failure of the
task (R288, R440, R452). -/
def State.hostFail (s : State) (b num ev : Nat) : State :=
  match s.run b num with
  | none => s
  | some r =>
    let j := r.task.job
    let s := if ev = 0x0463 then s.setBit (xfReg j 8) 1 else s
    (s.raiseJ ev 2 b j (recId r.task.record)).failTask b num

/-- WINDOW_DRAIN_DONE: a window's accesses in flight are complete (R290). -/
def execWindowDrainDone (w : WindowId) (s : State) : Out :=
  let w := w.val
  let j := s.rf (hwinReg w 0xC) 8 3
  let moving := s.rf (hwinReg w 0xC) 2 1 == kindAct &&
    (s.slot j).acts.any fun r => r.state == 1 || r.state == 4 || r.state == 6
  whenever (s.rbit (hwinReg w 0xC) 16 && !moving) s
    (s.setRf (hwinReg w 0xC) 16 16 0)

/-! ### CXL.mem (R277, R283, R284, R444 to R446) -/

/-- Bytes of the HDM range: 16 stacks. -/
def hdmSize : Nat := 16 * hbmSize

/-- CXL.mem is served: the states of R446. In FLAGGED it is served when the stack is trained, that is, when
FLAGGED was entered from DRAINING. -/
def State.cxlServed (s : State) (g : Nat) : Bool :=
  match s.dev with
  | .ready => true
  | .running => true
  | .draining => true
  | .flagged => s.rbit (regionReg g 0x3000) 16
  | _ => false

def State.emit (s : State) (m : OutMsg) : State := { s with fab := { s.fab with out := s.fab.out ++ [m] } }

/-- MSI-X vector v: sent, or pending while its entry is masked. -/
def State.msix (s : State) (v : Nat) : State :=
  if s.rbit (0x70000 + 16 * v + 12) 0 then s.setBit (0x78000 + 4 * (v / 32)) (v % 32) else s.emit (.msix v)

/-- The firmware area of a stack (R283). -/
def fwArea (a : Nat) : Bool := decide (a < 512 * 2 ^ 21)

/-- CXL_MEM_READ: one 64-byte line of the HDM range (R277, R283, R284, R446). What a poisoned completion carries
as data is a free value. -/
def execCxlMemRead (hdm : Nat) (errs : List MemErr) (s : State) : Out :=
  let g := hdm / hbmSize
  let a := hdm % hbmSize
  let junk (s : State) : State :=
    let (d, s) := s.draw
    s.emit (.cxlRead (leBytes 64 (Config.undefValue d)) true)
  whenever (s.ucieUp && decide (hdm + 64 ≤ hdmSize) && hdm % 64 == 0) s
    (if !s.cxlServed g then junk s
     else if fwArea a then junk (s.raise 0x0625 4 g)
     else
       let s := s.memErrs errs
       if s.poisoned (.hbm g) a 64 then junk s else s.emit (.cxlRead (s.rdBytes (.hbm g) a 64) false))

/-- CXL_MEM_WRITE: one line, the bytes that `be` enables (R283, R284, R446). -/
def execCxlMemWrite (hdm data be : Nat) (errs : List MemErr) (s : State) : Out :=
  let g := hdm / hbmSize
  let a := hdm % hbmSize
  whenever (s.ucieUp && decide (hdm + 64 ≤ hdmSize) && hdm % 64 == 0) s
    (if !s.cxlServed g then s
     else if fwArea a then s.raise 0x0625 4 g
     else if be % 2 ^ 64 = 2 ^ 64 - 1 then s.wr (.hbm g) a (leBytes 64 data)
     else
       (s.memErrs errs).each (fun s i => if bit be i then s.wr (.hbm g) (a + i) [BitVec.ofNat 8 (data / 2 ^ (8 * i))] else s)
         (List.range 64))

/-- CXL_SNOOP: every snoop is answered as invalid (R444). -/
def execCxlSnoop (s : State) : Out := whenever s.ucieUp s (s.emit .cxlSnoop)

def State.scrubber (s : State) (g : Nat) : Scrub := SMap.get (fun _ => Scrub.init) s.scrub g
def State.setScrubber (s : State) (g : Nat) (x : Scrub) : State := { s with scrub := SMap.set (fun _ => Scrub.init) s.scrub g x }

/-- HBM_SCRUB.HOURS of a stack, in ms. -/
def State.scrubMs (s : State) (g : Nat) : Nat := s.rf (regionReg g 0x3008) 7 0 * 3600000

/-- A millisecond passes for the scrubber of a trained stack: when every page has been read, the next interval begins at the end
of this one (R285). -/
def State.scrubTick (s : State) (g : Nat) : State :=
  let x := s.scrubber g
  if !s.rbit (regionReg g 0x3000) 16 then s
  else if 49152 ≤ x.next ∧ s.scrubMs g ≤ x.ms + 1 then s.setScrubber g Scrub.init
  else s.setScrubber g { x with ms := x.ms + 1 }

/-- HBM_SCRUB: the scrubber of stack g reads the next page of its interval, each page once, spread over HBM_SCRUB.HOURS (R285);
what it finds is treated by R284. -/
def execHbmScrub (g : RegionId) (page : Nat) (errs : List MemErr) (s : State) : Out :=
  let x := s.scrubber g.val
  let inPage (e : MemErr) : Bool := e.hbm && e.unit % 16 == g.val && e.addr / 2 ^ 21 == page
  whenever (s.rbit (regionReg g.val 0x3000) 16 && page == x.next && decide (page < 49152) &&
      decide (page * s.scrubMs g.val ≤ x.ms * 49152) && errs.all inPage) s
    ((s.memErrs errs).setScrubber g.val { x with next := page + 1 })

/-! ### The UCIe link (R441, R442) -/

/-- A running task reaches host memory: a MOVE with a window end, an EGRESS that writes to its window (R448, R449), an INGRESS
but for CRCGEN. -/
def RTask.usesHost (r : RTask) : Bool :=
  let t := r.task.record
  match recKind t with
  | 4 => recF t 0x30 2 0 == 3 || recF t 0x30 6 4 == 3
  | 7 => [0, 2, 5].contains (recF t 0x30 2 0) || (recF t 0x30 2 0 == 3 && recF t 0x38 11 0 == 1)
  | 8 => recF t 0x30 1 0 != 2
  | _ => false

/-- UCIe leaves its active state: tasks that reach host memory fail, DOWN is set, 0x0460 (R442). -/
def State.ucieDrop (s : State) : State :=
  let s := (((s.setRf 0x51000 6 0 0).setBit 0x51000 8).bump 0x51004 31 24 1).raise 0x0460 0 0
  s.each (fun s b =>
    s.each (fun s r => if r.usesHost then s.failTask b r.num else s) (s.block b).running) (List.range 256)

/-- UCIE_LINK_DOWN. -/
def execUcieLinkDown (s : State) : Out := whenever s.ucieUp s s.ucieDrop

/-- The modules that the link runs on, of those whose training succeeded (R441). -/
def ucieModules (good : Nat) : List Nat :=
  let l := (List.range 4).filter fun i => bit good i
  if l.length = 4 then l else l.take (if 2 ≤ l.length then 2 else 1)

/-- UCIE_TRAINING_DONE: the link trains on its good modules; `repaired` are the modules with a repaired lane
(R441). -/
def execUcieTrainingDone (good repaired : Nat) (s : State) : Out :=
  let l := ucieModules good
  whenever (!s.ucieUp && s.hostUp && !l.isEmpty) s
    (let code := match l.length with | 4 => 3 | 2 => 2 | _ => 1
     let rep := l.foldl (fun n i => if bit repaired i then n + 2 ^ i else n) 0
     let s := s.setRf 0x51000 6 0 (1 + code * 2 + rep * 8)
     if l.length = 4 then s else (s.setBit 0x51000 9).raise 0x0461 0 0)

end Sys2Proof.Machine
end

