-- ==== Sys2Proof/Machine/Pager.lean ====
section
/-!
DEFINITION. Sys2Proof/Machine/Pager.lean: the activation pager (spec/08, R268 to R274; spec/09, R304 to R307):
offloads, prefetches, page checks and the release of records.
-/
namespace Sys2Proof.Machine

def actKeep (s : State) (j : Nat) : Nat := s.rf (tsReg j 0xC) 3 0
def actDist (s : State) (j : Nat) : Nat := s.rf (tsReg j 0xC) 7 4
def actCrc (s : State) (j : Nat) : Bool := s.rbit (tsReg j 0xC) 8
/-- L of a job: one more than the highest layer of its graph. -/
def State.layers (s : State) (j : Nat) : Nat := (s.slot j).fwdLast + 1

def State.act (s : State) (j h : Nat) : Option ActRec := (s.slot j).acts.find? fun r => r.handle = h
def State.modAct (s : State) (j h : Nat) (f : ActRec → ActRec) : State :=
  let sl := s.slot j
  s.setSlot j { sl with acts := sl.acts.map fun r => if r.handle = h then f r else r }

/-! ### Window pages (R304) -/

/-- Window pages of 4 KiB in one region's share of the job's ACT window. -/
def State.sharePages (s : State) (j : Nat) : Nat :=
  match s.actWindow j with
  | some w => s.winSize w / 16 / 4096
  | none => 0

/-- Window pages of the region's share that records hold. -/
def State.takenPages (s : State) (j region : Nat) : List Nat :=
  ((s.slot j).acts.map fun r => if r.region = region then r.pages else []).flatten

/-- The n lowest free pages, searching `fuel` pages from i. -/
def lowestFree (taken : List Nat) : Nat → Nat → Nat → List Nat
  | 0, _, _ => []
  | fuel + 1, i, n =>
    if n = 0 then []
    else if taken.contains i then lowestFree taken fuel (i + 1) n
    else i :: lowestFree taken fuel (i + 1) (n - 1)

/-- Byte offset of a window page in its window: region g uses share g. -/
def State.pageOff (s : State) (j region p : Nat) : Nat := region * (s.sharePages j * 4096) + p * 4096

/-- The access in flight to a record's window page (R288, R290). -/
def State.pageAcc (s : State) (j : Nat) (r : ActRec) (p : Nat) : HostAcc := s.actAcc j (s.pageOff j r.region p) 4096

/-- The event of the first access that fails. -/
def accFault (l : List HostAcc) : Option Nat := l.findSome? fun (a : HostAcc) => match a with | .err ev => some ev | .at _ => none

/-! ### Page lists (R283, R304)

DESIGN CHOICE (assumption 161): the page list of the record in slot n of its region's handle table begins at
0x1000_0000 + 12,288 × n of the region's firmware area. -/

/-- Stack-local address of entry i of a record's page list. -/
def pageList (h i : Nat) : Nat := 0x10000000 + hSlot h * 12288 + 8 * i

/-- An entry of a page list: window page index with the poison mark in bit 31, CRC-32C in [63:32] (R304). -/
def listEntry (page : Nat) (poison : Bool) (data : List Byte) : Nat :=
  page % 2 ^ 31 + b2n poison * 2 ^ 31 + (crc32c data).toNat * 2 ^ 32

/-- Entry i of a record's page list. -/
def State.pageEntry (s : State) (r : ActRec) (i : Nat) : Nat := s.rdN (.hbm r.region) (pageList r.handle i) 8
/-- Entry i is itself read poisoned (R284). -/
def State.listPoisoned (s : State) (r : ActRec) (i : Nat) : Bool := s.poisoned (.hbm r.region) (pageList r.handle i) 8

/-! ### Offloads (R268, R304, R305, R307) -/

/-- A record's offload starts, or waits with the window full: 0x0624 once per step (R307). -/
def State.offloadStart (s : State) (j h : Nat) : State :=
  match s.act j h with
  | none => s
  | some r =>
    let n := (s.hentry h).pages
    let taken := s.takenPages j r.region
    let free := lowestFree taken (n + taken.length) 0 n
    if (s.windows j kindAct).isEmpty then (s.modAct j h fun r => { r with state := 2 }).raiseJ 0x0620 3 r.region j 0
    else if free.length = n ∧ free.all fun p => decide (p < s.sharePages j) then
      s.modAct j h fun r => { r with state := 1, pages := free }
    else
      let s := s.modAct j h fun r => { r with state := 2 }
      let sl := s.slot j
      if sl.actFull then s else (s.setSlot j { sl with actFull := true }).raiseJ 0x0624 3 r.region j 0

/-- OFFLOAD_START: the last forward producer of a record has completed (R268). -/
def State.recordDone (s : State) (j h block mb layer step : Nat) : State :=
  let e := s.hentry h
  let s := s.setHentry h { e with pager := true }
  let r : ActRec := { handle := h, job := j, region := hOwner h, block := block, mb := mb, layer := layer, step := step,
                      state := 0, pages := [], rereads := [], bad := [] }
  let sl := s.slot j
  let s := s.setSlot j { sl with acts := (sl.acts.filter fun x => x.handle != h) ++ [r] }
  if layer + actKeep s j < s.layers j then s.offloadStart j h else s

/-- Requester number of a pager transfer for the power tokens (Sched.lean). -/
def pagerReq (h : Nat) : Nat := 4096 + hSlot h

def State.hasTokens (s : State) (g req : Nat) : Bool := (s.tok g).held.any fun (r, _) => r == req
def State.dropTokens (s : State) (g req : Nat) : State :=
  let k := s.tok g
  s.setTok g { k with held := k.held.filter fun (r, _) => r != req }

/-- Block-store address of page i of a record. -/
def State.recordPage (s : State) (r : ActRec) (i : Nat) : Space × Nat :=
  (.bs (r.region * 16 + (s.hentry r.handle).block), ((s.hentry r.handle).base + i) * 4096)

/-- A record's offload completes: its pages are in host memory and its page list is written, its block-store pages return
and its entry becomes AWAY (R281, R304, R305), unless a prefetch already waits for it (R271). -/
def State.offloadDone (s : State) (j : Nat) (r : ActRec) (errs : List MemErr) : State :=
  let s := (s.memErrs errs).dropTokens r.region (pagerReq r.handle)
  match accFault (r.pages.map (s.pageAcc j r)) with
  | some ev => (s.modAct j r.handle fun r => { r with state := 2, pages := [] }).raiseJ ev 3 r.region j 0
  | none =>
    let move (t : State) (x : Nat × Nat) : State :=
      let (sp, a) := s.recordPage r x.2
      let data := s.rdBytes sp a 4096
      let t := match s.pageAcc j r x.1 with | .at h => t.wr .host h data | .err _ => t
      if r.state = 6 then t
      else t.wrLe (.hbm r.region) (pageList r.handle x.2) 8 (listEntry x.1 (s.poisoned sp a 4096) data)
    let t := s.each move r.pages.zipIdx
    if r.state = 6 then t.modAct j r.handle fun r => { r with state := 0, pages := [] }
    else
      let e := t.hentry r.handle
      (t.modAct j r.handle fun r => { r with state := 3, rereads := [], bad := [] }).setHentry r.handle
        { e with state := if e.state = .live then .away else e.state, away := e.state == .live, zeroing := false }

/-- OFFLOAD_RETRY: window pages have come free and a waiting offload is tried again (R307). -/
def execOffloadRetry (j : SlotId) (h : Nat) (s : State) : Out :=
  let j := j.val
  match s.act j h with
  | none => .next s
  | some r =>
    let s1 := s.offloadStart j h
    let st := match s1.act j h with | some x => x.state | none => 2
    whenever (r.state == 2 && st == 1) s s1

/-! ### Prefetches (R269 to R272, R306) -/

/-- A prefetch of one record: its pages are requested of the block's allocator (R306); one whose offload runs is
served from the block store (R271). -/
def State.prefetchIssue (s : State) (j : Nat) (r : ActRec) : State :=
  match r.state with
  | 1 => s.modAct j r.handle fun r => { r with state := 6 }
  | 2 => s.modAct j r.handle fun r => { r with state := 0 }
  | 3 =>
    let e := s.hentry r.handle
    let s := s.modAct j r.handle fun r => { r with state := 5 }
    s.allocate { op := 0, pool := 0, block := e.block, job := j, fw := false, pages := e.pages, zero := false, wait := true,
                 handle := r.handle, reg := 0, by_ := .pager r.handle, region := r.region, waitMs := 0 }
  | _ => s

/-- PREFETCH_ISSUE: the dispatch of the first backward task of a layer for its micro-batch (R269), highest layer
first. -/
def State.prefetchFor (s : State) (j mb layer step : Nat) : State :=
  let L := s.layers j
  let keep := actKeep s j
  let dist := actDist s j
  let ls := (if layer + 1 = L then (List.range dist).filterMap fun i =>
      if keep + i + 1 ≤ L then some (L - keep - 1 - i) else none else []) ++
    (if dist ≤ layer then [layer - dist] else [])
  s.each (fun s l => s.each (fun s r => s.prefetchIssue j r)
    ((s.slot j).acts.filter fun r => r.mb == mb && r.layer == l && r.step == step)) ls

/-- A page's bytes in host memory still have the CRC-32C of its page list (R272, R304). A page whose entry is read poisoned is
delivered poisoned without a check (assumption 161). -/
def State.pageOk (s : State) (j : Nat) (r : ActRec) (i : Nat) : Bool :=
  match s.pageAcc j r (r.pages.getD i 0) with
  | .at a => !actCrc s j || s.listPoisoned r i || (crc32c (s.rdBytes .host a 4096)).toNat == s.pageEntry r i / 2 ^ 32
  | .err _ => true

/-- PREFETCH_PAGE_REREAD: a page failed its CRC-32C, or its read had a poisoned completion, and is read again once (R272; spec/14, the LPDDR6 controller). -/
def execPrefetchPageReread (j : SlotId) (h : Nat) (x : PageRead) (s : State) : Out :=
  let j := j.val
  let page := x.page
  match s.act j h with
  | none => .next s
  | some r =>
    whenever (r.state == 4 && decide (page < r.pages.length) && !r.rereads.contains page) s
      (let ok := !x.bad && s.pageOk j r page
       let s := s.modAct j h fun r => { r with rereads := r.rereads ++ [page] }
       if ok then (s.setBit (tsReg j 0x18) 1).raiseJ 0x0650 3 r.region j 0
       else
         let s := s.modAct j h fun r => { r with bad := r.bad ++ [page] }
         (s.setBit (tsReg j 0x18) 2).raiseJ 0x0651 3 r.region j 0)

/-- A record's prefetch can complete: every page has passed R272, and the earlier prefetches of its micro-batch are done
(R269). -/
def State.prefetchReady (s : State) (j : Nat) (r : ActRec) : Bool :=
  r.state == 4 && r.bad.isEmpty && s.ucieUp && s.hasTokens r.region (pagerReq r.handle) &&
  ((List.range r.pages.length).all fun i => s.pageOk j r i) &&
  ((s.slot j).acts.all fun x =>
    !(x.mb == r.mb && x.step == r.step && (x.state == 4 || x.state == 5) && decide (r.layer < x.layer)))

/-- A record's prefetch completes: its entry becomes LIVE with its new base and the window pages return (R306). A page
offloaded as poisoned is delivered poisoned (R304). A page outside the window ends it with 0x0620, and the record stays
away (R288). -/
def State.prefetchDone (s : State) (j : Nat) (r : ActRec) (errs : List MemErr) : State :=
  let s := (s.memErrs errs).dropTokens r.region (pagerReq r.handle)
  let e := s.hentry r.handle
  match accFault (r.pages.map (s.pageAcc j r)) with
  | some ev =>
    ((s.setHentry r.handle { e with zeroing := false }).modAct j r.handle fun r => { r with state := 3 }).raiseJ ev 3 r.region j 0
  | none =>
    let move (t : State) (x : Nat × Nat) : State :=
      let (sp, b) := s.recordPage r x.2
      let t := match s.pageAcc j r x.1 with | .at h => t.wr sp b (s.rdBytes .host h 4096) | .err _ => t
      if bit (s.pageEntry r x.2) 31 || s.listPoisoned r x.2 then t.poison sp b 4096 else t
    ((s.each move r.pages.zipIdx).setHentry r.handle
      { e with state := if e.state = .away then .live else e.state, away := false, zeroing := false }).modAct j r.handle
        fun r => { r with state := 0, pages := [] }

/-! ### Release (R274, R302) -/

/-- A job's transfers in flight complete (R274; spec/09, the limits table). -/
def State.finishTransfers (s : State) (j : Nat) (p : ActRec → Bool) : State :=
  if !s.ucieUp then s
  else
    s.each (fun s r =>
      if r.state == 1 || r.state == 6 then s.offloadDone j r []
      else if r.state == 4 && r.bad.isEmpty then s.prefetchDone j r []
      else s) ((s.slot j).acts.filter p)

/-- The records of a micro-batch, or of a step, are released, on chip and in host memory, once their transfers in flight are
complete (R274). -/
def State.releaseRecords (s : State) (j : Nat) (p : ActRec → Bool) : State :=
  let s := s.finishTransfers j p
  let l := (s.slot j).acts.filter p
  let s := s.each (fun s r =>
    let e := s.hentry r.handle
    let s := s.dropTokens r.region (pagerReq r.handle)
    if e.state = .free then s
    else if e.inuse = 0 then s.freeEntry r.handle else (s.dropPrefetch r.handle).setHentry r.handle { e with state := .freeing }) l
  let sl := s.slot j
  s.setSlot j { sl with acts := sl.acts.filter fun r => !p r }

end Sys2Proof.Machine
end

