-- ==== Sys2Proof/Machine/Tile.lean ====
section
/-!
DEFINITION. Sys2Proof/Machine/Tile.lean: tile reads (spec/03, R60 to R95): the request, the tile input
code, the row-group planner, phases and conversion, saturation retry, check sets and the pulse monitor,
output records, the double-slice combine, and the arbitration between reads and upkeep.
-/
namespace Sys2Proof.Machine

/-! ### The request (R60, R61) -/

def rqMode (r : Nat) : Bool := bits r 0 0 = 1
def rqTier (r : Nat) : Nat := bits r 3 1
def rqFmt (r : Nat) : Nat := bits r 5 4
def rqMx (r : Nat) : Bool := bits r 6 6 = 1
def rqLen (r : Nat) : Nat := bits r 18 8
def rqEpoch (r : Nat) : Nat := bits r 63 32
def rqIn (r : Nat) : Nat := bits r 86 64
def rqOut (r : Nat) : Nat := bits r 118 96

/-- Bytes of one input element. -/
def rqElem (r : Nat) : Nat := if rqFmt r = 0 then 2 else 1
/-- Byte address of the MX scales: the next 64-byte boundary after the elements. -/
def rqScales (r : Nat) : Nat := (rqIn r + rqLen r * rqElem r + 63) / 64 * 64
/-- First byte after the input. -/
def rqInEnd (r : Nat) : Nat :=
  if rqMx r then rqScales r + (rqLen r + 31) / 32 else rqIn r + rqLen r * rqElem r

/-- R60: the request is malformed. -/
def rqBad (r : Nat) : Bool :=
  bits r 7 7 != 0 || bits r 31 19 != 0 || bits r 95 87 != 0 || bits r 127 119 != 0 ||
  rqFmt r == 3 || (rqMx r && rqFmt r == 0) || rqLen r == 0 || 1024 < rqLen r ||
  rqIn r % 64 != 0 || rqOut r % 64 != 0 || bsSize < rqInEnd r || bsSize < rqOut r + 4160

/-- TILE_TIER.READ_EN of tier k. -/
def State.readEn (s : State) (t k : Nat) : Bool := s.rbit (tileReg t 0xC) k
def State.setReadEn (s : State) (t k : Nat) (on : Bool) : State := s.setRf (tileReg t 0xC) k k (b2n on)
/-- TILE_TIER.DSLICE of tier k. -/
def State.dslice (s : State) (t k : Nat) : Bool := s.rbit (tileReg t 0xC) (8 + k)
/-- HOLD of a tile tier (R128). -/
def State.tierHold (s : State) (u : Nat) : Bool := s.rbit (tierReg u) 19
/-- STATE of a tile tier. -/
def State.tierState (s : State) (u : Nat) : Nat := s.rf (tierReg u) 18 16

/-- A request is rejected: status bit, event, and the task fails (R60, R61, R322). -/
def State.rejectRead (s : State) (t : Nat) (q : ReadReq) (malformed : Bool) : State :=
  let s := s.setBit (tileReg t 0x10) (if malformed then 5 else 4)
  let s := s.raiseJ (if malformed then 0x0106 else 0x0105) 1 (t * 8 + rqTier q.req) q.task.job q.task.id
  s.failTask (tileBlock t) q.task.num

/-- TILE_READ_REQUEST: a request arrives at the tile's queue (R60 to R62). -/
def State.tileRequest (s : State) (t : Nat) (q : ReadReq) : State :=
  if rqBad q.req then s.rejectRead t q true
  else if !s.readEn t (rqTier q.req) then s.rejectRead t q false
  else
    let T := s.tile t
    s.setTile t { T with readQ := T.readQ ++ [q] }

/-! ### Tile input code (R63 to R66) -/

def rqFormat (r : Nat) : Fmt := match rqFmt r with | 0 => bf16 | 1 => e4m3 | _ => e5m2

/-- One element with its MX scale, the job's DENORM applied: its value, whether it flushed, and whether its
scale is 0xFF. -/
def State.tileElem (s : State) (b r : Nat) (denorm : Bool) (i : Nat) : FpNum × Bool × Bool :=
  let code := s.rdN (.bs b) (rqIn r + i * rqElem r) (rqElem r)
  let (x, fl) := (rqFormat r).input denorm code
  if rqMx r then
    let sc := (s.rdByte (.bs b) (rqScales r + i / 32)).toNat
    (x.scale ((sc : Int) - 127), fl, sc = 255)
  else (x, fl, false)

/-- Largest ⌊log2 |x|⌋ of the nonzero elements, if any. -/
def maxExp : List FpNum → Option Int
  | [] => none
  | x :: r =>
    match x.isZero, maxExp r with
    | true, m => m
    | false, none => some x.exp
    | false, some m => some (max x.exp m)

/-- R63: the vector scale exponent E. -/
def vecExp (xs : List FpNum) : Int :=
  match maxExp xs with
  | none => 0
  | some m => m - 7

/-- R64: an element's magnitude and sign. -/
def tileMag (e : Int) (x : FpNum) : Nat × Bool :=
  match x with
  | .fin neg m p => let n := min 255 (roundMag .nearest neg 0 m p e); (n, neg && n != 0)
  | _ => (0, false)

/-! ### The row-group planner (R67) -/

/-- An open group: its (line, value) pairs newest first, their number and mass. -/
structure PGroup where
  rows : List (Nat × Nat)
  n    : Nat
  mass : Nat
  deriving DecidableEq, Repr

def PGroup.empty : PGroup := { rows := [], n := 0, mass := 0 }

def PGroup.emit (g : PGroup) (high neg : Bool) : Phase :=
  { high := high, neg := neg, lines := g.rows.reverse, retry := false, lin := 0 }

/-- `plan_slice` over the remaining lines (line, value, negative). -/
def planSlice (W B : Nat) (high : Bool) : List (Nat × Nat × Bool) → PGroup → PGroup → List Phase
  | [], p, q =>
    (if p.n = 0 then [] else [p.emit high false]) ++ (if q.n = 0 then [] else [q.emit high true])
  | (r, v, neg) :: rest, p, q =>
    if v = 0 then planSlice W B high rest p q
    else
      let g := if neg then q else p
      let full := g.n = W ∨ B < g.mass + v
      let g' : PGroup := if full then { rows := [(r, v)], n := 1, mass := v }
                         else { rows := (r, v) :: g.rows, n := g.n + 1, mass := g.mass + v }
      let out := if full then [g.emit high neg] else []
      out ++ (if neg then planSlice W B high rest p g' else planSlice W B high rest g' q)

/-- `plan_vector`: the high slice, then the low slice. -/
def planVector (W B : Nat) (ms : List (Nat × Nat × Bool)) : List Phase :=
  planSlice W B true (ms.map fun (r, m, n) => (r, m / 16, n)) PGroup.empty PGroup.empty ++
  planSlice W B false (ms.map fun (r, m, n) => (r, m % 16, n)) PGroup.empty PGroup.empty

/-- TILE_CFG.WIDTH as W. -/
def State.tileW (s : State) (t : Nat) : Nat := 16 * 2 ^ s.rf (tileReg t 0) 5 4

/-! ### Conversion (R71, R72) -/

/-- The group charge of sensed line c in thousandths of a charge unit: driven lines are rows in a forward
read and data columns in a transposed read. -/
def State.charge (s : State) (u : Nat) (trans : Bool) (lines : List (Nat × Nat)) (c : Nat) : Int :=
  lines.foldl (fun acc (l, v) =>
    let row := if trans then c else l
    let pair := if trans then l else c
    acc + (v : Int) * ((s.cell (cellKey u row pair 0) : Int) - (s.cell (cellKey u row pair 1) : Int))) 0

/-- R71: the converter's result for a charge in thousandths of a unit, at LSB q. -/
def convert (q : Nat) (x : Int) : Int :=
  let n : Int := ((2 * x.natAbs + q * 1000) / (2 * q * 1000) : Nat)
  max (-128) (min 127 (if x < 0 then -n else n))

/-- R72. -/
def saturated (r : Int) : Bool := r = -128 || r = 127

/-- The results of one phase, one for each of n sensed lines, each with the error of its conversion. -/
def State.convertAll (s : State) (u q : Nat) (trans : Bool) (lines : List (Nat × Nat)) (n : Nat) :
    List Int :=
  (List.range n).map fun c => convert q (s.charge u trans lines c + Config.adcError (s.draws + c))

/-! ### Checks (R79, R81) -/

/-- Δ_j of check set j over a phase's results. -/
def checkDelta (rs : List Int) (j : Nat) : Int :=
  ((List.range 32).foldl (fun acc i => acc + rs.getD (64 * j + 2 * i) 0) 0)
    - 31 * rs.getD (1024 + 2 * j) 0 - rs.getD (1025 + 2 * j) 0

/-- R81: the tolerance T of a phase of input mass M. -/
def checkTol (mass slope lsb : Nat) : Nat := 32 + mass * slope / 2 ^ (6 + lsb)

/-- The check sets that fail. -/
def failedSets (rs : List Int) (tol : Nat) : List Nat :=
  (List.range 16).filter fun j => decide (tol < (checkDelta rs j).natAbs)

/-! ### Fences (R114, R116) and what holds a read -/

/-- The update fence for carries of a tag is satisfied: no open counter counts an earlier epoch (R114). -/
def Tile.fenceOk (T : Tile) (tag : Nat) : Bool :=
  (List.range 4).all fun i => T.fence.getD i 0 == 0 || decide (tag ≤ T.fenceEp.getD i 0)

/-- The head read request waits for carries of its tier under R17 (or for their fence). -/
def Tile.held17 (T : Tile) (q : ReadReq) : Bool :=
  (T.carries.any fun c => c.tier == rqTier q.req &&
    (match c.tag with | some g => decide (g ≤ rqEpoch q.req) | none => false)) ||
  (match T.row with
   | some r => r.carry.tier == rqTier q.req &&
      (match r.carry.tag with | some g => decide (g ≤ rqEpoch q.req) | none => false)
   | none => false)

/-- The head read request waits for a row of its tier whose first pulse has been applied (R117). -/
def Tile.held117 (T : Tile) (q : ReadReq) : Bool :=
  match T.row with
  | some r => r.carry.tier == rqTier q.req && (r.done != 0 || r.trims != 0)
  | none => false

/-- Calibration comes before the next request: measurements of a block that came on after its region's measurement
(R559), or step-mode taps at the first request boundary after a release (R567). -/
def State.calFirst (s : State) (t : Nat) : Bool :=
  let g := t / 1024
  let st := s.rf (calReg g 0) 2 0
  ((s.tile t).calLeft != 0 && st != 2) ||
    (st == 3 && s.rbit 0x350000 8 && !(s.calR g).gradual && (s.calR g).targets.any fun (k, _) => k / 576 == t)

/-- R17 or R117 holds the head read request. -/
def Tile.headHeld (T : Tile) : Bool :=
  match T.readQ with
  | [] => false
  | q :: _ => T.held17 q || T.held117 q

/-- The read requester is eligible (R92). A HOLD bit binds the block sequencer, not the tile (R128). -/
def State.readEligible (s : State) (t : Nat) : Bool :=
  let T := s.tile t
  !T.readQ.isEmpty && !T.headHeld && !s.calFirst t

/-- A carry whose turn has come: its fence is satisfied and no earlier epoch's carry is left (R114, R116);
carries of a tier under coppice are held (R126). -/
def Tile.carryReady (T : Tile) (c : RowCarry) : Bool :=
  (match c.tag with
   | none => true
   | some g => T.fenceOk g &&
      T.carries.all (fun d => match d.tag with | some h => decide (g ≤ h) | none => true)) &&
  T.procs.all (fun p => !(p.tier == c.tier && (match p.kind with
    | .coppiceFree _ => true | .coppiceInPlace => true | _ => false)))

/-- The head procedure of the tile is a coppice (R125). -/
def Tile.coppicing (T : Tile) : Bool :=
  match T.procs with
  | p :: _ => (match p.kind with | .coppiceFree _ => true | .coppiceInPlace => true | _ => false)
  | [] => false

/-- R17: a read requires these carries of the tier it names. -/
def ReadReq.requires (q : ReadReq) (c : RowCarry) : Bool :=
  c.tier == rqTier q.req && (match c.tag with | some g => decide (g ≤ rqEpoch q.req) | none => false)

/-- The carry that the held head read requires and whose turn has come (R17, R94). -/
def Tile.requiredCarry (T : Tile) : Option (RowCarry × List RowCarry) :=
  match T.readQ with
  | [] => none
  | q :: _ => pickFirst (fun c => q.requires c && T.carryReady c) T.carries

/-- R94 binds: the tile grants only what the held head read requires. While that is one of its carries whose turn
has not come (an unsatisfied fence, or the order of R116 against an earlier tag on another tier), R17 does not yet
hold the read, and the tile goes on with other upkeep, so that those carries are reached (DESIGN CHOICE, assumption
135: R94 names only the tier's own carries, and R116 orders all the tags of a tile, of one job or of two). -/
def Tile.strict (T : Tile) : Bool :=
  match T.readQ with
  | [] => false
  | q :: _ => (match T.row with | some r => q.requires r.carry | none => T.requiredCarry.isSome)

/-- The carry that is programmed next: one that the held read requires (R94); else any whose turn has come, but none
ahead of a coppice (R125). Tags are compared across the tiers and jobs of the tile (R116). -/
def Tile.nextCarry (T : Tile) : Option (RowCarry × List RowCarry) :=
  match T.requiredCarry with
  | some x => some x
  | none => if T.coppicing then none else pickFirst T.carryReady T.carries

/-- The head procedure has work for the tile; a temperature hold keeps erases and fresh writes waiting (R42). -/
def Tile.procWork (T : Tile) : Bool :=
  match T.procs with
  | p :: _ => p.stage == .sweeping ||
      (!T.tempHold && ((p.stage == .erasing && !p.verify) || (p.stage == .writing && decide (p.row < 1024))))
  | [] => false

/-- Upkeep work is queued and could be granted: the rest of the row under program-and-verify; else a carry, the head
procedure, a calibration measurement. What a temperature hold keeps waiting is no such work (R42, R43). -/
def Tile.upkWork (T : Tile) : Bool :=
  match T.row with
  | some r => !T.tempHold || r.stage == .verify
  | none => (T.nextCarry.isSome && !T.tempHold) || (!T.strict && (T.procWork || T.calLeft != 0))

/-- Upkeep work is queued, whether or not a temperature hold or R94 keeps it waiting (TILE_STATUS.UPK_PEND). -/
def Tile.upkPend (T : Tile) : Bool :=
  T.row.isSome || T.nextCarry.isSome || ({ T with tempHold := false } : Tile).procWork || T.calLeft != 0

/-- The read queue is empty or R17 or R117 holds its head: upkeep is granted without credit (R93). Work that
calibration puts ahead of the next request (R559) is granted so too. -/
def State.upkFree (s : State) (t : Nat) : Bool := (s.tile t).readQ.isEmpty || (s.tile t).headHeld || s.calFirst t

/-- An upkeep grant is possible (R90 to R93); none between the end of a held row and the read it held. -/
def State.upkGrant (s : State) (t : Nat) : Bool :=
  let T := s.tile t
  T.tokens && T.read.isNone && T.upkWork && !(T.serve && s.readEligible t) &&
    (s.upkFree t || (T.credits != 0 && T.upkNext))

/-- Work other than a row's program-and-verify may have the grant: no row is under way, and R94 does not bind. -/
def State.otherGrant (s : State) (t : Nat) : Bool := s.upkGrant t && (s.tile t).row.isNone && !(s.tile t).strict

/-- What an upkeep grant of tier k costs (R91 to R93): `free` as the grant found it. -/
def State.upkSpend (s : State) (t k : Nat) (free : Bool) : State :=
  let T := s.tile t
  if free then s.setTile t { T with curTier := k }
  else s.setTile t { T with credits := T.credits - 1, upkNext := false, curTier := k }

/-- A read grant is possible (R90, R92 to R94). -/
def State.readGrant (s : State) (t : Nat) : Bool :=
  let T := s.tile t
  T.tokens && T.read.isNone && s.readEligible t && (T.serve || !(T.upkWork && T.credits != 0 && T.upkNext))

/-- R93, R94: when the head request was held and is so no longer, it is served next. -/
def State.serveHeld (s : State) (t : Nat) (was : Bool) : State :=
  let T := s.tile t
  if was && !T.headHeld && !T.readQ.isEmpty then s.setTile t { T with serve := true } else s

/-! ### TILE_READ_START -/

/-- The read grant's bookkeeping: the credit of R91 and the pointer of R92. A grant whose request is then rejected
under R61 counts as one (DESIGN CHOICE, assumption 140). -/
def State.readGranted (s : State) (t : Nat) : State :=
  let T := s.tile t
  let ratio := s.rf (tileReg t 8) 3 0
  let cmax := s.rf (tileReg t 8) 6 4
  let both := T.upkWork && T.credits != 0
  let n := T.readsSinceCredit + 1
  s.setTile t { T with
    readsSinceCredit := if ratio ≤ n then 0 else n
    credits := if ratio ≤ n then min cmax (T.credits + 1) else T.credits
    serve := false
    upkNext := both || T.upkNext }

/-- The read starts: input code and planning (R63 to R68), or no phase for a non-finite input (R66). -/
def State.startRead (s : State) (t : Nat) (q : ReadReq) : State :=
  let b := tileBlock t
  let r := q.req
  let u := t * 8 + rqTier r
  let dn := s.denorm q.task.job
  let el := (List.range (rqLen r)).map fun i => (i, s.tileElem b r dn i)
  let fl := el.any fun (_, _, f, _) => f
  let poison := s.poisoned (.bs b) (rqIn r) (rqInEnd r - rqIn r)
  let s := if fl then s.flushed q.task.job else s
  let base : ReadRun := { req := q, cfg := s.rn (tileReg t 0), budget := s.rn (tileReg t 4), exp := 0, todo := [], sums := [], phases := 0, retries := 0,
                          flags := if poison then 8 else 0, reruns := [], nextLin := 1, zero := false }
  match el.find? fun (_, x, _, bad) => bad || x.isNaN || x.isInf with
  | some (i, _) =>
    let s := (s.setBit (tileReg t 0x10) 3).raiseJ 0x0104 1 u q.task.job q.task.id
    let s := s.nanReport q.task.job
      { req := b / 16, unit := 1, op := b2n (rqMode r), blk := b, task := q.task.id, step := q.task.step,
        x := i, y := t % 64, z := 0, w := 0 }
    let T := s.tile t
    s.setTile t { T with read := some { base with flags := base.flags + 1 } }
  | none =>
    let e := vecExp (el.map fun (_, x, _, _) => x)
    let ms := el.map fun (i, x, _, _) => let (m, n) := tileMag e x; (i, m, n)
    let ph := planVector (s.tileW t) (s.rf (tileReg t 4) 10 0) ms
    let T := s.tile t
    s.setTile t { T with read := some { base with exp := e, todo := ph, zero := ph.isEmpty } }

/-- TILE_READ_START: the tile grants its head read request (R90, R92), checks its tier once more (R61) and
plans it. -/
def execTileReadStart (t : TileId) (errs : List MemErr) (s : State) : Out :=
  let t := t.val
  whenever (s.readGrant t) s
    (let s := s.memErrs errs
     match (s.tile t).readQ with
     | [] => s
     | q :: rest =>
       let s := s.readGranted t
       let T := s.tile t
       let s := s.setTile t { T with readQ := rest, curTier := rqTier q.req }
       if s.readEn t (rqTier q.req) then s.startRead t q else s.rejectRead t q false)

/-! ### PHASE_LATCH -/

/-- The two retry groups of a saturated phase (R76). -/
def splitPhase (p : Phase) : List Phase :=
  let h := (p.lines.length + 1) / 2
  [{ p with lines := p.lines.take h, retry := true }, { p with lines := p.lines.drop h, retry := true }]

/-- Retry phases follow the phase in flight at the latch and precede every other one (R77). -/
def insertRetry (new rest : List Phase) : List Phase := rest.take 1 ++ new ++ rest.drop 1

/-- R73: an accepted phase's results enter the partial sums. -/
def addPhase (sums : SMap Int) (p : Phase) (lsb : Nat) (rs : List Int) : SMap Int :=
  let k : Int := (if p.neg then -1 else 1) * (2 ^ (lsb + if p.high then 4 else 0) : Nat)
  (List.range 1024).foldl (fun m c =>
    SMap.set (fun _ => 0) m c (SMap.get (fun _ => 0) m c + k * rs.getD c 0)) sums

/-- TILE_LASTCHK and the rest of R85: a repeated failure. -/
def State.checkPoison (s : State) (t : Nat) (R : ReadRun) (p : Phase) (sets : List Nat) (rs : List Int)
    (pmon : Bool) : State :=
  let k := rqTier R.req.req
  let (set, delta) := match sets with
    | j :: _ => (j, min 4095 (checkDelta rs j).natAbs)
    | [] => (if pmon then 31 else 30, 0)
  let first := match p.lines with | (l, _) :: _ => l | [] => 0
  let s := (s.setBit (tileReg t 0x10) 2).bump (tileReg t 0x18) 31 16 1
  let s := s.setRn (tileReg t 0x1C) (k + b2n p.high * 8 + set * 16 + first * 512 + delta * 2 ^ 20)
  s.raiseJ 0x0103 1 (t * 8 + k) R.req.task.job R.req.task.id

/-- R84: a re-run passed. -/
def State.checkCorrected (s : State) (t : Nat) (R : ReadRun) (sets : List Nat) : State :=
  let k := rqTier R.req.req
  let s := (s.setBit (tileReg t 0x10) 1).bump (tileReg t 0x18) 15 0 1
  let s := s.raiseJ 0x0102 1 (t * 8 + k) R.req.task.job R.req.task.id
  s.each (fun s j => s.raiseJ 0x0102 6 (t * 16 + j) R.req.task.job R.req.task.id) sets

/-- An accepted phase. -/
def ReadRun.accept (R : ReadRun) (p : Phase) (lsb : Nat) (rs : List Int) (rest : List Phase) : ReadRun :=
  { R with todo := rest, sums := addPhase R.sums p lsb rs, phases := R.phases + 1 }

def State.setRead (s : State) (t : Nat) (R : ReadRun) : State :=
  let T := s.tile t
  s.setTile t { T with read := some R }

/-- A bit of the output record's FLAGS is set. -/
def orFlag (flags i : Nat) : Nat := if bit flags i then flags else flags + 2 ^ i

/-- The phase in flight is latched and judged (R69 to R88), by TILE_CFG and TILE_BUDGET as they stood at the request
boundary (spec/03, "Limits and coincidences"). TILE_SATCNT counts one retry for each saturated phase that is split, not
one for each of its halves (DESIGN CHOICE, assumption 139); of the groups of a split re-run, the first that fails is the one
repeated failure (DESIGN CHOICE, assumption 138). -/
def State.latchPhase (s : State) (t : Nat) (R : ReadRun) (p : Phase) (rest : List Phase) (pm : Bool) :
    State :=
  let u := t * 8 + rqTier R.req.req
  let trans := rqMode R.req.req
  let lsb := fld R.cfg 2 0
  let n := if trans then 1024 else 1056
  let rs := s.convertAll u (2 ^ lsb) trans p.lines n
  let s := { s with draws := s.draws + n }
  let s := s.bump64 (tileReg t 0x20) 1
  let mass := p.lines.foldl (fun a (_, v) => a + v) 0
  let tol := checkTol mass (fld R.budget 23 16) lsb
  let sets := if trans || !bit R.cfg 8 then [] else failedSets rs tol
  let pmon := pm && bit R.cfg 9
  let sat := rs.any saturated
  let R := { R with retries := R.retries + b2n p.retry }
  if sat && decide (2 ≤ p.lines.length) then
    let s := (s.setBit (tileReg t 0x10) 0).bump (tileReg t 0x14) 31 0 1
    s.setRead t { R with
      todo := insertRetry (splitPhase p) rest
      flags := orFlag R.flags 1
      reruns := R.reruns.map fun x => if p.lin != 0 && x.id == p.lin then { x with left := x.left + 1 } else x }
  else
    let failed := sat || pmon || !sets.isEmpty
    if p.lin = 0 then
      if failed then
        let again : Phase := { p with retry := true, lin := R.nextLin }
        s.setRead t { R with
          todo := insertRetry [again] rest
          nextLin := R.nextLin + 1
          reruns := R.reruns ++ [{ id := R.nextLin, left := 1, bad := false, sets := sets }] }
      else s.setRead t (R.accept p lsb rs rest)
    else
      match R.reruns.find? fun x => x.id == p.lin with
      | none => s.setRead t (R.accept p lsb rs rest)
      | some x =>
        let s := if failed && !x.bad then s.checkPoison t R p sets rs pmon else s
        let x' : Rerun := { x with left := x.left - 1, bad := x.bad || failed }
        let done := x.left = 1
        let s := if done && !x'.bad then s.checkCorrected t R x.sets else s
        let others := R.reruns.filter fun y => y.id != p.lin
        let fl := if failed then orFlag R.flags 3 else R.flags
        let fl := if done && !x'.bad then orFlag fl 2 else fl
        s.setRead t ({ R with flags := fl, reruns := if done then others else others ++ [x'] }.accept p lsb rs rest)

/-- PHASE_LATCH: the phase in flight is latched; `pmon` says that the pulse monitor found a difference
(R82). -/
def execPhaseLatch (t : TileId) (pmon : Bool) (s : State) : Out :=
  match (s.tile t.val).read with
  | none => .next s
  | some R =>
    match R.todo with
    | [] => .next s
    | p :: rest => .next (s.latchPhase t.val R p rest pmon)

/-! ### TILE_READ_COMPLETE, DSLICE_COMBINE -/

/-- The 4,160 bytes of an output record (spec/03, "Output record"). -/
def outRecord (e : Int) (flags phases retries epoch : Nat) (sums : SMap Int) : List Byte :=
  leBytes 2 (enc2c 16 e) ++ leBytes 2 flags ++ leBytes 2 phases ++ leBytes 2 (min 65535 retries) ++
  leBytes 4 epoch ++ leBytes 52 0 ++
  ((List.range 1024).map fun c => leBytes 4 (enc2c 32 (SMap.get (fun _ => 0) sums c))).flatten

/-- TILE_READ_COMPLETE: the adder tree has drained; the record is written, or kept as one half of a
double-slice request (R66, R68, R75, R78). -/
def execTileReadComplete (t : TileId) (s : State) : Out :=
  let t := t.val
  match (s.tile t).read with
  | none => .next s
  | some R =>
    whenever R.todo.isEmpty s
      (let b := tileBlock t
       let q := R.req
       let T := s.tile t
       let s := s.setTile t { T with read := none }
       let s := if R.zero then s.setRn (tileReg t 0x28) (s.rn (tileReg t 0x28) + 1) else s
       let s := if bit R.flags 1 then s.raiseJ 0x0101 1 (t * 8 + rqTier q.req) q.task.job q.task.id else s
       if q.ds then
         let B := s.block b
         let h : DHalf := { tile := t, req := q, exp := R.exp, flags := R.flags, phases := R.phases, retries := R.retries, sums := R.sums }
         if (s.run b q.task.num).isNone then s else s.setBlock b { B with halves := B.halves ++ [h] }
       else
         (s.wrT b q.task.num (.bs b) (rqOut q.req)
           (outRecord R.exp R.flags R.phases R.retries (rqEpoch q.req) R.sums)).partDone b q.task.num)

/-- P of a double-slice pair (R75). -/
def combineSums (a b : SMap Int) : SMap Int :=
  (List.range 1024).foldl (fun m c =>
    SMap.set (fun _ => 0) m c (SMap.get (fun _ => 0) a c * 16 + SMap.get (fun _ => 0) b c)) []

/-- OR of two FLAGS fields. -/
def orFlags (a b : Nat) : Nat := (List.range 4).foldl (fun f i => if bit b i then orFlag f i else f) a

/-- DSLICE_COMBINE: both halves of the pair's oldest request are complete; the combined record is written
(R75, R89). The spec does not say what PHASES and RETRIES of the combined record hold: free values. -/
def execDsliceCombine (t : TileId) (s : State) : Out :=
  let t := t.val
  let b := tileBlock t
  let B := s.block b
  match pickFirst (fun h => h.tile == t && B.halves.any fun k =>
      k.tile == t + 1 && k.req.task.num == h.req.task.num && k.req.req == h.req.req) B.halves with
  | none => .next s
  | some (x, l1) =>
    match pickFirst (fun h => h.tile == t + 1 && h.req.task.num == x.req.task.num && h.req.req == x.req.req) l1 with
    | none => .next s
    | some (y, l2) =>
      whenever (t % 2 == 0) s
        (let s := s.setBlock b { B with halves := l2 }
         let (d1, s) := s.draw
         let (d2, s) := s.draw
         let rec' := outRecord x.exp (orFlags x.flags y.flags) (Config.undefValue d1 % 65536)
           (Config.undefValue d2 % 65536) (rqEpoch x.req.req) (combineSums x.sums y.sums)
         (s.wrT b x.req.task.num (.bs b) (rqOut x.req.req) rec').partDone b x.req.task.num)

end Sys2Proof.Machine
end

