-- ==== Sys2Proof/Machine/Carry.lean ====
section
/-!
DEFINITION. Sys2Proof/Machine/Carry.lean: the split master (spec/04, R98 to R124): records, the carry
engine's update, carries and their queues, program-and-verify of a row, and folds.
-/
namespace Sys2Proof.Machine

/-! ### Records (R98, R100, R102) -/

/-- Byte address of the record of (row, column) of a piece whose shadow area starts at sh. -/
def recAddr (sh r c : Nat) : Nat := sh + 3 * (1024 * r + c)
def foldAddr (fo r c : Nat) : Nat := fo + 1024 * r + c

/-- Fraction bits F of the low half. -/
def fracBits (ds : Bool) : Nat := if ds then 13 else 18
/-- Bits of the low half's field. -/
def lowBits (ds : Bool) : Nat := if ds then 14 else 19
/-- Largest code magnitude. -/
def codeMax (ds : Bool) : Int := if ds then 255 else 15

def recH (r : Nat) : Int := sext 5 (bits r 23 19)
def recMin (r : Nat) : Int := sext 5 (bits r 18 14)
/-- The code value: H, or 16 × MAJ + MIN. -/
def recCode (ds : Bool) (r : Nat) : Int := if ds then 16 * recH r + recMin r else recH r
def recLow (ds : Bool) (r : Nat) : Int := sext (lowBits ds) r
/-- R99: 0b10000 in H, MAJ or MIN. -/
def recInvalid (ds : Bool) (r : Nat) : Bool := bits r 23 19 == 16 || (ds && bits r 18 14 == 16)

/-- A record from its parts (H and L, or MAJ, MIN and L). -/
def mkRec (ds : Bool) (h mn l : Int) : Nat :=
  if ds then enc2c 5 h * 2 ^ 19 + enc2c 5 mn * 2 ^ 14 + enc2c 14 l else enc2c 5 h * 2 ^ 19 + enc2c 19 l

/-- R107: the MAJ nearest to the present one for which MIN lies in −15 to +15. -/
def splitNear (maj h : Int) : Int × Int :=
  let mn := h - 16 * maj
  if 15 < mn then let up := (mn - 15 + 15) / 16; (maj + up, mn - 16 * up)
  else if mn < -15 then let dn := (-15 - mn + 15) / 16; (maj - dn, mn + 16 * dn)
  else (maj, mn)

/-- R48: the split of a fresh write, toward zero. -/
def splitFresh (h : Int) : Int × Int := (h.tdiv 16, h - 16 * h.tdiv 16)

/-- The record with another code value, its low half replaced (R106, R107, R123). -/
def setCode (ds : Bool) (r : Nat) (h l : Int) : Nat :=
  if ds then let (mj, mn) := splitNear (recH r) h; mkRec true mj mn l else mkRec false h 0 l

/-! ### The update (R103 to R106) -/

/-- One weight's change of low half: the new record, the code steps to carry, and whether anything was
clamped (R106). -/
def carryUpdate (ds : Bool) (r : Nat) (di : Int) (thr : Nat) : Nat × Int × Bool :=
  let F := fracBits ds
  let one : Int := (2 ^ F : Nat)
  let x := recLow ds r + di
  let t : Int := (thr * 2 ^ (F - 4) : Nat)
  let n : Int :=
    if t ≤ x ∨ x ≤ -t then
      let m : Int := ((x.natAbs + 2 ^ (F - 1)) / 2 ^ F : Nat)
      if x < 0 then -m else m
    else 0
  let h := recCode ds r
  let hm := codeMax ds
  let n := if hm < h + n then hm - h else n
  let n := if h + n < -hm then -hm - h else n
  let y := x - n * one
  let z := max (-one) (min (one - 1) y)
  (setCode ds r (h + n) z, n, z != y)

/-- R103, R104: the integer delta of a finite δ at scale exponent σ, and whether it was clamped. Under
NUMPOL_UPDATE the random bits g are added before the floor; under NUMPOL_SUMS ties go to even. -/
def intDelta (ds : Bool) (sums : Bool) (sigma : Int) (g : Nat) (d : FpNum) : Int × Bool :=
  let lim : Int := (2 ^ (fracBits ds + 5) : Nat)
  match d.scale ((fracBits ds : Int) - sigma) with
  | .fin neg m e =>
    let v : Int :=
      if sums then roundInt .nearest 0 neg m e
      else
        let p := min e (-16)
        let sum := FpNum.intAt neg m e p + FpNum.intAt false (g % 65536) (-16) p
        floorDy (sum < 0) sum.natAbs p
    if lim < v then (lim, true) else if v < -lim then (-lim, true) else (v, false)
  | _ => (0, false)

/-! ### Pieces, tensors and jobs -/

/-- The other tile tier of a double-slice piece. -/
def twinUnit (u : Nat) : Nat := if u / 8 % 2 = 0 then u + 8 else u - 8
/-- The even (or only) tile tier of a piece. -/
def evenUnit (ds : Bool) (u : Nat) : Nat := if ds ∧ u / 8 % 2 = 1 then u - 8 else u
/-- The region of a tile tier. -/
def unitStack (u : Nat) : Nat := u / 8192

/-- A job slot that holds an admitted job. -/
def State.admitted (s : State) (j : Nat) : Bool := (s.slot j).state != .free

/-- The admitted job that names the tensor writable (R604), if any. -/
def State.writerOf (s : State) (n : Nat) : Option Nat :=
  (List.range 64).find? fun j => s.admitted j && (s.slot j).tensors.contains (n, true)

/-- The record and fold byte of a weight. -/
def State.rdRec (s : State) (I : TierInfo) (u r c : Nat) : Nat := s.rdN (.hbm (unitStack u)) (recAddr I.shadow r c) 3
def State.rdFold (s : State) (I : TierInfo) (u r c : Nat) : Int := sext 8 (s.rdN (.hbm (unitStack u)) (foldAddr I.fold r c) 1)
def State.wrRec (s : State) (I : TierInfo) (u r c v : Nat) : State := s.wrLe (.hbm (unitStack u)) (recAddr I.shadow r c) 3 v
def State.wrFold (s : State) (I : TierInfo) (u r c : Nat) (v : Int) : State :=
  s.wrLe (.hbm (unitStack u)) (foldAddr I.fold r c) 1 (enc2c 8 v)
/-- The weight's record or fold byte is read poisoned (R284). -/
def State.recPoisoned (s : State) (I : TierInfo) (u r c : Nat) : Bool :=
  s.poisoned (.hbm (unitStack u)) (recAddr I.shadow r c) 3 || s.poisoned (.hbm (unitStack u)) (foldAddr I.fold r c) 1

/-- The piece has a weight at this row and column; the tier's other positions are unused (R49). -/
def TierInfo.holds (I : TierInfo) (r c : Nat) : Bool := decide (r < I.rows) && decide (c < I.cols)

/-- Invalid under R99 or poisoned: the event, if any (R99, R284, R603). An unused position has no record. The event of R284
is raised, with its status bit and count, by the HBM controller that finds the error (`State.memFault`); the carry engine
itself raises that of R99 (`State.badEvent`; assumption 164). -/
def State.recBad (s : State) (I : TierInfo) (u r c : Nat) : Option Nat :=
  if !I.holds r c then none
  else if s.recPoisoned I u r c then some 0x0611
  else if recInvalid I.dslice (s.rdRec I u r c) then some 0x0635
  else none

/-- The carry engine's own event for a record it leaves unchanged (R99). -/
def State.badEvent (s : State) (u ev : Nat) : State := if ev = 0x0635 then s.raise ev 4 (unitStack u) else s

/-! ### Carry queues (R109, R115, R116, R138) -/

/-- Adds a code change of a pair to the queue entry of its row and tag. -/
def addChange (cs : List RowCarry) (tier row : Nat) (tag job : Option Nat) (pair : Nat) (n : Int) :
    List RowCarry :=
  match cs with
  | [] => [{ tier := tier, row := row, tag := tag, job := job,
             changes := if n = 0 then [] else SMap.set (fun _ => 0) [] pair n }]
  | c :: r =>
    if c.tier = tier ∧ c.row = row ∧ c.tag = tag then
      { c with changes := SMap.set (fun _ => 0) c.changes pair (SMap.get (fun _ => 0) c.changes pair + n) } :: r
    else c :: addChange r tier row tag job pair n

def State.queueChange (s : State) (u row : Nat) (tag job : Option Nat) (pair : Nat) (n : Int) : State :=
  let T := s.tile (u / 8)
  s.setTile (u / 8) { T with carries := addChange T.carries (u % 8) row tag job pair n }

/-- A journal entry (R430) for a code change of a weight of a journal-method tensor. -/
def journalEntry (u r c : Nat) (pre post : Int) (ds : Bool) : Nat :=
  u + r * 2 ^ 17 + c * 2 ^ 27 + enc2c 10 pre * 2 ^ 37 + enc2c 10 post * 2 ^ 47 + b2n ds * 2 ^ 57

/-- Appends an entry to the open segment of the writing job's region (R430, R431). -/
def addEntry (segs : List (Nat × Nat × Bool × List Nat)) (step g e : Nat) : List (Nat × Nat × Bool × List Nat) :=
  match segs with
  | [] => [(step, g, false, [e])]
  | (n, h, cl, l) :: r =>
    if n = step ∧ h = g ∧ cl = false then (n, h, cl, l ++ [e]) :: r else (n, h, cl, l) :: addEntry r step g e

def State.journalCode (s : State) (I : TierInfo) (u r c : Nat) (pre post : Int) : State :=
  match I.tensor with
  | none => s
  | some n =>
    match s.writerOf n with
    | none => s
    | some j =>
      let sl := s.slot j
      if pre = post then s
      else
        let sl := { sl with carryN := SMap.set (fun _ => 0) sl.carryN n (SMap.get (fun _ => 0) sl.carryN n + 1) }
        s.setSlot j { sl with segs := if !sl.jmeth.contains n then sl.segs else addEntry sl.segs sl.openSeg (unitStack u) (journalEntry u r c pre post I.dslice) }

/-- A carry is queued for a double-slice row of which one tile's sweep read has been reported: that half no
longer folds, since the row's program-and-verify folds it instead (R132). -/
def State.dropSweepHalf (s : State) (u row : Nat) : State :=
  let b := u / 512
  let B := s.block b
  s.setBlock b { B with folds := B.folds.filter fun f => !(f.unit == u && f.row == row && f.sweep) }

/-- A code change of a weight becomes queued carries: one pair, or one pair in each tile of a double-slice
piece (R107, R109); both tiles' rows are then verified, so that the weights can fold (R121). -/
def State.queueCarry (s : State) (I : TierInfo) (u r c : Nat) (tag job : Option Nat) (old new : Nat) : State :=
  if I.dslice then
    ((s.dropSweepHalf u r).queueChange u r tag job c (recH new - recH old)).queueChange (u + 8) r tag job c (recMin new - recMin old)
  else s.queueChange u r tag job c (recH new - recH old)

/-! ### Folds (R121 to R123) -/

/-- Nearest integer of a / b (b > 0), ties away from zero. -/
def nearAway (a : Int) (b : Nat) : Int :=
  let n : Int := ((2 * a.natAbs + b) / (2 * b) : Nat)
  if a < 0 then -n else n

/-- Changes of a pair that are still queued for a row. -/
def Tile.queued (T : Tile) (tier row pair : Nat) : Int :=
  T.carries.foldl (fun a c => if c.tier = tier ∧ c.row = row then a + SMap.get (fun _ => 0) c.changes pair else a) 0

/-- A carry is queued that changes the pair, whatever the sum of those changes. -/
def Tile.holdsChange (T : Tile) (tier row pair : Nat) : Bool :=
  T.carries.any fun c => c.tier == tier && c.row == row && SMap.get (fun _ => 0) c.changes pair != 0

/-- The code value that a weight's cells stand at by its record: the record's code less the changes still
queued. -/
def State.cellCode (s : State) (ds : Bool) (u row c rec' : Nat) : Int :=
  let q := (s.tile (u / 8)).queued (u % 8) row c
  if ds then recCode true rec' - (16 * q + (s.tile (u / 8 + 1)).queued (u % 8) row c)
  else recCode false rec' - q

/-- One weight's fold: the record and fold offset that follow from the verified value v of the pair (in 1/64
step; of a double-slice weight 16 × major + minor), and whether the low half was clamped. `blocked`: the
code is set to the integer nearest v first, and the code change is taken out of the low half (R123). `cc` is
the code value its cells should hold. -/
def foldWeight (ds : Bool) (rec' : Nat) (phi : Int) (cc v : Int) (blocked : Bool) : Nat × Int × Bool :=
  let F := fracBits ds
  let one : Int := (2 ^ F : Nat)
  let hm := codeMax ds
  let near := max (-hm) (min hm (nearAway v 64))
  let h0 := recCode ds rec'
  let h := if blocked then max (-hm) (min hm (h0 + near - cc)) else h0
  let l1 := recLow ds rec' - (h - h0) * one
  let dev := v - 64 * (if blocked then near else cc)
  let phi' := max (-128) (min 127 (if ds then nearAway dev 4 else dev))
  let unit : Int := if ds then (2 ^ (F - 4) : Nat) else (2 ^ (F - 6) : Nat)
  let l2 := l1 + (phi - phi') * unit
  let lim : Int := (2 ^ (lowBits ds - 1) : Nat)
  let l3 := max (-lim) (min (lim - 1) l2)
  (if blocked then setCode ds rec' h l3
   else if ds then mkRec true (recH rec') (recMin rec') l3 else mkRec false (recH rec') 0 l3,
   phi', l3 != l2)

/-- Folds one weight of a request; counts folded weights and clamps. -/
def State.foldOne (s : State) (I : TierInfo) (q : FoldReq) (acc : Nat × Nat) (c : Nat) : State × (Nat × Nat) :=
  let u := q.unit
  match s.recBad I u q.row c with
  | some ev => (s.badEvent u ev, acc)
  | none =>
    if q.skip.contains c then (s, acc)
    else
      let r := s.rdRec I u q.row c
      let phi := s.rdFold I u q.row c
      let hi := SMap.get (fun _ => 0) q.hi c
      let dev := if I.dslice then 16 * hi + SMap.get (fun _ => 0) q.lo c else hi
      let cc := s.cellCode I.dslice u q.row c r
      let (r', phi', cl) := foldWeight I.dslice r phi cc (64 * cc + dev) (q.blocked.contains c)
      let s := (s.wrRec I u q.row c r').wrFold I u q.row c phi'
      let s := if q.blocked.contains c then s.journalCode I u q.row c (recCode I.dslice r) (recCode I.dslice r') else s
      (s, (acc.1 + 1, acc.2 + b2n cl))

/-- Folds a row (R121 to R123): each weight of the piece that folds; CE_FOLDS counts them, MCLAMP and 0x0931 once for
the row when any low half was clamped, with the number of weights in COUNT. -/
def State.foldRow (s : State) (q : FoldReq) : State :=
  let I := s.tier q.unit
  let b := q.unit / 512
  let (s, n, m) := ((List.range 1024).filter (I.holds q.row)).foldl
    (fun (st : State × (Nat × Nat)) c => st.1.foldOne I q st.2 c) (s, (0, 0))
  let s := s.bump (blockReg b 0x2014) 31 0 n
  if m = 0 then s
  else (s.setBit (blockReg b 0x200C) 2).report
    { code := 0x0931, kind := 1, unit := q.unit, job := 255, task := 0, count := m }

/-- An image copy of the piece is running (R427). -/
def State.imageHeld (s : State) (u : Nat) : Bool :=
  (List.range 64).any fun j => (s.slot j).imgCopy.contains u

/-- The carry engine of a block holds its tokens (R326). -/
def State.carryTokens (s : State) (b : Nat) : Bool := decide (200 ≤ s.held (b / 16) (tokCarry b))

/-- A row is ready to fold: at once when the carry engine holds its tokens (R326) and no image copy of the piece runs
(R427), else later. -/
def State.foldOrDefer (s : State) (q : FoldReq) : State :=
  let b := q.unit / 512
  if s.imageHeld q.unit || !s.carryTokens b then
    let B := s.block b
    s.setBlock b { B with deferred := B.deferred ++ [q] }
  else s.foldRow q

/-- Folds of a block that only its carry engine's tokens hold back. -/
def State.foldsReady (s : State) (b : Nat) : List FoldReq := (s.block b).deferred.filter fun q => !s.imageHeld q.unit

/-- The carry engine, which holds its tokens, folds the rows that waited for it. -/
def State.foldAll (s : State) (b : Nat) : State :=
  let now := s.foldsReady b
  let B := s.block b
  (s.setBlock b { B with deferred := B.deferred.filter fun q => s.imageHeld q.unit }).each (fun s q => s.foldRow q) now

/-- Row r of a tier waits in the carry engine for its fold; it is read and written again only when it has folded. -/
def State.rowFolds (s : State) (u row : Nat) : Bool :=
  (s.block (u / 512)).deferred.any fun q => q.unit == evenUnit (s.tier u).dslice u && q.row == row

/-- A written row of a piece has yet to fold (R127, R134). -/
def State.foldDue (s : State) (u : Nat) : Bool :=
  let B := s.block (u / 512)
  (B.folds ++ B.deferred).any fun q => q.unit == evenUnit (s.tier u).dslice u && !q.sweep

/-- One tile reports the deviations of a row: a single-slice row folds; a double-slice row folds when both
tiles have reported (R121, R131). -/
def State.reportRow (s : State) (u row : Nat) (sweep : Bool) (devs : SMap Int) (blocked skip : List Nat) : State :=
  let I := s.tier u
  if !I.dslice then
    s.foldOrDefer { unit := u, row := row, half := none, sweep := sweep, hi := devs, lo := [], blocked := blocked, skip := skip }
  else
    let e := evenUnit true u
    let b := u / 512
    let B := s.block b
    match pickFirst (fun f => f.unit == e && f.row == row && f.sweep == sweep && f.half != some (u / 8)) B.folds with
    | none =>
      let q : FoldReq := { unit := e, row := row, half := some (u / 8), sweep := sweep, hi := if u = e then devs else [],
                           lo := if u = e then [] else devs, blocked := blocked, skip := skip }
      s.setBlock b { B with folds := B.folds ++ [q] }
    | some (f, rest) =>
      let s := s.setBlock b { B with folds := rest }
      s.foldOrDefer { f with half := none, hi := if u = e then devs else f.hi, lo := if u = e then f.lo else devs,
                             blocked := f.blocked ++ blocked, skip := f.skip ++ skip }

/-! ### Headroom (R124, R125) -/

/-- The headroom counter takes a value; reaching 0 raises 0x0132. -/
def State.setHeadroom (s : State) (u v : Nat) : State :=
  let old := s.rf (tierReg u) 15 0
  let s := s.setRf (tierReg u) 15 0 v
  if v = 0 ∧ old ≠ 0 then s.raise 0x0132 1 u else s

/-! ### Program and verify (R31 to R33, R119, R120) -/

/-- Check codes of a set sum (R79, R80). -/
def checkCodes (sum : Int) : Int × Int := let c := nearAway sum 31; (c, sum - 31 * c)

/-- The set sum of check set j over the codes of a row's even data columns. -/
def setSum (codes : Nat → Int) (j : Nat) : Int :=
  (List.range 32).foldl (fun a i => a + codes (64 * j + 2 * i)) 0

/-- The code changes of the check pairs when the codes of a row go from `old` to `new` (R108, R119). -/
def checkChanges (old new : Nat → Int) (m : SMap Int) : SMap Int :=
  (List.range 16).foldl (fun m j =>
    let a := checkCodes (setSum old j)
    let b := checkCodes (setSum new j)
    let m := SMap.set (fun _ => 0) m (1024 + 2 * j) (b.1 - a.1)
    SMap.set (fun _ => 0) m (1025 + 2 * j) (b.2 - a.2)) m

/-- Lowering of one cell by one pulse (R30, R601), in thousandths of a level step. -/
def lowering (full : Bool) (key d : Nat) : Nat :=
  let v : Int := (if full then 1000 else 250) + Config.cellResponse key full + Config.pulseVariation d full
  (max 0 (min (if full then 2000 else 600) v)).toNat

/-- One pulse on one cell. No level lies below 0, the lowest conductance the ladder has. -/
def State.pulseCell (s : State) (full : Bool) (key : Nat) : State :=
  let (d, s) := s.draw
  s.setCell key (s.cell key - lowering full key d)

/-- One verify read of a pair: its value in 1/64 code step as an 11-bit value, and the level of its lower
cell. -/
def State.verifyPair (s : State) (u row pair d : Nat) : Int × Nat :=
  let p := s.cell (cellKey u row pair 0)
  let m := s.cell (cellKey u row pair 1)
  let v := nearAway (((p : Int) - (m : Int)) * 64) 1000 + Config.verifyError d
  (max (-1024) (min 1023 v), (min p m + 500) / 1000)

/-- A verify read of a row: all 1,056 pairs. -/
def State.verifyRow (s : State) (u row : Nat) : List (Nat × Int × Nat) × State :=
  ((List.range 1056).map fun p => (p, s.verifyPair u row p (s.draws + p)), { s with draws := s.draws + 1056 })

/-- The code a pair's cells hold, to the nearest code step. -/
def State.presentCode (s : State) (u row pair : Nat) : Int :=
  nearAway ((s.cell (cellKey u row pair 0) : Int) - (s.cell (cellKey u row pair 1) : Int)) 1000

/-- The slice code that a tile tier should hold of a data pair: the record's less the changes still queued; 0 for
an unused position (R49); the pair's present code where the record is invalid or poisoned (R603). -/
def State.sliceCode (s : State) (u row c : Nat) : Int :=
  let I := s.tier u
  let e := evenUnit I.dslice u
  if !I.holds row c then 0
  else if (s.recBad I e row c).isSome then s.presentCode u row c
  else
    let r := s.rdRec I e row c
    (if I.dslice ∧ u / 8 % 2 = 1 then recMin r else recH r) - (s.tile (u / 8)).queued (u % 8) row c

/-- The codes a row's pairs should have after the changes now applied (R79, R108, R119). -/
def State.rowTarget (s : State) (u row pair : Nat) : Int :=
  if pair < 1024 then s.sliceCode u row pair
  else
    let k := checkCodes (setSum (s.sliceCode u row) ((pair - 1024) / 2))
    if pair % 2 = 0 then k.1 else k.2

/-- The deviations of the data pairs of a verified row from their slice codes, in 1/64 step (R121). -/
def State.deviations (s : State) (u row : Nat) (vals : List (Nat × Int × Nat)) : SMap Int :=
  vals.foldl (fun m (p, v, _) =>
    if p < 1024 then SMap.set (fun _ => 0) m p (v - 64 * s.sliceCode u row p) else m) []

def RowRun.unit (r : RowRun) (t : Nat) : Nat := t * 8 + r.carry.tier

/-- The code that a pair of the row under program-and-verify should reach. -/
def State.pairTarget (s : State) (u : Nat) (r : RowRun) (p : Nat) : Int :=
  if r.fresh then SMap.get (fun _ => 0) r.carry.changes p else s.rowTarget u r.carry.row p

/-- Largest |c| of the row: the number of full pulse rounds. -/
def fullRounds (m : SMap Int) : Nat := m.foldl (fun a (_, c) => max a c.natAbs) 0

/-- The pairs of the last verify whose deviation from target is outside ±VWIN and that are not blocked. A pair of a fresh
write with code 0 receives no pulse (R26) and so is none of them: it neither keeps the trim loop running nor misses the
window, and its deviation folds (DESIGN CHOICE, assumption 141). -/
def State.outside (s : State) (u vwin : Nat) (r : RowRun) : List (Nat × Int) :=
  r.vals.filterMap fun (p, v, _) =>
    let dev := v - 64 * s.pairTarget u r p
    if decide (vwin < dev.natAbs) && !(r.fresh && s.pairTarget u r p == 0) && !r.blocked.contains p && !r.bad.contains p then some (p, dev) else none

/-- The pairs that become blocked at a verify: outside the window, and the cell that must fall reads level 0
(R33, R119). A level reads 0 when it lies below 0.5 step; the verify error of the pair's value is not added to it (DESIGN
CHOICE, assumption 136). -/
def State.newBlocked (s : State) (u row vwin : Nat) (r : RowRun) : List Nat :=
  (s.outside u vwin r).filterMap fun (p, dev) =>
    let side := if 0 < dev then 0 else 1
    if (s.cell (cellKey u row p side) + 500) / 1000 = 0 then some p else none

/-- A full pulse round: one full pulse on each cell with |c| > i (R32, R119). -/
def State.fullRound (s : State) (u row i : Nat) (m : SMap Int) : State :=
  s.each (fun s (p, c) =>
    if i < c.natAbs then s.pulseCell true (cellKey u row p (if 0 < c then 1 else 0)) else s) m

/-- A quarter pulse round (R119). -/
def State.quarterRound (s : State) (u row vwin : Nat) (r : RowRun) : State :=
  s.each (fun s (p, dev) => s.pulseCell false (cellKey u row p (if 0 < dev then 0 else 1))) (s.outside u vwin r)

/-! ### Which row is programmed next -/

/-- R603: in the queues of both tiles of a double-slice piece, changes of weights whose record is invalid or
poisoned are dropped. -/
def dropPair (cs : List RowCarry) (tier row pair : Nat) : List RowCarry :=
  cs.map fun c => if c.tier = tier ∧ c.row = row then { c with changes := SMap.set (fun _ => 0) c.changes pair 0 } else c

/-- The data pairs of a row whose records are invalid or poisoned. -/
def State.badPairs (s : State) (u row : Nat) : List Nat :=
  let I := s.tier u
  (List.range 1024).filter fun c => (s.recBad I (evenUnit I.dslice u) row c).isSome

/-- R603: those weights' queued changes are discarded and the event is raised. -/
def State.discardBad (s : State) (u row : Nat) : State :=
  let I := s.tier u
  let e := evenUnit I.dslice u
  s.each (fun s c =>
    match s.recBad I e row c with
    | none => s
    | some ev =>
      let s := s.badEvent u ev
      let T := s.tile (u / 8)
      let s := s.setTile (u / 8) { T with carries := dropPair T.carries (u % 8) row c }
      if I.dslice then
        let v := twinUnit u / 8
        let V := s.tile v
        s.setTile v { V with carries := dropPair V.carries (u % 8) row c }
      else s) (List.range 1024)

/-- A carry's row enters program-and-verify: its check pairs' changes are added (R108, R119); the row of a
tensor that no job writes is put under HOLD (R115). -/
def State.startCarry (s : State) (t : Nat) (c : RowCarry) : State :=
  let u := t * 8 + c.tier
  let bad := s.badPairs u c.row
  let s := s.discardBad u c.row
  let T := s.tile t
  match pickFirst (fun d => d.tier == c.tier && d.row == c.row && d.tag == c.tag) T.carries with
  | none => s
  | some (c, rest) =>
    let s := s.setTile t { T with carries := rest }
    let new : Nat → Int := fun p => s.rowTarget u c.row p
    let old : Nat → Int := fun p => new p - SMap.get (fun _ => 0) c.changes p
    let m := checkChanges old new c.changes
    let T := s.tile t
    let n := fullRounds m
    let st : RowStage := if n = 0 then .verify else .fullRounds
    let run : RowRun := { carry := { c with changes := m }, fresh := false, src := c.tier, stage := st, rounds := n, done := 0,
                          trims := 0, blocked := [], bad := bad, vals := [] }
    let s := s.setTile t { T with row := some run, curTier := c.tier }
    if c.tag.isNone then s.setRf (tierReg u) 19 19 1 else s

/-- A row of a fresh write starts (R25, R80, R126, R127, R129, R134): the codes are those of the records less
the changes still queued for the tier whose contents are written, and a weight whose record is invalid or
poisoned is not written (R603); the split of a double-slice code is that of
R48 where no carry is held. `src` is the tier whose queue holds those carries. -/
def State.startFresh (s : State) (t src dst row : Nat) : State :=
  let u := t * 8 + src
  let I := s.tier u
  let e := evenUnit I.dslice u
  let s := s.each (fun s c =>
    if I.dslice then
      let r := s.rdRec I e row c
      let held := (s.tile (e / 8)).holdsChange src row c || (s.tile (e / 8 + 1)).holdsChange src row c
      if I.holds row c && (s.recBad I e row c).isNone && !held then
        let (mj, mn) := splitFresh (recCode true r)
        s.wrRec I e row c (mkRec true mj mn (recLow true r))
      else s
    else s) (List.range 1024)
  let bad := s.badPairs u row
  let s := s.each (fun s c => match s.recBad I e row c with
    | some ev => s.badEvent u ev
    | none => s) bad
  let codes : Nat → Int := fun c => if bad.contains c then 0 else s.sliceCode u row c
  let D := s.tier (t * 8 + dst)
  let s := s.setTier (t * 8 + dst) { D with lastErase := false }
  let m := (List.range 1024).foldl (fun m c => SMap.set (fun _ => 0) m c (codes c)) []
  let m := checkChanges (fun _ => 0) codes m
  let T := s.tile t
  let n := fullRounds m
  let st : RowStage := if n = 0 then .verify else .fullRounds
  let run : RowRun := { carry := { tier := dst, row := row, tag := none, job := none, changes := m }, fresh := true,
                        src := src, stage := st, rounds := n, done := 0, trims := 0, blocked := [], bad := bad, vals := [] }
  s.setTile t { T with curTier := dst, row := some run }

/-- The tier a procedure writes: the new tier of a coppice into a free tier, else its own. -/
def TierProc.target (p : TierProc) : Nat := match p.kind with | .coppiceFree n => n | _ => p.tier

/-- The tile takes up a row when it has none: a ready carry (R94, R116, R119), else the next row of a fresh
write. -/
def State.takeRow (s : State) (t : Nat) : State :=
  let T := s.tile t
  if T.row.isSome then s
  else
    match T.nextCarry with
    | some (c, _) => if s.rowFolds (t * 8 + c.tier) c.row then s else s.startCarry t c
    | none =>
      match T.procs with
      | p :: _ =>
        if p.stage == .writing && decide (p.row < 1024) && !T.strict && !s.rowFolds (t * 8 + p.tier) p.row then
          s.startFresh t p.tier p.target p.row
        else s
      | [] => s

/-- The procedure holds its tier for a coppice in place (R127). -/
def TierProc.inPlaceOf (k : Nat) (p : TierProc) : Bool :=
  p.tier == k && (match p.kind with | .coppiceInPlace => true | _ => false)

/-- A row of the procedure's fresh write has ended. -/
def TierProc.rowDone (p : TierProc) : TierProc :=
  let nx : ProcStage := match p.kind with | .coppiceFree _ => .swapping | _ => .finished
  { p with row := p.row + 1, stage := if p.row + 1 = 1024 then nx else p.stage }

/-- The row's program-and-verify ends: R120, R123, R124, the fold, the counts; a fresh write moves on to its
next row. -/
def State.finishRow (s : State) (t : Nat) (r : RowRun) : State :=
  let b := tileBlock t
  let u := r.unit t
  let row := r.carry.row
  let vwin := s.rf (blockReg b 0x2000) 9 4
  let low := s.rf (blockReg b 0x2000) 24 22
  let s := if (s.outside u vwin r).isEmpty then s else (s.setBit (blockReg b 0x200C) 1).raise 0x0130 1 u
  let s := if r.blocked.isEmpty then s
    else ((s.setBit (blockReg b 0x200C) 0).raise 0x0131 1 u).setHeadroom u 0
  let s := if !r.fresh && r.vals.any (fun (_, _, l) => decide (l ≤ low)) then s.setHeadroom u (s.rf (tierReg u) 15 0 - 1) else s
  let s := if r.fresh then s else s.bump (blockReg b 0x2010) 31 0 1
  let T := s.tile t
  let s := if !r.fresh && r.carry.tag.isNone && !(T.procs.any (TierProc.inPlaceOf r.carry.tier)) then s.setRf (tierReg u) 19 19 0 else s
  let s := s.setTile t { T with row := none }
  let src := t * 8 + r.src
  let s := s.reportRow src row false (s.deviations src row r.vals) r.blocked []
  let s := s.serveHeld t T.headHeld
  if r.fresh then
    let T := s.tile t
    s.setTile t { T with procs := T.procs.map fun p => if p.stage == .writing && p.tier == r.src then p.rowDone else p }
  else s

/-! ### PROGRAM_PULSE, VERIFY_READ -/

/-- The tile would apply a pulse next. -/
def State.pulseNext (s : State) (t : Nat) : Option RowRun :=
  match (s.tile t).row with
  | some r => if r.stage == .verify then none else some r
  | none => none

/-- PROGRAM_PULSE: an upkeep grant applies one full or quarter pulse round to one row of one tier (R31, R90,
R119); pulses wait while the tile is held by temperature (R42). -/
def execProgramPulse (x : At TileId) (s : State) : Out :=
  let t := x.what.val
  let b := tileBlock t
  let s1 := (s.memErrs x.errs).takeRow t
  match s1.pulseNext t with
  | none => .next s
  | some r =>
    whenever (s.upkGrant t && !(s.tile t).tempHold) s
      (let u := r.unit t
       let row := r.carry.row
       let s2 := s1.upkSpend t r.carry.tier (s.upkFree t)
       match r.stage with
       | .fullRounds =>
         let s3 := s2.fullRound u row r.done r.carry.changes
         let T := s3.tile t
         let st : RowStage := if r.done + 1 = r.rounds then .verify else .fullRounds
         let r' : RowRun := { r with done := r.done + 1, stage := st }
         s3.setTile t { T with row := some r' }
       | _ =>
         let s3 := s2.quarterRound u row (s.rf (blockReg b 0x2000) 9 4) r
         let T := s3.tile t
         s3.setTile t { T with row := some { r with trims := r.trims + 1, stage := .verify } })

/-- VERIFY_READ: an upkeep grant senses one row and decides on a further trim round or on the end of its
program-and-verify (R33, R119 to R124). -/
def execVerifyRead (x : At TileId) (s : State) : Out :=
  let t := x.what.val
  let b := tileBlock t
  let s1 := (s.memErrs x.errs).takeRow t
  match (s1.tile t).row with
  | none => .next s
  | some r =>
    whenever (s.upkGrant t && r.stage == .verify) s
      (let u := r.unit t
       let row := r.carry.row
       let vwin := s.rf (blockReg b 0x2000) 9 4
       let pvMax := s.rf (blockReg b 0x2000) 15 10
       let s2 := s1.upkSpend t r.carry.tier (s.upkFree t)
       let (vals, s3) := s2.verifyRow u row
       let r1 : RowRun := { r with vals := vals }
       let r2 : RowRun := { r1 with blocked := r1.blocked ++ s3.newBlocked u row vwin r1 }
       if !(s3.outside u vwin r2).isEmpty && decide (r2.trims < pvMax) then
         let T := s3.tile t
         s3.setTile t { T with row := some { r2 with stage := .trimRound } }
       else s3.finishRow t r2)

end Sys2Proof.Machine
end

