-- ==== Sys2Proof/Machine/Journal.lean ====
section
/-!
DEFINITION. Sys2Proof/Machine/Journal.lean: the ring journal (spec/12, R403 to R411): records and their
bytes, staging, programming of pages, the reserve, and critical records.
-/
namespace Sys2Proof.Machine

/-- Record types of R403. -/
def tyEvent : Nat := 1
def tySummary : Nat := 2
def tyErase : Nat := 3
def tyState : Nat := 4
def tyPermanent : Nat := 5
def tyTest : Nat := 6
def tyWear : Nat := 7
def tyFiller : Nat := 8
def tyTally : Nat := 9

/-- R405: the record is critical. -/
def JRec.critical (r : JRec) : Bool :=
  r.typ == tyErase || r.typ == tyState || r.typ == tyPermanent || r.cls == 2 || r.cls == 3

/-- The first 124 bytes of a record. -/
def JRec.body (r : JRec) : List Byte :=
  leBytes 2 0xC1A5 ++ leBytes 1 r.typ ++ leBytes 1 r.cls ++ leBytes 4 r.jclock ++ leBytes 8 r.seq ++
  leBytes 8 r.time ++ leBytes 2 r.event ++ leBytes 1 r.kind ++ leBytes 1 r.job ++ leBytes 4 r.unit ++
  leBytes 4 r.task ++ leBytes 4 r.count ++ leBytes 4 r.boots ++ leBytes 4 0 ++
  ((r.detail.map fun n => BitVec.ofNat 8 n) ++ leBytes 76 0).take 76

/-- The 128 bytes of a record (R403). -/
def JRec.bytes (r : JRec) : List Byte := r.body ++ leBytes 4 (crc32c r.body).toNat

/-- Status and last-error registers of a unit, as bytes (DETAIL of EVENT and TEST records; which registers
those are is the model's choice). -/
def State.unitDetail (s : State) (kind unit : Nat) : List Nat :=
  let regs : List Nat :=
    match kind with
    | 1 => [tileReg (unit / 8) 0x10, tileReg (unit / 8) 0x1C, tierReg unit]
    | 2 => [blockReg unit 0x1000, blockReg unit 0x200C, blockReg unit 0x4004, blockReg unit 0x400C,
            blockReg unit 0x5004, blockReg unit 0x5008, blockReg unit 0x500C, blockReg unit 0x5010,
            blockReg unit 0x5014, blockReg unit 0xC304, blockReg unit 0x804]
    | 3 => [regionReg unit 0x2004, regionReg unit 0x200C, regionReg unit 0x2010]
    | 4 => [regionReg unit 0x3000]
    | 5 => [lportReg unit 0]
    | 6 => [tileReg (unit / 16) 0x10, tileReg (unit / 16) 0x1C]
    | _ => [0x40000, 0x40008]
  (regs.map fun a => (leBytes 4 (s.rn a)).map BitVec.toNat).flatten

/-- A record of the present moment, its SEQ still to be given. -/
def State.jrec (s : State) (typ cls event kind unit job task count : Nat) (detail : List Nat) : JRec :=
  { typ := typ, cls := cls, jclock := s.jrn.jclock, seq := 0, time := s.time, event := event, kind := kind,
    unit := unit, job := job, task := task, count := count, boots := s.jrn.boots, detail := detail }

def State.setJrn (s : State) (j : Journal) : State := { s with jrn := j }

/-- The open erase block has an erased page. -/
def Journal.openRoom (j : Journal) : Bool :=
  match j.blocks.getLast? with
  | some b => b.length < 32
  | none => false

/-- R410: may a record of this importance be programmed? -/
def Journal.room (j : Journal) (r : JRec) : Bool :=
  let keep := if r.typ == tyState then 0 else if r.critical then 1 else 4
  keep < j.erased || (j.erased == keep && j.openRoom)

/-- One page is programmed (R50, R404): into the open erase block, or into the next free one. -/
def Journal.page (j : Journal) (p : List JRec) : Journal :=
  if j.openRoom then
    { j with blocks := j.blocks.dropLast ++ [(j.blocks.getLast?.getD []) ++ [p]] }
  else { j with blocks := j.blocks ++ [[p]], erased := j.erased - 1 }

/-- The first page of staged records is programmed. -/
def Journal.programOne (j : Journal) : Journal :=
  if j.staged.isEmpty then j
  else { (j.page (j.staged.take 32)) with staged := j.staged.drop 32, stagedMs := 0 }

/-- Every staged record is programmed; n pages at most. -/
def Journal.programAll (j : Journal) : Nat → Journal
  | 0 => j
  | n + 1 => if j.staged.isEmpty then j else (j.programOne).programAll n

/-- A record is staged with the next SEQ. -/
def Journal.stage (j : Journal) (r : JRec) : Journal :=
  { j with staged := j.staged ++ [{ r with seq := j.nextSeq }], nextSeq := j.nextSeq + 1,
           stagedMs := if j.staged.isEmpty then 0 else j.stagedMs }

/-- A record that the full journal does not take (R410): counted in RJ_SUPCNT; event 0x0418 once per boot. -/
def State.jWithheld (s : State) : State :=
  let s := s.bump 0x41000 31 0 1
  if s.jrn.full then s else (s.setJrn { s.jrn with full := true }).raise 0x0418 0 0

/-- A record goes to the journal: staged (R404), or, when critical, programmed at once with what is staged
before it (R405). -/
def State.jWrite (s : State) (r : JRec) : State :=
  if !s.jrn.room r then s.jWithheld
  else
    let j := s.jrn.stage r
    s.setJrn (if r.critical then j.programAll j.staged.length else j)

/-- The records that firmware has: those the scan at BOOT found, and those programmed since (R407). -/
def Journal.found (j : Journal) : List JRec :=
  (j.blocks.zipIdx.map fun (b, i) => (b.zipIdx.map fun (p, k) =>
    if j.hidden.any fun (i', lo, hi) => i' == i && decide (lo ≤ k) && decide (k < hi) then [] else p).flatten).flatten

/-- Every programmed record, oldest first. -/
def Journal.records (j : Journal) : List JRec := (j.blocks.map List.flatten).flatten

/-- The replacement flag is open: the latest STATE record that sets or clears it has set it (R407). -/
def Journal.flagOpen (j : Journal) : Bool :=
  match (j.found.filter fun r => r.typ == tyState && (r.detail.getD 2 0 == 1 || r.detail.getD 2 0 == 2)).getLast? with
  | some r => r.detail.getD 2 0 == 1
  | none => false

/-- Events of page reads of the partition (R51): 0x0640 for each that the ECC corrected, 0x0641 for each that returned
no data. -/
def State.partReads (s : State) (x : PartReads) : State :=
  let s := s.each (fun s _ => s.raise 0x0640 0 0) (List.range x.fixed)
  s.each (fun s _ => s.raise 0x0641 0 0) (List.range (x.failed + x.lost.length + x.other.length))

/-- The erase blocks with the pages that return data, by their places in the journal (R51). -/
def Journal.readable (j : Journal) (x : PartReads) : List (List (List JRec)) :=
  j.blocks.zipIdx.map fun (b, i) => b.zipIdx.map fun (p, k) => if x.lost.contains (i, k) then [] else p

/-- What the scan at BOOT finds: a page that returns no data ends the scan of its erase block (R407). A page that is
not found stays programmed, and a later scan may find it (R8, R50). -/
def Journal.scanned (j : Journal) (x : PartReads) : Journal :=
  { j with hidden := x.lost.map fun (i, k) => (i, k, (j.blocks.getD i []).length) }

/-! ### The other areas of the partition (R50 to R53) -/

/-- An erased page of the area is programmed, once: the next one of the open erase block, or the first of a free one. -/
def PartArea.page (A : PartArea) (p : PartPage) : PartArea :=
  match A.blocks.getLast? with
  | some b =>
    if b.length < 32 then { A with blocks := A.blocks.dropLast ++ [b ++ [p]] }
    else { blocks := A.blocks ++ [[p]], free := A.free - 1 }
  | none => { blocks := [[p]], free := A.free - 1 }

def PartArea.pages (A : PartArea) (l : List PartPage) : PartArea := l.foldl PartArea.page A

/-- A marker on which a restart rests (R433, R434): the last IMAGE_DONE or RESTART of its fabric job. -/
def restartMarker (later : List Marker) (m : Marker) : Bool :=
  (m.typ == 3 || m.typ == 4) && !(later.any fun x => x.typ == m.typ && x.fjob == m.fjob)

/-- A page still needed when those that follow it are in the area: none of them supersedes it (R52, R53). -/
def PartPage.current (p : PartPage) (later : List PartPage) : Bool :=
  match p with
  | .markers l =>
    let after := (later.map fun q => match q with | .markers l => l | _ => []).flatten
    l.any (restartMarker after)
  | .config .. => true
  | .residency g _ => !(later.any fun q => match q with | .residency h _ => g == h | _ => false)
  | .settings .. => !(later.any fun q => match q with | .settings .. => true | _ => false)

/-- The pages of a list that are still needed. -/
def currentPages : List PartPage → List PartPage
  | [] => []
  | p :: r => if p.current r then p :: currentPages r else currentPages r

/-- A page is programmed in an area that firmware writes in rotation; one erase block is kept free, and the oldest is
erased once what is still needed of it has been programmed again (R50, R52). -/
def PartArea.program (A : PartArea) (p : PartPage) : PartArea :=
  let full := decide (A.free ≤ 1) && (match A.blocks.getLast? with | some b => decide (32 ≤ b.length) | none => false)
  match A.blocks with
  | b :: _ =>
    if full then
      let live := (b.filter fun q => (currentPages A.blocks.flatten).contains q)
      let A := A.pages live
      ({ free := A.free + 1, blocks := A.blocks.drop 1 } : PartArea).page p
    else A.page p
  | [] => A.page p

/-- The pages that return data, in the order they were programmed (R51): `k` is the area's number in `PartReads.other`. -/
def PartArea.readable (A : PartArea) (k : Nat) (x : PartReads) : List PartPage :=
  (A.blocks.zipIdx.map fun (b, i) => (b.zipIdx.filterMap fun (p, n) =>
    if x.other.contains (k, i, n) then none else some p)).flatten

/-- Every page read returns its data. -/
def PartReads.none : PartReads := { fixed := 0, failed := 0, lost := [], other := [] }

/-- Commit markers are programmed, 64 to a page (R433). -/
def Partition.addMarkers (P : Partition) (l : List Marker) : Partition :=
  let rec go : Nat → List Marker → PartArea → PartArea
    | 0, _, A => A
    | _ + 1, [], A => A
    | n + 1, l, A => go n (l.drop 64) (A.program (.markers (l.take 64)))
  { P with commit := go l.length l P.commit }

/-- The markers that the commit and recovery area holds. -/
def Partition.markers (P : Partition) (x : PartReads) : List Marker :=
  ((P.commit.readable 0 x).map fun p => match p with | .markers l => l | _ => []).flatten

/-- A configuration record in the pages of a copy, 4,080 bytes to a page. -/
def configPages (epoch : Nat) (rec' : List Byte) : List PartPage :=
  let n := max 1 ((rec'.length + 4079) / 4080)
  (List.range n).map fun i => .config epoch i n ((rec'.drop (4080 * i)).take 4080)

/-- A copy's epoch and record, when every one of its pages returns data. -/
def configOf (l : List PartPage) : Option (Nat × List Byte) :=
  match l with
  | .config e _ n _ :: _ =>
    let part (i : Nat) : Option (List Byte) := l.findSome? fun p => match p with
      | .config e' i' _ b => if e' = e ∧ i' = i then some b else none
      | _ => none
    if (List.range n).all fun i => (part i).isSome then some (e, ((List.range n).map fun i => (part i).getD []).flatten) else none
  | _ => none

/-- The latest valid copy of the configuration (R381, R387): its epoch and record. -/
def Partition.config (P : Partition) (x : PartReads) : Option (Nat × List Byte) :=
  match configOf (P.cfgA.readable 1 x), configOf (P.cfgB.readable 2 x) with
  | some a, some b => if a.1 < b.1 then some b else some a
  | some a, none => some a
  | none, b => b

/-- A configuration record goes into the copy that is not the latest: its erase blocks are erased, then its pages are
programmed (R381). -/
def Partition.putConfig (P : Partition) (epoch : Nat) (rec' : List Byte) : Partition :=
  let fresh : PartArea := ({ free := 32, blocks := [] } : PartArea).pages (configPages epoch rec')
  let a := configOf (P.cfgA.readable 1 PartReads.none)
  let b := configOf (P.cfgB.readable 2 PartReads.none)
  let old : Option (Nat × List Byte) → Nat := fun o => match o with | some (e, _) => e + 1 | none => 0
  if old a ≤ old b then { P with cfgA := fresh } else { P with cfgB := fresh }

/-- The latest firmware's own values: FAB_ID and the local parameters (R351, R479). -/
def Partition.settings (P : Partition) (x : PartReads) : Nat × SMap Nat :=
  match ((P.firm.readable 4 x).filterMap fun p => match p with | .settings i l => some (i, l) | _ => none).getLast? with
  | some v => v
  | none => (0, [])

def Partition.putSettings (P : Partition) (fabId : Nat) (locals : SMap Nat) : Partition :=
  { P with firm := P.firm.program (.settings fabId locals) }

/-- The residency records of a group of 256 tiers in its latest page (R135, R140). -/
def Partition.group (P : Partition) (x : PartReads) (g : Nat) : List ResRec :=
  match ((P.resid.readable 3 x).filterMap fun p => match p with | .residency h l => if g = h then some l else none | _ => none).getLast? with
  | some l => l
  | none => []

/-- A tier's latest residency record: none when it names no tensor, or there is no valid one (R140). -/
def Partition.resRec (P : Partition) (x : PartReads) (u : Nat) : Option ResRec :=
  (P.group x (u / 256)).find? fun r => r.unit == u

/-- A tier's residency record is written (R135). -/
def Partition.putResRec (P : Partition) (u : Nat) (r : Option ResRec) : Partition :=
  let others := (P.group PartReads.none (u / 256)).filter fun y => y.unit != u
  { P with resid := P.resid.program (.residency (u / 256) (others ++ r.toList)) }

/-- Device states in the hello encoding (FH_STATE.STATE). -/
def DevState.code : DevState → Nat
  | .off => 0
  | .boot => 0
  | .selftest => 1
  | .glade => 2
  | .ready => 3
  | .running => 4
  | .draining => 5
  | .flagged => 6

/-- A STATE record (R403): old and new state, flag, drain cause. -/
def State.jState (s : State) (new : DevState) (flag cause : Nat) : State :=
  s.jWrite (s.jrec tyState 0 0 0 0 255 0 1 [s.dev.code, new.code, flag, cause])

/-- An ERASE record (R34, R403). -/
def State.jErase (s : State) (u count : Nat) (done : Bool) : State :=
  s.jWrite (s.jrec tyErase 0 0 1 u 255 0 1
    (((leBytes 4 u).map BitVec.toNat) ++ ((leBytes 2 count).map BitVec.toNat) ++ [b2n done]))

end Sys2Proof.Machine
end

