-- ==== Sys2Proof/Machine/Upkeep.lean ====
section
/-!
DEFINITION. Sys2Proof/Machine/Upkeep.lean: tier residency and array upkeep (spec/02, R34 to R41, R58, R600;
spec/04, R125 to R137): erases, moss sweeps, loads, adoptions and coppices, step by step.
-/
namespace Sys2Proof.Machine

/-! ### Tier states (R135) -/

def stFree : Nat := 0
def stLoading : Nat := 1
def stResident : Nat := 2
def stRenewing : Nat := 3
def stDormant : Nat := 4
def stRetired : Nat := 5

def State.setTierState (s : State) (u v : Nat) : State := s.setRf (tierReg u) 18 16 v
def State.setHold (s : State) (u : Nat) (on : Bool) : State := s.setRf (tierReg u) 19 19 (b2n on)
def State.setTierReadEn (s : State) (u : Nat) (on : Bool) : State := s.setReadEn (u / 8) (u % 8) on

/-- The residency record of a tier is written: what it holds now (R135). -/
def State.writeResidency (s : State) (u : Nat) : State :=
  let I := s.tier u
  { s with part := s.part.putResRec u (I.tensor.map fun n =>
      { unit := u, tensor := n, piece := I.piece, dslice := I.dslice, sigma := I.sigma }) }

/-- The sweep interval in seconds: parameter SWEEP_INT in hours, 6 by default (R130, R479). -/
def State.sweepInterval (s : State) : Nat := SMap.get (fun _ => 6) s.fw.locals 1 * 3600

/-- The tier becomes RESIDENT, or RETIRED holding its piece when its 10,000th erase has been spent (R40,
R134, R135): residency record, layout bit, READ_EN, headroom, sweep interval. -/
def State.makeResident (s : State) (u headroom : Nat) : State :=
  let I := s.tier u
  let s := s.setTierState u (if 10000 ≤ I.erases then stRetired else stResident)
  let s := s.setTier u { I with sweepS := s.sweepInterval }
  let s := s.writeResidency u
  let s := s.setRf (tileReg (u / 8) 0xC) (8 + u % 8) (8 + u % 8) (b2n I.dslice)
  let s := s.setTierReadEn u true
  s.setHeadroom u headroom

/-- The tier is left with no tensor: FREE, or RETIRED when its erases are spent (R39, R59, R135). -/
def State.makeFree (s : State) (u : Nat) : State :=
  let I := s.tier u
  let s := s.setTierReadEn u false
  let s := s.setRf (tileReg (u / 8) 0xC) (8 + u % 8) (8 + u % 8) 0
  let s := s.setRn (tierReg u) ((if 10000 ≤ I.erases then stRetired else stFree) * 65536)
  let s := s.setTier u { I with tensor := none, piece := 0, dslice := false, rows := 0, cols := 0, sigma := 0,
                                shadow := 0, fold := 0 }
  s.writeResidency u

/-! ### Procedures of a tile -/

def newProc (k : ProcKind) (tier : Nat) (st : ProcStage) : TierProc :=
  { kind := k, tier := tier, stage := st, row := 0, exc := 0, low := 0, pulses := 0, extra := 0, verify := false,
    skip := false, rows := [] }

def State.setProcs (s : State) (t : Nat) (l : List TierProc) : State :=
  let T := s.tile t
  s.setTile t { T with procs := l }

def State.modHead (s : State) (t : Nat) (f : TierProc → TierProc) : State :=
  match (s.tile t).procs with
  | p :: r => s.setProcs t (f p :: r)
  | [] => s

def State.dropHead (s : State) (t : Nat) : State := s.setProcs t ((s.tile t).procs.drop 1)

/-! ### Erase (R34 to R39) -/

/-- R34, R38: the erase count rises, and its ERASE record is committed before any sub-pulse. -/
def State.commitErase (s : State) (u : Nat) : State :=
  let I := s.tier u
  let s := s.setTier u { I with erases := I.erases + 1, eraseOpen := true, lastErase := true }
  let s := s.jErase u (I.erases + 1) false
  if I.erases + 1 = 9000 ∧ ¬ s.jrn.warned.contains u then
    (s.setJrn { s.jrn with warned := s.jrn.warned ++ [u] }).raise 0x0120 1 u
  else s

/-- The tier that a procedure erases and writes. -/
def TierProc.eraseUnit (t : Nat) (p : TierProc) : Nat := t * 8 + p.target

/-- The tile tier is taken by a procedure: no load, coppice or discard may take it beside that one. -/
def State.underway (s : State) (u : Nat) : Bool :=
  (s.tile (u / 8)).procs.any fun p => p.target == u % 8 || p.tier == u % 8

/-- The fresh write of a load or of a coppice into a free tier begins: its tier is LOADING from here on, after any
erase (R134). -/
def State.showLoading (s : State) (t : Nat) (p : TierProc) : State :=
  match p.kind with
  | .coppiceInPlace => s
  | _ => s.setTierState (p.eraseUnit t) stLoading

/-- A tile tier is still to be written in full by a load or a coppice. -/
def Tile.writes (T : Tile) (k : Nat) : Bool :=
  T.procs.any fun p => p.target == k && p.stage != .finished && p.stage != .swapping &&
    (match p.kind with | .sweep => false | .adopt => false | _ => true)

/-- A procedure goes on to write its tier: at once when the tier's last operation was an erase, else after
an erase (R134). A tier whose erases are spent is never erased (R39). -/
def State.beginWrite (s : State) (t : Nat) (p : TierProc) : TierProc × State :=
  let u := p.eraseUnit t
  let I := s.tier u
  let inPlace := match p.kind with | .coppiceInPlace => true | _ => false
  if (I.lastErase && !I.eraseOpen && !inPlace) || 10000 ≤ I.erases then
    ({ p with stage := .writing, row := 0 }, s.showLoading t p)
  else ({ p with stage := .erasing, row := 0, pulses := 0, extra := 0, verify := false }, s.commitErase u)

/-- The level of a cell after one more erase sub-pulse (R600). -/
def erasedTo (key d level : Nat) : Nat :=
  let top := 30700 + Config.erasedLevel key % 601
  if top ≤ level then level else min top (level + Config.eraseRaise d)

/-- One sub-pulse on every cell of the tier. -/
def State.eraseCells (s : State) (u : Nat) : State :=
  let s' := s.each (fun st i =>
    let k := u * 2162688 + i
    st.setCell k (erasedTo k (s.draws + i) (s.cell k))) (List.range 2162688)
  { s' with draws := s.draws + 2162688 }

/-- ERASE_SUB_PULSE: an upkeep grant applies one sub-pulse to the tier that the head procedure erases (R35,
R42, R600). -/
def execEraseSubPulse (t : TileId) (s : State) : Out :=
  let t := t.val
  match (s.tile t).procs with
  | p :: _ =>
    whenever (p.stage == .erasing && !p.verify && s.otherGrant t && !(s.tile t).tempHold) s
      (let u := p.eraseUnit t
       let s := (s.upkSpend t (u % 8) (s.upkFree t)).eraseCells u
       s.modHead t fun p =>
         let ex := if 8 ≤ p.pulses then p.extra + 1 else p.extra
         { p with pulses := p.pulses + 1, verify := decide (8 ≤ p.pulses + 1), extra := ex })
  | [] => .next s

/-- Every cell of the tier reads at level 30.5 or above (R600). -/
def State.eraseOk (s : State) (u : Nat) : Bool :=
  (List.range 2162688).all fun i => decide (30500 ≤ s.cell (u * 2162688 + i))

/-- ERASE_VERIFY: the tier passes, receives a further sub-pulse, or fails after four of them (R35, R36, R39). After a
failure the procedure ends and the tier keeps the state it has: a tier of a coppice in place stays RENEWING with HOLD
set and READ_EN clear, the target of a load or of a coppice into a free tier stays FREE (DESIGN CHOICE, assumption 137). -/
def execEraseVerify (t : TileId) (s : State) : Out :=
  let t := t.val
  match (s.tile t).procs with
  | p :: _ =>
    whenever (p.stage == .erasing && p.verify && (s.tile t).read.isNone) s
      (let u := p.eraseUnit t
       if s.eraseOk u then
         let I := s.tier u
         let s := s.setTier u { I with eraseOpen := false }
         let s := s.jErase u I.erases true
         let s := if I.erases = 10000 then s.raise 0x0121 1 u else s
         if p.kind == .load && p.skip then (s.dropHead t).makeFree u
         else (s.showLoading t p).modHead t fun p => { p with stage := .writing, row := 0, verify := false }
       else if p.extra < 4 then s.modHead t fun p => { p with verify := false }
       else (s.raise 0x0123 1 u).dropHead t)
  | [] => .next s

/-! ### Coppice (R125 to R127, R41) -/

/-- A tier of the tile that a coppice may use: FREE and not reserved, not one that its erase for the coppice would retire
(R40 lets only a load do that), and (for a double-slice piece) so in both tiles of the pair. -/
def State.freeTier (s : State) (t : Nat) (ds : Bool) : Option Nat :=
  let ok : Nat → Bool := fun u =>
    let I := s.tier u
    s.tierState u == stFree && I.tensor.isNone && !s.underway u &&
      decide (I.erases + b2n (!(I.lastErase && !I.eraseOpen)) < 10000)
  (List.range 8).find? fun k => ok (t * 8 + k) && (!ds || ok (twinUnit (t * 8 + k)))

/-- One tile's part of a coppice, put ahead of every other procedure (R125). -/
def State.pushCoppice (s : State) (u : Nat) (free : Option Nat) (skip : Bool) : State :=
  let t := u / 8
  let T := s.tile t
  let st : ProcStage := if skip then .writing else .sweeping
  match free with
  | some k =>
    let p : TierProc := { newProc (.coppiceFree k) (u % 8) st with skip := skip }
    if skip then
      let (p, s) := s.beginWrite t p
      s.setProcs t (p :: T.procs)
    else s.setProcs t (p :: T.procs)
  | none =>
    let p : TierProc := { newProc .coppiceInPlace (u % 8) st with skip := skip }
    let s := (s.setHold u true).setTierState u stRenewing
    let s := s.writeResidency u
    if skip then
      let (p, s) := (s.setTierReadEn u false).beginWrite t p
      s.setProcs t (p :: T.procs)
    else s.setProcs t (p :: T.procs)

/-- A coppice of the tier (both tiers of a double-slice piece) begins: into a free tier when one exists
(R126), else in place (R127); a retired tier with no free tier raises 0x0122 (R41). `inPlace`: the tier's
own erase is due (R58, R136). -/
def State.startCoppice (s : State) (u : Nat) (skip inPlace : Bool) : State :=
  let I := s.tier u
  let e := evenUnit I.dslice u
  let busy := (s.tile (u / 8)).procs.any fun p => p.tier == u % 8 &&
    (match p.kind with | .coppiceFree _ => true | .coppiceInPlace => true | _ => false)
  if busy then s
  else
    let free := if inPlace then none else s.freeTier (e / 8) I.dslice
    if free.isNone && (decide (10000 ≤ I.erases) || (I.dslice && decide (10000 ≤ (s.tier (twinUnit u)).erases))) then
      s.raise 0x0122 1 u
    else
      let s := s.pushCoppice e free skip
      if I.dslice then s.pushCoppice (e + 8) free skip else s

/-- A tile's in-place coppice of tier k, if all its rows are written, ends: headroom, READ_EN, HOLD, residency record
(R127, R134). -/
def State.endInPlace (s : State) (t k : Nat) : State :=
  match pickFirst (fun p => p.inPlaceOf k && p.stage == .finished) (s.tile t).procs with
  | none => s
  | some (_, rest) =>
    let u := t * 8 + k
    ((s.setProcs t rest).makeResident u (s.rf (blockReg (tileBlock t) 0x2004) 15 0)).setHold u false

/-- An in-place coppice ends once every row is written and folded: those of a double-slice piece in both of its tiles. -/
def State.finishInPlace (s : State) (t : Nat) : State :=
  match (s.tile t).procs with
  | p :: _ =>
    let v := twinUnit (t * 8) / 8
    let ds := (s.tier (t * 8 + p.tier)).dslice
    if !p.inPlaceOf p.tier || p.stage != .finished || (ds && (s.tile v).writes p.tier) || s.foldDue (t * 8 + p.tier) then s
    else
      let s := s.endInPlace t p.tier
      if ds then s.endInPlace v p.tier else s
  | [] => s

/-- Moves the queued carries of a tier to another tier of the tile (R126). -/
def Tile.readdress (T : Tile) (old new : Nat) : Tile :=
  { T with carries := T.carries.map fun c => if c.tier = old then { c with tier := new } else c }

/-- The tensor's piece is now in another tile tier. -/
def movePiece (x : Option Tensor) (old new : Nat) : Option Tensor :=
  x.map fun x => { x with pieces := x.pieces.map fun (i, q) => if q.1 = old then (i, (new, q.2)) else (i, q) }

/-- One tile's swap (R126, steps 4 to 6); a sweep still queued for the old tier goes with its contents. -/
def State.swapTier (s : State) (t old new : Nat) : State :=
  let uo := t * 8 + old
  let un := t * 8 + new
  let I := s.tier uo
  let N := s.tier un
  let s := s.setTile t ((s.tile t).readdress old new)
  let s := s.setTier un
    { N with
      tensor := I.tensor, piece := I.piece, dslice := I.dslice, rows := I.rows,
      cols := I.cols, sigma := I.sigma, shadow := I.shadow, fold := I.fold, lastErase := false }
  let s := match I.tensor with
    | some n => s.setTensor n (movePiece (s.tensor n) uo un)
    | none => s
  let s := s.makeResident un (s.rf (blockReg (tileBlock t) 0x2004) 15 0)
  let s := (s.makeFree uo).dropHead t
  s.setProcs t ((s.tile t).procs.filter fun p => !(p.kind == .sweep && p.tier == old))

/-- COPPICE_SWAP: at a request boundary the new and the old tier swap (R126); both tiles of a double-slice
piece swap together. -/
def execCoppiceSwap (t : TileId) (s : State) : Out :=
  let t := t.val
  match (s.tile t).procs with
  | p :: _ =>
    (match p.kind with
     | .coppiceFree new =>
       let ds := (s.tier (t * 8 + p.tier)).dslice
       let v := twinUnit (t * 8) / 8
       let idle : Nat → Bool := fun x => (s.tile x).read.isNone && (s.tile x).row.isNone &&
         (match (s.tile x).procs with | q :: _ => q.stage == .swapping && q.tier == p.tier | [] => false)
       whenever (idle t && (!ds || idle v) && !s.foldDue (t * 8 + p.tier)) s
         (let s := s.swapTier t p.tier new
          if ds then s.swapTier v p.tier new else s)
     | _ => .next s)
  | [] => .next s

/-! ### Loads (R134) -/

/-- A load of one tier begins: an erase unless the last operation was one, then LOADING. -/
def State.startLoad (s : State) (u : Nat) : State :=
  let t := u / 8
  let (p, s) := s.beginWrite t (newProc .load (u % 8) .writing)
  s.setProcs t ((s.tile t).procs ++ [p])

/-- TIER_LOAD_DONE: every row of the loading tier has been written and folded (R40, R134, R135); a row of a double-slice
piece folds when both of its tiles have written it. -/
def execTierLoadDone (u : TileTierId) (s : State) : Out :=
  let u := u.val
  let t := u / 8
  match pickFirst (fun p => p.kind == .load && p.tier == u % 8 && p.stage == .finished) (s.tile t).procs with
  | none => .next s
  | some (_, rest) =>
    let I := s.tier u
    whenever (!(I.dslice && (s.tile (twinUnit u / 8)).writes (u % 8)) && !s.foldDue u) s
      (let s := s.setTier u { I with lastErase := false }
       let s := s.setProcs t rest
       s.makeResident u (s.rf (blockReg (tileBlock t) 0x2004) 15 0))

/-! ### Sweeps (R130 to R133) and adoption (R136) -/

/-- The row that the head procedure sweeps next: rows with queued or running carries of the tier are skipped
(R132). -/
def State.sweepRow (s : State) (t : Nat) (p : TierProc) : Option Nat :=
  let u := t * 8 + p.tier
  let ds := (s.tier u).dslice
  let busy : Nat → Nat → Bool := fun x r =>
    ((s.tile x).carries.any fun c => c.tier == p.tier && c.row == r) ||
    (match (s.tile x).row with | some q => q.carry.tier == p.tier && q.carry.row == r | none => false)
  (List.range 1024).find? fun r => decide (p.row ≤ r) && !busy t r && (!ds || !busy (twinUnit u / 8) r)

/-- The pairs of a swept row that are exceptions (R131): data pairs beyond FOLD_LIM, check pairs that break
R79. -/
def State.exceptions (s : State) (u row lim : Nat) (vals : List (Nat × Int × Nat)) : List Nat :=
  let I := s.tier u
  let e := evenUnit I.dslice u
  vals.filterMap fun (p, v, _) =>
    let code := s.rowTarget u row p
    if p < 1024 then
      if (s.recBad I e row p).isSome then none
      else
        let phi := if I.dslice || !I.holds row p then 0 else s.rdFold I e row p
        if decide (lim < (v - (64 * code + phi)).natAbs) then some p else none
    else if nearAway v 64 = code then none else some p

/-- The tag of a repair carry (R115): the writing job's epoch plus one, or none. -/
def State.repairTag (s : State) (u : Nat) : Option Nat × Option Nat :=
  match (s.tier u).tensor with
  | none => (none, none)
  | some n =>
    match s.writerOf n with
    | some j => (some ((s.slot j).epoch + 1), some j)
    | none => (none, none)

/-- A repair carry of a row is queued, in both tiles of a double-slice piece. -/
def State.queueRepair (s : State) (u row : Nat) : State :=
  let (tag, job) := s.repairTag u
  let s := if (s.tier u).dslice then s.dropSweepHalf (evenUnit true u) row else s
  let s := s.queueChange u row tag job 0 0
  if (s.tier u).dslice then s.queueChange (twinUnit u) row tag job 0 0 else s

/-- The tier is swept: RESIDENT, or RETIRED and readable. A RETIRED tier that only a residency record names (R56, R140)
holds no tensor. -/
def State.sweepable (s : State) (u : Nat) : Bool :=
  s.tierState u == stResident || (s.tierState u == stRetired && s.readEn (u / 8) (u % 8))

/-- The sweep of a tier ends: R133, SWEEP_DUE, the interval; an adoption waits for ADOPTION_SWEEP_DONE; a
coppice goes on to write (R126, R127). -/
def State.endSweep (s : State) (t : Nat) (p : TierProc) : State :=
  let u := t * 8 + p.tier
  match p.kind with
  | .sweep =>
    let s := if s.sweepable u && decide (s.rf (blockReg (tileBlock t) 0x2004) 31 16 < p.exc) then s.raise 0x0133 1 u else s
    let I := s.tier u
    let s := (s.setTier u { I with sweepS := s.sweepInterval }).setRf (tierReg u) 20 20 0
    s.dropHead t
  | .coppiceInPlace =>
    let (q, s) := (s.setTierReadEn u false).beginWrite t p
    s.modHead t fun _ => q
  | .coppiceFree _ =>
    let (q, s) := s.beginWrite t p
    s.modHead t fun _ => q
  | _ => s.modHead t fun p => { p with stage := .finished }

/-- SWEEP_READ: an upkeep grant verify-reads the next row of the head procedure's sweep, then the carry
engine folds it or queues repairs (R131 to R133). -/
def execSweepRead (x : At TileId) (s : State) : Out :=
  let t := x.what.val
  match (s.tile t).procs with
  | p :: _ =>
    whenever (p.stage == .sweeping && s.otherGrant t) s
      (match s.sweepRow t p with
       | none => s.endSweep t p
       | some row =>
         let u := t * 8 + p.tier
         let b := tileBlock t
         if s.rowFolds u row then s else
         let s := (s.memErrs x.errs).upkSpend t p.tier (s.upkFree t)
         let (vals, s) := s.verifyRow u row
         let exc := s.exceptions u row (s.rf (blockReg b 0x2000) 21 16) vals
         let low := vals.any fun (_, _, l) => decide (l ≤ s.rf (blockReg b 0x2000) 24 22)
         let s := s.reportRow u row true (s.deviations u row vals) [] (exc.filter fun q => decide (q < 1024))
         let s := match p.kind with
           | .sweep => if exc.isEmpty then s else s.queueRepair u row
           | _ => s
         let rows := if exc.isEmpty then p.rows else p.rows ++ [row]
         let q : TierProc := { p with row := row + 1, exc := p.exc + exc.length, low := p.low + b2n low, rows := rows }
         let s := s.modHead t fun _ => q
         if (s.sweepRow t q).isNone then s.endSweep t q else s)
  | [] => .next s

/-- SWEEP_DUE: a tier's own interval has run; SWEEP_DUE is set and its sweep is queued (R130). -/
def execSweepDue (u : TileTierId) (s : State) : Out :=
  let u := u.val
  whenever (s.sweepable u && (s.tier u).sweepS == 0 && !s.rbit (tierReg u) 20) s
    ((s.setRf (tierReg u) 20 20 1).setProcs (u / 8) ((s.tile (u / 8)).procs ++ [newProc .sweep (u % 8) .sweeping]))

/-- An adoption of one tier begins (R136): its sweep, or at once a coppice when the journal holds an erase
start without its completion (R58), for its own tier or its pair's. -/
def State.startAdopt (s : State) (u : Nat) : State :=
  let t := u / 8
  let I := s.tier u
  if I.eraseOpen || (I.dslice && (s.tier (twinUnit u)).eraseOpen) then s.startCoppice u true true
  else s.setProcs t ((s.tile t).procs ++ [newProc .adopt (u % 8) .sweeping])

/-- One tier of a double-slice piece is DORMANT and the other is to be loaded: with one slice lost no sweep can judge the
piece, so the DORMANT tier is coppiced in place at once, as R136 has it for an open erase, while the other is loaded
(DESIGN CHOICE, assumption 142). -/
def State.adoptAlone (s : State) (u : Nat) : State := s.pushCoppice u none true

/-- ADOPTION_SWEEP_DONE: the adoption sweep of a DORMANT tier (of both tiers of a double-slice piece) has
ended; the piece becomes RESIDENT with its exceptions queued for repair, or is coppiced (R136). A retired
tier's contents move to a free tier (R41, R140). -/
def execAdoptionSweepDone (u : TileTierId) (s : State) : Out :=
  let I := s.tier u.val
  let e := evenUnit I.dslice u.val
  let done : Nat → Option (TierProc × List TierProc) := fun v =>
    pickFirst (fun p => p.kind == .adopt && p.tier == v % 8 && p.stage == .finished) (s.tile (v / 8)).procs
  let units := if I.dslice then [e, e + 8] else [e]
  whenever (units.all fun v => (done v).isSome) s
    (let max := s.rf (blockReg (e / 512) 0x2008) 31 16
     let bad := units.filter fun v => match done v with | some (p, _) => decide (max < p.exc) | none => false
     let procs := units.map fun v => (v, done v)
     let s := s.each (fun s (v, d) => match d with
       | some (_, rest) => s.setProcs (v / 8) rest
       | none => s) procs
     if bad.isEmpty then
       let s := s.each (fun s (v, d) => match d with
         | some (p, _) =>
           let s := s.makeResident v (s.rf (blockReg (v / 512) 0x2004) 15 0)
           let hr := s.rf (blockReg (v / 512) 0x2004) 15 0 - p.low
           let s := s.setHeadroom v hr
           s.each (fun s r => s.queueRepair v r) p.rows
         | none => s) procs
       if 10000 ≤ (s.tier e).erases then s.startCoppice e true false else s
     else
       let s := s.each (fun s v => s.raise 0x0134 1 v) bad
       s.startCoppice e true false)

/-- VERIFY_READ: the verify of Carry.lean, and the end of an in-place coppice whose last row it was (R119,
R127). -/
def execVerify (x : At TileId) (s : State) : Out :=
  match execVerifyRead x s with
  | .next s' => .next (s'.finishInPlace x.what.val)
  | o => o

end Sys2Proof.Machine
end

