-- ==== Sys2Proof/Machine/VecOps.lean ====
section
/-!
DEFINITION. Sys2Proof/Machine/VecOps.lean: what each instruction of the vector engine does (spec/06, "Opcodes
and timing" and the rules that each cites), and the illegal instruction of R175.
-/
namespace Sys2Proof.Machine

def noFault : VeFault := { res := 0, ecc := 0, lane := 0 }

/-! ### Control, memory and scalar instructions -/

/-- NOP. -/
def execVeNop (b : BlockId) (s : State) : Out := s.veExec b.val 0x00 noFault fun s R _ => s.veAdvance b.val R

/-- LD (R177 to R179). -/
def execVeLd (b : BlockId) (errs : List MemErr) (s : State) : Out :=
  s.veExec b.val 0x01 noFault fun s R w => s.veLoad b.val errs R w

/-- ST (R177 to R179). -/
def execVeSt (b : BlockId) (errs : List MemErr) (f : VeFault) (s : State) : Out :=
  s.veExec b.val 0x02 f fun s R w => s.veStore b.val errs R w

/-- LDS: a word of a line into a scalar register. -/
def execVeLds (b : BlockId) (errs : List MemErr) (s : State) : Out :=
  s.veExec b.val 0x03 noFault fun s R w =>
    let b := b.val
    let a := s.veWordAddr b w
    if bsSize < a + 4 then s.veAddrFault b w 0 R
    else
      let s := s.memErrs errs
      let s := if s.poisoned (.bs b) a 4 then s.poisonTask b R.task.num else s
      (s.setVeS b (wVd w) (s.rdN (.bs b) a 4)).veAdvance b R

/-- STS: a scalar register into a word of a line. -/
def execVeSts (b : BlockId) (errs : List MemErr) (s : State) : Out :=
  s.veExec b.val 0x04 noFault fun s R w =>
    let b := b.val
    let a := s.veWordAddr b w
    if bsSize < a + 4 then s.veAddrFault b w 0 R
    else
      let s := s.memErrs errs
      (if R.kernel then s else s.vePoke b a R (leBytes 4 (s.veS b (wVa w)))).veAdvance b R

/-- SETA. -/
def execVeSeta (b : BlockId) (s : State) : Out :=
  s.veExec b.val 0x08 noFault fun s R w => (s.setVeA b.val (wVd w) (wImm w % 2 ^ 17)).veAdvance b.val R

/-- ADDA: modulo 2^17 (R179). -/
def execVeAdda (b : BlockId) (s : State) : Out :=
  s.veExec b.val 0x09 noFault fun s R w =>
    let v : Int := (s.veA b.val (wVd w) : Int) + sext 24 (wImm w)
    (s.setVeA b.val (wVd w) (enc2c 17 v)).veAdvance b.val R

/-- SETS. -/
def execVeSets (b : BlockId) (s : State) : Out :=
  s.veExec b.val 0x0A noFault fun s R w => (s.setVeS b.val (wVd w) (wImm w * 256)).veAdvance b.val R

/-- SETSL. -/
def execVeSetsl (b : BlockId) (s : State) : Out :=
  s.veExec b.val 0x0B noFault fun s R w =>
    (s.setVeS b.val (wVd w) (s.veS b.val (wVd w) / 256 * 256 + wImm w % 256)).veAdvance b.val R

/-! ### Floating point (R180 to R182) -/

/-- A two-operand FP32 instruction. -/
def veFp2 (b op : Nat) (f : VeFault) (h : RM → Bool → Nat → Nat → Nat → LaneRes) (s : State) : Out :=
  s.veExec b op f fun s R w =>
    s.veLanes b w R fun l g => h (wMode w) R.denorm g (s.veSrc b R (wVa w) (wBa w) l) (s.veSnd b R w l)

/-- A one-operand instruction on FP32 lanes, with the word at hand. -/
def veFp1 (b op : Nat) (f : VeFault) (h : Nat → RM → Bool → Nat → Nat → LaneRes) (s : State) : Out :=
  s.veExec b op f fun s R w =>
    s.veLanes b w R fun l g => h w (wMode w) R.denorm g (s.veSrc b R (wVa w) (wBa w) l)

/-- FADD. -/
def execVeFadd (b : BlockId) (f : VeFault) (s : State) : Out := veFp2 b.val 0x10 f addL s

/-- FSUB. -/
def execVeFsub (b : BlockId) (f : VeFault) (s : State) : Out :=
  veFp2 b.val 0x11 f (fun rm => fp2 (fun x y => FpNum.add rm x y.neg) rm) s

/-- FMUL. -/
def execVeFmul (b : BlockId) (f : VeFault) (s : State) : Out := veFp2 b.val 0x12 f (fp2 FpNum.mul) s

/-- FMA. -/
def execVeFma (b : BlockId) (f : VeFault) (s : State) : Out :=
  s.veExec b.val 0x13 f fun s R w =>
    s.veLanes b.val w R fun l g =>
      fmaL (wMode w) R.denorm g (s.veSrc b.val R (wVa w) (wBa w) l) (s.veSnd b.val R w l)
        (s.veSrc b.val R (wVc w) (wBc w) l)

/-- FMAX. -/
def execVeFmax (b : BlockId) (f : VeFault) (s : State) : Out :=
  veFp2 b.val 0x14 f (fun _ dn g x y => fp2 numMax .nearest dn g x y) s

/-- FMIN. -/
def execVeFmin (b : BlockId) (f : VeFault) (s : State) : Out :=
  veFp2 b.val 0x15 f (fun _ dn g x y => fp2 numMin' .nearest dn g x y) s

/-- FABS: sign cleared; a NaN becomes the positive one (R208). -/
def execVeFabs (b : BlockId) (f : VeFault) (s : State) : Out :=
  veFp1 b.val 0x16 f (fun _ _ dn _ a =>
    let (x, fl) := inF dn a
    { code := (fp32.round .nearest true 0 x.abs).code, nan := x.isNaN, flushed := fl }) s

/-- FNEG: sign inverted; a NaN becomes the positive one (R208). -/
def execVeFneg (b : BlockId) (f : VeFault) (s : State) : Out :=
  veFp1 b.val 0x17 f (fun _ _ dn _ a =>
    let (x, fl) := inF dn a
    { code := (fp32.round .nearest true 0 (positiveNaN x.neg)).code, nan := x.isNaN, flushed := fl }) s

/-- FSCALE: VA × 2^IMM[7:0]. -/
def execVeFscale (b : BlockId) (f : VeFault) (s : State) : Out :=
  veFp1 b.val 0x18 f (fun w rm dn g a =>
    let (x, fl) := inF dn a
    let y : FpNum := if x.isNaN then .nan false else x.scale (sext 8 (wImm w))
    outF rm dn g fl x.isNaN y) s

/-- FRCP. -/
def execVeFrcp (b : BlockId) (f : VeFault) (s : State) : Out := veFp1 b.val 0x1A f (fun _ _ dn _ a => transL 0x1A dn a) s
/-- FRSQ. -/
def execVeFrsq (b : BlockId) (f : VeFault) (s : State) : Out := veFp1 b.val 0x1B f (fun _ _ dn _ a => transL 0x1B dn a) s
/-- FEXP2. -/
def execVeFexp2 (b : BlockId) (f : VeFault) (s : State) : Out := veFp1 b.val 0x1C f (fun _ _ dn _ a => transL 0x1C dn a) s
/-- FLOG2. -/
def execVeFlog2 (b : BlockId) (f : VeFault) (s : State) : Out := veFp1 b.val 0x1D f (fun _ _ dn _ a => transL 0x1D dn a) s
/-- FTANH. -/
def execVeFtanh (b : BlockId) (f : VeFault) (s : State) : Out := veFp1 b.val 0x1E f (fun _ _ dn _ a => transL 0x1E dn a) s
/-- FSIGM. -/
def execVeFsigm (b : BlockId) (f : VeFault) (s : State) : Out := veFp1 b.val 0x1F f (fun _ _ dn _ a => transL 0x1F dn a) s

/-- FCMPLT (R182). -/
def execVeFcmplt (b : BlockId) (f : VeFault) (s : State) : Out :=
  veFp2 b.val 0x20 f (fun _ dn _ x y => cmpL (fun c => decide (c < 0)) dn x y) s
/-- FCMPLE. -/
def execVeFcmple (b : BlockId) (f : VeFault) (s : State) : Out :=
  veFp2 b.val 0x21 f (fun _ dn _ x y => cmpL (fun c => decide (c ≤ 0)) dn x y) s
/-- FCMPEQ. -/
def execVeFcmpeq (b : BlockId) (f : VeFault) (s : State) : Out :=
  veFp2 b.val 0x22 f (fun _ dn _ x y => cmpL (fun c => decide (c = 0)) dn x y) s

/-- SEL: VA where VC is not 0, else VB. -/
def execVeSel (b : BlockId) (f : VeFault) (s : State) : Out :=
  s.veExec b.val 0x23 f fun s R w =>
    s.veLanes b.val w R fun l _ =>
      let c := s.veSrc b.val R (wVc w) (wBc w) l
      { code := if c ≠ 0 then s.veSrc b.val R (wVa w) (wBa w) l else s.veSnd b.val R w l }

/-! ### Integers -/

/-- A two-operand integer instruction. -/
def veInt (b op : Nat) (f : VeFault) (s : State) : Out :=
  s.veExec b op f fun s R w =>
    s.veLanes b w R fun l _ => { code := intL op (s.veSrc b R (wVa w) (wBa w) l) (s.veSnd b R w l) }

/-- IADD. -/
def execVeIadd (b : BlockId) (f : VeFault) (s : State) : Out := veInt b.val 0x28 f s
/-- ISUB. -/
def execVeIsub (b : BlockId) (f : VeFault) (s : State) : Out := veInt b.val 0x29 f s
/-- IMUL. -/
def execVeImul (b : BlockId) (f : VeFault) (s : State) : Out := veInt b.val 0x2A f s
/-- IAND. -/
def execVeIand (b : BlockId) (f : VeFault) (s : State) : Out := veInt b.val 0x2B f s
/-- IOR. -/
def execVeIor (b : BlockId) (f : VeFault) (s : State) : Out := veInt b.val 0x2C f s
/-- IXOR. -/
def execVeIxor (b : BlockId) (f : VeFault) (s : State) : Out := veInt b.val 0x2D f s
/-- ISHL. -/
def execVeIshl (b : BlockId) (f : VeFault) (s : State) : Out := veInt b.val 0x2E f s
/-- ISHRA. -/
def execVeIshra (b : BlockId) (f : VeFault) (s : State) : Out := veInt b.val 0x2F f s
/-- ISHRL. -/
def execVeIshrl (b : BlockId) (f : VeFault) (s : State) : Out := veInt b.val 0x30 f s
/-- ICMPLTU. -/
def execVeIcmpltu (b : BlockId) (f : VeFault) (s : State) : Out := veInt b.val 0x31 f s

/-! ### Converts (R185 to R188) -/

/-- CVTW. -/
def execVeCvtw (b : BlockId) (f : VeFault) (s : State) : Out :=
  s.veExec b.val 0x38 f fun s R w =>
    let n := cBits (cFmt w)
    let row (r : Nat) : Nat := s.veRow b.val R (wVa w) (wBa w) r
    let sc (r : Nat) : Nat := s.veRow b.val R (wVb w) (wBb w) r
    s.veLanes b.val w R fun l _ =>
      let e := 16 * cPart w + l % 16
      let scale := if cMx w then some (bits (sc (l / 16)) (e / 32 * 8 + 7) (e / 32 * 8)) else none
      cvtwL R.denorm (cFmt w) (cXs w) scale (bits (row (l / 16)) (e * n + n - 1) (e * n))

/-- The lanes of a row from its 512-bit number. -/
def rowLanes (r row : Nat) : List (Nat × Nat) := (List.range 16).map fun c => (r * 16 + c, bits row (32 * c + 31) (32 * c))

/-- CVTN. -/
def execVeCvtn (b : BlockId) (f : VeFault) (s : State) : Out :=
  s.veExec b.val 0x39 f fun s R w =>
    let b := b.val
    let n := cBits (cFmt w)
    let old (reg r : Nat) : Nat := s.veRow b R reg 0 r
    let put (row k : Nat) (l : List LaneRes) : Nat :=
      (l.zipIdx.foldl (fun m (x, i) => putFld m ((k + i) * n + n - 1) ((k + i) * n) x.code) row)
    if cMx w then
      let (g, s') := s.veDraw b w 1024 R
      let rows := (List.range 32).map fun r =>
        let xs := (List.range 32).map fun i =>
          inF R.denorm (s.veSrc b R (wVa w + i / 16) (wBa w) (r * 16 + i % 16))
        let (sc, l) := mxGroup (cFormat (cFmt w)) (wMode w) R.denorm (fun i => g (r * 32 + i)) (xs.map fun x => x.1)
        (r, sc, l, xs.any fun x => x.2)
      let s1 := s'.veSet b (wVd w) ((rows.map fun (r, _, l, _) => rowLanes r (put (old (wVd w) r) (32 * cPart w) l)).flatten)
      let s2 := s1.veSet b (wVb w)
        ((rows.map fun (r, sc, _, _) =>
          rowLanes r (putFld (s1.veRow b R (wVb w) 0 r) (8 * cPart w + 7) (8 * cPart w) sc)).flatten)
      let fl := (rows.map fun (r, _, l, fi) => l.zipIdx.map fun (x, i) => (r * 16 + i % 16, { x with flushed := x.flushed || fi })).flatten
      (s2.veFlags b w R fl).veAdvance b R
    else
      let (g, s') := s.veDraw b w 512 R
      let rows := (List.range 32).map fun r =>
        (r, (List.range 16).map fun c =>
          cvtnL (wMode w) R.denorm (g (r * 16 + c)) (cFmt w) (cXs w) (s.veSrc b R (wVa w) (wBa w) (r * 16 + c)))
      let s1 := s'.veSet b (wVd w) ((rows.map fun (r, l) => rowLanes r (put (old (wVd w) r) (16 * cPart w) l)).flatten)
      (s1.veFlags b w R ((rows.map fun (r, l) => l.zipIdx.map fun (x, c) => (r * 16 + c, x)).flatten)).veAdvance b R

/-- CVTI. -/
def execVeCvti (b : BlockId) (f : VeFault) (s : State) : Out :=
  veFp1 b.val 0x3A f (fun w rm dn g a => cvtiL rm dn g (sext 8 (wImm w)) a) s

/-- CVTFI. -/
def execVeCvtfi (b : BlockId) (f : VeFault) (s : State) : Out :=
  veFp1 b.val 0x3B f (fun w rm dn g a => cvtfiL rm dn g (sext 8 (wImm w)) a) s

/-! ### Reductions (R183, R184) -/

/-- The row sums of VA, as (row, result). -/
def State.rowSums (s : State) (b w : Nat) (R : VeRun) (g : Nat → Nat) : List LaneRes :=
  (List.range 32).map fun r =>
    treeSum (wMode w) R.denorm (fun k => g (r * 16 + k)) 4 0
      ((List.range 16).map fun c => { code := s.veSrc b R (wVa w) (wBa w) (r * 16 + c) })

/-- A result per row into column 0, and 0 elsewhere. -/
def perRow (l : List LaneRes) : List (Nat × LaneRes) :=
  (l.zipIdx.map fun (x, r) => (r * 16, x) :: (List.range 15).map fun c => (r * 16 + c + 1, { code := 0 })).flatten

/-- A result per column into row 0, and 0 elsewhere. -/
def perCol (l : List LaneRes) : List (Nat × LaneRes) :=
  (l.zipIdx.map fun (x, c) => (c, x)) ++ (List.range 496).map fun i => (i + 16, { code := 0 })

/-- RSUMR. -/
def execVeRsumr (b : BlockId) (f : VeFault) (s : State) : Out :=
  s.veExec b.val 0x40 f fun s R w =>
    let (g, s') := s.veDraw b.val w 512 R
    s'.vePut b.val w R (perRow (s.rowSums b.val w R g))

/-- RSUMC. -/
def execVeRsumc (b : BlockId) (f : VeFault) (s : State) : Out :=
  s.veExec b.val 0x41 f fun s R w =>
    let (g, s') := s.veDraw b.val w 512 R
    s'.vePut b.val w R (perCol ((List.range 16).map fun c =>
      treeSum (wMode w) R.denorm (fun k => g (c * 32 + k)) 5 0
        ((List.range 32).map fun r => { code := s.veSrc b.val R (wVa w) (wBa w) (r * 16 + c) })))

/-- RSUMS: RSUMR, then RSUMC of column 0, into a scalar register. -/
def execVeRsums (b : BlockId) (f : VeFault) (s : State) : Out :=
  s.veExec b.val 0x46 f fun s R w =>
    let (g, s') := s.veDraw b.val w 544 R
    let t := treeSum (wMode w) R.denorm (fun k => g (512 + k)) 5 0 (s.rowSums b.val w R g)
    ((s'.setVeS b.val (wVd w) t.code).veFlags b.val w R [(0, t)]).veAdvance b.val R

/-- The maximum over the given lanes, without those that an element program ignores; a free value when none is
left (R184, R194). -/
def State.veMax (s : State) (b w : Nat) (R : VeRun) (mag : Bool) (free : Nat) (ls : List Nat) : LaneRes :=
  (maxList mag R.denorm ((ls.filter fun l => !R.skips l).map fun l => s.veSrc b R (wVa w) (wBa w) l)).getD
    { code := Config.undefValue free % 2 ^ 32 }

/-- RMAXR and RAMAXR. -/
def veMaxRows (b op : Nat) (mag : Bool) (f : VeFault) (s : State) : Out :=
  s.veExec b op f fun s R w =>
    State.vePut { s with draws := s.draws + 32 } b w R
      (perRow ((List.range 32).map fun r => s.veMax b w R mag (s.draws + r) ((List.range 16).map fun c => r * 16 + c)))

/-- RMAXC and RAMAXC. -/
def veMaxCols (b op : Nat) (mag : Bool) (f : VeFault) (s : State) : Out :=
  s.veExec b op f fun s R w =>
    State.vePut { s with draws := s.draws + 16 } b w R
      (perCol ((List.range 16).map fun c => s.veMax b w R mag (s.draws + c) ((List.range 32).map fun r => r * 16 + c)))

/-- RMAXR. -/
def execVeRmaxr (b : BlockId) (f : VeFault) (s : State) : Out := veMaxRows b.val 0x42 false f s
/-- RMAXC. -/
def execVeRmaxc (b : BlockId) (f : VeFault) (s : State) : Out := veMaxCols b.val 0x43 false f s
/-- RAMAXR. -/
def execVeRamaxr (b : BlockId) (f : VeFault) (s : State) : Out := veMaxRows b.val 0x44 true f s
/-- RAMAXC. -/
def execVeRamaxc (b : BlockId) (f : VeFault) (s : State) : Out := veMaxCols b.val 0x45 true f s

/-! ### Combine, accumulate, spore -/

/-- CMB (R189, R190). -/
def execVeCmb (b : BlockId) (f : VeFault) (s : State) : Out :=
  s.veExec b.val 0x48 f fun s R w =>
    let b := b.val
    let h := s.veS b (wVb w)
    let e : Int := i16 (h % 65536) + sext 8 (wImm w)
    let (g, s') := s.veDraw b w 1024 R
    let s' := if bit h 19 then (s'.setBit (blockReg b 0x5004) 9).poisonTask b R.task.num else s'
    s'.vePut b w R ((List.range 512).map fun l =>
      if bit h 16 then (l, { code := fp32.nanCode false, nan := true })
      else
        let p := cvtiL (wMode w) R.denorm (g l) e (s.veSrc b R (wVa w) (wBa w) l)
        let t := addL (wMode w) R.denorm (g (512 + l)) (s.veSrc b R (wVc w) (wBc w) l) p.code
        (l, { t with ovf := t.ovf || p.ovf, flushed := t.flushed || p.flushed }))

/-- The lanes that FACC and FMAXACC accumulate (R194, R196). -/
def veAcc (b op : Nat) (f : VeFault) (h : RM → Bool → Nat → Nat → Nat → LaneRes) (s : State) : Out :=
  s.veExec b op f fun s R w =>
    let (g, s') := s.veDraw b w 512 R
    s'.vePut b w R (((List.range 512).filter fun l => !R.skips l).map fun l =>
      (l, h (wMode w) R.denorm (g l) (s.veReg b R (wVd w) l) (s.veSrc b R (wVa w) (wBa w) l)))

/-- FACC. -/
def execVeFacc (b : BlockId) (f : VeFault) (s : State) : Out := veAcc b.val 0x4C f addL s
/-- FMAXACC. -/
def execVeFmaxacc (b : BlockId) (f : VeFault) (s : State) : Out :=
  veAcc b.val 0x4D f (fun _ dn g x y => fp2 numMax .nearest dn g x y) s

/-- SPR (R250 to R253). -/
def execVeSpr (b : BlockId) (s : State) : Out :=
  s.veExec b.val 0x50 noFault fun s R w =>
    let b := b.val
    let base := bits (wImm w) 3 0
    let sr (i : Nat) : Nat := s.veS b (base + i)
    let j := R.task.job
    let val (l : Nat) : Nat :=
      let off := if bits (wImm w) 6 6 = 1 then chunkM R.chunk l * sr 5 + chunkN R.chunk l else l
      sporeValue (s.rn (tsReg j 0)) (s.rn (tsReg j 4)) (sr 1) (sr 2) R.task.step ((sr 0 + off) % 2 ^ 32)
    s.vePut b w R ((List.range 512).map fun l =>
      let keep := decide (sr 3 % 65536 ≤ val l)
      (l, { code := if !keep then 0 else if bits (wImm w) 5 4 = 0 then 0xFFFFFFFF else sr 4 }))

/-! ### Loops and ends (R191, R192) -/

/-- LOOP. -/
def execVeLoop (b : BlockId) (s : State) : Out :=
  s.veExec b.val 0x60 noFault fun s R w =>
    let b := b.val
    let e := (s.block b).ve
    let len := bits (wImm w) 20 16
    let cnt := bits (wImm w) 15 0
    if cnt = 0 then (s.modVe b fun e => { e with pc := e.pc + len }).veAdvance b R
    else
      let d := e.loops.length
      s.modVe b fun e =>
        let c0 := if d = 0 then 0 else e.ctr0
        let c1 := if d = 0 then e.ctr1 else 0
        { e with pc := e.pc + 1, ctr0 := c0, ctr1 := c1,
                 loops := { start := e.pc + 1, len := len, total := cnt, done := 0 } :: e.loops }

/-- END: the task's program is complete; that of a kernel's part has left its results (R192, R244). -/
def execVeEnd (x : At BlockId) (s : State) : Out :=
  let b := x.what
  s.veExec b.val 0x61 noFault fun s R w =>
    ((if R.kernel then (s.memErrs x.errs).kernelEnd b.val w R else s).veIdle b.val).partDone b.val R.task.num

/-- SYNC: every earlier store is visible at once in the model. -/
def execVeSync (b : BlockId) (s : State) : Out := s.veExec b.val 0x62 noFault fun s R _ => s.veAdvance b.val R

/-- ILLEGAL_INSTRUCTION: the engine reaches an illegal word, or the end of the program store (R175, R192). -/
def execIllegalInstruction (b : BlockId) (s : State) : Out :=
  match (s.block b.val).ve.run with
  | none => .next s
  | some R => whenever (!s.veLegalHere b.val R) s (s.veIllegal b.val R)

end Sys2Proof.Machine
end

