-- ==== Sys2Proof/Machine/Sched.lean ====
section
/-!
DEFINITION. Sys2Proof/Machine/Sched.lean: region schedulers and block sequencers (spec/10, R310 to R330):
delivery, readiness, issue and completion of tasks, power tokens (R326 to R329) and the stop of a job (R322).
-/
namespace Sys2Proof.Machine

/-! ### Engines (R318) -/

/-- Numbers of a block's engines: tiles 0 to 63, then the matrix core, the vector engine, the movers, the carry
engine, the allocator port, the link port and the control unit. -/
def engMatrix : Nat := 64
def engVector : Nat := 65
def engMover : Nat := 66
def engCarry : Nat := 68
def engAlloc : Nat := 69
def engLink : Nat := 70
def engControl : Nat := 71

def trTile (r : Nat) : Nat := recF r 0x40 5 0
def trDs (r : Nat) : Bool := recF r 0x40 6 6 = 1
def trVecs (r : Nat) : Nat := recF r 0x40 18 8

/-- The engines that a task needs: two tiles for a DS task. EGRESS runs on mover 1, INGRESS on mover 0. -/
def taskEngines (r : Nat) : List Nat :=
  match recKind r with
  | 0 => [engControl]
  | 1 => if trDs r then [trTile r, trTile r + 1] else [trTile r]
  | 2 => [engMatrix]
  | 3 => [engVector]
  | 4 => [engMover + mvMover r]
  | 5 => [engAlloc]
  | 6 => [engCarry]
  | 7 => [engMover + 1]
  | 8 => [engMover]
  | _ => [engLink]

def engineOf (r : Nat) : Engine :=
  match recKind r with
  | 0 => .control
  | 1 => .tile (trTile r)
  | 2 => .matrix
  | 3 => .vector
  | 4 => if mvMover r = 0 then .mover0 else .mover1
  | 5 => .alloc
  | 6 => .carry
  | 7 => .mover1
  | 8 => .mover0
  | _ => .link

/-- Tasks that run on an engine of a block. -/
def Block.on (B : Block) (e : Nat) : List RTask := B.running.filter fun r => (taskEngines r.task.record).contains e

/-! ### Redundancy (R396) -/

/-- The block is the even block of a redundant pair. -/
def State.paired (s : State) (b : Nat) : Bool := b % 2 == 0 && s.rbit (blockReg b 0x800) 0
/-- Kinds that run in both blocks of a pair: reads, matrix and vector work, moves and updates. -/
def bothKinds (k : Nat) : Bool := [1, 2, 3, 4, 6].contains k

/-! ### Delivery (R310, R312, R316) -/

/-- The weight epoch that a micro-batch carries, once its admission or its first read has fixed it (R16, R323). -/
def Slot.mbEpoch (sl : Slot) (mb step : Nat) : Option Nat :=
  match sl.open_.find? fun o => o.mb = mb ∧ o.step = step with
  | some o => some o.epoch
  | none => (sl.mbEpochs.find? fun x => x.1 = mb ∧ x.2.1 = step).map fun x => x.2.2

/-- The weight epoch that a task carries: its micro-batch's, else the job's present one. -/
def Slot.epochOf (sl : Slot) (mb step : Nat) : Nat := (sl.mbEpoch mb step).getD sl.epoch

/-- An ADAPT_APPLY: it changes an adapter matrix, as an UPDATE changes a tier (R15, R263). -/
def Slot.adapts (sl : Slot) (g r : Nat) : Bool := recKind r == 3 && sl.isKernel 0x43 g (recId r)

def Slot.list (sl : Slot) (g : Nat) : DList := SMap.get (fun _ => DList.init) sl.lists g
def State.setList (s : State) (j g : Nat) (l : DList) : State :=
  let sl := s.slot j
  s.setSlot j { sl with lists := SMap.set (fun _ => DList.init) sl.lists g l }

/-- The list at the start of its next pass when its pass has been delivered whole (R310). -/
def DList.turn (l : DList) : DList :=
  if l.pos.isEmpty then { l with pos := List.range l.records.length, pass := l.pass + 1 } else l

/-- The record that slot j's list of region g delivers next: within 64 records of the first one left, the first
whose block has room and no earlier record left (R316). No record of step n + 2 before the verdict of step n
(R228). -/
def State.nextRecord (s : State) (g j : Nat) : Option (Nat × DList) :=
  let sl := s.slot j
  let l := (sl.list g).turn
  let first := l.pos.headD 0
  let near := l.pos.filter fun i => i < first + 64
  let blk (i : Nat) : Nat := recBlock (l.records.getD i 0)
  let pick := near.find? fun i => decide ((s.block (g * 16 + blk i)).queue.length < 512) &&
    (near.all fun k => !(decide (k < i) && blk k == blk i))
  let run := sl.state == .running || (sl.state == .trapStopped && decide (l.pass < sl.vstep))
  if run ∧ sl.graph ∧ l.pass < sl.vstep + 2 then pick.map fun i => (i, l) else none

/-- The first slot at or after a pointer that has a record to deliver. -/
def State.nextSlot (s : State) (g : Nat) : Nat → Nat → Option (Nat × Nat × DList)
  | 0, _ => none
  | n + 1, p =>
    match s.nextRecord g (p % 64) with
    | some (i, l) => some (p % 64, i, l)
    | none => s.nextSlot g n (p + 1)

/-- TASK_DELIVER: a region scheduler delivers one record to its block (R310, R312, R316, R317). -/
def execTaskDeliver (g : RegionId) (s : State) : Out :=
  let g := g.val
  match s.nextSlot g 64 (SMap.get (fun _ => 0) s.schedPtr g) with
  | none => .next s
  | some (j, i, l) =>
    let r := l.records.getD i 0
    let sl := s.slot j
    let q : QTask := { record := r, job := j, step := l.pass, epoch := sl.epochOf (recMb r) l.pass, stalled := false, waitMs := 0 }
    let b := g * 16 + recBlock r
    let B := s.block b
    let s := s.setBlock b { B with queue := B.queue ++ [q] }
    let s := s.setList j g { l with pos := l.pos.filter fun k => k != i }
    .next { s with schedPtr := SMap.set (fun _ => 0) s.schedPtr g ((j + 1) % 64) }

/-! ### Waits and signals (R317, R330) -/

def ccVal (b c : Nat) : Nat := blockReg b (0xC000 + 4 * c)
def ccCtl (b c : Nat) : Nat := blockReg b (0xC100 + 4 * c)

/-- The counter is assigned to the job. -/
def State.ccMine (s : State) (b c j : Nat) : Bool := s.rbit (ccCtl b c) 22 && s.rf (ccCtl b c) 28 23 == j

/-- The job that a counter is assigned to, or 255 (R330, R613). -/
def State.ccJob (s : State) (b c : Nat) : Nat := if s.rbit (ccCtl b c) 22 then s.rf (ccCtl b c) 28 23 else 255

/-- Enabled waits: counter and N. -/
def recWaits (r : Nat) : List (Nat × Nat) :=
  (List.range 2).filterMap fun i =>
    let w := recWait r i
    if bit w 6 then some (bits w 5 0, bits w 15 8) else none

/-- Enabled signals: block, counter, signed amount. -/
def recSigs (r : Nat) : List (Nat × Nat × Int) :=
  (List.range 2).filterMap fun i =>
    let w := recSig r i
    if bit w 6 then
      let a : Int := (bits w 15 8 : Nat)
      some (bits w 23 16, bits w 5 0, if bit w 7 then -a else a)
    else none

/-- R330: every counter the task names is assigned to its job. -/
def State.countersMine (s : State) (b : Nat) (q : QTask) : Bool :=
  ((recWaits q.record).all fun (c, _) => s.ccMine b c q.job) && (recSigs q.record).all fun (t, c, _) => s.ccMine t c q.job

/-- Each wait finds its counter at N or more; two waits on one counter need the sum (R317). -/
def State.waitsOk (s : State) (b : Nat) (q : QTask) : Bool :=
  let ws := recWaits q.record
  ws.all fun (c, _) => decide (((ws.filter fun w => w.1 == c).map fun w => w.2).sum ≤ s.rf (ccVal b c) 15 0)

/-- The waits' N are subtracted in the cycle of issue (R317). -/
def State.takeWaits (s : State) (b : Nat) (q : QTask) : State :=
  s.each (fun s (c, n) => s.setRf (ccVal b c) 15 0 (s.rf (ccVal b c) 15 0 - n)) (recWaits q.record)

/-! ### Handles and addresses (R291, R295, R298, R314, R315) -/

/-- R314: a handle with OWNER 31 names a handle register. -/
def State.subHandle (s : State) (b j h : Nat) : Nat :=
  if hOwner h = 31 then SMap.get (fun _ => 0) (s.slot j).hregs (b / 16 * 256 + bits h 7 0) else h

/-- The handles a task names, substituted, with their field numbers. -/
def State.taskHandles (s : State) (b : Nat) (q : QTask) : List (Nat × Nat) :=
  (List.range 4).filterMap fun i => if recHuse q.record i then some (i, s.subHandle b q.job (recHandle q.record i)) else none

/-- What the check of R295 says of one handle: 0 it passes, 1 its record is away (R270), 2 INUSE stands at
65,535, 3 it fails. -/
def State.handleCheck (s : State) (b j h : Nat) : Nat :=
  let e := s.hentry h
  if !s.hmatch h || e.job != j || e.fw then 3
  else if e.pool = 0 ∧ (hOwner h ≠ b / 16 ∨ e.block ≠ b % 16) then 3
  else
    match e.state with
    | .live => if e.inuse = 65535 then 2 else 0
    | .away => 1
    | _ => 3

/-- Where a handle's memory lies. -/
def State.handleBase (s : State) (h : Nat) : BAddr :=
  let e := s.hentry h
  match e.pool with
  | 0 => { pool := 0, unit := hOwner h * 16 + e.block, base := e.base * 4096, off := 0 }
  | 1 => { pool := 1, unit := hOwner h, base := e.base * 2 ^ 21, off := 0 }
  | _ => { pool := 2, unit := 0, base := e.base, off := 0 }

def State.handleSize (s : State) (h : Nat) : Nat :=
  let e := s.hentry h
  if e.pool = 0 then e.pages * 4096 else e.pages * 2 ^ 21

/-- One address field of a task: whether it is used, its byte offset, and the runs of bytes it reaches from
there. `onlyBs`: the unit that uses it reaches the block store only. -/
structure AField where
  used   : Bool
  off    : Nat
  runs   : List (Nat × Nat)
  onlyBs : Bool
  deriving DecidableEq, Repr

def trReq (r : Nat) : Nat := recF r 0x30 127 0
def mvLen (r : Nat) : Nat := recF r 0x48 31 0
def egOp (r : Nat) : Nat := recF r 0x30 2 0
def egBf16 (r : Nat) : Bool := recF r 0x30 4 3 = 1
def egNidx (r : Nat) : Nat := recF r 0x38 11 0
def egLen (r : Nat) : Nat := recF r 0x50 31 0
def egTens (r : Nat) : Nat := recF r 0x54 12 0
def inOp (r : Nat) : Nat := recF r 0x30 1 0
def inBf16 (r : Nat) : Bool := recF r 0x30 3 2 = 1
def inCrc (r : Nat) : Bool := recF r 0x30 4 4 = 1
def inLen (r : Nat) : Nat := recF r 0x48 31 0
def upTier (r : Nat) : Nat := recF r 0x30 16 0
def upBf16 (r : Nat) : Bool := recF r 0x30 17 17 = 1
def coOp (r : Nat) : Nat := recF r 0x30 2 0
def coDigest (r : Nat) : Nat := recF r 0x30 7 6
def coLen (r : Nat) : Nat := recF r 0x48 31 0

/-- CRC records of an INGRESS: 8 bytes for each 16,384 elements (R451). -/
def inCrcLen (r : Nat) : Nat :=
  let n := 16384 * (if inBf16 r then 2 else 4)
  8 * ((inLen r + n - 1) / n)

/-- The address fields of a task, in the order of R315 and R447. -/
def addrFields (r : Nat) : List AField :=
  let named (i : Nat) : Bool := recHuse r (recBind r i)
  let a17 (at_ i : Nat) : Nat := bits r (at_ * 8 + 17 * i + 16) (at_ * 8 + 17 * i) * 64
  match recKind r with
  | 1 =>
    let q := trReq r
    let n := rqInEnd q - rqIn q
    let last := trVecs r - 1
    [{ used := true, off := rqIn q, runs := [(0, n), (last * recF r 0x44 22 0, n)], onlyBs := true },
     { used := true, off := rqOut q, runs := [(0, 4160), (last * recF r 0x48 22 0, 4160)], onlyBs := true }]
  | 2 =>
    let q := mmReq r
    let k := 32 * mqKb q
    let rel (base : Nat) (l : List (Nat × Nat)) : List (Nat × Nat) := l.map fun (a, n) => (a - 64 * base, n)
    let rows (w : Nat) : List (Nat × Nat) := (List.range (mqM q)).map fun m => (64 * mqCStride q * m, w)
    let scales (n : Nat) : List (Nat × Nat) := (List.range (mqKb q)).map fun j => (128 * j, n)
    [{ used := true, off := 64 * mqA q, runs := rel (mqA q) (operandSegs (mqAKin q) (mqAFmt q) (mqA q) (mqAStride q) (mqM q) k), onlyBs := true },
     { used := true, off := 64 * mqB q, runs := rel (mqB q) (operandSegs (mqBKin q) (mqBFmt q) (mqB q) (mqBStride q) (mqN q) k), onlyBs := true },
     { used := mqMx q, off := 64 * mqAs q, runs := scales (mqM q), onlyBs := true },
     { used := mqMx q, off := 64 * mqBs q, runs := scales (mqN q), onlyBs := true },
     { used := mqOp q == 1, off := 64 * mqCIn q, runs := rows (4 * mqN q), onlyBs := true },
     { used := !mqChain q, off := 64 * mqCOut q, runs := rows (packed (mqOutFmt q) (mqN q)), onlyBs := true },
     { used := mqCsum q, off := 64 * mqCsumA q, runs := [(0, 1088)], onlyBs := true }] ++
    (List.range 4).map fun i => { used := mqChain q && named (7 + i), off := a17 0x70 i, runs := [(0, 1)], onlyBs := true }
  | 3 => (List.range 8).map fun i => { used := named i, off := a17 0x54 i, runs := [(0, 1)], onlyBs := true }
  | 4 =>
    [{ used := mvSrc r != 3, off := recF r 0x38 63 0, runs := [(0, mvLen r)], onlyBs := false },
     { used := mvDst r != 3, off := recF r 0x40 63 0, runs := [(0, mvLen r)], onlyBs := false }]
  | 6 => [{ used := true, off := recF r 0x38 63 0, runs := [(0, 1048576 * (if upBf16 r then 2 else 4))], onlyBs := false }]
  | 7 =>
    let size := if egOp r = 3 ∨ egOp r = 4 then 4 * egTens r
      else egLen r * (if egBf16 r ∧ egOp r ≠ 5 then 2 else 4)
    [{ used := !(egOp r == 3 && egNidx r == 1), off := recF r 0x40 63 0, runs := [(0, size)], onlyBs := false },
     { used := egOp r == 3 && egNidx r != 1, off := recF r 0x58 63 0, runs := [(0, 4 * egTens r)], onlyBs := false }]
  | 8 =>
    [{ used := true, off := recF r 0x40 63 0, runs := [(0, inLen r)], onlyBs := false },
     { used := inCrc r || inOp r == 2, off := recF r 0x50 63 0, runs := [(0, inCrcLen r)], onlyBs := false }]
  | 9 =>
    let on := coOp r != 3
    let n := coLen r
    let sums := coDigest r == 1 && recF r 0x30 12 12 == 0
    let bf := recF r 0x30 5 4 == 1
    let csum := if recF r 0x30 12 12 = 1 then n else if sums then 1088 * (n / 65536)
      else 8 * ((n + 16384 * (if bf then 2 else 4) - 1) / (16384 * if bf then 2 else 4))
    [{ used := on, off := recF r 0x38 63 0, runs := [(0, n)], onlyBs := false },
     { used := on, off := recF r 0x40 63 0, runs := [(0, if sums && bf then n / 2 else n)], onlyBs := false },
     { used := on && coDigest r != 0, off := recF r 0x50 63 0, runs := [(0, csum)], onlyBs := false }]
  | _ => []

/-- The bound addresses of a task (R315), or none when an offset leaves its allocation, a used field names no
handle, or a unit of the block is sent beyond its block store (R295, R298). -/
def State.bindAll (s : State) (hs : List (Nat × Nat)) (r : Nat) : List AField → Nat → Option (List BAddr)
  | [], _ => some []
  | f :: fs, i =>
    match s.bindAll hs r fs (i + 1) with
    | none => none
    | some rest =>
      if !f.used then some ({ pool := 0, unit := 0, base := 0, off := 0 } :: rest)
      else
        match hs.find? fun h => h.1 == recBind r i with
        | none => none
        | some (_, h) =>
          let a := s.handleBase h
          if (f.runs.all fun (o, n) => decide (f.off + o + n ≤ s.handleSize h)) && (!f.onlyBs || a.pool == 0) then
            some ({ a with off := f.off } :: rest)
          else none

/-- n with bits [hi:lo] replaced. -/
def putBits (n hi lo v : Nat) : Nat := putFld n hi lo v

/-! ### Tie groups (R258 to R260) -/

/-- The task belongs to a tile pair that ATTN_BWD skips (R248). -/
def Slot.skips (sl : Slot) (g r : Nat) : Bool := match sl.kcall g (recId r) with | some c => skipsPair c | none => false

/-- The block whose records a block runs: itself, or the even block of its redundant pair (R396). -/
def State.leader (s : State) (b : Nat) : Nat := if b % 2 = 1 ∧ s.paired (b - 1) then b - 1 else b

/-- The record is a request that block b adds into a tie-group buffer (R258), no part of a skipped tile pair. -/
def State.tieRecord (s : State) (b j x : Nat) : Bool :=
  recKind x == 2 && recBlock x == s.leader b % 16 && mqGacc (mmReq x) && !(s.slot j).skips (b / 16) x

/-- Address in its block store of the buffer that a request adds into. -/
def State.tieBuf (s : State) (b j x : Nat) : Nat :=
  (s.handleBase (s.subHandle b j (recHandle x (recBind x 5)))).base + 64 * mqCOut (mmReq x)

/-- Requests that a job's graph holds in one step for a buffer of block b: its uses times the micro-batches (R259). -/
def State.tieExpect (s : State) (b j buf : Nat) : Nat :=
  (((s.slot j).list (b / 16)).records.filter fun x => s.tieRecord b j x && s.tieBuf b j x == buf).length

def Slot.tie (sl : Slot) (b buf step : Nat) : Option Tie := sl.ties.find? fun t => t.block = b ∧ t.buf = buf ∧ t.step = step

/-- Changes the count of a buffer in a step, which begins at 0. -/
def State.modTie (s : State) (b j buf step : Nat) (f : Tie → Tie) : State :=
  let sl := s.slot j
  let old : Tie := (sl.tie b buf step).getD
    { buf := buf, block := b, count := 0, expect := s.tieExpect b j buf, disp := 0, begun := false, step := step }
  s.setSlot j { sl with ties := (sl.ties.filter fun t => !(t.block == b && t.buf == buf && t.step == step)) ++ [f old] }

/-- Counts a dispatch into a buffer: whether it is the buffer's first of the step (R258). -/
def State.tieDispatch (s : State) (b j buf step : Nat) : Bool × State :=
  let first := match (s.slot j).tie b buf step with | some t => !t.begun | none => true
  (first, s.modTie b j buf step fun t => { t with disp := t.disp + 1, begun := true })

/-- A request of an aborted micro-batch that never runs counts as dispatched and completed (R259). -/
def State.tieAborted (s : State) (b j buf step : Nat) : State :=
  s.modTie b j buf step fun t => { t with count := t.count + 1, disp := t.disp + 1 }

/-- Requests of a buffer in a step that have not completed (R259). -/
def State.tieLeft (s : State) (b j buf step : Nat) : Nat :=
  s.tieExpect b j buf - (match (s.slot j).tie b buf step with | some t => t.count | none => 0)

/-- R260: one more request would take the buffer beyond its expected count. -/
def State.tieFull (s : State) (b j buf step : Nat) : Bool :=
  match (s.slot j).tie b buf step with
  | some t => decide (t.expect ≤ t.disp)
  | none => false

/-! ### Power tokens (R326 to R329) -/

def State.tokensOk (s : State) (b r : Nat) : Bool :=
  match taskTokens b r with
  | some (req, n) => decide (n ≤ s.held (b / 16) req)
  | none => true

/-- Work at a tile: anything in its read or upkeep queue (R326). -/
def Tile.work (T : Tile) : Bool :=
  !T.readQ.isEmpty || T.read.isSome || !T.carries.isEmpty || T.row.isSome || !T.procs.isEmpty || T.calLeft != 0

/-- A tile whose queues are both empty returns its tokens. -/
def State.tileIdle (s : State) (t : Nat) : State :=
  let T := s.tile t
  if T.tokens && !T.work then s.setTile t { T with tokens := false } else s

/-- Tokens held by tiles of region g. -/
def State.tileTokens (s : State) (g : Nat) : Nat :=
  8 * (s.tiles.filter fun (t, T) => t / 1024 == g && T.tokens).length

/-- Tokens held in region g. -/
def State.regionTokens (s : State) (g : Nat) : Nat := s.tileTokens g + ((s.tok g).held.map fun x => x.2).sum

/-- Lots lent to all regions. -/
def State.lotsLent (s : State) : Nat := ((List.range 16).map fun g => (s.tok g).lots).sum

/-! ### Readiness (R317) -/

/-- The engines of a block can accept the task (R62, R128, R143, R259, R318, R320, R427, R432, R450, R453). -/
def State.accepts (s : State) (b : Nat) (q : QTask) : Bool :=
  let B := s.block b
  let r := q.record
  match recKind r with
  | 0 => (B.on engControl).all fun x => recKind x.task.record == 0 && recF x.task.record 0x30 3 0 == 3 &&
      !(recF r 0x30 3 0 == 3 && recF x.task.record 0x30 8 4 == recF r 0x30 8 4)
  | 1 => (taskEngines r).all fun t =>
      let T := s.tile (b * 64 + t)
      decide (T.readQ.length < 16) && (B.on t).all (fun x => x.sent == trVecs x.task.record) &&
        !s.tierHold ((b * 64 + t) * 8 + rqTier (trReq r))
  | 2 => decide (B.mc.queue.length < 8) &&
      (match s.kernelOf q.job b (recId r) with
       | some c => (s.slot q.job).pPrivate b c (recMb r) q.step ((s.taskHandles b q).map fun h => h.2)
       | none => true)
  | 3 => B.ve.run.isNone && (B.on engVector).isEmpty && (B.mc.runs.all fun x => !mqChain x.req.req) &&
      (!(s.slot q.job).adapts (b / 16) r || decide (q.step < (s.slot q.job).vstep))
  | 6 => (B.on engCarry).isEmpty && decide (q.step < (s.slot q.job).vstep) && !s.imageHeld (upTier r) &&
      decide ((((s.slot q.job).segs.filter fun (_, g, _, _) => g == b / 16).map fun (_, _, _, l) => l.length).sum < Config.journalCap)
  | 8 => (B.on engMover).isEmpty && decide (0 ≤ i32 (s.rn (xfReg q.job 0) + 2 ^ 32 - recF r 0x34 31 0))
  | _ => (taskEngines r).all fun e => (B.on e).isEmpty

/-- A GRAD, SCAN or SEND egress of a tie-group buffer waits for the buffer's count (R259). -/
def State.egressTieOk (s : State) (b : Nat) (q : QTask) : Bool :=
  let r := q.record
  if recKind r ≠ 7 ∨ 2 < egOp r then true
  else
    match s.bindAll (s.taskHandles b q) r (addrFields r) 0 with
    | none => true
    | some l =>
      let a := addrAt l 0
      a.pool != 0 || s.tieLeft a.unit q.job a.abs q.step == 0

/-- Whether a head task is held, fails at issue (with an event beside 0x0272), or is ready. -/
inductive Ready where
  | held
  | fails (event : Nat)
  | yes
  deriving DecidableEq, Repr

def State.ready (s : State) (b : Nat) (q : QTask) : Ready :=
  let r := q.record
  let both := s.paired b && bothKinds (recKind r)
  if !s.accepts b q || !s.egressTieOk b q || (both && !s.accepts (b + 1) q) then .held
  else if !s.countersMine b q then .fails 0
  else if !s.waitsOk b q then .held
  else
    let hs := s.taskHandles b q
    let cs := hs.map fun h => s.handleCheck b q.job h.2
    if cs.contains 3 then .fails 0x0621
    else if cs.contains 1 || cs.contains 2 then .held
    else if (s.bindAll hs r (addrFields r) 0).isNone then .fails 0x0626
    else if recLs r && decide ((s.slot q.job).vstep < q.step) then .held
    else if (s.slot q.job).state == .trapStopped && decide ((s.slot q.job).vstep ≤ q.step) then .held
    else if !s.tokensOk b r || (both && !s.tokensOk (b + 1) r) then .held
    else .yes

/-- The head task of each engine: the queued tasks none of whose engines an earlier queued task needs, with
their places in the queue (R318). -/
def heads : List QTask → List Nat → Nat → List (Nat × QTask)
  | [], _, _ => []
  | q :: r, used, i =>
    let es := taskEngines q.record
    if es.any used.contains then heads r (used ++ es) (i + 1) else (i, q) :: heads r (used ++ es) (i + 1)

/-- The first engine of a task. -/
def firstEngine (q : QTask) : Nat := (taskEngines q.record).headD 0

/-- A task that names a handle passes its dispatch check now (R295). -/
def State.dispatching (s : State) (h : Nat) : Bool :=
  s.blocks.any fun (b, B) => (heads B.queue [] 0).any fun (_, q) =>
    (s.taskHandles b q).any (fun x => x.2 == h) && (s.ready b q == .yes)

/-- FREE: the running FREE task of a block makes its request, in its turn; a dispatch check of the same handle goes first
(R296 to R298, R301). -/
def execFree (b : BlockId) (s : State) : Out :=
  let b := b.val
  match s.memTask b 1 with
  | none => .next s
  | some r =>
    let q := r.memReq s b
    whenever (s.memTurn 1 q.owner b && !s.dispatching q.handle) s
      (((s.memServed q.owner b).modRun b r.num fun x => { x with arrived := true }).release q)

/-! ### Starting a task -/

/-- A TILE_READ task sends its next request to its tile, or to both tiles of a pair, whatever either makes of it (R62, R75,
R128). -/
def State.sendRead (s : State) (b : Nat) (r : RTask) : State :=
  let rec' := r.task.record
  let v := r.sent
  let q := trReq rec'
  let q := putBits q 63 32 (r.task.epoch % 2 ^ 32)
  let q := putBits q 86 64 ((addrAt r.addrs 0).abs + v * recF rec' 0x44 22 0)
  let q := putBits q 118 96 ((addrAt r.addrs 1).abs + v * recF rec' 0x48 22 0)
  let rq : ReadReq := { req := q, ds := trDs rec', task := { job := r.task.job, id := recId rec', step := r.task.step, num := r.num } }
  let s := s.modRun b r.num fun x => { x with sent := x.sent + 1 }
  s.each (fun s t => s.tileRequest (b * 64 + t) rq) (taskEngines rec')

/-- The tiles of a TILE_READ task have room for a request and no HOLD on its tier. -/
def State.readRoom (s : State) (b : Nat) (rec' : Nat) : Bool :=
  (taskEngines rec').all fun t =>
    decide ((s.tile (b * 64 + t)).readQ.length < 16) && !s.tierHold ((b * 64 + t) * 8 + rqTier (trReq rec'))

/-- Sends requests while there is room. -/
def State.feed (s : State) (b num : Nat) : Nat → State
  | 0 => s
  | n + 1 =>
    match s.run b num with
    | none => s
    | some r =>
      if decide (r.sent < trVecs r.task.record) && s.readRoom b r.task.record then (s.sendRead b r).feed b num n else s

/-- Tasks whose requests wait for room at tile t send them (R62). -/
def State.refill (s : State) (t : Nat) : State :=
  let b := t / 64
  s.each (fun s (r : RTask) => s.feed b r.num 16)
    (((s.block b).on (t % 64)).filter fun r => decide (r.sent < trVecs r.task.record))

/-- A MATMUL task's request with its bound addresses, and OP of a tie-group buffer set (R258). -/
def bindMatmul (r : RTask) (first : Bool) : Nat :=
  let q := mmReq r.task.record
  let line (i : Nat) : Nat := (addrAt r.addrs i).abs / 64
  let put (q i hi lo : Nat) : Nat := putBits q hi lo (line i)
  let q := put q 0 100 84
  let q := put q 1 117 101
  let q := if mqMx q then put (put q 2 134 118) 3 151 135 else q
  let q := if mqOp q = 1 then put q 4 168 152 else q
  let q := if mqChain q then q else put q 5 185 169
  let q := if mqCsum q then put q 6 202 186 else q
  if mqGacc q then
    if first then putBits (putBits q 1 0 0) 168 152 0 else putBits (putBits q 1 0 1) 168 152 (line 5)
  else q

/-- VECTOR_TASK_START: A and S registers from the task record, S6 and S7 under R224, the entry address (R172). -/
def State.startVector (s : State) (b : Nat) (r : RTask) : State :=
  let t := r.task
  let rec' := t.record
  let R : VeRun := { task := { job := t.job, id := recId rec', step := t.step, num := r.num }, chain := false, chunk := 0,
                     entry := recF rec' 0x30 9 0, len := 1024, m := 0, n := 0, kernel := (s.kernelOf t.job b (recId rec')).isSome, undo := [],
                     denorm := s.denorm t.job }
  let s := s.modVe b fun e =>
    let sv := (List.range 8).foldl (fun m i => SMap.set (fun _ => 0) m i (recF rec' (0x34 + 4 * i) 31 0)) e.s
    let av := (List.range 8).foldl (fun m i =>
      let a := addrAt r.addrs i
      let raw := bits rec' (0x54 * 8 + 17 * i + 16) (0x54 * 8 + 17 * i)
      SMap.set (fun _ => 0) m i (if recHuse rec' (recBind rec' i) then a.abs / 64 % 2 ^ 17 else raw)) e.a
    { e with s := sv, a := av, pc := recF rec' 0x30 9 0, loops := [], run := some R, cfg := s.rn (blockReg b 0x5000) }
  if recLs rec' then
    let k := s.lossAt t.job t.step
    (s.setVeS b 6 (pow2Code (-k))).setVeS b 7 (pow2Code k)
  else s

/-- The work of a task starts in its engine; kinds whose engines act by commands of their own only wait for
them. -/
def State.startTask (s : State) (b : Nat) (r : RTask) : State :=
  let t := r.task
  match recKind t.record with
  | 1 => s.feed b r.num 16
  | 2 =>
    let q := mmReq t.record
    let buf := (addrAt r.addrs 5).abs
    if (s.slot t.job).skips (b / 16) t.record then s.partDone b r.num
    else if mqGacc q && !r.reran && s.tieFull b t.job buf t.step then (s.raiseJ 0x0260 2 b t.job (recId t.record)).failTask b r.num
    else
      let (first, s) := if r.reran then (r.first, s)
        else if mqGacc q then s.tieDispatch b t.job buf t.step
        else (false, s)
      let s := s.modRun b r.num fun x => { x with first := first }
      s.matmulRequest b { req := bindMatmul r (first && mqGacc q), slot := recF t.record 0x70 70 68,
                          task := { job := t.job, id := recId t.record, step := t.step, num := r.num } }
  | 3 =>
    let sl := s.slot t.job
    if sl.adapts (b / 16) t.record && sl.skipped.contains t.step then s.partDone b r.num else s.startVector b r
  | _ => s

/-- Parts of a task that must complete. -/
def taskParts (r : Nat) : Nat := if recKind r = 1 then trVecs r else 1

/-- A task leaves its queue for its engine: waits, INUSE, s of its step (R223), prefetches (R269), its start; in a
redundant pair in both blocks (R396). -/
def State.issue (s : State) (b : Nat) (q : QTask) (event : Option Nat) : State :=
  let r := q.record
  let hs := s.taskHandles b q
  let q := if recKind r = 1 then { q with epoch := (s.slot q.job).epochOf (recMb r) q.step } else q
  let B := s.block b
  let num := B.nextNum
  let both := s.paired b && bothKinds (recKind r)
  let s := if event = some 0 then s else s.takeWaits b q
  let addrs := (s.bindAll hs r (addrFields r) 0).getD []
  let run : RTask := { task := q, num := num, engine := engineOf r, left := taskParts r, sent := 0, poisoned := false,
                       handles := if event.isSome then [] else hs.map fun h => h.2, addrs := addrs, writes := [], sumDi := 0,
                       stream := s.draws, rng := 0, redundant := both, odd := false, reran := false, first := false, passed := false,
                       arrived := false }
  let B := s.block b
  let s := s.setBlock b { B with running := B.running ++ [run], nextNum := num + 1 }
  let s := { s with draws := s.draws + 1 }
  match event with
  | some ev =>
    let s := if ev = 0 then s else s.raiseJ ev 2 b q.job (recId r)
    s.failTask b num
  | none =>
    let s := s.each (fun s h => let e := s.hentry h; s.setHentry h { e with inuse := e.inuse + 1 }) run.handles
    let sl := s.slot q.job
    let s := if recKind r == 1 && (sl.mbEpoch (recMb r) q.step).isNone then
        s.setSlot q.job { sl with mbEpochs := sl.mbEpochs ++ [(recMb r, q.step, q.epoch)] } else s
    let sl := s.slot q.job
    let s := if recPass r == 1 && (sl.stepS.all fun (x : Nat × Int) => x.1 != q.step) then
        s.setSlot q.job { sl with stepS := (q.step, s.lossExp q.job) :: sl.stepS.take 3 } else s
    let s := if recBwdFirst r then s.prefetchFor q.job (recMb r) (recLayer r) q.step else s
    let s := s.startTask b run
    if both && (s.run b num).isSome then
      let odd : RTask := { run with
        handles := [], odd := true,
        addrs := addrs.map fun a => if a.pool = 0 then { a with unit := b + 1 } else a }
      let C := s.block (b + 1)
      let s := s.setBlock (b + 1) { C with running := C.running ++ [odd], nextNum := num + 1 }
      s.startTask (b + 1) odd
    else s

/-- R270: each head task newly held for its records counts once. -/
def State.markStalls (s : State) (b : Nat) : State :=
  s.each (fun s (iq : Nat × QTask) =>
    let q := iq.2
    let away := (s.taskHandles b q).any fun h => s.handleCheck b q.job h.2 == 1
    if away && !q.stalled then
      let B := s.block b
      let s := s.setBlock b { B with queue := setAt B.queue iq.1 { q with stalled := true } }
      (s.setBit (tsReg q.job 0x18) 0).bump (tsReg q.job 0x1C) 31 0 1
    else s) (heads (s.block b).queue [] 0)

/-- The ready head task whose engine comes first at or after the pointer (R319). -/
def pickHead (ptr : Nat) (l : List (Nat × QTask)) : Option (Nat × QTask) :=
  let key (x : Nat × QTask) : Nat := (firstEngine x.2 + 72 - ptr) % 72
  l.foldl (fun best x => match best with
    | none => some x
    | some y => if key x < key y then some x else best) none

/-- TASK_ISSUE: one issue cycle of a block sequencer (R317 to R320, R339). -/
def execTaskIssue (b : BlockId) (s : State) : Out :=
  let b := b.val
  let B := s.block b
  let win := B.winWait || s.rbit (blockReg b 0xC308) 1
  let marked := s.markStalls b
  let ok := (heads B.queue [] 0).filter fun x => s.ready b x.2 != .held
  match (if win then none else pickHead B.rrEngine ok) with
  | none => whenever (decide (marked ≠ s)) s marked
  | some (i, q) =>
    let s := marked
    let B := s.block b
    let s := s.setBlock b { B with
      queue := B.queue.zipIdx.filterMap (fun (x, k) => if k = i then none else some x),
      rrEngine := (firstEngine q + 1) % 72 }
    .next (match s.ready b q with
      | .fails ev => s.issue b q (some ev)
      | _ => s.issue b q none)

/-! ### Micro-batches and fences (R111 to R114, R323 to R325) -/

/-- The fence set of a job: tiles that hold tiers of tensors it names writable. -/
def State.fenceSet (s : State) (j : Nat) : List Nat :=
  let ts := (s.slot j).tensors
  s.tiers.foldl (fun l (u, I) =>
    match I.tensor with
    | some n => if ts.contains (n, true) && !l.contains (u / 8) then l ++ [u / 8] else l
    | none => l) []

/-- Increments a tile's open counter for epoch e. -/
def Tile.openFence (T : Tile) (e : Nat) : Tile :=
  { T with fence := setAt T.fence (e % 4) (T.fence.getD (e % 4) 0 + 1), fenceEp := setAt T.fenceEp (e % 4) e }
def Tile.closeFence (T : Tile) (e : Nat) : Tile :=
  { T with fence := setAt T.fence (e % 4) (T.fence.getD (e % 4) 0 - 1) }

/-- R113: does the tile let a micro-batch of epoch e in? -/
def Tile.admits (T : Tile) (e : Nat) : Bool :=
  (List.range 4).all fun i =>
    decide (T.fence.getD i 0 < 4095) && (T.fence.getD i 0 == 0 || decide (e < T.fenceEp.getD i 0 + 4))

/-- A control task of a block with the given OP that still runs. -/
def State.control (s : State) (b op : Nat) : Option RTask :=
  (s.block b).running.find? fun r => recKind r.task.record == 0 && recF r.task.record 0x30 3 0 == op && decide (0 < r.left)

/-- CONTROL_NOP: a NOP task is complete as soon as it has issued. -/
def execControlNop (b : BlockId) (s : State) : Out :=
  match s.control b.val 0 with
  | none => .next s
  | some r => .next (s.partDone b.val r.num)

/-- Queued and delivered tasks of an admitted micro-batch take its epoch (R111, R312). -/
def State.restamp (s : State) (j mb step e : Nat) : State :=
  let f (q : QTask) : QTask := if q.job = j ∧ q.step = step ∧ recMb q.record = mb then { q with epoch := e } else q
  s.each (fun s (b : Nat) => let B := s.block b; s.setBlock b { B with queue := B.queue.map f }) (s.blocks.map fun x => x.1)

/-- MB_ADMIT: the micro-batch is admitted on every tile of the fence set (R111, R113, R323, R324). -/
def execMbAdmit (b : BlockId) (s : State) : Out :=
  match s.control b.val 1 with
  | none => .next s
  | some r =>
    let j := r.task.job
    let e := (s.slot j).epoch
    let ts := s.fenceSet j
    whenever (ts.all fun t => (s.tile t).admits e) s
      (let s := s.each (fun s t => s.setTile t ((s.tile t).openFence e)) ts
       let sl := s.slot j
       let mb := recMb r.task.record
       let s := s.setSlot j { sl with open_ := sl.open_ ++ [{ mb := mb, step := r.task.step, epoch := e, tiles := ts }] }
       (s.restamp j mb r.task.step e).partDone b.val r.num)

/-- Closes tiles of an open micro-batch (R112, R325). -/
def State.closeTiles (s : State) (j : Nat) (o : OpenMb) (ts : List Nat) : State :=
  let ts := ts.filter o.tiles.contains
  let s := s.each (fun s t => s.setTile t ((s.tile t).closeFence o.epoch)) ts
  let sl := s.slot j
  s.setSlot j { sl with open_ := sl.open_.map fun x =>
    if x.mb = o.mb ∧ x.step = o.step then { x with tiles := x.tiles.filter fun t => !ts.contains t } else x }

def Slot.openMb (sl : Slot) (mb step : Nat) : Option OpenMb := sl.open_.find? fun o => o.mb = mb ∧ o.step = step

/-- A completed LAST_T task closes the tiles it names, in both blocks of a redundant pair; one that names a closed tile
raises 0x0274 (R325, R396). -/
def State.lastRead (s : State) (b : Nat) (both : Bool) (q : QTask) : State :=
  let es := taskEngines q.record
  let ts := es.map (fun t => b * 64 + t) ++ if both then es.map (fun t => (b + 1) * 64 + t) else []
  match (s.slot q.job).openMb (recMb q.record) q.step with
  | none => s
  | some o =>
    let fs := s.fenceSet q.job
    let again := ts.any fun t => fs.contains t && !o.tiles.contains t
    let s := s.closeTiles q.job o ts
    if again then (s.setBit (blockReg b 0xC304) 25).raiseJ 0x0274 2 b q.job (recId q.record) else s

/-- A micro-batch is aborted: its fences close (R112, R325), its requests that have not run count in their tie
buffers (R259), its transfers complete and its records are released (R274). -/
def State.abortMb (s : State) (j mb step : Nat) : State :=
  let s := match (s.slot j).openMb mb step with
    | some o => s.closeTiles j o o.tiles
    | none => s
  let unrun (b : Nat) : List Nat :=
    let here := (s.slot j).list (b / 16)
    let later := if here.pass = step then (here.pos.map fun i => here.records.getD i 0) else []
    let queued := ((s.block (s.leader b)).queue.filter fun q => q.job == j && q.step == step).map fun q => q.record
    (later ++ queued).filter fun x => s.tieRecord b j x && recMb x == mb
  let s := s.each (fun s b => s.each (fun s x => s.tieAborted b j (s.tieBuf b j x) step) (unrun b)) (List.range 256)
  s.releaseRecords j fun r => r.mb == mb && r.step == step

/-- MB_ABORT: the running MB_ABORT task of a block closes its micro-batch (R112, R259, R274, R325). -/
def execMbAbort (b : BlockId) (s : State) : Out :=
  match s.control b.val 2 with
  | none => .next s
  | some r => .next ((s.abortMb r.task.job (recMb r.task.record) r.task.step).partDone b.val r.num)

/-- FENCE_TIMEOUT: carries of a tile have waited CE_LIMITS.FENCE_TO on an unsatisfied fence; the open
micro-batches of the blocking epochs are aborted and reported (R118). -/
def execFenceTimeout (t : TileId) (s : State) : Out :=
  let t := t.val
  let b := tileBlock t
  let T := s.tile t
  let late := T.carries.filter fun c => match c.tag with | some g => !T.fenceOk g | none => false
  match late with
  | [] => .next s
  | c :: _ =>
    whenever (decide (s.rf (blockReg b 0x2008) 15 0 ≤ T.fenceMs)) s
      (let j := c.job.getD 0
       let s := s.setTile t { T with fenceMs := 0 }
       let s := (s.setBit (blockReg b 0x200C) 3).raiseJ 0x0230 2 b j 0
       let os := (s.slot j).open_.filter fun o => o.tiles.contains t && decide (o.epoch < c.tag.getD 0)
       let s := s.each (fun s o => s.abortMb j o.mb o.step) os
       let sl := s.slot j
       s.setSlot j { sl with aborted := sl.aborted ++ os.map fun o => o.mb })

/-! ### Clearing-line arrivals (R334 to R336) -/

/-- ARRIVE: an issued ARRIVE task arrives on its line, is refused (R336), or is held while its block has already
arrived (R335). -/
def execArrive (b : BlockId) (s : State) : Out :=
  let b := b.val
  let new := (s.block b).running.filter fun r =>
    recKind r.task.record == 0 && recF r.task.record 0x30 3 0 == 3 && decide (0 < r.left) && !r.arrived
  let bad (r : RTask) : Bool :=
    let l := recF r.task.record 0x30 8 4
    !s.rbit (blockReg b 0xC300) l || !s.rbit (clReg l 0) 6 || s.rf (clReg l 0) 5 0 != r.task.job
  match new.find? fun r => bad r || !(s.block b).arrived.contains (recF r.task.record 0x30 8 4) with
  | none => .next s
  | some r =>
    let l := recF r.task.record 0x30 8 4
    if bad r then .next ((s.raiseJ 0x0400 2 b r.task.job (recId r.task.record)).failTask b r.num)
    else
      let s := s.modRun b r.num fun x => { x with arrived := true }
      let B := s.block b
      .next (s.setBlock b { B with arrived := B.arrived ++ [l] })

/-! ### Completion (R321) -/

/-- Records of a task whose last forward producer has completed go to the pager (R268). -/
def State.recLastDone (s : State) (b : Nat) (r : RTask) : State :=
  let t := r.task.record
  if !recRecLast t then s
  else
    s.each (fun s i =>
      if recHuse t i && recHrec t i then
        s.recordDone r.task.job (s.subHandle b r.task.job (recHandle t i)) b (recMb t) (recLayer t) r.task.step
      else s) (List.range 4)

/-- Tasks that R231 waits for: those with GRAD, and the step's gradient rounds, whose COLLECTIVE tasks complete when their
round is accepted (R365). -/
def recProduces (r : Nat) : Bool := recGrad r || (recKind r == 9 && coOp r != 3 && recF r 0x30 3 3 == 0)

/-- TASK_COMPLETE: a task's effects are complete: its signals set out, its fences close, its handles' INUSE falls,
its engine's tokens return, a kernel's partial values go to their row owner and the P buffers of a finished tile pair are
released (R112, R245, R249, R268, R295, R321, R326, R392, R401). -/
def execTaskComplete (b : BlockId) (num : Nat) (s : State) : Out :=
  let b := b.val
  match s.run b num with
  | none => .next s
  | some r =>
    let q := r.task
    let rec' := q.record
    whenever (r.left == 0 && !r.odd && (!r.redundant || r.passed)) s
      (let drop (s : State) : State :=
         let s := s.dropRun b num
         if r.redundant then s.dropRun (b + 1) num else s
       let odd := r.redundant && (match s.run (b + 1) num with | some x => x.poisoned | none => false)
       let s := if r.poisoned || odd then s.setNf q.job q.step else s
       if !(recSigs rec').all (fun (t, c, _) => s.ccMine t c q.job) then
         (if r.redundant then (s.failTask b num).dropRun (b + 1) num else s.failTask b num)
       else
         let s := { s with sigs := s.sigs ++ recSigs rec' }
         let s := if recLastT rec' then s.lastRead b r.redundant q else s
         let s := (s.recLastDone b r).rowOwnerSum b r
         let (ps, s) := s.pBuffers b r (s.taskHandles b q)
         let sl := s.slot q.job
         let s := if recProduces rec' then
             s.setSlot q.job { sl with gradDone := SMap.set (fun _ => 0) sl.gradDone q.step (SMap.get (fun _ => 0) sl.gradDone q.step + 1) }
           else s
         (drop s).each (fun s h => s.release (jobFree q.job h (b / 16))) ps)

/-- CREDIT_SIGNAL: the n oldest signals on their way to a counter reach it in one cycle: they are summed and added
once (R331, R333). -/
def execCreditSignal (b : BlockId) (c : Fin 64) (n : Nat) (s : State) : Out :=
  let b := b.val
  let mine := s.sigs.filter fun (t, k, _) => t == b && k == c.val
  let rec take (k : Nat) : List (Nat × Nat × Int) → List (Nat × Nat × Int)
    | [] => []
    | x :: r => if k ≠ 0 ∧ x.1 = b ∧ x.2.1 = c.val then take (k - 1) r else x :: take k r
  whenever (n != 0 && decide (n ≤ mine.length)) s
    (let a := ccVal b c.val
     let v : Int := (s.rf a 15 0 : Nat) + ((mine.take n).map fun x => x.2.2).sum
     let s := { s with sigs := take n s.sigs }
     let sat (s : State) (bit v : Nat) : State :=
       let s' := (s.setRf a 15 0 v).setBit a bit
       if s.rbit a bit then s' else s'.raiseJ 0x0270 2 b (s.ccJob b c.val) 0
     if v < 0 then sat s 16 0 else if 65535 < v then sat s 17 65535 else s.setRf a 15 0 v.toNat)

/-! ### The token arbiter (R327 to R329) -/

/-- The requests that wait for tokens in region g: requester and amount still needed, by requester number. -/
def State.tokenRequests (s : State) (g : Nat) : List (Nat × Nat) :=
  let tiles := (s.tiles.filter fun (t, T) => t / 1024 == g && T.work && !T.tokens).map fun (t, _) => (t % 1024, 8)
  let open_ (b : Nat) (q : QTask) : Bool :=
    s.accepts b q && s.egressTieOk b q && s.countersMine b q && s.waitsOk b q &&
      (s.taskHandles b q).all fun h => s.handleCheck b q.job h.2 == 0
  let want (b : Nat) : List (Nat × Nat) := (heads (s.block b).queue [] 0).filterMap fun (_, q) =>
    match taskTokens b q.record with
    | some (req, n) => if open_ b q && decide (s.held g req < n) then some (req, n - s.held g req) else none
    | none => none
  let wantOdd (b : Nat) : List (Nat × Nat) := if s.paired b then
      (heads (s.block b).queue [] 0).filterMap fun (_, q) =>
        match taskTokens (b + 1) q.record with
        | some (req, n) => if open_ b q && decide (s.held g req < n) then some (req, n - s.held g req) else none
        | none => none
    else []
  let fold (b : Nat) : List (Nat × Nat) :=
    if (s.foldsReady b).isEmpty || s.carryTokens b then [] else [(tokCarry b, 200)]
  let engines := ((List.range 16).map fun i => want (g * 16 + i) ++ wantOdd (g * 16 + i) ++ fold (g * 16 + i)).flatten
  let pager := ((List.range 64).map fun j => ((s.slot j).acts.filter fun r =>
      r.region == g && (r.state == 1 || r.state == 4 || r.state == 6) && !s.hasTokens g (pagerReq r.handle)).map
        fun r => (pagerReq r.handle, 200)).flatten
  tiles ++ engines ++ pager

/-- The request at the pointer: the first requester at or after it, cyclically. -/
def atPointer (ptr : Nat) (l : List (Nat × Nat)) : Option (Nat × Nat) :=
  let key (x : Nat × Nat) : Nat := if ptr ≤ x.1 then x.1 - ptr else x.1 + 2 ^ 20 - ptr
  l.foldl (fun best x => match best with
    | none => some x
    | some y => if key x < key y then some x else best) none

/-- The request at a region's pointer with the lots it needs beside the pool, where TILE_MAX lets it be granted. -/
def State.lotsAsked (s : State) (g : Nat) : Option (Nat × Nat × Nat) :=
  let k := s.tok g
  match atPointer k.ptr (s.tokenRequests g) with
  | none => none
  | some (req, n) =>
    let pool := s.rf (regionReg g 0x4000) 15 0 + 128 * k.lots
    if 1024 ≤ req ∨ s.tileTokens g + n ≤ s.rf (regionReg g 0x4000) 31 16 then some (req, n, (s.regionTokens g + n - pool + 127) / 128)
    else none

/-- A region stands over a lowered TOKENS or TILE_MAX (R329): whether the tokens held are not yet below each. -/
def State.overLimit (s : State) (g : Nat) : Bool × Bool :=
  let k := s.tok g
  (k.overTok && decide (s.rf (regionReg g 0x4000) 15 0 + 128 * k.lots ≤ s.regionTokens g),
   k.overTile && decide (s.rf (regionReg g 0x4000) 31 16 ≤ s.tileTokens g))

/-- The region asks the chip reserve for lots. -/
def State.asksLots (s : State) (g : Nat) : Bool :=
  !(s.overLimit g).1 && !(s.overLimit g).2 && (match s.lotsAsked g with | some (_, _, l) => l != 0 | none => false)

/-- The tokens of request `req` are granted to region g, with what starts at once: a carry engine folds the rows that
waited, and keeps its tokens only for an UPDATE (R326). -/
def State.grantTokens (s : State) (g req n : Nat) : State :=
  if req < 1024 then
    let t := g * 1024 + req
    s.setTile t { s.tile t with tokens := true }
  else
    let k := s.tok g
    let s := s.setTok g { k with held := (k.held.filter fun x => x.1 != req) ++ [(req, s.held g req + n)] }
    let b := g * 16 + (req - 1072)
    if req < 1072 ∨ 1088 ≤ req ∨ (s.foldsReady b).isEmpty then s
    else
      let ts := (s.foldsReady b).map fun q => q.unit / 8
      let update := (heads (s.block b).queue [] 0).any fun x => recKind x.2.record == 6
      let s := (s.foldAll b).each (fun s t => s.finishInPlace t) ts
      if update then s else s.trimTokens b req

/-- TOKEN_GRANT: one turn of a region's token arbiter: the request at the pointer is granted, from the pool or with lots
borrowed from the reserve, or the pointer stands at it (R327). Lots go to a lower region that asks for one first (R328,
R340), and over a lowered limit nothing is granted (R329). -/
def execTokenGrant (x : At RegionId) (s : State) : Out :=
  let g := x.what.val
  let k := s.tok g
  match atPointer k.ptr (s.tokenRequests g) with
  | none => .next s
  | some (req, n) =>
    let lim := s.overLimit g
    let k := { k with overTok := lim.1, overTile := lim.2 }
    let first := (List.range g).all fun i => !s.asksLots i
    match (if lim.1 || lim.2 then none else s.lotsAsked g) with
    | none => .next (s.setTok g { k with ptr := req })
    | some (_, _, lots) =>
      if lots = 0 ∨ (first = true ∧ lots + s.lotsLent ≤ s.rf 0x20000 15 0 / 128) then
        .next (((s.memErrs x.errs).setTok g { k with ptr := req + 1, lots := k.lots + lots }).grantTokens g req n)
      else .next (s.setTok g { k with ptr := req })

/-- A write of PT_CFG takes no token back; over a lowered limit nothing is granted until the tokens held fall below it
(R329). -/
def State.tokenLimits (s : State) (g : Nat) : State :=
  let k := s.tok g
  s.setTok g { k with
    overTok := decide (s.rf (regionReg g 0x4000) 15 0 + 128 * k.lots < s.regionTokens g),
    overTile := decide (s.rf (regionReg g 0x4000) 31 16 < s.tileTokens g) }

/-- TOKEN_LOT_RETURN: a region returns a lot of which 128 tokens have stood unused for 10 µs (R328). -/
def execTokenLotReturn (g : RegionId) (s : State) : Out :=
  let g := g.val
  let k := s.tok g
  whenever (k.lots != 0 && decide (s.regionTokens g + 128 ≤ s.rf (regionReg g 0x4000) 15 0 + 128 * k.lots)) s (s.setTok g { k with lots := k.lots - 1 })

/-! ### Tile commands with their tokens and queues -/

/-- What follows a tile's command: tasks send the requests that have room (R62) and an idle tile returns its
tokens (R326). -/
def tileAfter (t : Nat) (o : Out) : Out :=
  match o with
  | .next s => .next (((s.refill t).tileIdle t).tileIdle (t + 1 - 2 * (t % 2)))
  | o => o

/-- TILE_READ_START with the queue's refill. -/
def execReadStart (t : TileId) (errs : List MemErr) (s : State) : Out := tileAfter t.val (execTileReadStart t errs s)
/-- TILE_READ_COMPLETE. -/
def execReadComplete (t : TileId) (s : State) : Out := tileAfter t.val (execTileReadComplete t s)
/-- PROGRAM_PULSE. -/
def execPulse (x : At TileId) (s : State) : Out := tileAfter x.what.val (execProgramPulse x s)
/-- VERIFY_READ. -/
def execRowVerify (x : At TileId) (s : State) : Out := tileAfter x.what.val (execVerify x s)
/-- SWEEP_READ. -/
def execSweep (x : At TileId) (s : State) : Out := tileAfter x.what.val (execSweepRead x s)
/-- ERASE_VERIFY. -/
def execEraseEnd (t : TileId) (s : State) : Out := tileAfter t.val (execEraseVerify t s)
/-- COPPICE_SWAP. -/
def execSwap (t : TileId) (s : State) : Out := tileAfter t.val (execCoppiceSwap t s)
/-- TIER_LOAD_DONE. -/
def execLoadDone (u : TileTierId) (s : State) : Out := tileAfter (u.val / 8) (execTierLoadDone u s)
/-- ADOPTION_SWEEP_DONE. -/
def execAdoptDone (u : TileTierId) (s : State) : Out := tileAfter (u.val / 8) (execAdoptionSweepDone u s)

/-! ### The stop of a job (R302, R322) -/

/-- The fabric job of a collective message. -/
def Early.fjob : Early → Nat
  | .chdr h => h.fjob
  | .cdata d => d.fjob
  | .beat _ p => leNat (p.take 4)

/-- A job stops: nothing further is delivered, its queued tasks are discarded, its waiting control and MEM
tasks and collective rounds end, its open micro-batches are aborted, its tokens and handles return. Its running engine work
completes. -/
def State.stopJob (s : State) (j : Nat) : State :=
  let waiting (r : RTask) : Bool := r.task.job == j && [0, 5, 9].contains (recKind r.task.record)
  let s := s.each (fun s (b : Nat) =>
    let B := s.block b
    let gone := B.running.filter waiting
    let s := s.setBlock b { B with
      queue := B.queue.filter (fun q => q.job != j),
      arrived := B.arrived.filter fun l => !(gone.any fun r => r.arrived && recF r.task.record 0x30 8 4 == l) }
    s.each (fun s (r : RTask) => s.dropRun b r.num) gone) (s.blocks.map fun x => x.1)
  let s := s.each (fun s (b : Nat) => s.each (fun s req => s.trimTokens b req) [tokMatrix b, tokMover b 0, tokMover b 1, tokCarry b])
    (s.blocks.map fun x => x.1)
  let s := { s with fab := { s.fab with
    rounds := s.fab.rounds.filter fun r => r.job != j
    early := s.fab.early.filter fun e => e.fjob != (s.slot j).fjob } }
  let s := s.each (fun s (o : OpenMb) => s.closeTiles j o o.tiles) (s.slot j).open_
  let s := s.each (fun s (r : ActRec) => s.dropTokens r.region (pagerReq r.handle)) (s.slot j).acts
  let s := (s.finishTransfers j fun _ => true).freeJobHandles j
  let sl := s.slot j
  s.setSlot j { sl with
    state := .stopped, normRes := none, open_ := [], mbEpochs := [], ties := [], kparts := [], pbufs := [],
    lists := sl.lists.map fun (g, l) => (g, { l with pos := [] }) }

/-! ### The end of a test window (R339) -/

/-- What a write of SEQ_WIN does: clearing DUE ends the window, and the block issues again (R339). -/
def State.seqWinEffect (s : State) (b old : Nat) : State :=
  if bit old 0 && !s.rbit (blockReg b 0xC308) 0 then
    let B := s.block b
    (s.setRf (blockReg b 0xC308) 1 1 0).setBlock b { B with winWait := false }
  else s

/-- Firmware clears DUE of a block. -/
def State.clearDue (s : State) (b : Nat) : State :=
  let old := s.rn (blockReg b 0xC308)
  (s.setRf (blockReg b 0xC308) 0 0 0).seqWinEffect b old

end Sys2Proof.Machine
end

