-- ==== Sys2Proof/Machine/Movers.lean ====
section
/-!
DEFINITION. Sys2Proof/Machine/Movers.lean: the movers and the optimiser path (spec/10, MOVE; spec/14, R447 to
R453; spec/08, R264 to R266; spec/04, R103 to R109; R12, R615): MOVE, EGRESS, INGRESS and UPDATE tasks.
-/
namespace Sys2Proof.Machine

/-- The running task of a kind in an engine of block b that still has work. -/
def State.working (s : State) (b e kind : Nat) (p : Nat → Bool) : Option RTask :=
  ((s.block b).on e).find? fun r => recKind r.task.record == kind && decide (0 < r.left) && p r.task.record

/-! ### MOVE -/

/-- One end of a MOVE: device memory through its bound address, or a host window. -/
def State.moveEnd (s : State) (r : RTask) (host : Bool) (i off : Nat) : BAddr ⊕ HostAcc :=
  let m := mvBits r.task.record
  if host then .inr (s.hostAcc r.task.job (bits m 9 8) (bits m 10 10) off (mvLen r.task.record)) else .inl (addrAt r.addrs i)

/-- Carries the poison marks of a copied run to its destination, 8 bytes at a time (R281). -/
def State.carryMarks (s : State) (src dst : BAddr) (n : Nat) : State :=
  s.each (fun s i => if s.poisonedAt (src.plus (8 * i)) 8 then s.poisonAt (dst.plus (8 * i)) 8 else s) (List.range (n / 8))

/-- The pool of a bound address is that of its SRC or DST code. -/
def endOk (code : Nat) (e : BAddr ⊕ HostAcc) : Bool :=
  match e with
  | .inl a => a.pool == code
  | .inr _ => code == 3

/-- MOVE: mover `mover` copies the bytes of its running MOVE task (R281, R284, R288, R315, R440). -/
def execMove (b : BlockId) (mover : Fin 2) (errs : List MemErr) (s : State) : Out :=
  let b := b.val
  match s.working b (engMover + mover.val) 4 fun _ => true with
  | none => .next s
  | some r =>
    let t := r.task.record
    let n := mvLen t
    let src := s.moveEnd r (mvSrc t == 3) 0 (recF t 0x38 63 0)
    let dst := s.moveEnd r (mvDst t == 3) 1 (recF t 0x40 63 0)
    let host := mvSrc t == 3 || mvDst t == 3
    whenever (!host || s.ucieUp) s
      (if !endOk (mvSrc t) src || !endOk (mvDst t) dst then (s.raiseJ 0x0626 2 b r.task.job (recId t)).failTask b r.num
       else
         match src, dst with
         | .inr (.err ev), _ => s.hostFail b r.num ev
         | _, .inr (.err ev) => s.hostFail b r.num ev
         | .inl x, .inl y =>
           let s := s.memErrs errs
           let data := s.rdAt x n
           let bad := s.poisonedAt x n
           let old := s
           let s := s.wrTAt b r.num y data
           let s := if bad then
               (s.each (fun s i => if old.poisonedAt (x.plus (8 * i)) 8 then s.poisonAt (y.plus (8 * i)) 8 else s)
                 (List.range (n / 8))).poisonTask b r.num
             else s
           s.partDone b r.num
         | .inl x, .inr (.at h) =>
           let s := s.memErrs errs
           let s := if s.poisonedAt x n then s.poisonTask b r.num else s
           (s.wrT b r.num .host h (s.rdAt x n)).partDone b r.num
         | .inr (.at h), .inl y => (s.wrTAt b r.num y (s.rdBytes .host h n)).partDone b r.num
         | .inr (.at h), .inr (.at k) => (s.wrT b r.num .host k (s.rdBytes .host h n)).partDone b r.num)

/-! ### FP32 arithmetic of the egress -/

/-- An FP32 result rounded to nearest, its value and whether it flushed (R215). -/
def f32 (dn : Bool) (x : FpNum) : Nat × Bool := let r := fp32.round .nearest dn 0 x; (r.code, r.flushed)
def v32 (c : Nat) : FpNum := fp32.decode c

/-! ### Arbiters of host traffic (R273)

DEDUCED (assumption 162): a transfer task moves all its 4 KiB transfers in one command, at the time when its last transfer
would have been granted: the order of the commands is the order in which those last grants fall, and what the other side has
had by then counts for it. -/

/-- 4 KiB transfers of n bytes. -/
def chunks (n : Nat) : Nat := max 1 ((n + 4095) / 4096)

/-- The least number of a list. -/
def fewest (l : List Nat) : Option Nat := l.foldl (fun m x => some (match m with | some y => min x y | none => x)) none

/-- The norm round's result of a task's step that a window NORM_OUT sends when TS_NORM_CFG.GLOBAL is set (R265). -/
def State.globalNorms (s : State) (q : QTask) : Option (List Nat) :=
  match (s.slot q.job).normRes with
  | some (step, l) => if step = q.step then some l else none
  | none => none

/-- An EGRESS task sends to its window, and can now (R265, R448, R449). -/
def State.egressSends (s : State) (r : RTask) : Bool :=
  let t := r.task.record
  let j := r.task.job
  match egOp t with
  | 0 => true
  | 2 => s.rbit (tsReg j 0x10) 1
  | 3 => egNidx t == 1 && (!s.rbit (tsReg j 0x10) 0 || (s.globalNorms r.task).isSome)
  | 5 => true
  | _ => false

/-- Transfers of an EGRESS task. -/
def egChunks (t : Nat) : Nat := chunks (4 * if egOp t = 3 then egTens t else egLen t)

/-- The fewest transfers among the gradient egress that waits, among the offloads, the prefetches, and the delta ingress. -/
def State.egressNeed (s : State) : Option Nat :=
  fewest (s.blocks.filterMap fun (b, _) =>
    match s.working b (engMover + 1) 7 fun _ => true with
    | some r => if s.egressSends r then some (egChunks r.task.record) else none
    | none => none)
def State.actNeed (s : State) (p : Nat → ActRec → Bool) : Option Nat :=
  fewest ((List.range 64).map fun j => ((s.slot j).acts.filter (p j)).map fun r => r.pages.length).flatten
/-- A record's offload can move pages. -/
def State.offloadReady (s : State) (r : ActRec) : Bool := (r.state == 1 || r.state == 6) && s.hasTokens r.region (pagerReq r.handle)
def State.offloadNeed (s : State) : Option Nat := s.actNeed fun _ r => s.offloadReady r
def State.prefetchNeed (s : State) : Option Nat := s.actNeed s.prefetchReady
def State.deltaNeed (s : State) : Option Nat :=
  fewest (s.blocks.filterMap fun (b, _) =>
    (s.working b engMover 8 fun t => inOp t == 0).map fun r => chunks (inLen r.task.record))

/-- Round-robin toward the host: side 0 (offloads) or 1 (egress) finishes n transfers before the other side does. -/
def State.outGrant (s : State) (side n : Nat) : Bool :=
  let a := s.arb
  match (if side = 0 then s.egressNeed else s.offloadNeed) with
  | none => true
  | some m =>
    let mine := n - if side = 0 then a.off else a.eg
    let their := m - if side = 0 then a.eg else a.off
    decide (mine < their) || (mine == their && a.turn == side)

/-- What the other side has had when n transfers of a side are done. -/
def State.outServed (s : State) (side n : Nat) : State :=
  let a := s.arb
  let a := match (if side = 0 then s.egressNeed else s.offloadNeed) with
    | none => { a with off := 0, eg := 0 }
    | some _ => if side = 0 then { a with off := 0, eg := a.eg + (n - a.off) } else { a with eg := 0, off := a.off + (n - a.eg) }
  { s with arb := { a with turn := 1 - side } }

/-- A prefetch of n pages finishes before the delta ingress has its 1 transfer in 8. -/
def State.prefetchGrant (s : State) (n : Nat) : Bool :=
  match s.deltaNeed with
  | none => true
  | some d => decide (s.arb.pre + (n - s.arb.got) ≤ 7 * d)

def State.prefetchServed (s : State) (n : Nat) : State :=
  let a := s.arb
  { s with arb := { a with pre := if s.deltaNeed.isSome then a.pre + (n - a.got) else 0, got := 0 } }

/-- A delta ingress of d transfers finishes: no prefetch waits, or 7 of its transfers have gone before each. -/
def State.deltaGrant (s : State) (d : Nat) : Bool :=
  match s.prefetchNeed with
  | none => true
  | some n => decide (7 * d < s.arb.pre + (n - s.arb.got))

def State.deltaServed (s : State) (d : Nat) : State :=
  let a := s.arb
  { s with arb := { a with got := if s.prefetchNeed.isSome then a.got + (7 * d - a.pre) else 0, pre := 0 } }

/-! ### The pager's transfers (R268 to R273, R304 to R306) -/

/-- OFFLOAD_COMPLETE: a record's pages reach host memory, in the arbiter's turn (R271, R273, R304, R305). -/
def execOffloadComplete (x : At SlotId) (h : Nat) (s : State) : Out :=
  match s.act x.what.val h with
  | none => .next s
  | some r =>
    whenever (s.offloadReady r && s.ucieUp && s.outGrant 0 r.pages.length) s
      ((s.offloadDone x.what.val r x.errs).outServed 0 r.pages.length)

/-- PREFETCH_COMPLETE: a record's pages reach its block store, in the arbiter's turn (R269, R272, R273, R306). -/
def execPrefetchComplete (x : At SlotId) (h : Nat) (s : State) : Out :=
  match s.act x.what.val h with
  | none => .next s
  | some r =>
    whenever (s.prefetchReady x.what.val r && s.prefetchGrant r.pages.length) s
      ((s.prefetchDone x.what.val r x.errs).prefetchServed r.pages.length)

/-! ### EGRESS (R225, R264 to R266, R448, R449) -/

/-- s of a task's step (R223, R225). -/
def State.stepExp (s : State) (q : QTask) : Int := s.lossAt q.job q.step

/-- One element of a gradient on its way out: the scaled value, the code sent, and whether it flushed (R208, R225). -/
def egElem (dn bf : Bool) (k : Int) (code : Nat) : FpNum × Nat × Bool :=
  let (x, f1) := (if bf then bf16 else fp32).input dn code
  let (c, f2) := f32 dn (FpNum.mul x (.fin false 1 (-k)))
  (x, c, f1 || f2)

def State.egIn (s : State) (a : BAddr) (bf : Bool) (i : Nat) : Nat := s.rdNAt (a.plus (i * if bf then 2 else 4)) (if bf then 2 else 4)

/-- Norm table key of a region's entry (R264). -/
def normKey (g j i : Nat) : Nat := (g * 64 + j) * 4096 + i

/-- Adds squares of scaled values into a norm table entry, in the order sent (R264). -/
def addSquares (dn : Bool) : Nat → List FpNum → Nat × Bool
  | acc, [] => (acc, false)
  | acc, x :: r =>
    let (sq, f1) := f32 dn (FpNum.mul x x)
    let (sum, f2) := f32 dn (FpNum.add .nearest (v32 acc) (v32 sq))
    let (res, f3) := addSquares dn sum r
    (res, f1 || f2 || f3)

/-- Watch entries of a tensor count the elements sent in the step (R235). -/
def State.watchCount (s : State) (j step tensor : Nat) (codes : List Nat) : State :=
  let es := (List.range 4096).filter fun e =>
    s.rbit (zgwReg e 4) 0 && s.rf (zgwReg e 4) 11 6 == j && s.rn (zgwReg e 0) == tensor
  let nz := (codes.filter fun c => !(v32 c).isZero).length
  s.each (fun s e =>
    let sl := s.slot j
    let k := zgwKey step e
    s.setSlot j { sl with
      zgwN := SMap.set (fun _ => 0) sl.zgwN k (SMap.get (fun _ => 0) sl.zgwN k + codes.length)
      zgwNz := SMap.set (fun _ => 0) sl.zgwNz k (SMap.get (fun _ => 0) sl.zgwNz k + nz) }) es

/-- The first element at which something holds. -/
def firstIdx (p : Nat → Bool) (l : List Nat) : Option Nat := (l.zipIdx.find? fun x => p x.1).map fun x => x.2

/-- Non-finite values that the egress finds: the step's flag, and a NaN report of the first (R219, R227). -/
def State.egNonfinite (s : State) (q : QTask) (tensor : Nat) (codes : List Nat) : State × Bool :=
  match firstIdx (fun c => !(v32 c).isFinite) codes with
  | none => (s, false)
  | some i =>
    let s := s.setNf q.job q.step
    let r : NanRep := { req := 17, unit := 5, op := 0, blk := 0, task := recId q.record, step := q.step, x := i % 65536,
                        y := i / 65536 % 65536, z := tensor % 65536, w := tensor / 65536 }
    (s.nanReport q.job r, true)

/-- The completion record (spec/14): 32 bytes at CPL, then the interrupt. -/
def State.egComplete (s : State) (b : Nat) (r : RTask) (count flags : Nat) : State :=
  let t := r.task.record
  let rec' := leBytes 4 (recF t 0x3C 31 0) ++ leBytes 4 (recF t 0x34 31 0) ++ leBytes 4 r.task.step ++ leBytes 4 count ++
    leBytes 4 flags ++ leBytes 4 r.task.job ++ leBytes 8 0
  match s.hostAcc r.task.job kindXfer 0 (recF t 0x60 63 0) 32 with
  | .err ev => s.hostFail b r.num ev
  | .at a =>
    let s := (s.wr .host a rec').partDone b r.num
    if recF t 0x30 5 5 = 1 then s.msix (9 + r.task.job) else s

/-- An EGRESS task of a block that runs with the given OP. -/
def State.egTask (s : State) (b op : Nat) : Option RTask := s.working b (engMover + 1) 7 fun t => egOp t == op

/-- Reads the elements of a GRAD, SCAN or SEND, counts their poison, forms what is sent. -/
def State.egRead (s : State) (b : Nat) (r : RTask) (errs : List MemErr) : List (FpNum × Nat × Bool) × State :=
  let t := r.task.record
  let a := addrAt r.addrs 0
  let n := egLen t
  let s := s.memErrs errs
  let s := if s.poisonedAt a (n * if egBf16 t then 2 else 4) then s.poisonTask b r.num else s
  ((List.range n).map fun i => egElem (s.denorm r.task.job) (egBf16 t) (s.stepExp r.task) (s.egIn a (egBf16 t) i), s)

/-- The norm table, the step's flag and the flush flag of a GRAD or SCAN (R264, R448). -/
def State.egNorm (s : State) (b : Nat) (r : RTask) (l : List (FpNum × Nat × Bool)) : State × Bool :=
  let t := r.task.record
  let j := r.task.job
  let key := normKey (b / 16) j (egNidx t)
  let (acc, fl) := addSquares (s.denorm j) (s.norm key) (l.map fun x => x.1)
  let s := s.setNorm key acc
  let s := if fl || l.any (fun x => x.2.2) then s.flushed j else s
  let s := if !(v32 acc).isFinite then s.setNf j r.task.step else s
  s.egNonfinite r.task (recF t 0x34 31 0) (l.map fun x => x.2.1)

/-- EGRESS_GRAD (R225, R235, R264, R448). -/
def execEgressGrad (b : BlockId) (errs : List MemErr) (s : State) : Out :=
  let b := b.val
  match s.egTask b 0 with
  | none => .next s
  | some r =>
    whenever (s.ucieUp && s.outGrant 1 (egChunks r.task.record)) s
      (let t := r.task.record
       let s := s.outServed 1 (egChunks t)
       match s.hostAcc r.task.job kindXfer 0 (recF t 0x48 63 0) (4 * egLen t) with
       | .err ev => s.hostFail b r.num ev
       | .at a =>
         let (l, s) := s.egRead b r errs
         let (s, nf) := s.egNorm b r l
         let s := s.watchCount r.task.job r.task.step (recF t 0x34 31 0) (l.map fun x => x.2.1)
         let s := s.wr .host a ((l.map fun x => leBytes 4 x.2.1).flatten)
         s.egComplete b r (egLen t) (b2n nf + 2 * b2n (l.any fun x => x.2.2)))

/-- EGRESS_SCAN: a GRAD without its writes and its watch count (R448). -/
def execEgressScan (b : BlockId) (errs : List MemErr) (s : State) : Out :=
  let b := b.val
  match s.egTask b 1 with
  | none => .next s
  | some r =>
    let (l, s) := s.egRead b r errs
    .next ((s.egNorm b r l).1.partDone b r.num)

/-- EGRESS_SEND: elements multiplied by TS_CLIPFACT (R266, R448). -/
def execEgressSend (b : BlockId) (errs : List MemErr) (s : State) : Out :=
  let b := b.val
  match s.egTask b 2 with
  | none => .next s
  | some r =>
    let t := r.task.record
    let j := r.task.job
    if !s.rbit (tsReg j 0x10) 1 then .next (s.failTask b r.num)
    else
      whenever (s.ucieUp && s.outGrant 1 (egChunks t)) s
        (let s := s.outServed 1 (egChunks t)
         match s.hostAcc j kindXfer 0 (recF t 0x48 63 0) (4 * egLen t) with
         | .err ev => s.hostFail b r.num ev
         | .at a =>
           let (l, s) := s.egRead b r errs
           let c := s.rn (tsReg j 0x20)
           let dn := s.denorm j
           let (cv, cf) := fp32.input dn c
           let out := l.map fun x => let y := f32 dn (FpNum.mul (v32 x.2.1) cv); (y.1, x.2.2 || y.2 || cf)
           let fl := out.any fun x => x.2
           let s := if fl then s.flushed j else s
           let (s, nf) := s.egNonfinite r.task (recF t 0x34 31 0) (out.map fun x => x.1)
           let s := s.watchCount j r.task.step (recF t 0x34 31 0) (out.map fun x => x.1)
           let s := s.wr .host a ((out.map fun x => leBytes 4 x.1).flatten)
           s.egComplete b r (egLen t) (b2n nf + 2 * b2n fl + 4 * b2n (c != 0x3F800000)))

/-- The chip's sum of one norm table entry over the regions, unscaled (R264, R265, R449). -/
def State.normOut (s : State) (q : QTask) (i : Nat) : Nat × Bool :=
  let dn := s.denorm q.job
  let sum := (List.range 16).foldl (fun (acc : Nat × Bool) g =>
    let y := f32 dn (FpNum.add .nearest (v32 acc.1) (v32 (s.norm (normKey g q.job i)))); (y.1, acc.2 || y.2)) (0, false)
  let y := f32 dn ((v32 sum.1).scale (-2 * s.stepExp q))
  (y.1, sum.2 || y.2)

/-- Σ Q of a task's tensors that goes to the window: the accepted norm round's with TS_NORM_CFG.GLOBAL, this device's
otherwise (R265). -/
def State.windowNorms (s : State) (q : QTask) (n : Nat) : List (Nat × Bool) :=
  match (if s.rbit (tsReg q.job 0x10) 0 then s.globalNorms q else none) with
  | some l => (List.range n).map fun i => (l.getD i 0, false)
  | none => (List.range n).map fun i => s.normOut q i

/-- EGRESS_NORM_OUT: the norm tables go to SRC with their fold words at CSUM, or Q goes to the window, with GLOBAL set once the
step's norm round is accepted (R265, R266, R449). -/
def execEgressNormOut (x : At BlockId) (s : State) : Out :=
  let b := x.what.val
  match s.egTask b 3 with
  | none => .next s
  | some r =>
    let t := r.task.record
    let j := r.task.job
    let win := egNidx t == 1
    let dn := s.denorm j
    let c := s.rn (tsReg j 0x20)
    let raw := if win then s.windowNorms r.task (egTens t) else (List.range (egTens t)).map fun i => s.normOut r.task i
    let l := if win && s.rbit (tsReg j 0x10) 1 then
        let (cv, cf) := fp32.input dn c
        let c2 := f32 dn (FpNum.mul cv cv)
        raw.map fun (x, f) => let y := f32 dn (FpNum.mul (v32 x) (v32 c2.1)); (y.1, f || cf || c2.2 || y.2)
      else raw
    let bytes := (l.map fun x => leBytes 4 x.1).flatten
    whenever (!win || (s.ucieUp && s.egressSends r && s.outGrant 1 (egChunks t))) s
      (let s := if win then s.outServed 1 (egChunks t) else s.memErrs x.errs
       let s := if l.any fun x => x.2 then s.flushed j else s
       let (s, nf) := s.egNonfinite r.task (recF t 0x34 31 0) (l.map fun x => x.1)
       if win then
         match s.hostAcc j kindXfer 0 (recF t 0x48 63 0) (4 * egTens t) with
         | .err ev => s.hostFail b r.num ev
         | .at a => (s.wr .host a bytes).egComplete b r (egTens t) (b2n nf + 2 * b2n (l.any fun x => x.2))
       else ((s.wrAt (addrAt r.addrs 0) bytes).wrAt (addrAt r.addrs 1) bytes).partDone b r.num)

/-- c of R266, each operation in FP32 on inputs of R215, and whether a value was flushed (R217). -/
def clipFactor (dn : Bool) (clip : Nat) (qs : List Nat) : Nat × Bool :=
  let sum := qs.foldl (fun (acc : Nat × Bool) q =>
    let (x, f) := fp32.input dn q
    let y := f32 dn (FpNum.add .nearest (v32 acc.1) x); (y.1, acc.2 || f || y.2)) (0, false)
  let root := f32 dn (v32 sum.1).sqrt
  let den := f32 dn (FpNum.add .nearest (v32 root.1) (.fin false 1 (-20)))
  let (top, f) := fp32.input dn clip
  let c := f32 dn (FpNum.div top (v32 den.1))
  let below := (v32 c.1).isFinite && decide (FpNum.cmp (v32 c.1) (.fin false 1 0) = -1) || (v32 c.1).isNaN
  (if below then c.1 else 0x3F800000, sum.2 || root.2 || den.2 || f || c.2)

/-- EGRESS_CLIPFACT: c from the accepted result of the norm round (R266, R449). -/
def execEgressClipfact (b : BlockId) (errs : List MemErr) (s : State) : Out :=
  let b := b.val
  match s.egTask b 4 with
  | none => .next s
  | some r =>
    let t := r.task.record
    let j := r.task.job
    let a := addrAt r.addrs 0
    let s := s.memErrs errs
    let s := if s.poisonedAt a (4 * egTens t) then s.poisonTask b r.num else s
    let qs := (List.range (egTens t)).map fun i => s.rdNAt (a.plus (4 * i)) 4
    let (c, fl) := clipFactor (s.denorm j) (s.rn (tsReg j 0x14)) qs
    let s := if fl then s.flushed j else s
    .next ((s.setRn (tsReg j 0x20) c).partDone b r.num)

/-- EGRESS_DATA: words copied unchanged (R449). -/
def execEgressData (b : BlockId) (errs : List MemErr) (s : State) : Out :=
  let b := b.val
  match s.egTask b 5 with
  | none => .next s
  | some r =>
    let t := r.task.record
    let a := addrAt r.addrs 0
    whenever (s.ucieUp && s.outGrant 1 (egChunks t)) s
      (let s := (s.memErrs errs).outServed 1 (egChunks t)
       let s := if s.poisonedAt a (4 * egLen t) then s.poisonTask b r.num else s
       match s.hostAcc r.task.job kindXfer 0 (recF t 0x48 63 0) (4 * egLen t) with
       | .err ev => s.hostFail b r.num ev
       | .at h => (s.wr .host h (s.rdAt a (4 * egLen t))).egComplete b r (egLen t) 0)

/-! ### INGRESS (R450 to R452) -/

/-- CRC-64 records over granules of 16,384 elements (R451). -/
def crcRecords (g : Nat) : Nat → List Byte → List Byte
  | 0, _ => []
  | _ + 1, [] => []
  | n + 1, l => leBytes 8 (crc64 (l.take g)).toNat ++ crcRecords g n (l.drop g)

def State.inTask (s : State) (b op : Nat) : Option RTask := s.working b engMover 8 fun t => inOp t == op

/-- A store of an INGRESS, in both blocks of a redundant pair (R396). -/
def State.wrBoth (s : State) (b : Nat) (a : BAddr) (l : List Byte) : State :=
  let s := s.wrAt a l
  if a.pool = 0 ∧ a.unit = b ∧ s.paired b then s.wrAt { a with unit := b + 1 } l else s

/-- The CRC records of a task's bytes at CSUM. -/
def State.wrCrcs (s : State) (b : Nat) (r : RTask) (data : List Byte) : State :=
  s.wrBoth b (addrAt r.addrs 1) (crcRecords (16384 * if inBf16 r.task.record then 2 else 4) data.length data)

/-- DELTA and DATA ingress (R451, R452); `bad`: the read's completion is poisoned or an error. -/
def State.ingress (s : State) (b op : Nat) (bad : Bool) (errs : List MemErr) : Out :=
  match s.inTask b op with
  | none => .next s
  | some r =>
    let t := r.task.record
    let n := chunks (inLen t)
    whenever (s.ucieUp && (op != 0 || s.deltaGrant n)) s
      (let s := if op = 0 then s.deltaServed n else s
       match s.hostAcc r.task.job kindXfer 0 (recF t 0x38 63 0) (inLen t) with
       | .err ev => s.hostFail b r.num ev
       | .at h =>
         if bad then s.hostFail b r.num 0x0463
         else
           let data := s.rdBytes .host h (inLen t)
           let s := (s.memErrs errs).wrBoth b (addrAt r.addrs 0) data
           let s := if inCrc t then s.wrCrcs b r data else s
           s.partDone b r.num)

/-- INGRESS_DELTA. -/
def execIngressDelta (x : At BlockId) (bad : Bool) (s : State) : Out := s.ingress x.what.val 0 bad x.errs
/-- INGRESS_DATA. -/
def execIngressData (x : At BlockId) (bad : Bool) (s : State) : Out := s.ingress x.what.val 1 bad x.errs

/-- INGRESS_CRCGEN: the records of R451 over bytes already at DST. -/
def execIngressCrcgen (b : BlockId) (errs : List MemErr) (s : State) : Out :=
  let b := b.val
  match s.inTask b 2 with
  | none => .next s
  | some r =>
    let a := addrAt r.addrs 0
    let s := s.memErrs errs
    let s := if s.poisonedAt a (inLen r.task.record) then s.poisonTask b r.num else s
    .next ((s.wrCrcs b r (s.rdAt a (inLen r.task.record))).partDone b r.num)

/-- The head task of mover 0 is an INGRESS that waits for its doorbell alone (R450). -/
def State.doorbellWait (s : State) (b : Nat) : Option (Nat × QTask) :=
  (heads (s.block b).queue [] 0).find? fun (_, q) =>
    recKind q.record == 8 && ((s.block b).on engMover).isEmpty && !s.accepts b q && s.countersMine b q && s.waitsOk b q

/-- INGRESS_TIMEOUT: it has waited XF_CTL.TO ms and fails (R450). -/
def execIngressTimeout (b : BlockId) (s : State) : Out :=
  let b := b.val
  match s.doorbellWait b with
  | none => .next s
  | some (i, q) =>
    whenever (decide (s.rf (xfReg q.job 4) 15 0 ≤ q.waitMs)) s
      (let B := s.block b
       let s := s.setBlock b { B with queue := B.queue.zipIdx.filterMap fun (x, k) => if k = i then none else some x }
       (s.setBit (xfReg q.job 8) 0).issue b q (some 0x0462))

/-! ### UPDATE (R453, R103 to R109, R12, R615) -/

/-- Counts of one UPDATE: non-finite deltas, clamps, and the sum of d_i (R398). -/
structure UpdAcc where
  nf     : Nat
  clamps : Nat
  sumDi  : Int
  stop   : Bool
  deriving DecidableEq, Repr

/-- One element of the delta vector (R103 to R106, R109, R138). -/
def State.updateOne (s : State) (b : Nat) (r : RTask) (u : Nat) (I : TierInfo) (acc : UpdAcc) (row col : Nat) :
    State × UpdAcc :=
  let t := r.task.record
  let w := if upBf16 t then 2 else 4
  let a := (addrAt r.addrs 0).plus ((1024 * row + col) * w)
  let j := r.task.job
  if acc.stop then (s, acc)
  else if s.poisonedAt a w then (s, { acc with stop := true })
  else
    let (d, fl) := (if upBf16 t then bf16 else fp32).input (s.denorm j) (s.rdNAt a w)
    let s := if fl then s.flushed j else s
    if !d.isFinite then (s, { acc with nf := acc.nf + 1 })
    else
      match s.recBad I u row col with
      | some ev => (s.badEvent u ev, acc)
      | none =>
        let (g, s) := s.drawRound b r.num 1
        let (di, c1) := intDelta I.dslice (s.sums j) I.sigma (g 0) d
        let old := s.rdRec I u row col
        if r.reran then (s, { acc with sumDi := acc.sumDi + di }) else
        let (new, n, c2) := carryUpdate I.dslice old di (s.rf (blockReg b 0x2000) 3 0)
        let s := if n ≠ 0 then
            (s.queueCarry I u row col (some ((s.slot j).epoch + 1)) (some j) old new)
          else s
        let s := s.wrRec I u row col new
        let s := if n ≠ 0 then s.journalCode I u row col (recCode I.dslice old) (recCode I.dslice new) else s
        (s, { acc with clamps := acc.clamps + b2n (c1 || c2), sumDi := acc.sumDi + di })

/-- The elements of a piece in the order of the vector. -/
def pieceElems (rows cols : Nat) : List (Nat × Nat) :=
  ((List.range rows).map fun r => (List.range cols).map fun c => (r, c)).flatten

/-- UPDATE_TASK: the carry engine applies a piece's delta vector after the verdict of its step (R453, R12, R15,
R103 to R106, R109, R110, R138, R615). -/
def execUpdateTask (b : BlockId) (errs : List MemErr) (s : State) : Out :=
  let b := b.val
  match s.working b engCarry 6 fun _ => true with
  | none => .next s
  | some r =>
    let t := r.task.record
    let j := r.task.job
    let u := upTier t + (if r.odd then 512 else 0)
    let I := s.tier u
    let sl := s.slot j
    let named := match I.tensor with
      | some n => (sl.tensors.find? fun x => x.1 = n).map fun x => x.2
      | none => none
    match named with
    | none => .next (s.failTask b r.num)
    | some writable =>
      if u / 512 ≠ b ∨ (I.dslice ∧ u / 8 % 2 = 1) then .next (s.failTask b r.num)
      else if sl.skipped.contains r.task.step then .next (s.partDone b r.num)
      else if !writable then
        .next (((s.setBit (blockReg b 0x200C) 5).raiseJ 0x0932 2 b j (recId t)).partDone b r.num)
      else
        let s := s.memErrs errs
        let (s, acc) := (pieceElems I.rows I.cols).foldl
          (fun (st : State × UpdAcc) (rc : Nat × Nat) => st.1.updateOne b r u I st.2 rc.1 rc.2)
          (s, { nf := 0, clamps := 0, sumDi := 0, stop := false })
        let ev (s : State) (code bit n : Nat) : State :=
          if n = 0 then s
          else (s.setBit (blockReg b 0x200C) bit).report
            { code := code, kind := 2, unit := b, job := j, task := recId t, count := n }
        let s := ev (ev s 0x0931 2 acc.clamps) 0x0930 4 acc.nf
        let s := s.modRun b r.num fun x => { x with sumDi := acc.sumDi }
        if acc.stop then .next (s.failTask b r.num) else .next (s.partDone b r.num)

end Sys2Proof.Machine
end

