-- ==== Sys2Proof/Machine/Redund.lean ====
section
/-!
DEFINITION. Sys2Proof/Machine/Redund.lean: full redundancy mode (spec/12, R396 to R402): the comparison of the two
copies of a task.
-/
namespace Sys2Proof.Machine

/-- A record that a TILE_READ task has written, of 4,160 bytes at a block-store address. -/
structure OutRec where
  exp    : Nat
  flags  : Nat
  phases : Nat
  sums   : List Int
  deriving DecidableEq, Repr

def State.readRec (s : State) (b a : Nat) : OutRec :=
  { exp := s.rdN (.bs b) a 2
    flags := s.rdN (.bs b) (a + 2) 2
    phases := s.rdN (.bs b) (a + 4) 2
    sums := (List.range 1024).map fun c => i32 (s.rdN (.bs b) (a + 64 + 4 * c) 4) }

/-- R399 for one request: the two records, q and TOL. -/
def recsAgree (q tol : Nat) (x y : OutRec) : Bool :=
  x.exp == y.exp && bit x.flags 0 == bit y.flags 0 && !bit x.flags 3 && !bit y.flags 3 &&
  (x.sums.zip y.sums).all fun (p, r) => decide ((p - r).natAbs ≤ q * (tol + 16 * max x.phases y.phases))

/-- Byte addresses of the output records of a TILE_READ task. -/
def RTask.outAddrs (r : RTask) : List Nat :=
  let t := r.task.record
  (List.range (trVecs t)).map fun v => (addrAt r.addrs 1).abs + v * recF t 0x48 22 0

/-- The memory that `Space.code` numbers. -/
def codeSpace (c : Nat) : Space := if c < 256 then .bs c else if c = 272 then .host else .hbm (c - 256)

/-- The CRC-64 over the bytes that a task wrote, in increasing address order (R398). -/
def State.writeCrc (s : State) (r : RTask) : Nat :=
  let sorted := r.writes.mergeSort fun x y => decide (x.1 < y.1) || (x.1 == y.1 && decide (x.2.1 ≤ y.2.1))
  (crc64 ((sorted.map fun w => s.rdBytes (codeSpace w.1) w.2.1 w.2.2.length).flatten)).toNat

/-- The comparison of R398 and R399 of the two copies of a task of even block b. -/
def State.copiesAgree (s : State) (b : Nat) (x y : RTask) : Bool :=
  match recKind x.task.record with
  | 1 =>
    let tile := b * 64 + trTile x.task.record
    let q := 2 ^ s.rf (tileReg tile 0) 2 0
    let tol := s.rf (blockReg b 0x800) 15 8
    x.outAddrs.all fun a => recsAgree q tol (s.readRec b a) (s.readRec (b + 1) a)
  | 6 => (crc64 (leBytes 8 (enc2c 64 x.sumDi))).toNat == (crc64 (leBytes 8 (enc2c 64 y.sumDi))).toNat
  | _ => s.writeCrc x == s.writeCrc y

/-- R400: the odd block's output records become the even block's. -/
def State.copyRecords (s : State) (b : Nat) (x : RTask) : State :=
  s.each (fun s (a : Nat) => s.wr (.bs (b + 1)) a (s.rdBytes (.bs b) a 4160)) x.outAddrs

/-- A copy starts again from its unchanged inputs: the bytes it wrote are as they were (R402). -/
def State.rerunCopy (s : State) (b num : Nat) : State :=
  let olds := match s.run b num with | some r => r.writes.reverse | none => []
  let s := s.each (fun s (w : Nat × Nat × List Byte) => s.wr (codeSpace w.1) w.2.1 w.2.2) olds
  let s := s.modRun b num fun r =>
    { r with left := taskParts r.task.record, sent := 0, writes := [], sumDi := 0, rng := 0, reran := true }
  match s.run b num with
  | some r => s.startTask b r
  | none => s

/-- A copy that starts again finds room: the matrix core's queue holds at most 8 requests (R143). -/
def State.rerunRoom (s : State) (b : Nat) (x : RTask) : Bool :=
  recKind x.task.record != 2 || (decide ((s.block b).mc.queue.length < 8) && decide ((s.block (b + 1)).mc.queue.length < 8))

/-- What both blocks of a pair record of a miscompare: its status bit, LAST_TASK, its count and its event (R402). -/
def State.miscompare (s : State) (b id : Nat) (rep : Bool) (job : Nat) : State :=
  s.each (fun s (x : Nat) =>
    let s := s.setBit (blockReg x 0x804) (if rep then 1 else 0)
    let s := s.setRf (blockReg x 0x804) 31 16 (id % 65536)
    let s := if rep then s.bump (blockReg x 0x808) 31 16 1 else s.bump (blockReg x 0x808) 15 0 1
    s.raiseJ (if rep then 0x0281 else 0x0280) 2 x job id) [b, b + 1]

/-- REDUNDANCY_COMPARE: both copies of a task of even block b have ended and are compared: the task passes, re-runs
once (when the matrix cores have room for its request, R143), or passes on poisoned (R398 to R402). -/
def execRedundancyCompare (b : BlockId) (num : Nat) (s : State) : Out :=
  let b := b.val
  match s.run b num, s.run (b + 1) num with
  | some x, some y =>
    whenever (x.redundant && y.odd && x.left == 0 && y.left == 0 && !x.passed &&
        (x.reran || s.rerunRoom b x || s.copiesAgree b x y)) s
      (let id := recId x.task.record
       let pass (s : State) : State :=
         (s.modRun b num fun r => { r with passed := true }).modRun (b + 1) num fun r => { r with passed := true }
       if s.copiesAgree b x y then
         let s := if recKind x.task.record = 1 then s.copyRecords b x else s
         pass (if x.reran then s.miscompare b id false x.task.job else s)
       else if x.reran then
         pass (((s.miscompare b id true x.task.job).poisonTask b num).poisonTask (b + 1) num)
       else (s.rerunCopy b num).rerunCopy (b + 1) num)
  | _, _ => .next s

/-! ### Areas of a tensor in the home stacks (R303) -/

/-- Firmware allocates pages of region g's home stack: the handle, or none. -/
def State.fwAlloc (s : State) (g pages : Nat) : Option Nat × State :=
  let q : AllocReq := { op := 0, pool := 1, block := 0, job := 0, fw := true, pages := pages, zero := false, wait := false, handle := 0, reg := 0,
                        by_ := .firmware, region := g, waitMs := 0 }
  let s := s.allocate q
  let r := (s.alloc g).last
  (if r.status = 0 then some r.handle else none, s)

/-- Shadow and fold handles for n pieces: 3 MiB and 1 MiB each, in 2 MiB pages. -/
def State.areaAlloc (s : State) (g n : Nat) : Option (Nat × Nat) × State :=
  match s.fwAlloc g ((3 * n + 1) / 2) with
  | (none, s) => (none, s)
  | (some a, s) =>
    match s.fwAlloc g ((n + 1) / 2) with
    | (some b, s) => (some (a, b), s)
    | (none, s) => (none, s.release (fwReq 1 a g))

def State.areaFree (s : State) (g : Nat) (x : Nat × Nat) : State := (s.release (fwReq 1 x.1 g)).release (fwReq 1 x.2 g)

/-- First byte of a handle's pages in its stack. -/
def State.areaBase (s : State) (h : Nat) : Nat := (s.hentry h).base * 2097152

/-- Pieces of a tensor in region g, in increasing index (R475). -/
def Tensor.inRegion (x : Tensor) (g : Nat) : SMap (Nat × Nat × Nat × Int) := x.pieces.filter fun (_, u, _) => u / 8192 == g

/-- A tile tier, or both tiers of a double-slice piece. -/
def pieceUnits (ds : Bool) (u : Nat) : List Nat := if ds then [u, u + 8] else [u]

/-- Tile tiers of every piece of a tensor. -/
def Tensor.units (x : Tensor) : List Nat := (x.pieces.map fun (_, u, _) => pieceUnits (x.layout == 1) u).flatten

/-- The tiers at u are reserved for piece i of tensor n, whose areas begin at the addresses given (R475). -/
def State.reserve (s : State) (n i : Nat) (ds : Bool) (u : Nat) (p : Nat × Nat × Int) (shadow fold : Nat) : State :=
  s.each (fun s v =>
    let I := s.tier v
    s.setTier v { I with
      tensor := some n, piece := i, dslice := ds, rows := p.1, cols := p.2.1, sigma := p.2.2, shadow := shadow, fold := fold }) (pieceUnits ds u)

/-- The tier is FREE and reserved for nothing. -/
def State.unused (s : State) (u : Nat) : Bool := s.tierState u == stFree && (s.tier u).tensor.isNone && !s.underway u

/-- Nothing goes on in the tier any more: its queued carries, its procedures and their rows are gone, with the folds that
wait, its cells untouched; the free tier that a coppice was writing for it is FREE again (R137, R434). -/
def State.quietTier (s : State) (u : Nat) : State :=
  let T := s.tile (u / 8)
  let k := u % 8
  let new := T.procs.filterMap fun p => if p.tier = k ∧ p.target ≠ k then some (u / 8 * 8 + p.target) else none
  let s := s.setTile (u / 8) { T with
    carries := T.carries.filter (fun c => c.tier != k), procs := T.procs.filter (fun p => p.tier != k && p.target != k)
    row := match T.row with | some r => if r.carry.tier = k ∨ r.src = k then none else some r | none => none }
  let B := s.block (u / 512)
  let s := s.setBlock (u / 512) { B with
    folds := B.folds.filter (fun q => q.unit != u), deferred := B.deferred.filter fun q => q.unit != u }
  ((s.setHold u false).setTierReadEn u false).each State.makeFree new

/-- R137: the tier is given up. -/
def State.dropTier (s : State) (u : Nat) : State := (s.quietTier u).makeFree u

/-! ### The second copies (R396) -/

/-- The tile 64 tiles on holds a copy of piece i of tensor n. -/
def State.twinOf (s : State) (n i u : Nat) : Option Nat :=
  ((List.range 8).map fun k => (u / 8 + 64) * 8 + k).find? fun v => (s.tier v).tensor == some n && (s.tier v).piece == i

/-- Copies of the pieces of tensor n in region g that have none yet: at the same tile and tier of the odd block, with
areas of their own that hold the records of the first copy. -/
def State.makeTwinsIn (s : State) (j n g : Nat) (x : Tensor) : Bool × State :=
  let ds := x.layout == 1
  let todo := (x.inRegion g).filter fun (i, u, _) => u / 512 % 2 == 0 && (s.twinOf n i u).isNone
  if todo.isEmpty then (true, s)
  else if !(todo.all fun (_, u, _) => (pieceUnits ds (u + 512)).all s.unused) then (false, s)
  else
    match s.areaAlloc g todo.length with
    | (none, s) => (false, s)
    | (some (a, b), s) =>
      let sl := s.slot j
      let s := s.setSlot j { sl with twinH := sl.twinH ++ [(n, g, a, b)] }
      (true, s.each (fun s (y : (Nat × Nat × Nat × Nat × Int) × Nat) =>
        let (i, u, p) := y.1
        let sh := s.areaBase a + y.2 * 3145728
        let fo := s.areaBase b + y.2 * 1048576
        let I := s.tier u
        let s := s.wr (.hbm g) sh (s.rdBytes (.hbm g) I.shadow 3145728)
        let s := s.wr (.hbm g) fo (s.rdBytes (.hbm g) I.fold 1048576)
        let s := s.reserve n i ds (u + 512) p sh fo
        s.each State.startLoad (pieceUnits ds (u + 512))) todo.zipIdx)

/-- Every resident tensor of a redundant job gets its second copies; false when a tier or pages are not free. -/
def State.makeTwins (s : State) (j : Nat) : Bool × State :=
  if !bit (s.slot j).flags 1 then (true, s)
  else
    ((s.slot j).tensors.map fun t => (List.range 16).map fun g => (t.1, g)).flatten.foldl (fun r (n, g) =>
      match r.2.tensor n with
      | some x => if x.state = 5 then let (ok, s) := r.2.makeTwinsIn j n g x; (r.1 && ok, s) else r
      | none => r) (true, s)

/-- Another redundant job names the tensor. -/
def State.twinHeir (s : State) (j n : Nat) : Option Nat :=
  (List.range 64).find? fun k => k != j && s.admitted k && bit (s.slot k).flags 1 && (s.slot k).tensors.any fun t => t.1 == n

/-- The second copies of tensor n in region g are given up, with their areas. -/
def State.dropCopies (s : State) (n g a b : Nat) : State :=
  let own := match s.tensor n with | some x => x.units | none => []
  let copies := s.tiers.filter fun (u, I) => I.tensor == some n && u / 8192 == g && u / 512 % 2 == 1 && !own.contains u
  (s.each (fun s (z : Nat × TierInfo) => s.dropTier z.1) copies).areaFree g (a, b)

/-- A released tensor's second copies go with it, whichever job they were made for (R137, R396). -/
def State.releaseCopies (s : State) (n : Nat) : State :=
  s.each (fun s j =>
    let sl := s.slot j
    let (mine, others) := sl.twinH.partition fun y => y.1 == n
    (s.setSlot j { sl with twinH := others }).each (fun s (_, g, a, b) => s.dropCopies n g a b) mine) (List.range 64)

/-- The second copies of a job's tensors are given up, or pass to another redundant job that names the tensor. -/
def State.dropTwins (s : State) (j : Nat) : State :=
  let sl := s.slot j
  let s := s.setSlot j { sl with twinH := [] }
  s.each (fun s (y : Nat × Nat × Nat × Nat) =>
    let (n, g, a, b) := y
    match s.twinHeir j n with
    | some k => let so := s.slot k; s.setSlot k { so with twinH := so.twinH ++ [y] }
    | none => s.dropCopies n g a b) sl.twinH

end Sys2Proof.Machine
end

