-- ==== Sys2Proof/Machine/Fabric.lean ====
section
/-!
DEFINITION. Sys2Proof/Machine/Fabric.lean: sending over the rhizome links (spec/11, R346, R348, R352 to R357): what a
port carries, flow control, the routing table, and messages of the device's own.
-/
namespace Sys2Proof.Machine

/-- LP_STATUS.STATE of a logical port. -/
def State.lpState (s : State) (p : Nat) : Nat := s.rf (lportReg p 0) 2 0
def lpDisabled : Nat := 0
def lpTraining : Nat := 1
def lpHello : Nat := 2
def lpUp : Nat := 3
def lpMgmt : Nat := 4
def lpFault : Nat := 5

/-- Collective classes flow in READY, RUNNING and DRAINING only (R348). -/
def State.collectiveOk (s : State) : Bool := s.dev == .ready || s.dev == .running || s.dev == .draining

/-- The port can carry the class (spec/11, port states; R348). -/
def State.carries (s : State) (p cls : Nat) : Bool :=
  let st := s.lpState p
  (cls ≤ 2 || s.collectiveOk) &&
    (if st = lpUp then true else if st = lpMgmt then cls ≤ 2 else st == lpHello && cls == 0)

/-- Virtual channel of a class (R356). -/
def classVc (cls : Nat) : Nat := match cls with | 0 => 0 | 1 => 0 | 2 => 1 | 3 => 2 | _ => 3

/-- Payload of one flit (R343, R528). -/
def State.flitBytes (s : State) (p : Nat) : Nat := if s.rf (linkReg (p / 2) 0) 4 3 = 1 then 480 else 496
/-- Flits of a message: header, payload and CRC-32C. -/
def State.flitsOf (s : State) (p len : Nat) : Nat := (len + 20 + s.flitBytes p - 1) / s.flitBytes p

/-- Frees `n` flits of a receive buffer: the peer regains its credits (R357). -/
def State.freeBuffer (s : State) (p vc n : Nat) : State := s.emit (.credit p vc n)

/-- The message of a channel that sends the next flit, when the channel has a credit: of the messages at the heads of the
queues that each ingress port has, those whose class the port carries, the first at or after the pointer (R357). -/
def Port.nextOn (P : Port) (ok : Nat → Bool) (vc : Nat) : Option TxMsg :=
  if P.credits.getD vc 0 = 0 then none
  else
    let heads := ((List.range 33).filterMap fun i => P.txQ.find? fun m => classVc m.cls == vc && m.src == i).filter fun m => ok m.cls
    match heads.find? fun m => decide (P.inPtr.getD vc 0 ≤ m.src) with
    | some m => some m
    | none => heads.head?

/-- The channel that sends the next flit, with the turn that follows: channel 0 first, channel 2 second, then channel 1 for a
flit and channel 3 for up to 15 flits in turn (R357). -/
def Port.nextChannel (P : Port) (ok : Nat → Bool) : Option (TxMsg × Nat) :=
  let on (vc turn : Nat) : Option (TxMsg × Nat) := (P.nextOn ok vc).map fun m => (m, turn)
  let share := if P.turn = 0 then (on 1 15).orElse fun _ => on 3 14 else (on 3 (P.turn - 1)).orElse fun _ => on 1 15
  ((on 0 P.turn).orElse fun _ => on 2 P.turn).orElse fun _ => share

/-- Adds a flit to the replay buffer (R358). -/
def addReplay (m : OutMsg) (l : List (Nat × OutMsg)) : List (Nat × OutMsg) :=
  match l.getLast? with
  | some (n, x) => if x = m then l.dropLast ++ [(n + 1, m)] else l ++ [(1, m)]
  | none => [(1, m)]

/-- The oldest `n` flits of the replay buffer are acknowledged (R358). -/
def ackReplay : Nat → List (Nat × OutMsg) → List (Nat × OutMsg)
  | _, [] => []
  | n, (k, m) :: l => if n < k then (k - n, m) :: l else ackReplay (n - k) l

/-- A flit of a message goes out: it takes a credit and enters the replay buffer; the pointers advance (R357, R358). -/
def Port.sendFlit (P : Port) (m : TxMsg) (turn : Nat) : Port :=
  let vc := classVc m.cls
  let q := if m.left ≤ 1 then P.txQ.erase m
    else P.txQ.zipIdx.map fun (x, i) => if P.txQ.idxOf? m = some i then { x with left := x.left - 1 } else x
  { P with txQ := q, turn := turn, inPtr := setAt P.inPtr vc ((m.src + 1) % 33), credits := setAt P.credits vc (P.credits.getD vc 0 - 1)
           txFlits := P.txFlits + 1, replay := addReplay m.msg P.replay }

/-- The flits of a port go out while there are credits; the last of a message completes it, and frees the receive buffer
that a forwarded message has held (R357). -/
def State.drainFlits (p : Nat) : Nat → State → State
  | 0, s => s
  | n + 1, s =>
    match (s.port p).nextChannel (s.carries p) with
    | none => s
    | some (m, turn) =>
      let s := s.setPort p ((s.port p).sendFlit m turn)
      let s := if m.left ≤ 1 then
          let s := s.emit m.msg
          if m.src < 32 then s.freeBuffer m.src (classVc m.cls) m.held else s
        else s
      State.drainFlits p n s

/-- Every flit that may go out of a port goes out. -/
def State.drainPort (s : State) (p : Nat) : State := State.drainFlits p ((s.port p).txQ.map fun m => m.left).sum s

/-- A message of `len` payload bytes from an ingress port (32: the device's own) goes out on a port, as its channel has
credits. -/
def State.sendFrom (s : State) (src p cls len : Nat) (m : OutMsg) : State :=
  let P := s.port p
  (s.setPort p { P with txQ := P.txQ ++ [{ cls := cls, src := src, left := s.flitsOf p len, held := s.flitsOf src len, msg := m }] }).drainPort p

/-- A message of the device's own goes out on a port. -/
def State.sendOn (s : State) (p cls len : Nat) (m : OutMsg) : State := s.sendFrom 32 p cls len m

/-- The routing entry of a device ID (R352). -/
def State.routeEntry (s : State) (d : Nat) : Nat := bits (s.rn (0x30000 + d / 2 * 4)) (d % 2 * 16 + 15) (d % 2 * 16)

/-- The port that a message of the class to device d leaves by (R353). -/
def State.routePort (s : State) (d cls : Nat) : Option Nat :=
  let e := s.routeEntry d
  if bit e 5 && s.carries (bits e 4 0) cls then some (bits e 4 0)
  else if bit e 11 && s.carries (bits e 10 6) cls then some (bits e 10 6)
  else none

def State.ownId (s : State) : Nat := s.rf 0x34000 12 0
def State.idValid (s : State) : Bool := s.rbit 0x34000 13

def clsMgmt : Nat := 2
def clsBeat : Nat := 3
def clsChdr : Nat := 4
def clsCdata : Nat := 5

/-- A message of the device's own sets out (R353, R354): `mk` makes it from its port and sequence number. `via`: the
port of its first hop, for a collective's rail (R360). Answers whether it could go. -/
def State.sendVia (s : State) (via : Option Nat) (dst cls len : Nat) (mk : Nat → Nat → OutMsg) : Bool × State :=
  let k := cls * 8192 + dst
  let seq := SMap.get (fun _ => 0) s.fab.seqs k
  if !s.idValid then (false, s)
  else
    let port := match via with
      | some p => if s.carries p cls then some p else s.routePort dst cls
      | none => s.routePort dst cls
    match port with
    | none => (false, s.raise 0x0510 0 0)
    | some p =>
      let s := { s with fab := { s.fab with seqs := SMap.set (fun _ => 0) s.fab.seqs k ((seq + 1) % 2 ^ 32) } }
      (true, s.sendOn p cls len (mk p seq))

/-- A message with a payload of bytes; one to the device itself is delivered locally (R353). -/
def State.sendMsg (s : State) (via : Option Nat) (dst cls tag : Nat) (payload : List Byte) : Bool × State :=
  if s.idValid ∧ dst = s.ownId then (true, s.emit (.own s.ownId cls tag payload))
  else s.sendVia via dst cls payload.length fun p seq => .routed p s.ownId dst cls 63 seq tag payload

/-- A MGMT message to a device, or link-local on a port, which needs no device ID (R351). Answers whether it could go. -/
def State.sendMgmt (s : State) (link : Option Nat) (dst tag : Nat) (payload : List Byte) : Bool × State :=
  match link with
  | none => s.sendMsg none dst clsMgmt tag payload
  | some p =>
    if s.carries p clsMgmt then (true, s.sendOn p clsMgmt payload.length (.linkLocal p s.ownId clsMgmt tag payload)) else (false, s)

/-- A field that hellos carry has changed: every port that sends hellos sends one within 1 ms (R346). -/
def State.helloChanged (s : State) : State :=
  s.each (fun s p =>
    if [lpHello, lpUp, lpMgmt].contains (s.lpState p) then s.setPort p { s.port p with changed := true } else s) (List.range 32)

/-- States in which ALERT_N, and in which REPLACE_N, is asserted (R595). -/
def DevState.alert (d : DevState) : Bool := d == .draining || d == .flagged || d == .glade
def DevState.replace (d : DevState) : Bool := d == .flagged

/-- The sideband outputs follow the device state (R595). -/
def State.pins (s : State) (old new : DevState) : State :=
  let s := if old.alert = new.alert then s else s.emit (.alert new.alert)
  if old.replace = new.replace then s else s.emit (.replaceMe new.replace)

/-- The device state changes (R4, R5). -/
def State.setDev (s : State) (d : DevState) : State := ({ s.pins s.dev d with dev := d } : State).helloChanged

/-- A Ciand message travels over the links, routed or link-local, in segments of 4,096 bytes (R487). -/
def State.sendSegments (s : State) (link : Option Nat) (dst box : Nat) : Nat → Nat → List Byte → Bool × State
  | 0, _, _ => (true, s)
  | n + 1, i, l =>
    let rest := l.drop 4096
    let tag := box % 4 + (if rest.isEmpty then 4 else 0) + i * 8
    let (ok, s) := s.sendMgmt link dst tag (l.take 4096)
    if rest.isEmpty || !ok then (ok, s) else s.sendSegments link dst box n (i + 1) rest

end Sys2Proof.Machine
end

