-- ==== Sys2Proof/Machine/Links.lean ====
section
/-!
DEFINITION. Sys2Proof/Machine/Links.lean: the logical ports (spec/11, R342 to R359; spec/17, R525 to R530) and time
synchronisation (R383 to R386).
-/
namespace Sys2Proof.Machine

/-! ### States of a port -/

/-- A port enters a state: STATE, CHANGED, and event 0x0500 on UP or MGMT_ONLY. -/
def State.lpEnter (s : State) (p st : Nat) : State :=
  if s.lpState p = st then s
  else
    let s := (s.setRf (lportReg p 0) 2 0 st).setBit (lportReg p 0) 16
    if st = lpUp ∨ st = lpMgmt then s.raise 0x0500 5 p else s

/-- The time parent's port has left UP and MGMT_ONLY: holdover (R386). -/
def State.parentLost (s : State) (p : Nat) : State :=
  if s.rbit 0x34088 6 && !s.rbit 0x34088 5 && s.rf 0x34088 4 0 == p && s.fab.locked && !s.rbit 0x3408C 1 then
    ((({ s with fab := { s.fab with offset := 0 } }.setRf 0x3408C 0 0 0).setBit 0x3408C 1).setBit 0x3408C 3).raise 0x0531 0 0
  else s

/-- A port goes back to a state in which it carries nothing: its flits in flight, its keys and timers are gone. -/
def State.lpReset (s : State) (p st : Nat) : State :=
  let was := s.lpState p
  let s := (s.lpEnter p st).setPort p Port.init
  let s := (s.setRf (lportReg p 0) 3 3 0).setRf (lportReg p 0) 7 4 0
  if was = lpUp ∨ was = lpMgmt then s.parentLost p else s

/-- Link down: TRAINING, event 0x0501 (R349). -/
def State.lpDown (s : State) (p : Nat) : State := (s.lpReset p lpTraining).raise 0x0501 5 p

/-- A port enters FAULT and erases its keys (R530, R532, R534). -/
def State.lpFail (s : State) (p : Nat) : State := s.lpReset p lpFault

/-- The port exists: half 0, or half 1 of a bifurcated port (R344). -/
def State.lpExists (s : State) (p : Nat) : Bool := p % 2 == 0 || s.rbit (linkReg (p / 2) 0) 2

/-- EN of a logical port. -/
def State.lpEn (s : State) (p : Nat) : Bool := s.rbit (linkReg (p / 2) 0) (p % 2)

def State.helloState (s : State) (p : Nat) : Bool := [lpHello, lpUp, lpMgmt].contains (s.lpState p)

/-- What a write of LINK_CFG that has changed `old` to its present value does to the port's halves: an enable starts
training, and is the only way out of FAULT; a disable ends in DISABLED (R344, R530). -/
def State.linkCfgEffect (s : State) (port old : Nat) : State :=
  let s := s.each (fun s h =>
    let p := 2 * port + h
    let on := s.lpEn p && s.lpExists p
    if on then
      (if s.lpState p = lpDisabled ∨ s.lpState p = lpFault then s.lpReset p lpTraining else s)
    else if s.lpState p = lpDisabled then s else s.lpReset p lpDisabled) [0, 1]
  if bits old 4 3 = s.rf (linkReg port 0) 4 3 then s
  else s.each (fun s p => if s.helloState p then s.setPort p { s.port p with changed := true } else s) [2 * port, 2 * port + 1]

/-! ### Training (R345) -/

/-- LINK_TRAINING_DONE: training of a logical port ends; bit i of `lanes` says that lane i trained fully (R345). -/
def execLinkTrainingDone (p : PortId) (lanes : Nat) (s : State) : Out :=
  let p := p.val
  let P := s.port p
  let half (h : Nat) : Bool := bits lanes (4 * h + 3) (4 * h) == 15
  let up (s : State) (n : Nat) (deg : Bool) : State :=
    let s := ((s.lpEnter p lpHello).setRf (lportReg p 0) 7 4 n).setRf (lportReg p 0) 3 3 (b2n deg)
    let s := s.setPort p { Port.init with changed := true }
    if deg then s.raise 0x0503 5 p else s
  whenever (s.lpState p == lpTraining && s.lpEn p && !P.trainFailed) s
    (if s.rbit (linkReg (p / 2) 0) 2 then
       if half (p % 2) then up s 4 false else s.setPort p { P with trainFailed := true, trainMs := 0 }
     else if half 0 && half 1 then up s 8 false
     else if half 0 || half 1 then up s 4 true
     else s.setPort p { P with trainFailed := true, trainMs := 0 })

/-- LINK_TRAINING_RETRY: a port that did not train tries again after 1 s (R345). -/
def execLinkTrainingRetry (p : PortId) (s : State) : Out :=
  let P := s.port p.val
  whenever (s.lpState p.val == lpTraining && P.trainFailed && decide (1000 ≤ P.trainMs)) s
    (s.setPort p.val { P with trainFailed := false, trainMs := 0 })

/-! ### Hello (R346 to R350) -/

/-- The 64 bytes of a hello. -/
def State.helloBytes (s : State) (p : Nat) : List Byte :=
  leBytes 2 1 ++ leBytes 2 (b2n s.idValid + 2 * b2n (s.rf (linkReg (p / 2) 0) 4 3 == 1)) ++ leBytes 2 s.ownId ++ leBytes 1 p ++
  leBytes 1 s.dev.code ++ leBytes 4 (s.rn 0x34010) ++ leBytes 4 (s.rf (lportReg p 0) 7 4) ++
  leBytes 4 (s.rn 0x34020) ++ leBytes 4 (s.rn 0x34024) ++ leBytes 8 Config.serial.toNat ++ leBytes 32 0

/-- HELLO_SEND: a port sends its hello, at its interval or after a change (R346). -/
def execHelloSend (p : PortId) (s : State) : Out :=
  let p := p.val
  let P := s.port p
  whenever (s.helloState p && (P.changed || decide (s.rf (linkReg (p / 2) 0) 15 8 ≤ P.helloMs))) s
    ((s.setPort p { P with changed := false, helloMs := 0 }).sendOn p 0 64 (.hello p (s.helloBytes p)))

/-- Bits of a received payload at a byte offset. -/
def byteN (l : List Byte) (off n : Nat) : Nat := leNat ((l.drop off).take n)

/-- HELLO_RECEIVE: a hello arrives (R347, R350, R525). -/
def execHelloReceive (p : PortId) (payload : List Byte) (s : State) : Out :=
  let p := p.val
  whenever (s.helloState p && payload.length == 64) s
    (let flags := byteN payload 2 2
     let id := byteN payload 4 2 % 8192
     let cfgPre := byteN payload 0x10 8
     let s := s.setRn (lportReg p 4) (id + flags % 2 * 8192 + byteN payload 6 1 % 32 * 16384 + byteN payload 7 1 % 8 * 2 ^ 19)
     let s := s.setRn (lportReg p 8) (byteN payload 8 4)
     let s := (s.setRn (lportReg p 12) (cfgPre % 2 ^ 32)).setRn (lportReg p 16) (cfgPre / 2 ^ 32)
     let s := (s.freeBuffer p 0 (s.flitsOf p 64)).setPort p { s.port p with missMs := 0, peerSerial := byteN payload 0x18 8 }
     let enc := s.rf (linkReg (p / 2) 0) 4 3 == 1
     let dup := bit flags 0 && s.idValid && id == s.ownId
     let ver := byteN payload 0 2 == 1 && bit flags 1 == enc
     let pre := cfgPre == s.rn 0x34020 + s.rn 0x34024 * 2 ^ 32
     if dup || !(ver && pre) then
       let was := s.lpState p
       let s := (s.lpEnter p lpMgmt).setPort p { s.port p with keying := false }
       let s := if dup then (s.setBit (lportReg p 0) 19).raise 0x0504 5 p else s
       if ver && pre then s
       else
         let s := s.setBit (lportReg p 0) 18
         if was = lpMgmt then s else s.raise 0x0505 5 p
     else
       let P := s.port p
       if enc && !P.keyOk then
         (if P.keying || P.keyFailed then s else s.setPort p { P with keying := true, keyMs := 0 })
       else s.lpEnter p lpUp)

/-- HELLO_TIMEOUT: HELLO_MISS hellos have not come (R349). -/
def execHelloTimeout (p : PortId) (s : State) : Out :=
  let p := p.val
  let r := linkReg (p / 2) 0
  whenever (s.helloState p && decide (s.rf r 19 16 * s.rf r 15 8 ≤ (s.port p).missMs)) s (s.lpDown p)

/-- FLIT_ALIGNMENT_LOSS: the port has lost flit alignment for 1 µs (R349). -/
def execFlitAlignmentLoss (p : PortId) (s : State) : Out :=
  whenever (s.helloState p.val) s (s.lpDown p.val)

/-! ### Traffic secrets (R527) -/

/-- T_0 of one direction of a logical port (R527). DESIGN CHOICE (assumption 170): the direction is one byte, 0 from the SPDM
requester, the serial number 8 bytes and the port number of the sender one byte, little-endian. -/
def linkSecret (sh : List Byte) (fromRequester : Bool) (serial port : Nat) : List Byte :=
  hkdfExpand sh (labelBytes "link" ++ leBytes 1 (b2n !fromRequester) ++ leBytes 8 serial ++ leBytes 1 port) 48

/-- The secret of the next generation (R527). -/
def nextSecret (t : List Byte) : List Byte := hkdfExpand t (labelBytes "next") 48

/-! ### Flits (R357 to R359, R529, R530) -/

/-- The port retrains after too many replays: a correctable event (R358). -/
def State.lpRetrain (s : State) (p : Nat) : State :=
  (((s.setBit (lportReg p 0) 17).bump (lportReg p 0x14) 31 16 1).raise 0x0502 5 p).lpReset p lpTraining

/-- A replay is asked for. -/
def State.countReplay (s : State) (p : Nat) : State :=
  let s := s.bump (lportReg p 0x14) 15 0 1
  let P := s.port p
  s.setPort p { P with replays := (P.replays.filter fun t => decide (s.time < t + 1000000000)) ++ [s.time] }

/-- The peer asks for a flit again: it and every later one go out again from the replay buffer, as they were (R358, R528). -/
def State.resend (s : State) (p : Nat) : State :=
  let n := ((s.port p).replay.map fun x => x.1).sum
  if n = 0 then s else s.emit (.resent p n)

/-- FLIT_RECEIVE: a flit arrives: FEC count, credits, CRC and tag checks, buffer errors, key generations, and the peer's
acknowledgement or request of a replay. -/
def execFlitReceive (p : PortId) (f : FlitIn) (s : State) : Out :=
  let p := p.val
  let enc := (s.port p).keyOk
  whenever (s.helloState p) s
    (let s := s.bump (lportReg p 0x18) 31 0 f.symbols
     if !f.crcOk then
       let s := s.countReplay p
       let P := s.port p
       let s := s.setPort p { P with flitFails := P.flitFails + 1 }
       if decide (1000 < P.replays.length) || decide (9 ≤ P.flitFails + 1) then s.lpRetrain p else s
     else if enc && !f.tagOk then
       let s := s.countReplay p
       let P := s.port p
       let s := s.setPort p { P with tagFails := P.tagFails + 1 }
       if 9 ≤ P.tagFails + 1 then (s.lpFail p).raise 0x0812 5 p
       else if decide (1000 < P.replays.length) then s.lpRetrain p else s
     else
       let P := s.port p
       let cs := P.credits.zipIdx.map fun (c, i) => min ([16, 64, 32, 1024].getD i 0) (c + f.credits.getD i 0)
       let s := s.setPort p { P with
         flitFails := 0, tagFails := 0, credits := cs, replay := ackReplay f.acks P.replay,
         rxGen := if enc && f.newGen then P.rxGen + 1 else P.rxGen,
         rx := if enc && f.newGen then nextSecret P.rx else P.rx,
         rxOld := if enc && f.newGen then P.rx else P.rxOld,
         oldKey := P.oldKey || (enc && f.newGen), oldMs := if enc && f.newGen then 0 else P.oldMs }
       let s := if f.eccUnc then (s.setBit (lportReg p 0) 20).raise 0x0506 5 p else s
       let s := if f.nak then s.resend p else s
       s.drainPort p)

/-! ### Routed messages (R351 to R354) -/

/-- MESSAGE_ROUTE: a message arrives on a port: it is forwarded by the routing table, or dropped; one for this device
is delivered, and takes its effect by the command of its class. `tag` travels with it. Its receive buffer is freed when it
has been delivered, dropped or sent on (R357). -/
def execMessageRoute (p : PortId) (src dst cls hops seq tag : Nat) (local' : Bool) (payload : List Byte) (s : State) : Out :=
  whenever (s.carries p.val cls && decide (2 ≤ cls) && decide (cls ≤ 5)) s
    (let free (s : State) : State := s.freeBuffer p.val (classVc cls) (s.flitsOf p.val payload.length)
     if local' || !s.idValid || dst == s.ownId then free s
     else if hops = 0 then (free s).raise 0x0511 0 0
     else
       match s.routePort dst cls with
       | some q => s.sendFrom p.val q cls payload.length (.routed q src dst cls (hops - 1) seq tag payload)
       | none =>
         let s := (free s).raise 0x0510 0 0
         if cls = clsMgmt then
           (match s.routePort src clsMgmt with
            | some q => s.sendOn q clsMgmt 0 (.unreachable q src 63 tag)
            | none => s)
         else s)

/-! ### Link keys (R525 to R529) -/

/-- LINK_KEY_ESTABLISHED: both enclaves have authenticated and exchanged keys; the port, in HELLO or in MGMT_ONLY after a hello
that meets R347, enters UP (R347, R525, R527). -/
def execLinkKeyEstablished (p : PortId) (s : State) : Out :=
  let p := p.val
  let P := s.port p
  whenever ((s.lpState p == lpHello || s.lpState p == lpMgmt) && P.keying && s.sec.state == .operational && P.peerSerial != Config.serial.toNat) s
    (let (d, s) := s.draw
     let own := Config.serial.toNat
     let sh := hybridSecret (leBytes 48 (Config.exportMaster P.peerSerial d).toNat) (leBytes 32 (Config.kemSecret [] d).toNat)
     let s := s.setPort p { P with
       keyOk := true, keying := false, keyFailed := false, gen := 0, rxGen := 0, txFlits := 0, oldKey := false, rxOld := []
       tx := linkSecret sh (own < P.peerSerial) own p
       rx := linkSecret sh (P.peerSerial < own) P.peerSerial (s.rf (lportReg p 4) 18 14) }
     s.lpEnter p lpUp)

/-- LINK_KEY_TIMEOUT: establishment has failed, or has taken more than 100 ms (R526). -/
def execLinkKeyTimeout (p : PortId) (failed : Bool) (s : State) : Out :=
  let p := p.val
  let P := s.port p
  whenever ((s.lpState p == lpHello || s.lpState p == lpMgmt) && P.keying && (failed || decide (100 ≤ P.keyMs))) s
    (let s := s.setPort p { P with keying := false, keyFailed := true, keyMs := 0 }
     if P.keyFailed then s else s.raise 0x0811 5 p)

/-- LINK_KEY_RETRY: 1 s after a failure the port tries again (R526). -/
def execLinkKeyRetry (p : PortId) (s : State) : Out :=
  let p := p.val
  let P := s.port p
  whenever ((s.lpState p == lpHello || s.lpState p == lpMgmt) && P.keyFailed && !P.keying && decide (1000 ≤ P.keyMs)) s
    (s.setPort p { P with keying := true, keyMs := 0 })

/-- LINK_REKEY: 2^31 flits have gone out in a key generation and the sender moves to the next (R527, R529). -/
def execLinkRekey (p : PortId) (s : State) : Out :=
  let p := p.val
  let P := s.port p
  whenever (s.lpState p == lpUp && P.keyOk && decide (2 ^ 31 ≤ P.txFlits)) s
    (s.setPort p { P with gen := P.gen + 1, txFlits := 0, tx := nextSecret P.tx })

/-- OLD_KEY_ERASE: 1 ms after the first flit of a new generation the receiver erases the old key (R529). -/
def execOldKeyErase (p : PortId) (s : State) : Out :=
  let P := s.port p.val
  whenever (P.oldKey && decide (1 ≤ P.oldMs)) s (s.setPort p.val { P with oldKey := false, rxOld := [] })

/-! ### Time (R383 to R386) -/

/-- The port of the time parent, while time is synchronised. -/
def State.timeParent (s : State) : Option Nat :=
  let p := s.rf 0x34088 4 0
  if s.rbit 0x34088 6 && !s.rbit 0x34088 5 && s.carries p 1 then some p else none

/-- TIME_SYNC_INTERVAL: the device starts a TIME exchange with its parent (R383). -/
def execTimeSyncInterval (s : State) : Out :=
  match s.timeParent with
  | none => .next s
  | some p =>
    whenever (decide (s.rf 0x34088 15 8 * 125 ≤ s.fab.syncUs)) s
      ({ s with fab := { s.fab with syncUs := 0 } }.sendOn p 1 32 (.timeMsg p))

/-- n limited to [lo, hi]. -/
def clampI (lo hi n : Int) : Int := max lo (min hi n)

/-- TIME_MESSAGE: the parent's answer closes an exchange: t1 and t4 are this device's times, t2 and t3 the parent's, in
0.25 ns (R383 to R386). -/
def execTimeMessage (t1 t2 t3 t4 : Nat) (s : State) : Out :=
  match s.timeParent with
  | none => .next s
  | some p =>
    let a : Int := (t2 : Int) - t1
    let b : Int := (t4 : Int) - t3
    let off := (a - b) / 2
    let delay := (a + b) / 2
    let s := (s.freeBuffer p 0 (s.flitsOf p 32)).setRf (lportReg p 0x1C) 19 0 (clampI 0 1048575 delay).toNat
    let s := s.setRf 0x3408C 31 16 (enc2c 16 (clampI (-32768) 32767 off))
    let near := decide (off.natAbs ≤ 8)
    if !s.fab.locked then
      let s := { s with time := ((s.time : Int) + off / 4).toNat, fab := { s.fab with locked := near, offset := 0 } }
      .next (if near then s.setBit 0x3408C 0 else s)
    else
      let s := { s with fab := { s.fab with offset := off } }
      let s := if near then (s.setBit 0x3408C 0).setRf 0x3408C 1 1 0 else s
      .next (if 40000 < off.natAbs then (s.setBit 0x3408C 2).raise 0x0530 0 0 else s)

/-- Time corrections of one millisecond: at most 200 ppm (R384). Answers the nanoseconds that device time advances. -/
def State.slew (s : State) : Nat × State :=
  let d := clampI (-800) 800 s.fab.offset
  (((1000000 : Int) + d / 4).toNat, { s with fab := { s.fab with offset := s.fab.offset - d } })

end Sys2Proof.Machine
end

