-- ==== Sys2Proof/Machine/Faults.lean ====
section
/-!
DEFINITION. Sys2Proof/Machine/Faults.lean: firmware's handling of events (spec/12, R389 to R424; spec/15, R457, R471,
R482, R486): classing, journaling, permanence, notices, drain and flag, the journal's upkeep, in-field tests.
-/
namespace Sys2Proof.Machine

/-! ### Notices (R486) -/

/-- The notice of an event goes out on the paths that subscribe to its class, or on every path (R486). -/
def State.notice (s : State) (code cls kind unit job : Nat) (all : Bool) : State :=
  let on (path : Nat) : Bool := all || bit (s.fw.subs.getD path 0) cls
  let n : Notice := { event := code, kind := kind, job := job, unit := unit, time := s.time }
  let bytes := leBytes 2 code ++ leBytes 1 kind ++ leBytes 1 job ++ leBytes 4 unit ++ leBytes 8 s.time
  let s := if on 0 then
      let q := s.fw.notices ++ [n]
      { s with fw := { s.fw with notices := q.drop (q.length - 256) } }.msix 8
    else s
  let s := if on 1 then s.emit (.mctp 0 bytes) else s
  if on 2 then (s.sendMsg none s.fw.manager clsMgmt 4 bytes).2 else s

/-! ### Operations (R471) -/

/-- An operation of firmware completes; beyond 16 unread results the oldest is lost. -/
def State.opDone (s : State) (oph status detail : Nat) (result : List Byte) : State :=
  match s.fw.ops.find? fun o => o.oph = oph ∧ ¬ o.done with
  | none => s
  | some o =>
    let o' : Op := { o with done := true, status := status, detail := detail, progress := 1000, result := result }
    let rest := s.fw.ops.filter fun x => x.oph != oph
    let doneOps := (rest.filter fun x => x.done) ++ [o']
    let run := rest.filter fun x => !x.done
    let s := { s with fw := { s.fw with ops := run ++ doneOps.drop (doneOps.length - 16) } }
    if o.notify then
      let bytes := leBytes 2 0x0472 ++ leBytes 1 0 ++ leBytes 1 255 ++ leBytes 4 oph ++ leBytes 8 s.time
      let n : Notice := { event := 0x0472, kind := 0, job := 255, unit := oph, time := s.time }
      match o.path with
      | 0 =>
        let q := s.fw.notices ++ [n]
        { s with fw := { s.fw with notices := q.drop (q.length - 256) } }.msix 8
      | 1 => s.emit (.mctp o.dst bytes)
      | _ => (s.sendMgmt o.link o.dst 4 bytes).2
    else s

/-- Running operations with one of the opcodes, about one object. -/
def State.opsOf (s : State) (codes : List Nat) (arg : Nat → Bool) : List Op :=
  s.fw.ops.filter fun o => !o.done && codes.contains o.opcode && arg o.arg

/-! ### Jobs that end or stop -/

/-- The job is stopped with a cause, and reports it (R322, R415, JOB_STATUS): 1 host, 2 job error, 3 trap, 4 drain. -/
def State.haltJob (s : State) (j cause evt task : Nat) : State :=
  let s := s.stopJob j
  let sl := s.slot j
  s.setSlot j { sl with stopCause := cause, stopEvt := evt, failTask := task, stopAtLine := false }

/-- Job states in which a step can run. -/
def JobState.active (st : JobState) : Bool := st == .running || st == .trapStopped || st == .stopping

/-! ### Drain (R391, R405, R406, R415, R423, R482) -/

/-- A load or adoption that a drain ends (R482): tiers being written go FREE, tiers being erased finish the erase
first, swept or waiting DORMANT tiers stay. -/
def State.endResidencyOp (s : State) (tensor : Nat) : State :=
  let mine (t : Nat) (p : TierProc) : Bool := (s.tier (t * 8 + p.tier)).tensor == some tensor && p.kind != .sweep
  let units : List (Nat × TierProc) := (s.tiles.map fun (t, T) => (T.procs.filter (mine t)).map fun p => (t, p)).flatten
  let s := s.each (fun s (x : Nat × TierProc) =>
    let t := x.1
    let p := x.2
    let drop (s : State) : State := s.setProcs t ((s.tile t).procs.filter fun q => q != p)
    let u := p.eraseUnit t
    if p.stage == .erasing then
      s.setProcs t ((s.tile t).procs.map fun q => if q == p then { q with kind := .load, tier := p.target, skip := true } else q)
    else
      match p.kind with
      | .adopt => drop s
      | _ => if p.stage == .sweeping then drop s else (drop s).makeFree u) units
  let left := s.tiers.filter fun (u, I) => I.tensor == some tensor && s.tierState u == stLoading &&
    (s.tile (u / 8)).procs.all fun p => p.target != u % 8
  let s := s.each (fun s (x : Nat × TierInfo) => s.makeFree x.1) left
  match s.tensor tensor with
  | some x => s.setTensor tensor (some { x with state := 6 })
  | none => s

/-- The operations that a drain ends (R482). -/
def State.endOps (s : State) (evt : Nat) : State :=
  s.each (fun s (o : Op) =>
    let s := match o.opcode with
      | 0x0304 => s.endResidencyOp o.arg
      | 0x0305 => s.endResidencyOp o.arg
      | 0x0405 => let sl := s.slot o.arg; if sl.state == JobState.loading then s.setSlot o.arg { sl with state := if sl.graph then JobState.loaded else JobState.admitted } else s
      | _ => s
    s.opDone o.oph 0x0201 evt []) (s.opsOf [0x0304, 0x0305, 0x0405, 0x0C04] fun _ => true)

/-- A drain starts: the flag record is committed, then DRAINING (R391, R406); jobs stop at their next step-line release
(R415); due tests are cancelled (R423). -/
def State.startDrain (s : State) (cause evt : Nat) : State :=
  let seq := s.jrn.nextSeq - 1
  let s := s.jState .draining 1 cause
  let s := s.setDev .draining
  let s := s.setRn 0x40000 ((s.rn 0x40000) % 256 + cause * 256 + evt * 65536)
  let off : SMap BlockTest := SMap.mapVals (fun _ => BlockTest.init) (fun x => { x with due := false }) s.fw.tests
  let s : State := { s with fw := { s.fw with drainMs := 0, causeSeq := seq, tests := off } }
  let s := s.each (fun s b => s.clearDue b) (List.range 256)
  let s := s.raise 0x0410 0 0
  let s := s.endOps evt
  s.each (fun s j =>
    let sl := s.slot j
    match sl.state with
    | .running => s.setSlot j { sl with stopAtLine := true }
    | .free => s
    | .stopped => s
    | _ => s.haltJob j 4 evt 0) (List.range 64)

/-! ### Journaling of reports (R394, R405, R413) -/

/-- A report becomes an EVENT record, or under the rate limit (R413) or in a full journal (R410) a count of its source. The outcome of a test has
its TEST record already (R421). -/
def State.journalReport (s : State) (r : Report) : State :=
  let cls := eventClass r.code
  let rec' := s.jrec tyEvent cls r.code r.kind r.unit r.job r.task r.count
    (if r.info.isEmpty then s.unitDetail r.kind r.unit else (r.info.map fun x => (leBytes 4 x).map BitVec.toNat).flatten)
  if r.code = 0x0413 ∨ r.code = 0x0414 then s
  else if cls = 2 ∨ cls = 3 then s.jWrite rec'
  else if s.jrn.inSec < 200 ∧ s.jrn.room rec' = true then (s.setJrn { s.jrn with inSec := s.jrn.inSec + 1 }).jWrite rec'
  else
    let s := if s.jrn.room rec' then s.bump 0x41000 31 0 1 else s.jWithheld
    let same (x : Nat × Nat × Nat × Nat) : Bool := x.1 == r.code && x.2.1 == r.kind && x.2.2.1 == r.unit
    let j := s.jrn
    if j.src.any same then
      s.setJrn { j with src := j.src.map fun x => if same x then (x.1, x.2.1, x.2.2.1, min 65535 (x.2.2.2 + r.count)) else x }
    else if j.src.length < 1024 then s.setJrn { j with src := j.src ++ [(r.code, r.kind, r.unit, min 65535 r.count)] }
    else s.setJrn { j with others := j.others + r.count }

/-- 72 hours, in seconds. -/
def hours72 : Nat := 259200

/-- The correctable occurrences of a unit within the preceding 72 hours, oldest first: journal clock and event. -/
def Journal.recent (j : Journal) (kind unit : Nat) : List (Nat × Nat) :=
  (j.hist.filter fun (k, u, t, _) => k == kind && u == unit && decide (j.jclock ≤ t + hours72)).map fun (_, _, t, e) => (t, e)

/-- Adds occurrences of a correctable event to its unit's history; three of a unit are enough to decide (R393). -/
def State.countCorrectable (s : State) (r : Report) : State :=
  if r.kind = 0 then s
  else
    let j := s.jrn
    let others := j.hist.filter fun (k, u, _, _) => !(k == r.kind && u == r.unit)
    let mine := (j.recent r.kind r.unit).map fun (t, e) => (r.kind, r.unit, t, e)
    let new := mine ++ List.replicate (min 3 r.count) (r.kind, r.unit, j.jclock, r.code)
    s.setJrn { j with hist := others ++ new.drop (new.length - 3) }

/-- The unit's correctable events have become permanent (R393). -/
def State.permanent (s : State) (r : Report) : Bool := r.kind != 0 && decide (3 ≤ (s.jrn.recent r.kind r.unit).length)

/-- The PERMANENT record: the three clock values and event codes (R403). -/
def State.jPermanent (s : State) (r : Report) : State :=
  let l := s.jrn.recent r.kind r.unit
  let detail : List Nat := ((l.map fun (t, e) => (leBytes 4 t ++ leBytes 2 e).map BitVec.toNat)).flatten
  s.jWrite (s.jrec tyPermanent 1 r.code r.kind r.unit r.job r.task 1 detail)

/-- Cause code of FH_STATE for an event that starts a drain. -/
def drainCause (r : Report) : Nat :=
  if r.code = 0x0522 then 1 else if r.code = 0x0281 then 2 else if r.code = 0x0413 then 5
  else if eventClass r.code = 1 then 4 else 3

/-- Job errors at which firmware stops the job: a failed task, an allocation timeout, an abandoned round, a beat
timeout (R300, R322, R379, R380). -/
def stopsJob (code : Nat) : Bool := [0x0272, 0x0623, 0x0524, 0x0526].contains code

/-- Firmware takes one report: journal, permanence, drain, job errors, renewals, notices (R391 to R394, R457). -/
def State.takeReport (s : State) (r : Report) : State :=
  let cls := eventClass r.code
  let s := s.journalReport r
  let s := if cls = 1 then s.countCorrectable r else s
  let perm := cls == 1 && s.permanent r
  let live := s.dev == .ready || s.dev == .running
  let s := if perm && live then s.jPermanent r else s
  let s := s.notice r.code cls r.kind r.unit r.job (r.code == 0x0410 || r.code == 0x0411)
  let s := if live && (cls == 2 || cls == 3 || perm) then s.startDrain (drainCause r) r.code else s
  let s := if stopsJob r.code ∧ r.job < 64 ∧ (s.slot r.job).state.active then s.haltJob r.job 2 r.code r.task else s
  if r.code = 0x0132 then s.startCoppice r.unit false false else s

/-- Firmware takes every report delivered since its previous pass (R457, step 1). -/
def State.takeReports (s : State) : State :=
  let l := s.fw.reports
  ({ s with fw := { s.fw with reports := [] } } : State).each (fun s r => s.takeReport r) l

/-- AGGREGATOR_WINDOW_END: the window of the oldest held report of a region ends and it is forwarded (R412). -/
def execAggregatorWindowEnd (g : RegionId) (s : State) : Out :=
  match SMap.get (fun _ => []) s.aggs g.val with
  | [] => .next s
  | r :: rest =>
    .next { s with aggs := SMap.set (fun _ => []) s.aggs g.val rest, fw := { s.fw with reports := s.fw.reports ++ [r] } }

/-! ### The journal's upkeep (R404, R408, R409, R414) -/

/-- JOURNAL_PAGE_PROGRAM: the staged page is programmed when it is full or 100 ms old (R50, R404). -/
def execJournalPageProgram (s : State) : Out :=
  whenever (decide (32 ≤ s.jrn.staged.length) || (!s.jrn.staged.isEmpty && decide (100 ≤ s.jrn.stagedMs))) s
    (s.setJrn s.jrn.programOne)

/-- R408: a record that sets the flag and is not superseded. -/
def Journal.flagStands (j : Journal) (r : JRec) : Bool :=
  r.typ == tyState && r.detail.getD 2 0 == 1 &&
    !(j.records.any fun x => x.typ == tyState && x.detail.getD 2 0 == 2 && decide (r.seq < x.seq))

/-- The occurrences that one record holds: kind, unit, event, clock (R394, R409). Of a SUMMARY, those of its correctable
sources. -/
def JRec.occurrences (r : JRec) : List (Nat × Nat × Nat × Nat) :=
  let n (k w : Nat) : Nat := leNat (((r.detail.drop k).take w).map fun x => BitVec.ofNat 8 x)
  if r.typ = tyTally then
    (List.range 7).filterMap fun i =>
      if n (10 * i + 4) 2 = 0 then none else some (n (10 * i + 3) 1, n (10 * i) 3, n (10 * i + 4) 2, n (10 * i + 6) 4)
  else if r.typ = tySummary then
    ((List.range 9).map fun i =>
      if eventClass (n (8 * i + 4) 2) = 1 then
        List.replicate (n (8 * i + 6) 2) (n (8 * i + 3) 1, n (8 * i) 3, n (8 * i + 4) 2, r.jclock)
      else []).flatten
  else List.replicate r.count (r.kind, r.unit, r.event, r.jclock)

/-- The record holds correctable occurrences (R394): an EVENT or TEST record of that class, a TALLY, or a SUMMARY that lists
them. -/
def JRec.holdsCorrectable (r : JRec) : Bool :=
  (r.cls == 1 && (r.typ == tyEvent || r.typ == tyTest)) || r.typ == tyTally || (r.typ == tySummary && !r.occurrences.isEmpty)

/-- A record of correctable occurrences within the last 72 hours. -/
def Journal.correctable (j : Journal) (r : JRec) : Bool := r.holdsCorrectable && decide (j.jclock ≤ r.jclock + hours72)

/-- Records that compaction rewrites forward (R408). -/
def Journal.keeps (j : Journal) (r : JRec) : Bool :=
  j.flagStands r || r.typ == tyPermanent || r.cls == 2 || r.cls == 3 || j.correctable r

/-- Tile-tier units whose erase counts records name. -/
def JRec.eraseUnits (r : JRec) : List Nat :=
  let n (i : Nat) : Nat := r.detail.getD i 0
  let u := n 0 + n 1 * 256 + n 2 * 65536 + n 3 * 2 ^ 24
  if r.typ = tyErase then [u]
  else if r.typ = tyWear then (List.range 36).map fun i => u + i
  else []

/-- First units of WEAR records that cover a list of units. -/
def wearStarts : Nat → List Nat → List Nat
  | 0, _ => []
  | _ + 1, [] => []
  | n + 1, u :: r => u :: wearStarts n (r.filter fun v => !(decide (u ≤ v) && decide (v < u + 36)))

/-- A WEAR record from a unit on (R403, R411). -/
def State.wearRec (s : State) (u : Nat) : JRec :=
  s.jrec tyWear 0 0 1 u 255 0 1 ((leBytes 4 u).map BitVec.toNat ++
    ((List.range 36).map fun i => (leBytes 2 (s.tier (u + i)).erases).map BitVec.toNat).flatten)

/-- Records are programmed in pages of 32, the last one filled up (R404). -/
def Journal.pages (j : Journal) : Nat → List JRec → Journal
  | 0, _ => j
  | _ + 1, [] => j
  | n + 1, l => (j.page (l.take 32)).pages n (l.drop 32)

/-- New records get their SEQ. -/
def numberRecs : Nat → List JRec → List JRec
  | _, [] => []
  | n, r :: l => { r with seq := n } :: numberRecs (n + 1) l

/-- The oldest n erase blocks are compacted: `old` is rewritten as it is, `new` as new records, then the blocks are
erased. -/
def State.compact (s : State) (n : Nat) (old new : List JRec) : State :=
  let j := s.jrn
  let l := old ++ numberRecs j.nextSeq new
  let j := ({ j with nextSeq := j.nextSeq + new.length } : Journal).pages l.length l
  s.setJrn { j with
    blocks := j.blocks.drop n, erased := j.erased + n
    hidden := j.hidden.filterMap fun (i, lo, hi) => if i < n then none else some (i - n, lo, hi) }

def State.wearOf (s : State) (l : List JRec) : List JRec :=
  let us := ((l.map JRec.eraseUnits).flatten).foldl (fun (acc : List Nat) u => if acc.contains u then acc else acc ++ [u]) []
  (wearStarts us.length us).map s.wearRec

/-- JOURNAL_COMPACTION: the oldest erase block is compacted (R408); a page that returns no data gives no records (R51). -/
def execJournalCompaction (rd : PartReads) (s : State) : Out :=
  match s.jrn.readable rd with
  | b :: _ :: _ =>
    let l := b.flatten
    let kept := l.filter s.jrn.keeps
    let wear := s.wearOf l
    whenever (decide (s.jrn.erased < 16) && decide (kept.length + wear.length ≤ 512)) s
      ((s.compact 1 kept wear).partReads rd)
  | _ => .next s

/-- TALLY records, 7 occurrences each. -/
def State.tallies (s : State) : Nat → List (Nat × Nat × Nat × Nat) → List JRec
  | 0, _ => []
  | _ + 1, [] => []
  | n + 1, l =>
    let bytes : List Byte := ((l.take 7).map fun (k, u, e, t) => leBytes 4 (u % 2 ^ 24 + k * 2 ^ 24) ++ leBytes 2 e ++ leBytes 4 t).flatten
    s.jrec tyTally 1 0 0 0 255 0 (l.take 7).length (bytes.map BitVec.toNat) :: s.tallies n (l.drop 7)

/-- JOURNAL_BULK_COMPACTION: the oldest 32 erase blocks are compacted together, correctable occurrences folded into TALLY
records (R409). -/
def execJournalBulkCompaction (rd : PartReads) (s : State) : Out :=
  let blocks := s.jrn.readable rd
  let oldest := ((blocks.head?.getD []).flatten)
  let one := (oldest.filter s.jrn.keeps).length + (s.wearOf oldest).length
  let l := ((blocks.take 32).map List.flatten).flatten
  let kept := l.filter fun r => s.jrn.keeps r && !s.jrn.correctable r
  let occ := ((l.filter s.jrn.correctable).map JRec.occurrences).flatten.filter fun (k, _, _, t) =>
    k != 0 && decide (s.jrn.jclock ≤ t + hours72)
  whenever (decide (s.jrn.erased < 16) && decide (512 < one) && decide (32 < s.jrn.blocks.length)) s
    ((s.compact 32 kept (s.tallies occ.length occ ++ s.wearOf l)).partReads rd)

/-- Is source x listed before y in a SUMMARY (R414)? -/
def srcBefore (x y : Nat × Nat × Nat × Nat) : Bool :=
  decide (y.2.2.2 < x.2.2.2) || (x.2.2.2 == y.2.2.2 && decide (x.2.2.1 ≤ y.2.2.1))

/-- RATE_SUMMARY: at the end of a second in which any source counter is nonzero, one SUMMARY record (R414). -/
def execRateSummary (s : State) : Out :=
  let j := s.jrn
  let l := j.src.mergeSort srcBefore
  let top := l.take 9
  let others := j.others + ((l.drop 9).map fun x => x.2.2.2).sum
  let bytes : List Byte := (top.map fun (e, k, u, n) => leBytes 4 (u % 2 ^ 24 + k * 2 ^ 24) ++ leBytes 2 e ++ leBytes 2 n).flatten ++
    leBytes (8 * (9 - top.length)) 0 ++ leBytes 4 (min others (2 ^ 32 - 1))
  let total := (j.src.map fun x => x.2.2.2).sum + j.others
  whenever (!j.src.isEmpty || j.others != 0) s
    ((s.setJrn { j with src := [], others := 0 }).jWrite
      (s.jrec tySummary 0 0 0 0 255 0 total (bytes.map BitVec.toNat)))

/-! ### Drain timeout and end (R416, R417) -/

/-- DRAIN_TIMEOUT: a job's step line has not released DRAIN_TO after the drain began; it is stopped at once (R416). -/
def execDrainTimeout (j : SlotId) (s : State) : Out :=
  let j := j.val
  whenever (s.dev == .draining && (s.slot j).state.active && decide (s.rf 0x40004 7 0 * 1000 ≤ s.fw.drainMs)) s
    ((s.haltJob j 4 (s.rf 0x40000 31 16) 0).raiseJ 0x0417 0 0 j 0)

/-- Every engine's running work has completed. -/
def State.enginesIdle (s : State) : Bool :=
  (s.blocks.all fun (_, B) => B.running.isEmpty && B.mc.runs.isEmpty && B.ve.run.isNone) &&
    s.tiles.all fun (_, T) => T.read.isNone && T.row.isNone

/-- DRAIN_COMPLETE: every job has stopped, running work and host accesses have ended; the journal is flushed and the
device is flagged (R5, R417). -/
def execDrainComplete (s : State) : Out :=
  let jobs := (List.range 64).all fun j => !(s.slot j).state.active
  let wins := (List.range 16).all fun w => !s.rbit (hwinReg w 0xC) 16
  whenever (s.dev == .draining && jobs && wins && s.enginesIdle) s
    (let s := s.setJrn (s.jrn.programAll s.jrn.staged.length)
     let s := s.jState .flagged 0 (s.rf 0x40000 15 8)
     (s.setDev .flagged).raise 0x0411 0 0)

/-! ### In-field tests (R418 to R423) -/

def testKey (b test : Nat) : Nat := b * 8 + test
def State.test (s : State) (b test : Nat) : BlockTest := SMap.get (fun _ => BlockTest.init) s.fw.tests (testKey b test)
def State.setTest (s : State) (b test : Nat) (x : BlockTest) : State :=
  { s with fw := { s.fw with tests := SMap.set (fun _ => BlockTest.init) s.fw.tests (testKey b test) x } }

/-- Seconds of the test interval. -/
def State.testInterval (s : State) : Nat := s.rf 0x40004 15 8 * 3600

/-- The job that uses a block. -/
def State.blockJob (s : State) (b : Nat) : Option Nat :=
  (List.range 64).find? fun j => (s.slot j).state != .free && bit (s.slot j).blocks b

/-- A test of a block is due (R419). -/
def State.makeDue (s : State) (b test : Nat) : State :=
  let s := s.setTest b test { s.test b test with due := true, dueFor := 0 }
  if (s.blockJob b).isSome then s.setRf (blockReg b 0xC308) 0 0 1 else s

/-- TEST_DUE: a test of a block falls due (R419, R423). -/
def execTestDue (b : BlockId) (test : Fin 5) (s : State) : Out :=
  let x := s.test b.val test.val
  whenever ((s.dev == .ready || s.dev == .running) && x.dueS == 0 && !x.due) s (s.makeDue b.val test.val)

/-- TEST_FORCED: a test due for 4 hours, abandoned by an overrun or to be run again sets WIN_EN of the step line of the
block's job (R420 to R422). -/
def execTestForced (b : BlockId) (test : Fin 5) (s : State) : Out :=
  let b := b.val
  let x := s.test b test.val
  match s.blockJob b with
  | none => .next s
  | some j =>
    let sl := s.slot j
    let open_ := s.rbit (clReg sl.stepLine 0) 9
    whenever (x.due && (decide (14400 ≤ x.dueFor) || x.overruns != 0 || x.failedOnce) && !(open_ && x.forced)) s
      ((((s.setRf (clReg sl.stepLine 0) 9 9 1).setSlot j { sl with winForced := sl.winForced || !open_ }).setTest b test.val
        { x with forced := true }).raise 0x0415 2 b)

/-- The unit that a failing test names: a converter bank, a tile tier, or the block (R418). -/
def testUnit (b test unit : Nat) : Nat × Nat :=
  match test with
  | 0 => (6, b * 1024 + unit % 1024)
  | 1 => (1, b * 512 + unit % 512)
  | _ => (2, b)

/-- A block with no further test due ends its window (R339). -/
def State.closeWindow (s : State) (b : Nat) : State :=
  let s := (s.setRf (blockReg b 0xC308) 0 0 0).setRf (blockReg b 0xC308) 1 1 0
  let B := s.block b
  s.setBlock b { B with winWait := false }

/-- Link keys in use: two for each port whose session is up. -/
def State.linkKeys (s : State) : Nat := 2 * ((List.range 32).filter fun p => (s.port p).keyOk).length

/-- The payload of SEC_STATUS (R533). -/
def State.secStatus (s : State) : List Byte :=
  let e := s.sec
  let st := match e.state with | .selftest => 0 | .operational => 1 | .error => 2 | .zeroised => 3
  leBytes 1 st ++ leBytes 1 e.failed ++ leBytes 1 e.sessions.length ++ leBytes 1 e.revoked ++
    ((List.range 4).map fun i => leBytes 1 (e.minSvn.getD i 0)).flatten ++ leBytes 4 Config.romVersion.toNat ++
    leBytes 4 e.reseeds ++ leBytes 4 s.linkKeys ++ leBytes 4 e.hybrids ++ leBytes 8 0

/-- What a failed test shows of its unit: the unit's status and last-error registers, of the enclave and the boot images the
enclave's status (R403, R582, R586). -/
def State.testDetail (s : State) (test kind unit : Nat) : List Nat :=
  if test = 1 ∨ test = 2 then s.secStatus.map BitVec.toNat else s.unitDetail kind unit

/-- A TEST record names its test, in TASK (R403, R421, R581, R582; DESIGN CHOICE, assumption 177). -/
def State.testRecord (s : State) (event test kind unit : Nat) : State :=
  s.jWrite (s.jrec tyTest (eventClass event) event kind unit 255 test 1 (s.testDetail test kind unit))

/-- The test is settled: its result, its TEST record when it had failed once, its next interval (R421). -/
def State.settleTest (s : State) (b test result event : Nat) (unit : Nat × Nat) : State :=
  let s := s.setTest b test { BlockTest.init with dueS := s.testInterval, result := result, lastRun := s.jrn.jclock }
  let s := if event = 0 then s
    else (s.testRecord event (9 + test) unit.1 unit.2).raise event unit.1 unit.2
  if (List.range 5).all fun t => !(s.test b t).due then s.closeWindow b else s

/-- A block that runs tests now: in its window, or with no job and nothing queued (R419). -/
def State.testable (s : State) (b : Nat) : Bool :=
  s.rbit (blockReg b 0xC308) 1 || ((s.blockJob b).isNone && (s.block b).queue.isEmpty && (s.block b).running.isEmpty)

/-- IN_FIELD_TEST_DONE: a test of a block ends; `pass`, or the unit that failed (R418, R421). -/
def execInFieldTestDone (b : BlockId) (test : Fin 5) (pass : Bool) (unit : Nat) (s : State) : Out :=
  let b := b.val
  let t := test.val
  let x := s.test b t
  let u := testUnit b t unit
  whenever (x.due && s.testable b) s
    (if pass then
       (if x.failedOnce then s.settleTest b t 2 0x0414 u else s.settleTest b t 1 0 u)
     else if x.failedOnce then s.settleTest b t 3 0x0413 u
     else s.setTest b t { x with failedOnce := true })

end Sys2Proof.Machine
end

