-- ==== Sys2Proof/Machine/Lines.lean ====
section
/-!
DEFINITION. Sys2Proof/Machine/Lines.lean: clearing lines and test windows (spec/10, R332, R334 to R339; spec/12, R415,
R420, R422): the release of a line, and what the release of a job's step line ends (R14, R254, R264, R274).
-/
namespace Sys2Proof.Machine

/-- Blocks with CL_EN bit l. -/
def State.lineBlocks (s : State) (l : Nat) : List Nat := (List.range 256).filter fun b => s.rbit (blockReg b 0xC300) l

/-- The line is no step line of an active job, or the marker of the job's step is written (R14, R338). -/
def State.markerDone (s : State) (l : Nat) : Bool :=
  let job := s.slot (s.rf (clReg l 0) 5 0)
  !(s.rbit (clReg l 0) 8 && s.rbit (clReg l 0) 6 && job.state.active) || job.committed

/-- Every participant of the line has arrived, and there is one (R334); of a job's step line the commit marker of the step
is written (R14, R338). -/
def State.lineReady (s : State) (l : Nat) : Bool :=
  let bs := s.lineBlocks l
  let mp := s.rbit (clReg l 0) 7
  (bs.all fun b => (s.block b).arrived.contains l) && (!mp || s.rbit 0x20010 l) && (mp || !bs.isEmpty) &&
    s.markerDone l

/-- R332 for one counter of a block at a release of its line. -/
def State.realign (s : State) (b c : Nat) : State :=
  let base := s.rf (ccCtl b c) 15 0
  let d : Int := clampI (-32768) 32767 ((s.rf (ccVal b c) 15 0 : Int) - base)
  let s := s.setRn (blockReg b (0xC200 + 4 * c)) (enc2c 16 d)
  let s := s.setRf (ccVal b c) 15 0 base
  if d = 0 then s else (s.setBit (ccVal b c) 18).raiseJ 0x0271 2 b (s.ccJob b c) 0

/-- Counters with REALIGN on line l. -/
def State.realigned (s : State) (l : Nat) : List (Nat × Nat) :=
  ((List.range 256).map fun b => (List.range 64).map fun c => (b, c)).flatten.filter fun (b, c) =>
    s.rbit (ccCtl b c) 21 && s.rf (ccCtl b c) 20 16 == l

/-- The norm tables of a job in every region are 0 again. -/
def State.clearNorms (s : State) (j : Nat) : State :=
  { s with store := { s.store with norms := s.store.norms.filter fun (k, _) => k / 4096 % 64 != j } }

/-- The release of job j's step line ends its step: the step counter, the norm tables, the step's records, tie counts
and forced windows; a draining device stops the job (R14, R254, R264, R274, R415, R420). -/
def State.stepRelease (s : State) (j : Nat) : State :=
  let n := (s.slot j).step
  let s := s.setRn (tsReg j 8) (s.rn (tsReg j 8) + 1)
  let s := s.clearNorms j
  let s := s.releaseRecords j fun r => r.step == n
  let sl := s.slot j
  let forced := sl.winForced
  let halt := sl.stopAtLine
  let line := sl.stepLine
  let s := s.setSlot j { sl with
    step := n + 1, committed := false, actFull := false, winForced := false, ties := sl.ties.filter (fun t => t.step != n),
    kparts := sl.kparts.filter (fun p => p.step != n), pbufs := sl.pbufs.filter (fun p => p.step != n),
    open_ := sl.open_.filter (fun o => o.step != n || !o.tiles.isEmpty), mbEpochs := sl.mbEpochs.filter (fun x => x.2.1 != n),
    gradDone := sl.gradDone.filter (fun x => x.1 != n), aborted := [] }
  let s := if forced then s.setRf (clReg line 0) 9 9 0 else s
  if halt then s.haltJob j 4 (s.rf 0x40000 31 16) 0 else s

/-- Line l releases (R332, R334, R335, R337, R339); step-mode taps may go on in regions with a block on the line (R567). -/
def State.releaseLine (s : State) (l : Nat) : State :=
  let win := s.rbit (clReg l 0) 9
  let s := s.each (fun s (b : Nat) =>
    let B := s.block b
    let on (r : RTask) : Bool := recKind r.task.record == 0 && recF r.task.record 0x30 3 0 == 3 && r.arrived &&
      recF r.task.record 0x30 8 4 == l
    s.setBlock b { B with
      arrived := B.arrived.filter (fun x => x != l),
      running := B.running.map fun r => if on r then { r with left := 0 } else r })
    ((s.blocks.filter fun (_, B) => B.arrived.contains l).map fun x => x.1)
  let s := s.setRf 0x20010 l l 0
  let s := s.setRf (clReg l 4) 15 0 (s.rf (clReg l 4) 15 0 + 1)
  let s := s.each (fun s (x : Nat × Nat) => s.realign x.1 x.2) (s.realigned l)
  let s := s.each (fun s g =>
    let on := (List.range 16).any fun b => s.rbit (blockReg (g * 16 + b) 0xC300) l
    if s.rf (calReg g 0) 2 0 = 4 ∧ on then s.setRf (calReg g 0) 2 0 3 else s) (List.range 16)
  let s := if win then
      s.each (fun s b => let B := s.block b; s.setBlock b { B with winWait := true })
        ((s.lineBlocks l).filter fun b => s.rbit (blockReg b 0xC308) 0)
    else s
  if s.rbit (clReg l 0) 8 && s.rbit (clReg l 0) 6 then s.stepRelease (s.rf (clReg l 0) 5 0) else s

/-- CLEARING_LINE_RELEASE: the last arrival of line l has come. -/
def execClearingLineRelease (l : LineId) (s : State) : Out :=
  whenever (s.lineReady l.val) s (s.releaseLine l.val)

/-- What a write of CL_EN does: lines that clearing a bit satisfies release at once (R337). -/
def State.clEnEffect (s : State) (b old : Nat) : State :=
  s.each (fun s l =>
    if bit old l && !s.rbit (blockReg b 0xC300) l && s.lineReady l then s.releaseLine l else s) (List.range 32)

/-! ### Test windows (R339, R422) -/

/-- Running engine work of a block; tasks of the control unit only wait. -/
def Block.working (B : Block) : Bool :=
  (B.running.any fun r => recKind r.task.record != 0) || !B.mc.runs.isEmpty || B.ve.run.isSome

/-- TEST_WINDOW_OPEN: a block that has stopped issuing for its window has no running engine work left (R339). -/
def execTestWindowOpen (b : BlockId) (s : State) : Out :=
  let b := b.val
  whenever ((s.block b).winWait && !(s.block b).working && !s.rbit (blockReg b 0xC308) 1) s
    ((s.setRf (blockReg b 0xC308) 1 1 1).setRf (blockReg b 0xC308) 31 16 0)

/-- TEST_WINDOW_OVERRUN: 20 ms of OPEN have passed; the test that runs, the lowest one due, is abandoned (R339,
R422). -/
def execTestWindowOverrun (b : BlockId) (s : State) : Out :=
  let b := b.val
  whenever (s.rbit (blockReg b 0xC308) 1 && decide (20000 ≤ s.rf (blockReg b 0xC308) 31 16)) s
    (let s := ((s.setRf (blockReg b 0xC308) 1 1 0).setBit (blockReg b 0xC308) 2).raise 0x0273 2 b
     let B := s.block b
     let s := s.setBlock b { B with winWait := false }
     match (List.range 5).find? fun t => (s.test b t).due with
     | none => s
     | some t =>
       let x := s.test b t
       if 3 ≤ x.overruns + 1 then s.settleTest b t 3 0x0413 (testUnit b t 0)
       else s.setTest b t { x with overruns := x.overruns + 1 })

end Sys2Proof.Machine
end

