-- ==== Sys2Proof/Machine/Collect.lean ====
section
/-!
DEFINITION. Sys2Proof/Machine/Collect.lean: collective rounds, contribution digests, beats and verdicts (spec/11, R360
to R380; spec/01, R15, R19, R20; spec/07, R222, R226 to R236).
-/
namespace Sys2Proof.Machine

/-! ### Groups and rails (R360) -/

def groupKey (j group rail : Nat) : Nat := j * 64 + group * 4 + rail
def State.rail (s : State) (j group rail : Nat) : Option Rail :=
  (s.fab.groups.find? fun x => x.1 = groupKey j group rail).map fun x => x.2
/-- The rails of a group, from rail 0: none while the group is not loaded, that is while a rail of it is missing (R361). -/
def State.rails (s : State) (j group : Nat) : List Rail :=
  let l := (List.range 4).filterMap fun r => s.rail j group r
  if l.all fun x => x.total == l.length then l else []

/-- The ring order of one rail of a round, and this member's place in it. -/
def State.ring (s : State) (r : Round) (rail : Nat) : List Nat :=
  match s.rail r.job r.group rail with | some x => x.members | none => []
def indexOf (l : List Nat) (d : Nat) : Nat := (firstIdx (fun x => x == d) l).getD 0
def State.ringIndex (s : State) (r : Round) (rail : Nat) : Nat := indexOf (s.ring r rail) s.ownId
/-- Members of the group in the order of rail 0, by which the beat tree counts them. -/
def State.members (s : State) (r : Round) : List Nat := s.ring r 0

/-! ### Sizes -/

/-- Bytes of a source element: FP32 in a SUMS round, WFMT otherwise (R361). -/
def Round.srcW (r : Round) : Nat := if r.digest = 1 ∨ r.wfmt = 0 then 4 else 2
def Round.wireW (r : Round) : Nat := if r.wfmt = 0 then 4 else 2
def Round.elems (r : Round) : Nat := r.len / r.srcW
/-- Elements of one shard. -/
def Round.shard (r : Round) (n : Nat) : Nat := r.elems / r.runs.length / n
/-- Elements of a tile. -/
def tileElems : Nat := 16384
def Round.tiles (r : Round) (n : Nat) : Nat := (r.shard n + tileElems - 1) / tileElems
/-- First element and count of a tile of a shard of a rail's part (R360, R362). -/
def Round.tileAt (r : Round) (n rail shard tile : Nat) : Nat × Nat :=
  let part := r.elems / r.runs.length
  (rail * part + shard * r.shard n + tile * tileElems, min tileElems (r.shard n - tile * tileElems))
/-- Stages of a round: reducing stages, then gathering stages. -/
def Round.reduceStages (r : Round) (n : Nat) : Nat := if r.op = 1 then 0 else n - 1
def Round.stages (r : Round) (n : Nat) : Nat := if r.op = 2 then 2 * (n - 1) else n - 1

def Round.wire (r : Round) : Fmt := if r.wfmt = 0 then fp32 else bf16

/-! ### Elements and digests (R363, R366 to R371) -/

/-- Own elements of a tile, in source format, and whether each was flushed at the input (R215, R217). -/
def State.ownElems (s : State) (r : Round) (first count : Nat) : List (FpNum × Bool) :=
  let f : Fmt := if r.srcW = 4 then fp32 else bf16
  (List.range count).map fun i => f.input (s.denorm r.job) (s.rdNAt (r.src.plus ((first + i) * r.srcW)) r.srcW)

/-- FP32 sum of a list in order. -/
def sum32 (dn : Bool) (l : List FpNum) : FpNum := l.foldl (fun a x => v32 (f32 dn (FpNum.add .nearest a x)).1) (.fin false 0 0)

/-- The elements of fold f of a tile: columns n with n mod 16 = f. -/
def foldOf (l : List FpNum) (f : Nat) : List FpNum := (l.zipIdx.filter fun x => x.2 % 16 == f).map fun x => x.1

/-- cs[n] of the checksum record of a tile in source order (R166, R366). -/
def State.ownFold (s : State) (r : Round) (first f : Nat) : FpNum :=
  let a := r.csum.plus (first / tileElems * 1088 + 0x40)
  sum32 (s.denorm r.job) ((List.range 8).map fun i => v32 (s.rdNAt (a.plus (4 * (f + 16 * i))) 4))

/-- 32 × KB of the checksum record of a tile. -/
def State.ownK (s : State) (r : Round) (first : Nat) : Nat := 32 * s.rdNAt (r.csum.plus (first / tileElems * 1088 + 0xC)) 4

/-- The largest 32 × KB over the tiles of a shard. -/
def State.shardK (s : State) (r : Round) (n rail shard : Nat) : Nat :=
  if r.digest = 1 ∧ ¬ r.norm then
    (List.range (r.tiles n)).foldl (fun m t => max m (s.ownK r (r.tileAt n rail shard t).1)) 0
  else 0

/-- The difference between the element sent and the sum before rounding, clamped to one unit in the last place (R368). -/
def roundingError (f : Fmt) (sent : Nat) (exact : FpNum) : FpNum :=
  let x := f.decode sent
  let d := FpNum.add .nearest x exact.neg
  match x, d with
  | .fin _ _ _, .fin neg _ _ =>
    let place := max (FpNum.exp x) f.minNormalExp - f.manBits
    let ulp : FpNum := .fin false 1 place
    if FpNum.cmp d.abs ulp = 1 then .fin neg 1 place else d
  | _, _ => .fin false 0 0

/-- What a member makes of one element: code in WFMT, the sum before rounding, and whether it overflowed or flushed. -/
structure Elem where
  code  : Nat
  sum   : FpNum
  ovf   : Bool
  flush : Bool
  deriving DecidableEq, Repr

/-- Rounding of a round's sums: by the numeric policy in a GRAD round, to nearest in an ACT round (R214, R363). -/
def State.roundMode (s : State) (r : Round) : RM := if r.cls = 0 ∧ s.sums r.job then .stochastic else .nearest

/-- A received and an own element added and rounded to WFMT (R214, R363). DEDUCED (assumption 152): with WFMT BF16 the sum
is rounded to FP32 to nearest and then to WFMT by the mode; with WFMT FP32 the sum is rounded once, by the mode. -/
def State.mixElem (s : State) (r : Round) (g : Nat) (a b : FpNum × Bool) : Elem :=
  let dn := s.denorm r.job
  let sum := FpNum.add .nearest a.1 b.1
  if r.wfmt = 0 then
    let y := fp32.round (s.roundMode r) dn g sum
    { code := y.code, sum := sum, ovf := y.ovf, flush := a.2 || b.2 || y.flushed }
  else
    let raw := fp32.round .nearest dn 0 sum
    let y := bf16.round (s.roundMode r) dn g (v32 raw.code)
    { code := y.code, sum := v32 raw.code, ovf := raw.ovf || y.ovf, flush := a.2 || b.2 || raw.flushed || y.flushed }

/-- An own element on its way into a round: unchanged when the source is in WFMT already, else converted (R361, R362). -/
def State.wireElem (s : State) (r : Round) (g code : Nat) (x : FpNum × Bool) : Elem :=
  if r.srcW = r.wireW then { code := code, sum := r.wire.decode code, ovf := false, flush := false }
  else
    let y := r.wire.round (s.roundMode r) (s.denorm r.job) g x.1
    { code := y.code, sum := x.1, ovf := y.ovf, flush := x.2 || y.flushed }

/-- Bits of the port's generator for the elements of a tile (R213, R363). -/
def State.linkDraw (s : State) (n : Nat) : (Nat → Nat) × State :=
  let d := s.draws
  (fun i => (Config.linkBits (d + i)).toNat, { s with draws := d + n })

/-- Digest words of a tile that goes out: `base` those received (none at stage 0), `own` whether this member has added
its data (R366, R368, R370, R371). -/
def State.digestOut (s : State) (r : Round) (first : Nat) (base : List Nat) (own : Bool) (es : List Elem) (bytes : List Byte) :
    List Nat :=
  let dn := s.denorm r.job
  let add (a b : FpNum) : FpNum := v32 (f32 dn (FpNum.add .nearest a b)).1
  let code (x : FpNum) : Nat := (f32 dn x).1
  if r.digest = 0 then []
  else if r.norm then
    es.zipIdx.map fun (e, i) =>
      let mine := if own then v32 (s.rdNAt (r.csum.plus (4 * (first + i))) 4) else .fin false 0 0
      code (add (add (v32 (base.getD i 0)) mine) (roundingError r.wire e.code e.sum))
  else if r.digest = 1 then
    (List.range 16).map fun f =>
      let mine := if own then s.ownFold r first f else .fin false 0 0
      let err := sum32 dn (foldOf (es.map fun e => roundingError r.wire e.code e.sum) f)
      code (add (add (v32 (base.getD f 0)) mine) err)
  else if own then
    (if base.isEmpty then [s.rdNAt (r.csum.plus (8 * (first / tileElems))) 8] else [(crc64 bytes).toNat])
  else base

/-- Does a received tile fail its digest (R367, R369 to R371)? -/
def State.tileFails (s : State) (r : Round) (rr : RailRun) (words : List Nat) (l : List FpNum) (bytes : List Byte) : Bool :=
  let dn := s.denorm r.job
  let slack : Int := s.rf 0x34004 15 12
  let bad (k : Nat) (xs : List FpNum) (d : Nat) : Bool :=
    if xs.any fun x => !x.isFinite then false
    else
      let v := sum32 dn xs
      let mu := sum32 dn (xs.map FpNum.abs)
      let tol := (FpNum.mul (FpNum.ofI k) mu).scale (slack - 24)
      decide (FpNum.cmp (FpNum.add .nearest v (v32 d).neg).abs tol = 1)
  if r.digest = 0 then false
  else if r.norm then l.zipIdx.any fun (x, i) => bad rr.c [x] (words.getD i 0)
  else if r.digest = 1 then (List.range 16).any fun f => bad (rr.kmax + 1024 + 64 * rr.c) (foldOf l f) (words.getD f 0)
  else (crc64 bytes).toNat != words.getD 0 0

/-! ### Rounds in State -/

def State.rounds (s : State) : List Round := s.fab.rounds
def State.setRounds (s : State) (l : List Round) : State := { s with fab := { s.fab with rounds := l } }
def Round.same (a b : Round) : Bool :=
  a.job == b.job && a.group == b.group && a.step == b.step && a.round == b.round && a.beatOnly == b.beatOnly
def State.setRound (s : State) (r : Round) : State := s.setRounds (s.rounds.map fun x => if x.same r then r else x)
def State.dropRound (s : State) (r : Round) : State := s.setRounds (s.rounds.filter fun x => !x.same r)

/-! ### Sending -/

/-- A tile goes to the rail's successor, after the stage's header when it is the stage's first (R362, R366, R229). -/
def State.sendTile (s : State) (r : Round) (rail stage tile c kmax : Nat) (words : List Nat) (data : List Byte) : State :=
  let ring := s.ring r rail
  let i := s.ringIndex r rail
  let next := ring.getD ((i + 1) % ring.length) 0
  let via := (s.rail r.job r.group rail).map fun x => x.port
  let h : Chdr := { fjob := r.fjob, group := r.group, rail := rail, step := r.step, round := r.round, attempt := r.attempt,
                    stage := stage, op := r.op, wfmt := r.wfmt, digest := r.digest, member := i, c := c, kmax := kmax,
                    nf := s.nf r.job r.step || r.nf, cfgPrefix := s.rn 0x34020 + s.rn 0x34024 * 2 ^ 32 }
  let s := if tile = 0 then (s.sendVia via next clsChdr 64 fun p q => .chdr p next 63 q h).2 else s
  let d : Cdata := { fjob := r.fjob, group := r.group, rail := rail, step := r.step, round := r.round, attempt := r.attempt,
                     stage := stage, seq := tile, crcOk := true, words := words, data := data }
  (s.sendVia via next clsCdata (data.length + 64) fun p q => .cdata p next 63 q d).2

/-- Codes as wire bytes. -/
def Round.bytes (r : Round) (codes : List Nat) : List Byte := (codes.map fun c => leBytes r.wireW c).flatten

/-- This member's own tile of a shard as it enters the round. -/
def State.ownTile (s : State) (r : Round) (n rail shard tile : Nat) : List Elem × State :=
  let (first, count) := r.tileAt n rail shard tile
  let (g, s) := s.linkDraw count
  let code (i : Nat) : Nat := s.rdNAt (r.src.plus ((first + i) * r.srcW)) r.srcW
  (((s.ownElems r first count).zipIdx.map fun (x, i) => s.wireElem r (g i) (code i) x), s)

/-- Flushes of elements that this member has formed, and the round's held non-finite bit: values that overflow (R217, R227,
R230). -/
def State.noteElems (s : State) (r : Round) (es : List Elem) : Round × State :=
  let s := if es.any fun e => e.flush then s.flushed r.job else s
  ({ r with nf := r.nf || es.any fun e => e.ovf }, s)

/-- Non-finite values among the elements of a tile that come from device `src`: the round's held flag, and a NaN report of the
first (R219, R227, R369). DEDUCED (assumption 153): one report for each tile and source, of own data as of received data. -/
def State.noteNonfinite (s : State) (r : Round) (rail first src : Nat) (l : List FpNum) : Round × State :=
  match l.zipIdx.find? fun x => !x.1.isFinite with
  | none => (r, s)
  | some (_, i) =>
    let port := match s.rail r.job r.group rail with | some x => x.port | none => 0
    ({ r with nf := true },
     s.nanReport r.job { req := 16, unit := 4, op := 0, blk := port, task := r.task, step := r.step, x := (first + i) % 65536,
                         y := (first + i) / 65536 % 65536, z := src, w := 0 })

/-- One tile of stage 0 goes out; in a gathering round it is also written at DST. -/
def State.sendOwn (s : State) (r : Round) (n rail shard k tile : Nat) : Round × State :=
  let (es, s) := s.ownTile r n rail shard tile
  let (first, _) := r.tileAt n rail shard tile
  let data := r.bytes (es.map fun e => e.code)
  let s := if r.op = 1 then s.wrAt (r.dst.plus (first * r.wireW)) data else s
  let (r, s) := s.noteElems r es
  let (r, s) := s.noteNonfinite r rail first s.ownId (es.map fun e => e.sum)
  (r, s.sendTile r rail 0 tile 1 k (s.digestOut r first [] true es data) data)

/-- Stage 0 of every rail (R362): the first shard in a reducing round, the own shard in a gathering one. -/
def State.sendStage0 (s : State) (r : Round) (n : Nat) : State :=
  let tiles := ((List.range r.runs.length).map fun rail => (List.range (r.tiles n)).map fun tile => (rail, tile)).flatten
  let (r, s) := tiles.foldl (fun (x : Round × State) (y : Nat × Nat) =>
    let i := x.2.ringIndex x.1 y.1
    let shard := if r.op = 1 then i else (i + n - 1) % n
    x.2.sendOwn x.1 n y.1 shard (x.2.shardK x.1 n y.1 shard) y.2) (r, s)
  s.setRound r

/-! ### Receiving (R367 to R374) -/

def Round.setRail (r : Round) (rail : Nat) (x : RailRun) : Round := { r with runs := setAt r.runs rail x }

/-- The round is lost to this member: its part ends (R374). -/
def State.loseRound (s : State) (r : Round) : State :=
  (s.setRound { r with lost := true, done := true }).raiseJ 0x0525 0 0 r.job r.task

/-- The blame notice: 32 bytes that name the round (R373). -/
def Round.blameBytes (r : Round) : List Byte :=
  leBytes 4 r.fjob ++ leBytes 4 r.group ++ leBytes 4 r.round ++ leBytes 4 r.step ++ leBytes 16 0

/-- A stage header reaches its round: configuration check, flag, c and KMAX (R229, R372). One out of turn shows a gap: tiles of
the stage before it are missing (R374). -/
def State.takeChdr (s : State) (r : Round) (h : Chdr) : State :=
  match r.runs[h.rail]? with
  | none => s
  | some x =>
    if r.done then s
    else if h.cfgPrefix ≠ s.rn 0x34020 + s.rn 0x34024 * 2 ^ 32 then
      (s.setRound { r with refused := true, done := true }).raiseJ 0x0523 0 0 r.job r.task
    else if h.stage ≠ x.stage ∨ x.hdr then s.loseRound r
    else
      s.setRound { (r.setRail h.rail { x with hdr := true, c := h.c, kmax := h.kmax, seq := 0 }) with
        nf := r.nf || h.nf, dataMs := 0 }

/-- A tile that has passed sequence and configuration: checked, reduced or written, and passed on (R362 to R373). -/
def State.takeTile (s : State) (r : Round) (x : RailRun) (d : Cdata) : State :=
  let n := (s.ring r d.rail).length
  let i := s.ringIndex r d.rail
  let dn := s.denorm r.job
  let red := decide (d.stage < r.reduceStages n)
  let t := if red then d.stage else d.stage - r.reduceStages n
  let shard := if red then (i + 2 * n - t - 2) % n else (i + 2 * n - 1 - t) % n
  let (first, count) := r.tileAt n d.rail shard x.tile
  let sender := (s.ring r d.rail).getD ((i + n - 1) % n) 0
  let inp := (List.range count).map fun k => r.wire.input dn (byteN d.data (k * r.wireW) r.wireW)
  let l := inp.map fun v => v.1
  let fails := s.tileFails r x d.words l d.data
  let s := if fails then
      let s := (s.bump 0x34014 31 16 1).raiseJ 0x0520 0 0 r.job r.task
      (s.sendMsg none sender clsMgmt 0 r.blameBytes).2
    else s
  let s := if (red || r.digest == 1) && inp.any fun v => v.2 then s.flushed r.job else s
  let (r, s) := s.noteNonfinite r d.rail first sender l
  let r := { r with reject := r.reject || fails, blame := if fails then min r.blame sender else r.blame, dataMs := 0 }
  let last := d.stage + 1 == r.stages n
  let out := r.dst.plus (first * r.wireW)
  let (r, s) := if red then
      let (g, s) := s.linkDraw count
      let own := s.ownElems r first count
      let (r, s) := s.noteNonfinite r d.rail first s.ownId (own.map fun v => v.1)
      let es := (inp.zip own).zipIdx.map fun ((a, b), k) => s.mixElem r (g k) a b
      let (r, s) := s.noteElems r es
      let data := r.bytes (es.map fun e => e.code)
      let words := s.digestOut r first d.words true es data
      let s := if d.stage + 1 = r.reduceStages n then s.wrAt out data else s
      (r, if last then s else s.sendTile r d.rail (d.stage + 1) x.tile (x.c + 1) (max x.kmax (s.shardK r n d.rail shard)) words data)
    else
      let s := s.wrAt out d.data
      (r, if last then s else s.sendTile r d.rail (d.stage + 1) x.tile x.c x.kmax d.words d.data)
  let x := if x.tile + 1 < r.tiles n then { x with tile := x.tile + 1, seq := x.seq + 1 }
    else { RailRun.init with stage := x.stage + 1 }
  let r := r.setRail d.rail x
  s.setRound { r with done := r.runs.all fun y => y.stage == r.stages n }

/-- A tile with its digest block reaches its round (R367 to R374). After REFUSED or LOST the round takes no data (R372). -/
def State.takeCdata (s : State) (r : Round) (d : Cdata) : State :=
  match r.runs[d.rail]? with
  | none => s
  | some x =>
    if r.done then s
    else if !x.hdr || d.stage != x.stage || d.seq != x.seq || !d.crcOk then s.loseRound r
    else s.takeTile r x d

/-! ### Beats (R231, R376, R377) -/

/-- The 32 bytes of a beat. -/
def Round.beatBytes (r : Round) (down : Bool) (bits blame at_ : Nat) : List Byte :=
  leBytes 4 r.fjob ++ leBytes 4 (r.group + b2n r.beatOnly * 16 + b2n down * 32) ++ leBytes 4 r.round ++ leBytes 4 r.step ++
  leBytes 2 bits ++ leBytes 2 blame ++ leBytes 4 0 ++ leBytes 8 (if down then at_ else 0)

def State.fanout (s : State) : Nat := s.rf 0x34004 11 8
/-- Children of member i in the beat tree. -/
def State.children (s : State) (n i : Nat) : List Nat :=
  (List.range n).filter fun k => decide (0 < k) && (k - 1) / s.fanout == i

/-- Links between member i and the root, with fuel. -/
def State.depthOf (s : State) : Nat → Nat → Nat
  | 0, _ => 0
  | k + 1, i => if i = 0 then 0 else s.depthOf k ((i - 1) / s.fanout) + 1
/-- d of the tree. -/
def State.treeDepth (s : State) (n : Nat) : Nat := s.depthOf 16 (n - 1)

/-- Tasks of a job's graph that can produce gradients or norms, and its gradient rounds. -/
def Slot.gradTasks (sl : Slot) : Nat := (sl.lists.map fun (_, l) => (l.records.filter recProduces).length).sum

/-- R231: what can produce gradients or norms in the step has completed, its gradient rounds, those not yet begun or
abandoned among them, are accepted, the norm round that TS_NORM_CFG.GLOBAL asks of a multi-device job among them (R265), and
no NaN report of the step is on its way: a report arrives within 0.5 µs (R219)
and so within the 1 µs that R231 waits. -/
def State.gradDone (s : State) (j step : Nat) : Bool :=
  let sl := s.slot j
  decide (sl.gradTasks ≤ SMap.get (fun _ => 0) sl.gradDone step) && (sl.nanQ.all fun r => r.step != step) &&
    (s.rounds.all fun r => r.beatOnly || r.job != j || r.step != step || r.cls != 0) &&
    (!bit sl.flags 0 || !s.rbit (tsReg j 0x10) 0 || (match sl.normRes with | some (n, _) => n == step | none => false))

/-- This member's part of the round is complete. -/
def State.ownDone (s : State) (r : Round) : Bool := if r.beatOnly then s.gradDone r.job r.step else r.done

def Round.bits (r : Round) : Nat := b2n r.nf + 2 * b2n r.reject + 4 * b2n r.lost + 8 * b2n r.refused

/-- The OR of two BITS fields. -/
def orBits (a b : Nat) : Nat := (List.range 4).foldl (fun n i => n + 2 ^ i * b2n (bit a i || bit b i)) 0

/-- The BITS of this member and its subtree (R376). -/
def State.ownBits (s : State) (r : Round) : Nat :=
  if r.beatOnly then orBits r.bits (b2n (s.nf r.job r.step)) else r.bits

/-- Sends a down beat to the member's children. -/
def State.sendDown (s : State) (r : Round) (bits blame at_ : Nat) : State :=
  let ms := s.members r
  let i := indexOf ms s.ownId
  s.each (fun s k => (s.sendMsg none (ms.getD k 0) clsBeat 0 (r.beatBytes true bits blame at_)).2) (s.children ms.length i)

/-- One round at a slot boundary (R376). -/
def State.slotRound (s : State) (now : Nat) (r : Round) : State :=
  let ms := s.members r
  let i := indexOf ms s.ownId
  let kids := s.children ms.length i
  if r.upSent || !s.ownDone r || !(kids.all fun k => r.ups.contains k) then s
  else
    let own := s.ownBits r
    let r := { r with nf := bit own 0, done := true, upSent := true }
    if i = 0 then
      let at_ := now + s.treeDepth ms.length * s.rf 0x34004 7 0 * 1000
      (s.setRound { r with down := some (own, r.blame, at_) }).sendDown r own r.blame at_
    else
      let parent := ms.getD ((i - 1) / s.fanout) 0
      ((s.setRound r).sendMsg none parent clsBeat 0 (r.beatBytes false own r.blame 0)).2

/-- BEAT_SLOT_BOUNDARY: device time `now` is a multiple of BEAT_SLOT µs (R376). -/
def execBeatSlotBoundary (now : Nat) (s : State) : Out :=
  whenever (now % (s.rf 0x34004 7 0 * 1000) == 0 && decide (s.time ≤ now)) s
    (({ s with time := now } : State).each (fun s r => s.slotRound now r) s.rounds)

/-! ### Messages that come before their round (R362, R376) -/

/-- A message that this member cannot take yet waits for its task or attempt. -/
def State.hold (s : State) (e : Early) : State := { s with fab := { s.fab with early := s.fab.early ++ [e] } }

/-- The beat reaches its round (R376, R377). A second up beat of a child, after the round's verdict, is of the next attempt. -/
def State.takeBeat (s : State) (r : Round) (src : Nat) (payload : List Byte) : State :=
  let bts := byteN payload 16 2
  let blame := byteN payload 18 2
  let at_ := byteN payload 24 8
  let k := indexOf (s.members r) src
  if bit (byteN payload 4 4) 5 then
    if r.down.isSome then s
    else
      let s := (s.setRound { r with down := some (bts, blame, at_) }).sendDown r bts blame at_
      if at_ < s.time then s.raiseJ 0x0527 0 0 r.job r.task else s
  else if !(s.members r).contains src then s
  else if r.ups.contains k then (if r.down.isSome then s.hold (.beat src payload) else s)
  else
    let o := orBits r.bits bts
    s.setRound { r with
      ups := r.ups ++ [k], nf := bit o 0, reject := bit o 1, lost := bit o 2, refused := bit o 3, blame := min r.blame blame }

/-- The fabric job, group, step and ROUND that a message names, and whether it is of the step's beat (R362, R376). -/
def Early.round : Early → Nat × Nat × Nat × Nat × Bool
  | .chdr h => (h.fjob, h.group, h.step, h.round, false)
  | .cdata d => (d.fjob, d.group, d.step, d.round, false)
  | .beat _ p => (byteN p 0 4, bits (byteN p 4 4) 3 0, byteN p 12 4, byteN p 8 4, bit (byteN p 4 4) 4)

/-- The round that a message belongs to (R362). -/
def State.roundOf (s : State) (e : Early) : Option Round :=
  s.rounds.find? fun r => (r.fjob, r.group, r.step, r.round, r.beatOnly) == e.round

/-- A message of an admitted job for which this member has not begun the round. -/
def State.awaits (s : State) (e : Early) : Bool :=
  (List.range 64).any fun j => (s.slot j).state != .free && (s.slot j).fjob == e.round.1

/-- A collective message arrives: it enters its round and attempt, waits for one that this member has not begun, or comes too
late and is dropped (R362, R376, R379). -/
def State.arrive (s : State) (e : Early) : State :=
  match s.roundOf e with
  | none => if s.awaits e then s.hold e else s
  | some r =>
    match e with
    | .chdr h => if h.attempt = r.attempt then s.takeChdr r h else if r.attempt < h.attempt then s.hold e else s
    | .cdata d => if d.attempt = r.attempt then s.takeCdata r d else if r.attempt < d.attempt then s.hold e else s
    | .beat src p => s.takeBeat r src p

/-- This member has begun a round or an attempt: what has waited is looked at again, in its order. -/
def State.replayEarly (s : State) : State :=
  let l := s.fab.early
  ({ s with fab := { s.fab with early := [] } } : State).each State.arrive l

/-- CHDR_RECEIVE: a stage header arrives (R229, R351, R372). -/
def execChdrReceive (h : Chdr) (s : State) : Out := whenever s.idValid s (s.arrive (.chdr h))

/-- The own elements that a tile in flight meets are read poisoned: the round's task is marked (R281). -/
def State.poisonOwn (s : State) (d : Cdata) : State :=
  match s.roundOf (.cdata d) with
  | some r => if s.poisonedAt r.src r.len then s.poisonTask r.block r.num else s
  | none => s

/-- CDATA_RECEIVE: a tile with its digest block arrives (R281, R284, R351, R367 to R374). -/
def execCdataReceive (x : At Cdata) (s : State) : Out :=
  whenever s.idValid s (((s.memErrs x.errs).poisonOwn x.what).arrive (.cdata x.what))

/-- BEAT_RECEIVE: a beat arrives from device `src` (R351, R376, R377). -/
def execBeatReceive (src : Nat) (payload : List Byte) (s : State) : Out := whenever s.idValid s (s.arrive (.beat src payload))

/-- The accepted values of a norm round stand for its step (R265). -/
def State.normAccepted (s : State) (r : Round) : State :=
  if r.norm then
    let w := r.wireW
    let sl := s.slot r.job
    s.setSlot r.job { sl with
      normRes := some (r.step, (List.range r.elems).map fun i => s.rdNAt (r.dst.plus (i * w)) w * if w = 2 then 2 ^ 16 else 1) }
  else s

/-! ### The COLLECTIVE task (R361, R365) -/

/-- The COLLECTIVE task of a block with the given OP that has not started. -/
def State.collTask (s : State) (b op : Nat) : Option RTask :=
  s.working b engLink 9 fun t => coOp t == op

/-- The body of a COLLECTIVE is malformed (R361). -/
def State.collBad (s : State) (j t : Nat) : Bool :=
  let rails := s.rails j (recF t 0x30 11 8)
  let n := match rails with | r :: _ => r.members.length | [] => 0
  let grad := recF t 0x30 3 3 == 0
  let dig := coDigest t
  let norm := recF t 0x30 12 12 == 1
  let part := coLen t / (if rails.isEmpty then 1 else rails.length)
  decide (3 < coOp t) || recF t 0x30 31 13 != 0 || recF t 0x4C 31 0 != 0 || recF t 0x58 319 0 != 0 ||
  decide (1 < recF t 0x30 5 4) || dig == 3 || rails.isEmpty ||
  (grad && dig == 0) || (!grad && dig == 1) || (coOp t == 3 && coLen t != 0) || coLen t % (64 * n * rails.length) != 0 ||
  (dig == 1 && !norm && part % (65536 * n) != 0)

/-- N = 1: SRC is converted to DST locally (R365). -/
def State.convertLocal (s : State) (r : Round) : State :=
  let (g, s) := s.linkDraw r.elems
  let code (i : Nat) : Nat := s.rdNAt (r.src.plus (i * r.srcW)) r.srcW
  let es := (s.ownElems r 0 r.elems).zipIdx.map fun (x, i) => s.wireElem r (g i) (code i) x
  let (r, s) := s.noteElems r es
  let (r, s) := s.noteNonfinite r 0 0 s.ownId (es.map fun e => e.sum)
  let s := if r.nf then s.setNf r.job r.step else s
  ((s.wrAt r.dst (r.bytes (es.map fun e => e.code))).normAccepted r).partDone r.block r.num

/-- Members of the group that a COLLECTIVE task names. -/
def State.groupSize (s : State) (t : RTask) : Nat :=
  match s.rails t.task.job (recF t.task.record 0x30 11 8) with | r :: _ => r.members.length | [] => 1

/-- The round of a COLLECTIVE task of block b, at its start (R361, R362). -/
def State.newRound (s : State) (b op : Nat) (t : RTask) : Round :=
  let rec' := t.task.record
  let j := t.task.job
  let g := recF rec' 0x30 11 8
  { job := j, fjob := (s.slot j).fjob, group := g, step := t.task.step,
    round := if op = 3 then 0 else recF rec' 0x34 31 0, attempt := 0, beatOnly := op == 3, block := b, num := t.num,
    task := recId rec', op := op, cls := recF rec' 0x30 3 3, wfmt := recF rec' 0x30 5 4, digest := coDigest rec',
    norm := recF rec' 0x30 12 12 == 1, src := addrAt t.addrs 0, dst := addrAt t.addrs 1, csum := addrAt t.addrs 2,
    len := coLen rec', runs := (s.rails j g).map fun _ => RailRun.init, nf := false, reject := false, lost := false,
    refused := false, blame := 0x3FFF, done := false, ups := [], upSent := false, down := none, reruns := 0,
    waitMs := 0, dataMs := 0 }

/-- A COLLECTIVE task starts its round. -/
def State.startColl (s : State) (b op : Nat) (errs : List MemErr) : Out :=
  match s.collTask b op with
  | none => .next s
  | some t =>
    let rec' := t.task.record
    let j := t.task.job
    if t.arrived then .next s
    else if s.collBad j rec' then .next ((s.raiseJ 0x0528 2 b j (recId rec')).failTask b t.num)
    else
      let n := s.groupSize t
      let r := s.newRound b op t
      let s := s.memErrs errs
      let bad := op != 3 && s.poisonedAt r.src r.len
      let s := if bad then s.poisonTask b t.num else s
      if n = 1 then .next (if op = 3 then s.partDone b t.num else s.convertLocal r)
      else
        let s := (s.modRun b t.num fun x => { x with arrived := true }).setRounds (s.rounds ++ [r])
        .next ((if op = 3 then s else s.sendStage0 r n).replayEarly)

/-- REDUCE_SCATTER. -/
def execReduceScatter (b : BlockId) (errs : List MemErr) (s : State) : Out := s.startColl b.val 0 errs
/-- ALL_GATHER. -/
def execAllGather (b : BlockId) (errs : List MemErr) (s : State) : Out := s.startColl b.val 1 errs
/-- ALL_REDUCE. -/
def execAllReduce (b : BlockId) (errs : List MemErr) (s : State) : Out := s.startColl b.val 2 errs
/-- BEAT: the step's verdict beat (R231). -/
def execBeat (b : BlockId) (s : State) : Out := s.startColl b.val 3 []

/-! ### Timeouts and blame (R374, R375) -/

/-- A round by its place among those under way. -/
def State.roundAt (s : State) (i : Nat) : Option Round := s.rounds[i]?

/-- STAGE_DATA_LOST: no data has come for STAGE_TO ms (R374). -/
def execStageDataLost (i : Nat) (s : State) : Out :=
  match s.roundAt i with
  | none => .next s
  | some r => whenever (!r.done && !r.beatOnly && decide (s.rf 0x34008 15 0 ≤ r.dataMs)) s (s.loseRound r)

/-- BLAME_NOTICE: a peer blames this device (R351, R375); the drain follows at firmware's next pass (R391). -/
def execBlameNotice (s : State) : Out := whenever s.idValid s (s.raise 0x0522 0 0)

/-! ### Verdicts (R226, R232 to R236, R378 to R380) -/

/-- A step's verdict reaches the job: loss scale and flags (R226), watch (R236), skip (R19, R233), trap stop (R222). -/
def State.applyVerdict (s : State) (j : Nat) (nf : Bool) : State :=
  let sl := s.slot j
  let n := sl.vstep
  let s := s.setSlot j { sl with verdicts := (n, nf) :: sl.verdicts.take 3, skipped := if nf then n :: sl.skipped.take 3 else sl.skipped }
  let s := s.watchVerdict j nf
  let s := s.verdictNumeric j nf
  if nf && s.rbit (numReg j 0) 3 && s.rbit (numReg j 4) 3 then
    let sl := s.slot j
    s.setSlot j { sl with state := .trapStopped, stopCause := 3, stopEvt := 0x0900 }
  else s

/-- The round starts again from SRC with a new attempt number (R20, R379). -/
def State.rerunRound (s : State) (r : Round) : State :=
  let r := { r with
    attempt := r.attempt + 1, runs := r.runs.map fun _ => RailRun.init, nf := false, reject := false, lost := false,
    refused := false, blame := 0x3FFF, done := false, ups := [], upSent := false, down := none, reruns := r.reruns + 1,
    waitMs := 0, dataMs := 0 }
  ((s.setRound r).sendStage0 r (s.members r).length).replayEarly

/-- VERDICT_APPLY: the verdict of a round or of the step is applied at APPLY_AT, or at once when that has passed (R377
to R379). -/
def execVerdictApply (i : Nat) (s : State) : Out :=
  match s.roundAt i with
  | none => .next s
  | some r =>
    match r.down with
    | none => .next s
    | some (bts, _, at_) =>
      let s : State := { s with time := max s.time at_ }
      if r.beatOnly then
        .next (((s.dropRound r).applyVerdict r.job (bit bts 0)).partDone r.block r.num)
      else if bits bts 3 1 = 0 then
        let s := if bit bts 0 then s.setNf r.job r.step else s
        .next (((s.dropRound r).normAccepted r).partDone r.block r.num)
      else
        let s := s.bump 0x34014 15 0 1
        if bit bts 3 || decide (s.rf 0x34004 17 16 ≤ r.reruns) then
          .next ((s.dropRound r).raiseJ 0x0524 0 0 r.job r.task)
        else .next (s.rerunRound r)

/-- SINGLE_DEVICE_VERDICT: a single-device job forms its verdict from its own flag (R231, R232). -/
def execSingleDeviceVerdict (j : SlotId) (s : State) : Out :=
  let j := j.val
  let sl := s.slot j
  let begun := sl.lists.any fun (_, l) => decide (sl.vstep ≤ l.pass) && decide (l.pos.length < l.records.length ∨ sl.vstep < l.pass)
  whenever (sl.state == .running && !bit sl.flags 0 && begun && s.gradDone j sl.vstep) s
    (s.applyVerdict j (s.nf j sl.vstep))

/-- BEAT_TIMEOUT: no down beat has come BEAT_TO ms after the own part (R380); firmware stops the job at its next pass. -/
def execBeatTimeout (i : Nat) (s : State) : Out :=
  match s.roundAt i with
  | none => .next s
  | some r =>
    whenever (s.ownDone r && r.down.isNone && decide (s.rf 0x34008 31 16 ≤ r.waitMs)) s
      ((s.dropRound r).raiseJ 0x0526 0 0 r.job r.task)

end Sys2Proof.Machine
end

