-- ==== Sys2Proof/Machine/Survive.lean ====
section
/-!
DEFINITION. Sys2Proof/Machine/Survive.lean: what outlives a failure (spec/13, R425 to R437): step commits and markers,
images, the carry journal's segments, and a member's restart.
-/
namespace Sys2Proof.Machine

/-! ### Methods (R425, R426) -/

/-- Weights of a tensor. -/
def Tensor.weights (x : Tensor) : Nat := (x.pieces.map fun (_, _, r, c, _) => r * c).sum

/-- The code shadow is at least JRN_MIN_SIZE (pieces lie at a pitch of 3 MiB, R303). -/
def State.bigTensor (s : State) (sl : Slot) (n : Nat) : Bool :=
  match s.tensor n with
  | some x => decide (sl.jrnMin * 2097152 ≤ x.count * 3145728)
  | none => false

/-- Writable tensors of a job. -/
def Slot.writables (sl : Slot) : List Nat := (sl.tensors.filter fun x => x.2).map fun x => x.1

/-- The tensor uses the journal method: its size, and its carry rate below JRN_MAX_RATE in 0.01 % (R425). -/
def State.journalMethod (s : State) (sl : Slot) (n : Nat) : Bool :=
  match s.tensor n with
  | some x => s.bigTensor sl n && decide (SMap.get (fun _ => 0) sl.carryN n * 10000 < sl.jrnRate * x.weights * sl.imgInt)
  | none => false

/-- Tile-tier units of a tensor's pieces. -/
def State.tensorUnits (s : State) (n : Nat) : List Nat :=
  match s.tensor n with
  | some x => x.pieces.map fun p => p.2.1
  | none => []

/-! ### Commit (R16, R19, R426, R427, R431 to R433) -/

/-- A marker of the present moment (R433). -/
def State.marker (s : State) (typ j step : Nat) : Marker :=
  let sl := s.slot j
  { typ := typ, job := j, fjob := sl.fjob, step := step, epoch := sl.epoch, time := s.time,
    lscale := s.rn (numReg j 8), image := sl.imgStep, base := sl.baseStep }

/-- The 64 bytes of a marker. -/
def Marker.bytes (m : Marker) : List Byte :=
  let b := leBytes 2 0xC17E ++ leBytes 1 m.typ ++ leBytes 1 m.job ++ leBytes 4 m.fjob ++ leBytes 4 m.step ++ leBytes 4 m.epoch ++
    leBytes 8 m.time ++ leBytes 4 m.lscale ++ leBytes 4 m.image ++ leBytes 4 m.base ++ leBytes 24 0
  b ++ leBytes 4 (crc32c b).toNat

/-- Every update of the step, of tiers and of adapters, has been delivered and has completed (R14). -/
def State.updatesDone (s : State) (j n : Nat) : Bool :=
  let sl := s.slot j
  let upd (g r : Nat) : Bool := recKind r == 6 || sl.adapts g r
  (sl.lists.all fun (g, l) => decide (n < l.pass) ||
    (l.pass == n && l.pos.all fun i => !upd g (l.records.getD i 0))) &&
  (s.blocks.all fun (b, B) =>
    (B.queue.all fun q => !(q.job == j && q.step == n && upd (b / 16) q.record)) &&
    (B.running.all fun r => !(r.task.job == j && r.task.step == n && upd (b / 16) r.task.record)))

/-! ### Copies to the IMAGE windows (R288, R427, R432)

DESIGN CHOICE (assumption 163): piece k of the job's writable tensors, in the order of JOB_TENSORS and of the pieces, has its
image at 4 MiB × k of the lower-numbered IMAGE window, the entry of row r and column c at 4 × (1,024 × r + c); segments follow
one another in the higher-numbered window from its start, or after the images where the job holds one window, and begin
again there when the next does not fit; a segment's header has its fields as 4-byte words in the order of R432. -/

/-- Tile-tier units of the job's writable tensors. -/
def State.imageUnits (s : State) (j : Nat) : List Nat := ((s.slot j).writables.map s.tensorUnits).flatten

/-- The image entry of a weight: the whole record, or L alone (the image entry table). -/
def State.imageEntry (s : State) (I : TierInfo) (u r c : Nat) (full : Bool) : Nat :=
  let x := s.rdRec I u r c
  (if full then x else x % 2 ^ lowBits I.dslice) + enc2c 8 (s.rdFold I u r c) * 2 ^ 24

/-- Bytes of a window that the images of k pieces take. -/
def imageBytes (k : Nat) : Nat := k * 2 ^ 22

/-- The image of a piece goes to the job's lower-numbered IMAGE window, or no byte of it moves and 0x0620 or 0x0463 says so
(R288, R427, R440). -/
def State.copyImage (s : State) (j u : Nat) : State :=
  let I := s.tier u
  let full := match I.tensor with | some n => (s.slot j).imgFull.contains n | none => true
  let off := imageBytes ((firstIdx (fun v => v == u) (s.imageUnits j)).getD 0)
  match s.hostAcc j kindImage 0 off (4 * (1024 * (I.rows - 1) + I.cols)) with
  | .err ev => s.raiseJ ev 3 (unitStack u) j 0
  | .at h =>
    s.each (fun s r =>
      s.wr .host (h + 4096 * r) (((List.range I.cols).map fun c => leBytes 4 (s.imageEntry I u r c full)).flatten)) (List.range I.rows)

/-- The bytes of a segment: its header and its entries (R430, R432). -/
def State.segmentBytes (s : State) (j step g : Nat) (entries : List Nat) : List Byte :=
  let body := (entries.map (leBytes 8)).flatten
  let sl := s.slot j
  (([sl.fjob, s.ownId, g, step, sl.epoch, entries.length, (crc32c body).toNat].map (leBytes 4)).flatten ++ leBytes 36 0) ++ body

/-- A closed segment goes to the job's higher-numbered IMAGE window (R288, R432). -/
def State.copySegment (s : State) (j : Nat) (x : Nat × Nat × Bool × List Nat) : State :=
  let (step, g, _, l) := x
  let ws := s.windows j kindImage
  let base := if ws.length ≤ 1 then imageBytes (s.imageUnits j).length else 0
  let data := s.segmentBytes j step g l
  let size := match ws.getLast? with | some w => s.winSize w | none => 0
  let sl := s.slot j
  let at_ := if sl.segOff < base ∨ size < sl.segOff + data.length then base else sl.segOff
  match s.hostAcc j kindImage (ws.length - 1) at_ data.length with
  | .err ev => s.raiseJ ev 3 g j 0
  | .at h => (s.wr .host h data).setSlot j { sl with segOff := at_ + data.length }

/-- The segments that a commit closes are copied, region by region. DEDUCED (assumption 163): within the commit's command, and
not while the UCIe link is down. -/
def State.copySegments (s : State) (j n : Nat) : State :=
  if !s.ucieUp then s
  else
    let l := (s.slot j).segs.filter fun (k, _, _, _) => k == n
    s.each (fun s x => s.copySegment j x) (l.mergeSort fun x y => decide (x.2.1 ≤ y.2.1))

/-- STEP_COMMIT: firmware writes the commit marker of a job's step: COMMITTED, and the weight epoch rises, or SKIPPED
(R16, R19); the step's carry-journal segments close and are copied (R288, R432); an image step starts its copies (R426, R427). -/
def execStepCommit (j : SlotId) (s : State) : Out :=
  let j := j.val
  let sl := s.slot j
  let n := sl.step
  match sl.verdicts.find? fun v => v.1 = n with
  | none => .next s
  | some (_, nf) =>
    whenever (sl.state.active && !sl.committed && s.updatesDone j n) s
      (let img := n % sl.imgInt == 0
       let next := sl.writables.filter (s.journalMethod sl)
       let full (x : Nat) : Bool := n % sl.baseInt == 0 || !(sl.jmeth.contains x && next.contains x)
       let sl := { sl with
         committed := true
         epoch := if nf then sl.epoch else (sl.epoch + 1) % 2 ^ 32
         segs := sl.segs.map fun (k, g, c, l) => (k, g, c || k == n, l)
         openSeg := n + 1
         imgCopy := if img then s.imageUnits j else sl.imgCopy
         imgFull := if img then sl.writables.filter full else sl.imgFull
         jmeth := if img then next else sl.jmeth
         carryN := if img then [] else sl.carryN }
       let s := (s.setSlot j sl).copySegments j n
       let m := s.marker (if nf then 2 else 1) j n
       { s with fw := { s.fw with commitLog := s.fw.commitLog ++ [m],
                                  commitMs := if s.fw.commitLog.isEmpty then 0 else s.fw.commitMs } })

/-- COMMIT_LOG_PROGRAM: the commit log is programmed to the partition (R433). -/
def execCommitLogProgram (s : State) : Out :=
  whenever (!s.fw.commitLog.isEmpty) s
    { s with part := s.part.addMarkers s.fw.commitLog,
             fw := { s.fw with commitLog := [], commitMs := 0 } }

/-- A marker that is programmed at once (R429, R433, R434). -/
def State.markNow (s : State) (m : Marker) : State :=
  { s with part := s.part.addMarkers (s.fw.commitLog ++ [m]), fw := { s.fw with commitLog := [], commitMs := 0 } }

/-- IMAGE_COPY_DONE: the image copy of a piece has completed: its bytes are in the IMAGE window, and its deferred folds run
(R284, R288, R427). -/
def execImageCopyDone (x : At SlotId) (u : TileTierId) (s : State) : Out :=
  let j := x.what.val
  let u := u.val
  let sl := s.slot j
  whenever (sl.imgCopy.contains u && s.ucieUp) s
    (let s := ((s.memErrs x.errs).setSlot j { sl with imgCopy := sl.imgCopy.filter fun v => v != u }).copyImage j u
     let b := u / 512
     let B := s.block b
     let mine := B.deferred.filter fun q => q.unit == u
     if s.imageHeld u || !s.carryTokens b then s
     else
       let s := s.setBlock b { B with deferred := B.deferred.filter fun q => q.unit != u }
       (s.each (fun s q => s.foldRow q) mine).finishInPlace (u / 8))

/-! ### Restart (R434 to R437) -/

/-- Pieces of the job's writable tensors, both tiles of a double-slice piece. -/
def State.jobUnits (s : State) (j : Nat) : List Nat :=
  let us := ((s.slot j).writables.map s.tensorUnits).flatten
  (us.map fun u => if (s.tier u).dslice then [u, u + 8] else [u]).flatten

/-- Order 1: queued carries discarded, and what an earlier restart began; the tiers of a survivor are DORMANT, as those of a
returning member are already; a replacement has no residency record yet (R434, R437). -/
def State.clearPieces (s : State) (j kind : Nat) : State :=
  s.each (fun s u =>
    let s := s.quietTier u
    if kind = 0 then s.setTierState u stDormant
    else if [stDormant, stFree, stRetired].contains (s.tierState u) then s
    else s.setTierState u (if kind = 2 then stFree else stDormant)) (s.jobUnits j)

def entUnit (e : Nat) : Nat := bits e 16 0
def entRow (e : Nat) : Nat := bits e 26 17
def entCol (e : Nat) : Nat := bits e 36 27
def entPre (e : Nat) : Int := sext 10 (bits e 46 37)
def entPost (e : Nat) : Int := sext 10 (bits e 56 47)

/-- One entry replayed (`fwd`) or reversed: the code held must be the one it starts from (R435). -/
def State.applyEntry (s : State) (fwd : Bool) (e : Nat) : Option State :=
  let u := entUnit e
  let I := s.tier u
  let r := s.rdRec I u (entRow e) (entCol e)
  let src := if fwd then entPre e else entPost e
  let dst := if fwd then entPost e else entPre e
  if recCode I.dslice r = src then
    some (s.wrRec I u (entRow e) (entCol e) (setCode I.dslice r dst (recLow I.dslice r)))
  else none

def State.applyEntries (s : State) (fwd : Bool) : List Nat → Option State
  | [] => some s
  | e :: r => match s.applyEntry fwd e with | some t => t.applyEntries fwd r | none => none

/-- Own segments after step S, newest entry first (order 2 of a survivor). -/
def Slot.reversal (sl : Slot) (S : Nat) : List Nat :=
  let l := (sl.segs.filter fun (n, _, _, _) => decide (S < n)).mergeSort fun x y => decide (x.1 ≤ y.1)
  ((l.map fun (_, _, _, es) => es).flatten).reverse

/-- One image entry written to the record and the fold map: all of it, or only low half and fold offset for a
journal-method tensor. -/
def State.loadImg (s : State) (lowOnly : Bool) (x : ImgRec) : State :=
  let I := s.tier x.unit
  let r := bits x.val 23 0
  let old := s.rdRec I x.unit x.row x.col
  let w := lowBits I.dslice
  let new := if lowOnly then old / 2 ^ w * 2 ^ w + r % 2 ^ w else r
  (s.wrRec I x.unit x.row x.col new).wrFold I x.unit x.row x.col (sext 8 (bits x.val 31 24))

def State.loadImgs (s : State) (j : Nat) (full : Bool) (l : List ImgRec) : State :=
  s.each (fun s x =>
    let jm := match (s.tier x.unit).tensor with | some n => (s.slot j).jmeth.contains n | none => false
    s.loadImg (jm && !full) x) l

/-- Orders 1 to 4 of a member's restart (R434, R435): answers the state, and whether the journal was consistent. -/
def State.beginRestart (s : State) (j kind : Nat) (x : ImgSet) : Bool × State :=
  let S := (s.slot j).rests
  let s := s.clearPieces j kind
  let s := s.setSlot j { s.slot j with imgCopy := [] }
  let two := if kind = 0 then s.applyEntries false ((s.slot j).reversal S)
    else (s.loadImgs j true x.base).applyEntries true x.segs
  match two with
  | none => (false, s.raiseJ 0x0433 0 0 j 0)
  | some s =>
    let s := s.loadImgs j false x.img
    let s := s.each (fun s u => if kind = 2 then s.startLoad u else s.startAdopt u) (s.jobUnits j)
    let sl := s.slot j
    (true, s.setSlot j { sl with restOrd := 4, segs := sl.segs.filter fun (n, _, _, _) => decide (n ≤ S) })

/-- RESTORE_COMPLETE: every tier of a restarting member is RESIDENT and its job record is set: it reports itself restored
(R436). -/
def execRestoreComplete (j : SlotId) (s : State) : Out :=
  let j := j.val
  let sl := s.slot j
  let ok := (s.jobUnits j).all fun u => s.tierState u == stResident || (s.tierState u == stRetired && (s.tier u).tensor.isSome)
  whenever (sl.restOrd == 4 && sl.restored && ok && (s.opsOf [0x0C04] fun a => a == j).length == 1) s
    (let s := s.setSlot j { sl with
       restOrd := 5, step := sl.rests + 1, vstep := sl.rests + 1, openSeg := sl.rests + 1, committed := false, verdicts := [],
       skipped := [], gradDone := [], stepS := [],
       lists := sl.lists.map fun (g, l) => (g, { l with pos := List.range l.records.length, pass := sl.rests + 1 }) }
     let s := s.each (fun s n => match s.tensor n with | some x => s.setTensor n (some { x with state := 5 }) | none => s) sl.writables
     (s.makeTwins j).2.opDone sl.restOp 0 0 [])

end Sys2Proof.Machine
end

