-- ==== Sys2Proof/Machine/Boot.lean ====
section
/-!
DEFINITION. Sys2Proof/Machine/Boot.lean: power, resets, start-up and self-test (spec/20, R572 to R590; spec/00, R5 to R8;
spec/17, R514 to R521, R532; spec/18, R536, R540, R541).
-/
namespace Sys2Proof.Machine

/-- An event that firmware or the enclave raises, which reaches firmware without an aggregator. -/
def State.raiseFw (s : State) (code kind unit : Nat) : State :=
  { s with fw := { s.fw with reports := s.fw.reports ++ [{ code := code, kind := kind, unit := unit, job := 255, task := 0, count := 1 }] } }

/-! ### Images (R514 to R519) -/

/-- The bytes of a staged image at an offset. -/
def FwSlot.bytes (x : FwSlot) (off n : Nat) : List Byte := (List.range n).map fun i => SMap.get (fun _ => 0#8) x.data (off + i)
def FwSlot.num (x : FwSlot) (off n : Nat) : Nat := leNat (x.bytes off n)

/-- Payload of an image. -/
def FwSlot.payload (x : FwSlot) : List Byte := x.bytes 8192 (x.num 0x10 4)

/-- The header's fields are read. -/
def FwSlot.readHeader (x : FwSlot) : FwSlot :=
  { x with version := x.num 8 4, svn := x.num 0xC 4, commit := x.num 0x14 4 % 2 == 1, keyIdx := x.num 6 2,
           revokes := Config.revokeList x.payload }

/-- The six checks of R514: 0 accepted, 1 authentication failure, 2 rollback. An image of manufacture stands for one
whose signatures and digests hold. -/
def Enclave.imageStatus (e : Enclave) (typ : Nat) (x : FwSlot) : Nat :=
  let min := e.minSvn.getD typ 0
  if x.shipped then (if bit e.revoked x.keyIdx then 1 else if x.svn < min then 2 else 0)
  else
    let zero (off n : Nat) : Bool := (x.bytes off n).all fun b => b == 0#8
    let h := x.readHeader
    let hdr := x.bytes 0 8192
    if !(x.num 0 4 == 0xE11A0D17 && x.num 4 2 == typ && x.num 0x14 4 / 2 == 0 && zero 0x808 2040 && zero 0x1D2D 723) then 1
    else if !(decide (h.keyIdx < 4) && !bit e.revoked h.keyIdx && decide (h.svn ≤ 64)) then 1
    else if !(beNat (sha384 (x.bytes 0x48 1984)) == (Config.keyDigest h.keyIdx).toNat) then 1
    else if !Config.edOk hdr then 1
    else if !Config.mldsaOk hdr then 1
    else if h.svn < min then 2
    else if !(sha384 x.payload == x.bytes 0x18 48) then 1
    else 0

def Enclave.slot (e : Enclave) (typ ab : Nat) : FwSlot := SMap.get (fun _ => FwSlot.init) e.slots (typ * 2 + ab)
def Enclave.setSlot (e : Enclave) (typ ab : Nat) (x : FwSlot) : Enclave :=
  { e with slots := SMap.set (fun _ => FwSlot.init) e.slots (typ * 2 + ab) x }
def State.setSec (s : State) (e : Enclave) : State := { s with sec := e }

/-- One generate request of the DRBG (R531). -/
def State.drbgRequest (s : State) : State := s.setSec { s.sec with drbgReqs := s.sec.drbgReqs + 1 }

/-- Every rounding generator, of the blocks and of the link ports, is reseeded from the CTR_DRBG, at BOOT and when a job is
admitted (R213, R241): the free values that its roundings take are others from then on. -/
def State.reseedGenerators (s : State) : State := let (_, s) := s.drbgRequest.draw; s


/-- One slot is verified: a failure raises its event (R514). -/
def State.verifySlot (s : State) (typ ab : Nat) : Bool × State :=
  match s.sec.imageStatus typ (s.sec.slot typ ab) with
  | 0 => (true, s)
  | 1 => (false, s.raiseFw 0x0801 0 0)
  | _ => (false, s.raiseFw 0x0802 0 0)

/-- The enclave takes the active slot of a type, or the other one, which it makes active (R516, R518). -/
def State.bootImage (s : State) (typ : Nat) : Bool × State :=
  let a := s.sec.active.getD typ 0
  let (ok, s) := s.verifySlot typ a
  if ok then (true, s)
  else
    let (ok, s) := s.verifySlot typ (1 - a)
    if ok then
      (true, (s.setSec { s.sec with active := setAt s.sec.active typ (1 - a), next := setAt s.sec.next typ (1 - a) }).raiseFw 0x0804 0 0)
    else (false, s)

/-- The MP bundle that a recovery image carries. -/
def FwSlot.embedded (x : FwSlot) : FwSlot :=
  if x.shipped then FwSlot.factory
  else ({ FwSlot.init with data := (x.data.filter fun (k, _) => decide (8192 ≤ k)).map fun (k, v) => (k - 8192, v) } : FwSlot).readHeader

/-- R519: after a recovery image was activated in GLADE, the next reset installs its MP bundle. -/
def Enclave.installRecovery (e : Enclave) : Enclave :=
  if e.recovery then
    let ab := 1 - e.active.getD 0 0
    { e.setSlot 0 ab (e.slot 3 (e.active.getD 3 0)).embedded with
      active := setAt e.active 0 ab, next := setAt e.next 0 ab, recovery := false }
  else e

/-! ### What a reset keeps (R7, R57, R573, R574, R590) -/

/-- What is left of a tier: its erase history. -/
def TierInfo.kept (x : TierInfo) : TierInfo :=
  { TierInfo.init with erases := x.erases, eraseOpen := x.eraseOpen, lastErase := x.lastErase }

/-- What is left of the journal: its programmed pages. -/
def Journal.kept (j : Journal) : Journal :=
  { Journal.init with erased := j.erased, blocks := j.blocks, boots := j.boots }

/-- What is left of the enclave: fuses and boot flash. -/
def Enclave.kept (e : Enclave) : Enclave :=
  { Enclave.init with revoked := e.revoked, minSvn := e.minSvn, slots := e.slots, active := e.next, next := e.next, recovery := e.recovery }

/-- Reset is asserted, or power is gone: every unit is at its reset value; cells, partition, boot flash, fuses and the
first stage's latch stay (R96, R139, R170, R203, R241, R276, R341, R456, R490, R510, R590). `host`: the host die is
reset too. -/
def State.cleared (s : State) (dev : DevState) (host : Bool) : State :=
  let t := s.pins s.dev .off
  { State.reset with
    pending := s.pending, draws := s.draws, dev := dev, resetN := s.resetN, hostUp := if host then false else s.hostUp
    store := { State.reset.store with cells := s.store.cells, host := if host then [] else s.store.host }
    tiers := SMap.mapVals (fun _ => TierInfo.init) TierInfo.kept s.tiers
    jrn := s.jrn.kept
    part := s.part
    sec := s.sec.kept
    fab := { Fabric.init with out := t.fab.out }
    pwr := { Power.init with cause := s.pwr.cause, shut := s.pwr.shut, vin := s.pwr.vin, pwrgood := s.pwr.pwrgood } }

/-! ### Start-up (R575, steps 4 to 10) -/

/-- The journal scan (R395, R407): clock, next SEQ, correctable history, of the pages that it finds. -/
def State.scanJournal (s : State) (rd : PartReads) : State :=
  let j := s.jrn.scanned rd
  let l := j.found
  let clock := l.foldl (fun n r => max n r.jclock) 0
  let seq := l.foldl (fun n r => max n (r.seq + 1)) 0
  let corr := l.filter JRec.holdsCorrectable
  let hist := (corr.map JRec.occurrences).flatten.filter fun (k, _, _, t) => k != 0 && decide (clock ≤ t + hours72)
  s.setJrn { j with jclock := clock, nextSeq := seq, boots := j.boots + 1, hist := hist.map fun (k, u, e, t) => (k, u, t, e) }

/-- FH_STATE's cause after a scan that found the flag open: that of the record which set it, and of the record before
it, which caused it. -/
def State.restoreCause (s : State) : State :=
  let l := s.jrn.found
  match (l.filter fun r => r.typ == tyState && r.detail.getD 2 0 == 1).getLast? with
  | none => s
  | some r =>
    let evt := match l.find? fun x => x.seq + 1 = r.seq with | some x => x.event | none => 0
    let s : State := { s with fw := { s.fw with causeSeq := r.seq - 1 } }
    s.setRn 0x40000 (r.detail.getD 3 0 * 256 + evt * 65536)

/-- R56, R59, R140: the state of one tier after BOOT, from its latest valid residency record and its erase count. -/
def State.bootTier (rd : PartReads) (s : State) (u : Nat) : State :=
  let I := s.tier u
  let r := s.part.resRec rd u
  let named (s : State) : State :=
    match r with
    | some r => s.setTier u { I with tensor := some r.tensor, piece := r.piece, dslice := r.dslice, sigma := r.sigma }
    | none => s
  if 10000 ≤ I.erases then
    if I.eraseOpen then
      ((s.setRn (tierReg u) (stRetired * 65536)).writeResidency u).raiseFw 0x0121 1 u
    else named (s.setRn (tierReg u) (stRetired * 65536))
  else if r.isSome then named (s.setRn (tierReg u) (stDormant * 65536))
  else s.setRn (tierReg u) (stFree * 65536)

/-- Mailbox states (MB_STATUS.STATE). -/
def mbIdle : Nat := 1
def mbPosted : Nat := 2
def mbBusy : Nat := 3
def mbDone : Nat := 4
def State.mbState (s : State) (m : Nat) : Nat := s.rf (mbReg m 4) 2 0
def State.setMb (s : State) (m st : Nat) : State :=
  (s.setRf (mbReg m 4) 2 0 st).setRf (mbReg m 4) 3 3 (if st = mbDone then 1 else 0)

/-- The active configuration takes effect (R381, R382, R387): record fields as CFG_COMMIT lists them. -/
def State.applyConfig (s : State) (rec' : List Byte) (epoch : Nat) : State :=
  let n (off k : Nat) : Nat := leNat ((rec'.drop off).take k)
  let dig := sha384 rec'
  let s := s.setRn 0x34010 epoch
  let s := s.each (fun s i => s.setRn (0x34020 + 4 * i) (leNat ((dig.drop (4 * i)).take 4))) (List.range 12)
  let s := s.setRn 0x34004 (n 5 1 + n 6 1 * 256 + n 7 1 * 4096 + n 8 1 * 65536)
  let s := s.setRn 0x34008 (n 12 4)
  let s := s.setRf 0x34088 15 8 (n 9 1)
  ({ s with fw := { s.fw with cfg := rec' } } : State).helloChanged

/-- What LOCAL_SET keeps is put back (R479): THRESH, MODE, TEST_INT, DRAIN_TO. -/
def State.applyLocal (s : State) (param value : Nat) : State :=
  match param with
  | 2 => s.setRf 0x350000 7 0 value
  | 3 => s.setRf 0x350000 8 8 value
  | 4 => s.setRf 0x40004 15 8 value
  | 5 => s.setRf 0x40004 7 0 value
  | _ => s

/-- Steps 6, 7 and 10 of the power-on sequence: scan, recorded causes, tiers, mailboxes, restored settings (R140, R351,
R387, R407, R479, R541, R578, R587). -/
def State.firmwareStart (s : State) (cause : Nat) (rd : PartReads) : State :=
  let s := (s.scanJournal rd).partReads rd
  let latch := s.pwr.cause
  let ev (s : State) (code unit : Nat) : State :=
    s.takeReport { code := code, kind := 0, unit := unit, job := 255, task := 0, count := 1 }
  let s := if latch = 0 then s else ev s latch 0
  let s := ev s 0x0422 (if latch = 0x0703 ∨ latch = 0x0722 then 6 else cause)
  let s := if latch = 0x0421 then
      let q := s.jrn.nextSeq - 1
      let s := s.jState .boot 1 3
      { s with fw := { s.fw with causeSeq := q } }
    else s
  let s : State := { s with pwr := { s.pwr with cause := 0 } }
  let s := if s.jrn.flagOpen then s.restoreCause else s
  let s := s.each (State.bootTier rd) (List.range 131072)
  let s := s.each (fun s m => if s.mbState m = 0 then s.setMb m mbIdle else s) (List.range 16)
  let (id, locals) := s.part.settings rd
  let s := s.setRn 0x34000 id
  let s := match s.part.config rd with
    | some (epoch, cfg) => s.applyConfig cfg epoch
    | none => s
  let s : State := { s with fw := { s.fw with locals := locals } }
  s.each (fun s (x : Nat × Nat) => s.applyLocal x.1 x.2) locals

/-- What POST_RESULT reports: the failing test, its unit, and the first 32 bytes of the unit's detail (R582). -/
def State.setPost (s : State) (test kind unit : Nat) : State :=
  { s with fw := { s.fw with postTest := test, postKind := kind, postUnit := unit, postDetail := (s.testDetail test kind unit).take 32 } }

/-- A self-test has failed in BOOT: TEST record, 0x0420, and BOOT goes on (R583). -/
def State.bootFail (s : State) (test kind unit : Nat) : State :=
  let s := (s.testRecord 0x0420 test kind unit).raiseFw 0x0420 kind unit
  if s.fw.postTest = 255 then s.setPost test kind unit else s

/-- Rails, block switches and HBM are off (R574, R577, R584). -/
def State.railsOff (s : State) : State :=
  let s := s.each (fun s g =>
    let s := ((s.setRf (railReg g 0) 4 0 0).setRf (regionReg g 0x3000) 17 16 0).setRn (calReg g 0) 0
    ((s.setRf (regionReg g 0) 31 16 0).setRn (regionReg g 4) 0).setSupply g Supply.init) (List.range 16)
  s.each (fun s b => (s.setRf (clkReg b 0) 8 8 0).setRf (clkReg b 4) 10 0 0) (List.range 256)

/-- The device fails self-test and enters GLADE (R582, R584). -/
def State.failSelfTest (s : State) (test kind unit : Nat) : State :=
  let s := s.testRecord 0x0420 test kind unit
  let s := (s.setJrn (s.jrn.programAll s.jrn.staged.length)).raiseFw 0x0420 kind unit
  let s := s.setPost test kind unit
  (s.setDev .glade).railsOff

/-- FLAGGED is entered from BOOT (R5, R577). -/
def State.bootFlagged (s : State) : State := (s.jState .flagged 0 (s.rf 0x40000 15 8)).setDev .flagged

/-- The enclave starts and the MP with it (R516 to R519, R575, R586). `cause`: the reset cause of R578; `enc`: the
self-test that the enclave fails, if any; `rd`: what firmware's reads of the partition in BOOT meet. -/
def State.startUp (s : State) (cause : Nat) (enc : Option Nat) (rd : PartReads) : State :=
  let s : State := { s with dev := .boot, resetN := false, time := 0, pwr := { s.pwr with shut := false, pwrgood := true } }
  match enc with
  | some k =>
    let s : State := { s with monitor := true, mpUp := true, sec := { s.sec with state := .error, failed := k } }
    let s := ((s.raiseFw 0x0803 0 0).scanJournal rd).partReads rd
    let s := s.each (fun s m => if s.mbState m = 0 then s.setMb m mbIdle else s) (List.range 16)
    if s.jrn.flagOpen then s.restoreCause.setDev .flagged
    else s.failSelfTest 1 0 0
  | none =>
    let s := s.setSec { s.sec.installRecovery with state := .operational }
    let (mp, s) := s.bootImage 0
    let (ok, s) := if mp then (true, s) else s.bootImage 3
    if !ok then s
    else
      let s : State := { s with mpUp := true }
      let s := s.reseedGenerators.firmwareStart cause rd
      let (k, s) := s.bootImage 2
      let (h, s) := s.bootImage 1
      let s : State := { s with hostUp := s.hostUp || h }
      if mp && k && h then s else s.bootFail 2 0 0

/-- A device reset: compute die, MP and enclave (R572, R574). -/
def State.deviceReset (s : State) (cause : Nat) (enc : Option Nat) (rd : PartReads) : State :=
  (s.cleared .boot false).startUp cause enc rd

/-! ### Power and reset commands -/

/-- The module is off for want of 50 V. -/
def State.unpowered (s : State) : Bool := s.dev == .off && !s.pwr.shut

/-- POWER_APPLIED: 50 V comes on (R5, R575); with RESET_N asserted, MP and enclave stay in reset (R574). -/
def execPowerApplied (vin : Nat) (enc : Option Nat) (rd : PartReads) (s : State) : Out :=
  whenever (s.unpowered && decide (38000 ≤ vin) && decide (vin ≤ 62000)) s
    (let s : State := { s with pwr := { s.pwr with vin := vin, pwrgood := !s.resetN } }
     if s.resetN then { s with dev := .boot } else s.startUp 1 enc rd)

/-- The module loses its power: everything stops (R7, R614). -/
def State.powerOff (s : State) (shut : Bool) : State :=
  let t := s.cleared .off true
  { t with pwr := { t.pwr with shut := shut, pwrgood := false, vin := if shut then s.pwr.vin else 0 } }

/-- POWER_REMOVED: 50 V is removed (R5, R7). -/
def execPowerRemoved (s : State) : Out := whenever (!s.unpowered) s (s.powerOff false)

/-- RESET_N_ASSERT: the tray asserts RESET_N (R5, R572 to R574, R594, R595). In OFF after a protective shutdown it prepares
the restart of R540. -/
def execResetNAssert (s : State) : Out :=
  whenever (!s.resetN) s
    (if s.dev = .off then { s with resetN := true }
     else
       let t := s.cleared .boot true
       { t with resetN := true, pwr := { t.pwr with pwrgood := false } })

/-- RESET_N_RELEASE: the power-on sequence resumes at the enclave's start (R574), also after a protective shutdown
(R540). -/
def execResetNRelease (enc : Option Nat) (rd : PartReads) (s : State) : Out :=
  whenever s.resetN s
    (if s.unpowered then { s with resetN := false } else s.startUp 2 enc rd)

/-- LOCKSTEP_MISCOMPARE: the checker latches the cause and resets the device (R587). -/
def execLockstepMiscompare (enc : Option Nat) (rd : PartReads) (s : State) : Out :=
  whenever (s.mpUp && !s.resetN) s
    (({ s with pwr := { s.pwr with cause := 0x0421 } } : State).deviceReset 3 enc rd)

/-- WATCHDOG_EXPIRY: the MP watchdog resets the device (R588). -/
def execWatchdogExpiry (enc : Option Nat) (rd : PartReads) (s : State) : Out :=
  whenever (s.mpUp && !s.resetN) s (s.deviceReset 4 enc rd)

/-- The shutdown causes: thermal trip has an event of its own (R540). -/
def shutdownEvent (cause : Nat) : Nat := if cause = 4 then 0x0722 else 0x0703

/-- A protective shutdown (R540, R594): the first cause is latched, and the module is off with 50 V still applied. -/
def State.protect (s : State) (event : Nat) : State :=
  let c := if s.pwr.cause = 0 then event else s.pwr.cause
  ({ s with pwr := { s.pwr with cause := c } } : State).powerOff true

/-- PROTECTIVE_SHUTDOWN: cause 0 input voltage, 1 first-stage converter, 2 rail undervoltage, 3 rail overcurrent,
4 thermal trip (R540). -/
def execProtectiveShutdown (cause : Nat) (s : State) : Out :=
  whenever (s.dev != .off && decide (cause < 5)) s (s.protect (shutdownEvent cause))

/-- INPUT_VOLTAGE_SAMPLE: the input stands at `mv` and has for `us` (R536). -/
def execInputVoltageSample (mv us : Nat) (s : State) : Out :=
  whenever (s.dev != .off) s
    (let s : State := { s with pwr := { s.pwr with vin := mv } }
     let s := s.setRf 0x300000 15 0 mv
     if (mv < 38000 ∧ 100 ≤ us) ∨ (62000 < mv ∧ 10 ≤ us) then s.protect 0x0703
     else if 40000 ≤ mv ∧ mv ≤ 60000 then { s with pwr := { s.pwr with vinTold := false } }
     else
       if s.pwr.vinTold then s
       else (({ s with pwr := { s.pwr with vinTold := true } } : State).setBit 0x30000C 2).raiseFw 0x0710 0 0)

/-- HOST_DIE_RESET: the host die resets (R589): windows are cleared, every admitted job is stopped, mailboxes 0 to 7 are
IDLE, and the enclave verifies the host-die image again. -/
def execHostDieReset (s : State) : Out :=
  whenever (s.hostUp && s.mpUp) s
    (let s := if s.ucieUp then s.ucieDrop else s
     let s := s.each (fun s w =>
       if s.rbit (hwinReg w 0xC) 0 then (s.setRf (hwinReg w 0xC) 0 0 0).setRf (hwinReg w 0xC) 16 16 1 else s) (List.range 16)
     let s := s.each (fun s j =>
       let st := (s.slot j).state
       if st = .free ∨ st = .stopped then s else s.haltJob j 5 0 0) (List.range 64)
     let s := s.each (fun s m => (s.setBox m Mailbox.init).setMb m mbIdle) (List.range 8)
     let s : State := { s with store := { s.store with host := [] } }
     let (ok, s) := if s.sec.state = .operational then s.bootImage 1 else (false, s)
     { s with hostUp := ok })

/-! ### BOOT and self-test end (R577, R579 to R583) -/

/-- Self-tests that run in BOOT (R583). -/
def bootTests : List Nat := [1, 2, 3, 4, 6]

/-- A test that failed and passed when it was run once more: a TEST record, for an in-field test 0x0414 (R581). -/
def State.testPassedAgain (s : State) (o : TestOutcome) : State :=
  let inField := decide (9 ≤ o.test) && decide (o.test ≤ 13)
  let s := s.testRecord (if inField then 0x0414 else 0) o.test o.kind o.unit
  if inField then s.raise 0x0414 o.kind o.unit else s

/-- Firmware requests a region's rail (R543, R546, R575 step 12). -/
def State.railRequest (s : State) (g : Nat) : State :=
  let s := s.setRf (railReg g 0) 0 0 1
  match s.rf (railReg g 0) 3 1 with
  | 0 => (s.setRf (railReg g 0) 3 1 1).setSupply g { s.supply g with waitUs := 0 }
  | 4 => (s.setRf (railReg g 0) 3 1 5).raise 0x0701 3 g
  | _ => s

/-- BOOT_COMPLETE: BOOT ends (R5, R577, R583); `outs`: the BOOT tests that did not pass on their first run. Entering
SELFTEST, firmware requests every region rail (R575 step 12). -/
def execBootComplete (outs : List TestOutcome) (s : State) : Out :=
  whenever (s.dev == .boot && s.mpUp && !s.monitor && outs.all fun o => bootTests.contains o.test) s
    (let s := s.each (fun s (o : TestOutcome) => if o.again then s.bootFail o.test o.kind o.unit else s.testPassedAgain o) outs
     if s.jrn.flagOpen then s.bootFlagged
     else
       let s := s.setDev .selftest
       if s.fw.postTest ≠ 255 then s.failSelfTest s.fw.postTest s.fw.postKind s.fw.postUnit
       else s.each State.railRequest (List.range 16))

/-- Every rail, switch and region calibration is up (R575, steps 12 and 13). -/
def State.planeUp (s : State) : Bool :=
  (List.range 16).all (fun g => s.rf (railReg g 0) 3 1 == 3 && s.rf (calReg g 0) 2 0 == 1) &&
    (List.range 256).all fun b => s.rf (clkReg b 4) 10 8 == 3

/-- R520, R521: the fuses follow the images that run. -/
def State.blowFuses (s : State) : State :=
  s.each (fun s typ =>
    let e := s.sec
    let x := e.slot typ (e.active.getD typ 0)
    let s := if x.commit && decide (e.minSvn.getD typ 0 < x.svn) then
        (s.setSec { e with minSvn := setAt e.minSvn typ x.svn }).raiseFw 0x0805 0 0
      else s
    if x.commit then
      let mask := ((List.range x.keyIdx).filter fun i => bit x.revokes i && !bit s.sec.revoked i).foldl (fun n i => n + 2 ^ i) 0
      s.setSec { s.sec with revoked := s.sec.revoked + mask }
    else s) [0, 1, 2]

/-! ### The array sample reads (R580) -/

/-- The pairs of a sampled row as a verify read gives them: code, and level of the lower cell. -/
def State.sampleRow (s : State) (u row d : Nat) : List (Int × Nat) :=
  (List.range 1056).map fun p => let v := s.verifyPair u row p (d + p); (nearAway v.1 64, v.2)

/-- Every pair of a sampled row has its lower cell at level 0 to 31 and its code at −15 to +15, and in a tier whose last
operation is an erase every cell is within 0.5 step of level 31 (R580, R600). -/
def State.sampleLevels (s : State) (u row : Nat) (l : List (Int × Nat)) : Bool :=
  (l.all fun (c, lo) => decide (c.natAbs ≤ 15) && decide (lo ≤ 31)) &&
  (!(s.tier u).lastErase || (List.range 1056).all fun p => [0, 1].all fun side =>
    let x := s.cell (cellKey u row p side)
    decide (30500 ≤ x) && decide (x ≤ 31500))

/-- Every check set of a sampled row meets R79 within one code step (R580). -/
def sampleSets (l : List (Int × Nat)) : Bool :=
  let code (p : Nat) : Int := (l.getD p (0, 0)).1
  (List.range 16).all fun j => decide ((31 * code (1024 + 2 * j) + code (1025 + 2 * j) - setSum code j).natAbs ≤ 1)

/-- Rows 0, 16, 32 and so on up to 1,008 of a tier: whether the levels and codes of all are right, and how many have a check set
that is not. `d`: the first draw of the tier's verify errors. -/
def State.sampleTier (s : State) (u d : Nat) : Bool × Nat :=
  let rows := (List.range 64).map fun k => (16 * k, s.sampleRow u (16 * k) (d + 1056 * k))
  (rows.all fun (row, l) => s.sampleLevels u row l, (rows.filter fun (_, l) => !sampleSets l).length)

/-- Tile tiers that fail the array sample reads: check sets may fail in one row per tile (R580). -/
def State.arrayFails (s : State) (d : Nat) : List Nat :=
  (List.range 16384).flatMap fun t =>
    let l := (List.range 8).map fun i => (t * 8 + i, s.sampleTier (t * 8 + i) (d + (t * 8 + i) * 67584))
    let rows := (l.map fun (_, _, n) => n).sum
    (l.filter fun (_, ok, n) => !ok || (decide (1 < rows) && n != 0)).map fun (u, _) => u

/-- Draws of one run over the 131,072 tile tiers. -/
def sampleDraws : Nat := 131072 * 67584

/-- Test 0x0E and its re-run, at once, when it fails (R580, R581): the failing tile tier, when the re-run fails too. It changes
no cell. -/
def State.arrayTest (s : State) : Option Nat × State :=
  let next (s : State) : State := { s with draws := s.draws + sampleDraws }
  match s.arrayFails s.draws with
  | [] => (none, next s)
  | u :: _ =>
    let s := next s
    match s.arrayFails s.draws with
    | [] => (none, (next s).testPassedAgain { test := 14, kind := 1, unit := u, again := false })
    | v :: _ => (some v, next s)

/-- The tests of SELFTEST whose outcome is observed from outside the model: all but those of BOOT and the array sample reads. -/
def selfTests : List Nat := [1, 5, 7, 8, 9, 10, 11, 12, 13]

/-- The device passes self-test: zeros in block stores and HBM, the in-field tests' schedules, READY (R308, R576). -/
def State.passSelfTest (s : State) : State :=
  let s : State := { s with store := { s.store with bstore := [], hbm := [] }, hbmPoison := [], bsPoison := [] }
  let s := s.each (fun s g => s.setRf (regionReg g 0x3000) 16 16 1) (List.range 16)
  let x : BlockTest := { BlockTest.init with dueS := s.testInterval, result := 1, lastRun := s.jrn.jclock }
  let s := s.each (fun s b => s.each (fun s t => s.setTest b t x) (List.range 5)) (List.range 256)
  ((s.setDev .ready).raiseFw 0x0423 0 0).blowFuses

/-- SELF_TEST_COMPLETE: the self-tests end (R308, R576, R579 to R582); `outs`: those, beside the array sample reads, that did
not pass on their first run. -/
def execSelfTestComplete (outs : List TestOutcome) (s : State) : Out :=
  let bad := outs.find? fun o => o.again
  whenever (s.dev == .selftest && (outs.all fun o => selfTests.contains o.test) && (bad.isSome || s.planeUp)) s
    (let s := s.each (fun s (o : TestOutcome) => if o.again then s else s.testPassedAgain o) outs
     match bad with
     | some o =>
       let s := if 9 ≤ o.test ∧ o.test ≤ 13 then s.raise 0x0413 o.kind o.unit else s
       s.failSelfTest o.test o.kind o.unit
     | none =>
       match s.arrayTest with
       | (some u, s) => s.failSelfTest 14 1 u
       | (none, s) => s.passSelfTest)

/-- The enclave fails a self-test after the MP's release (R532): its CSPs are gone, encrypted ports go to FAULT; in BOOT
and SELFTEST the device fails self-test 0x01. -/
def State.enclaveError (s : State) (test : Nat) : State :=
  let s := s.setSec { s.sec with state := .error, failed := test, sessions := [] }
  let s := s.raiseFw 0x0803 0 0
  let s := s.each (fun s p =>
    if s.rf (linkReg (p / 2) 0) 4 3 = 1 ∧ s.lpState p ≠ lpDisabled then s.lpFail p else s) (List.range 32)
  match s.dev with
  | .boot => s.bootFail 1 0 0
  | .selftest => s.failSelfTest 1 0 0
  | _ => s

end Sys2Proof.Machine
end

