-- ==== Sys2Proof/Machine/Calib.lean ====
section
/-!
DEFINITION. Sys2Proof/Machine/Calib.lean: calibration and trimming (spec/19, R557 to R571).
-/
namespace Sys2Proof.Machine

/-! ### The factory calibration -/

/-- A byte of a tile's factory record before its CRC. What was measured at manufacture is Config's; codes lie in their
ranges. -/
def factoryRaw (tile o : Nat) : Byte :=
  let v := Config.factoryByte tile o
  if o < 2 then BitVec.ofNat 8 (tile / 2 ^ (8 * o))
  else if o = 2 then 1#8
  else if o = 3 then v
  else if o < 8 then 0#8
  else if o < 0x28 then BitVec.ofNat 8 (v.toNat % 32)
  else if o < 0x48 then v
  else if o < 0x258 then BitVec.ofNat 8 (v.toNat % 64)
  else if o < 0x268 then v
  else if o < 0x278 then BitVec.ofNat 8 (v.toNat % 64)
  else if o < 0x288 then v
  else 0#8

/-- A byte of a factory copy, by its offset (spec/19, factory copy layout). -/
def factoryCopy (a : Nat) : Byte :=
  let at' (l : List Byte) (i : Nat) : Byte := l.getD i 0#8
  if a < 4096 then
    let h := leBytes 2 0xCA1B ++ leBytes 1 1 ++ leBytes 1 0 ++ leBytes 8 Config.serial.toNat ++ leBytes 4 16384 ++ leBytes 2 600 ++ leBytes 4074 0
    if a < 4092 then at' h a else at' (leBytes 4 (crc32c h).toNat) (a - 4092)
  else if a < 0xC01000 then
    let t := (a - 4096) / 768
    let o := (a - 4096) % 768
    if o < 0x2FC then factoryRaw t o
    else at' (leBytes 4 (crc32c ((List.range 0x2FC).map (factoryRaw t))).toNat) (o - 0x2FC)
  else 0#8

/-- Trims of a tile in record order: 32 pulse-delay, 528 converter, 16 verify trims. The highest code of trim i. -/
def trimMax (i : Nat) : Nat := if i < 32 then 31 else 63

/-- Factory code and slope (1/64 tap per K) of a trim by its key. -/
def trimCode (k : Nat) : Nat :=
  let t := k / 576
  let i := k % 576
  (factoryRaw t (if i < 32 then 0x8 + i else if i < 560 then 0x48 + (i - 32) else 0x268 + (i - 560))).toNat
def trimSlope (k : Nat) : Int :=
  let t := k / 576
  let i := k % 576
  sext 8 (factoryRaw t (if i < 32 then 0x28 + i else if i < 560 then 0x258 + (i - 32) / 33 else 0x278 + (i - 560))).toNat

/-- n ÷ d to the nearest integer, ties away from zero. -/
def divAway (n : Int) (d : Nat) : Int :=
  let q : Nat := (2 * n.natAbs + d) / (2 * d)
  if n < 0 then -(q : Int) else q

/-- The factory prediction of a trim at a region temperature in 0.1 °C (R562). -/
def predict (k : Nat) (temp : Int) : Nat :=
  (clampI 0 (trimMax (k % 576)) ((trimCode k : Int) + divAway (trimSlope k * (temp - 600)) 640)).toNat

/-! ### Present trims and pending taps -/

def listGet (l : List (Nat × Nat)) (k : Nat) : Option Nat := (l.find? fun x => x.1 == k).map fun x => x.2

/-- The present code of a trim. -/
def CalRegion.trim (C : CalRegion) (k : Nat) : Nat := (listGet C.codes k).getD (predict k C.base)
/-- A trim takes a code. -/
def CalRegion.setTrim (C : CalRegion) (k v : Nat) : CalRegion :=
  { C with codes := (k, v) :: C.codes.filter fun x => x.1 != k, targets := C.targets.filter fun x => !(x.1 == k && x.2 == v) }

/-- Pending taps of a region (R559). -/
def CalRegion.pending (C : CalRegion) : Nat := (C.targets.map fun (k, v) => (C.trim k - v) + (v - C.trim k)).sum

def calOff : Nat := 0
def calIdle : Nat := 1
def calMeasuring : Nat := 2
def calApplying : Nat := 3
def calWait : Nat := 4
def State.calState (s : State) (g : Nat) : Nat := s.rf (calReg g 0) 2 0
def State.setCalState (s : State) (g v : Nat) : State := s.setRf (calReg g 0) 2 0 v
def State.showPending (s : State) (g : Nat) : State := s.setRf (calReg g 0) 31 16 (min 65535 (s.calR g).pending)

/-- TCAL and TNOW, 0.1 °C. -/
def State.tcal (s : State) (g : Nat) : Int := i16 (s.rf (calReg g 4) 15 0)
def State.tnow (s : State) (g : Nat) : Int := i16 (s.rf (calReg g 4) 31 16)

/-- A region that has no pending taps left is IDLE: CAL_RUNS, event 0x0340 (R569). -/
def State.calSettle (s : State) (g : Nat) : State :=
  let s := s.showPending g
  if (s.calR g).targets.isEmpty then ((s.setCalState g calIdle).bump (calReg g 8) 31 0 1).raise 0x0340 3 g
  else s

/-! ### Starting and measuring (R559 to R561, R564, R565, R568) -/

/-- A recalibration starts (R564, R565). -/
def State.calStart (s : State) (g : Nat) (fromOn : Bool) : State :=
  let now := s.rf (calReg g 4) 31 16
  let s := (s.setCalState g calMeasuring).setRf (calReg g 4) 15 0 now
  let C := s.calR g
  let s := s.setCal g (if fromOn then { C with base := i16 now, codes := [], targets := [], fromOn := true, held := false }
    else { C with fromOn := false, held := false })
  let s := s.each (fun s i => let t := g * 1024 + i; s.setTile t { s.tile t with calLeft := 40 }) (List.range 1024)
  s.showPending g

/-- A request to recalibrate: held while a measurement runs (R564); a region that is OFF has no tiles to measure. -/
def State.calRequest (s : State) (g : Nat) : State :=
  let st := s.calState g
  if st = calOff then s
  else if st = calMeasuring then s.setCal g { s.calR g with held := true }
  else s.calStart g false

/-- The block's island runs. -/
def State.blockOn (s : State) (b : Nat) : Bool := s.rf (clkReg b 4) 10 8 == 3

/-- The end of a region's measurement (R564, R567, R568). -/
def State.calMeasured (s : State) (g : Nat) : State :=
  let C := s.calR g
  if C.held then s.calStart g false
  else
    let lines := (List.range 16).any fun b => s.rn (blockReg (g * 16 + b) 0xC300) != 0
    if C.targets.isEmpty then (s.setCal g { C with waitMs := 0, gradual := false }).calSettle g
    else if s.rbit 0x350000 8 && lines then
      ((s.setCal g { C with waitMs := 0, gradual := false }).setCalState g calWait).showPending g
    else ((s.setCal g { C with waitMs := 0, gradual := s.rbit 0x350000 8 }).setCalState g calApplying).showPending g

/-- One measured trim: the target it gives, and the events (R560, R561, R562). -/
def State.calTarget (s : State) (t i : Nat) (m : Int) : State :=
  let g := t / 1024
  let k := t * 576 + i
  let c := clampI 0 (trimMax i) m
  let s := if c = m then s
    else
      let s := s.setBit (calReg g 0) 3
      let C := s.calR g
      if C.limited.contains k then s
      else (s.setCal g { C with limited := k :: C.limited }).raise 0x0140 2 (t / 64)
  let p : Int := predict k (s.tcal g)
  let far := decide ((s.rf 0x350000 20 16 : Int) < (c - p).natAbs)
  let s := if far then (s.setBit (calReg g 0) 4).raise 0x0141 2 (t / 64) else s
  let v : Nat := (if far then p else c).toNat
  let C := s.calR g
  let C := { C with targets := C.targets.filter fun x => x.1 != k }
  s.setCal g (if C.trim k = v then C else if C.fromOn then C.setTrim k v else { C with targets := C.targets ++ [(k, v)] })

/-- CALIBRATION_MEASUREMENT: an upkeep grant runs one measurement; after the last, `meas` are the codes measured for
the tile's 576 trims (R558, R559, R565, R568). -/
def execCalibrationMeasurement (t : TileId) (meas : List Int) (s : State) : Out :=
  let t := t.val
  let g := t / 1024
  let T := s.tile t
  tileAfter t (whenever (T.calLeft != 0 && s.otherGrant t && s.blockOn (t / 64) && !s.rbit (blockReg (t / 64) 0xC308) 1 &&
      (T.calLeft != 1 || meas.length == 576)) s
    (let s := s.upkSpend t T.curTier (s.upkFree t)
     let s := s.setTile t { s.tile t with calLeft := T.calLeft - 1 }
     if T.calLeft ≠ 1 then s
     else
       let s := s.each (fun s i => s.calTarget t i (meas.getD i 0)) (List.range 576)
       let left := (List.range 1024).any fun i => (s.tile (g * 1024 + i)).calLeft != 0 && s.blockOn (g * 16 + i / 64)
       if s.calState g = calMeasuring then (if left then s.showPending g else s.calMeasured g)
       else
         let s := s.showPending g
         if (s.calR g).targets.isEmpty || s.calState g == calWait then s else s.setCalState g calApplying))

/-- REGION_TEMP_EVAL: the region temperature is formed; beyond THRESH a recalibration starts (R563, R564). A mean that
lies between two register values may show as either (a free value). -/
def execRegionTempEval (g : RegionId) (s : State) : Out :=
  let g := g.val
  let l := (s.supply g).sensors
  let sum := l.sum
  whenever (s.rf (railReg g 0) 3 1 == 3 && l.length == 16) s
    (let (d, s) := s.draw
     let mean := if sum % 16 = 0 then sum / 16 else sum / 16 + Config.undefValue d % 2
     let s := s.setRf (calReg g 4) 31 16 mean
     let st := s.calState g
     if (st = calIdle ∨ st = calApplying) ∧ s.rf 0x350000 7 0 < (s.tnow g - s.tcal g).natAbs then s.calStart g false else s)

/-! ### Taps (R557, R558, R566, R567, R569) -/

/-- The tile stands at a boundary at which taps may change trims (R558). -/
def State.tapPoint (s : State) (t : Nat) : Bool :=
  let T := s.tile t
  T.read.isNone && T.row.isNone && s.blockOn (t / 64) && !s.rbit (blockReg (t / 64) 0xC308) 1

/-- Order of trims in gradual mode: converter, verify, pulse delay (R566). -/
def tapRank (k : Nat) : Nat := (k % 576 + 544) % 576

/-- The tile's next pending trim. -/
def CalRegion.nextTap (C : CalRegion) (t : Nat) : Option (Nat × Nat) :=
  (C.targets.filter fun x => x.1 / 576 == t).foldl (fun acc x =>
    match acc with
    | none => some x
    | some y => if tapRank x.1 < tapRank y.1 then some x else some y) none

/-- Gradual mode governs the region's taps. -/
def State.gradualMode (s : State) (g : Nat) : Bool := !s.rbit 0x350000 8 || (s.calR g).gradual

/-- GRADUAL_TAP: a tile applies one pending tap, at most one in 2 ms (R557, R566). -/
def execGradualTap (t : TileId) (s : State) : Out :=
  let t := t.val
  let g := t / 1024
  let C := s.calR g
  match C.nextTap t with
  | none => .next s
  | some (k, v) =>
    let due := match listGet C.last t with | some n => decide (n + 2000000 ≤ s.time) | none => true
    whenever (s.calState g == calApplying && s.gradualMode g && s.tapPoint t && due) s
      (let c := C.trim k
       let C := C.setTrim k (if c < v then c + 1 else c - 1)
       (s.setCal g { C with last := (t, s.time) :: C.last.filter fun x => x.1 != t }).calSettle g)

/-- STEP_MODE_TAPS: a tile applies all its pending taps at the first request boundary after the release (R567). -/
def execStepModeTaps (t : TileId) (s : State) : Out :=
  let t := t.val
  let g := t / 1024
  let mine := (s.calR g).targets.filter fun x => x.1 / 576 == t
  whenever (s.calState g == calApplying && !s.gradualMode g && s.tapPoint t && !mine.isEmpty) s
    ((s.each (fun s (x : Nat × Nat) => s.setCal g ((s.calR g).setTrim x.1 x.2)) mine).calSettle g)

/-- STEP_MODE_FALLBACK: no release has come within 1 s of the end of measurement (R567). -/
def execStepModeFallback (g : RegionId) (s : State) : Out :=
  let g := g.val
  let C := s.calR g
  whenever (s.calState g == calWait && decide (1000 ≤ C.waitMs)) s
    ((s.setCal g { C with gradual := true }).setCalState g calApplying)

/-- What a write of CAL_CFG does: a new MODE governs the taps still pending (R567, spec/19 coincidences). -/
def State.calCfgEffect (s : State) (old : Nat) : State :=
  if bit old 8 = s.rbit 0x350000 8 then s
  else s.each (fun s g =>
    let st := s.calState g
    let lines := (List.range 16).any fun b => s.rn (blockReg (g * 16 + b) 0xC300) != 0
    if s.rbit 0x350000 8 then
      (if st = calApplying then
        (if lines then (s.setCal g { s.calR g with gradual := false }).setCalState g calWait
         else s.setCal g { s.calR g with gradual := true }) else s)
    else if st = calWait then s.setCalState g calApplying else s) (List.range 16)

/-- The codes of a region's 1,024 tiles, as an in-service record holds them. -/
def CalRegion.allCodes (C : CalRegion) (g : Nat) : List Nat := (List.range 589824).map fun i => C.trim (g * 589824 + i)

/-- The last in-service record of a region. -/
def State.lastCalRec (s : State) (g : Nat) : Option CalRec := (s.part.calIn.filter fun r => r.region == g).getLast?

/-- IN_SERVICE_RECORD: at most hourly, a region's changed trims are stored (R571). The area holds the latest 25 records. -/
def execInServiceRecord (g : RegionId) (s : State) : Out :=
  let g := g.val
  let codes := (s.calR g).allCodes g
  let last := s.lastCalRec g
  let old := match last with | some r => decide (r.clock + 3600 ≤ s.jrn.jclock) && r.codes != codes | none => true
  let l := s.part.calIn
  let seq := match l.getLast? with | some r => r.seq + 1 | none => 0
  let rec' : CalRec := { seq := seq, region := g, clock := s.jrn.jclock, tcal := s.tcal g, codes := codes }
  whenever (s.calState g == calIdle && s.rf (calReg g 0) 31 16 == 0 && old) s
    (let l' := l ++ [rec']
     { s with part := { s.part with calIn := l'.drop (l'.length - 25) } })

end Sys2Proof.Machine
end

