-- ==== Sys2Proof/Machine/Power.lean ====
section
/-!
DEFINITION. Sys2Proof/Machine/Power.lean: rails, block switches, clocks, the cap and thermal loops, coolant (spec/18, R536 to
R556; spec/02, R42, R43).
-/
namespace Sys2Proof.Machine

/-! ### Domain states (R542 to R547) -/

def pdOff : Nat := 0
def pdWait : Nat := 1
def pdUp : Nat := 2
def pdOn : Nat := 3
def pdDown : Nat := 4
def pdPending : Nat := 5

def State.railState (s : State) (g : Nat) : Nat := s.rf (railReg g 0) 3 1
def State.setRail (s : State) (g v : Nat) : State := s.setRf (railReg g 0) 3 1 v
def State.bstate (s : State) (b : Nat) : Nat := s.rf (clkReg b 4) 10 8
def State.setBstate (s : State) (b v : Nat) : State := s.setRf (clkReg b 4) 10 8 v

/-- The other regions of a region's row (R543). -/
def neighbours (g : Nat) : List Nat := ((List.range 4).map fun i => g / 4 * 4 + i).filter fun h => h != g

/-- No neighbour is at peak or ramps at full slew (R543). -/
def State.grantable (s : State) (g : Nat) : Bool :=
  s.railState g == pdWait && (neighbours g).all fun h => !s.rbit (railReg h 0x10) 16 && !(s.railState h == pdUp && (s.supply h).full)

/-- The frequency that the factory table allows at a voltage, in 25 MHz units (R537): the three points that the spec
gives, between them the table's own value. -/
def vfAllowed (mv : Nat) : Nat :=
  let v := Config.vfTable mv
  if mv < 550 then min 24 v
  else if mv = 550 then 24
  else if mv < 650 then max 24 (min 48 v)
  else if mv = 650 then 48
  else if mv < 850 then max 48 (min 60 v)
  else 60

/-- Readings of a block's four sensors. -/
def State.blockVolts (s : State) (b : Nat) : List Nat := ((s.supply (b / 16)).volts.drop (b % 16 * 4)).take 4

/-- The least of a list, at most d. -/
def least (d : Nat) (l : List Nat) : Nat := l.foldl min d

/-- The lowest of the limits on a block's clock (R537, R550). -/
def State.clkLimit (s : State) (b : Nat) : Nat :=
  let g := b / 16
  let v := match s.blockVolts b with
    | [] => s.rf (railReg g 0) 25 16
    | x :: l => least x l
  min (min (s.rf (clkReg b 0) 5 0) (s.rf 0x30000C 21 16)) (min (s.rf (thermReg g 0) 23 18) (vfAllowed v))

/-- A block's FLL moves toward the limit by at most n steps; it never runs faster than the voltage allows (R537,
R550). -/
def State.clkMove (s : State) (n b : Nat) : State :=
  if s.bstate b ≠ pdOn then s
  else
    let lim := s.clkLimit b
    let f := s.rf (clkReg b 4) 5 0
    let f' := if f < lim then min lim (f + n) else max lim (f - n)
    let v := match s.blockVolts b with | [] => f' | x :: l => min f' (vfAllowed (least x l))
    s.setRf (clkReg b 4) 5 0 v

/-! ### Requests (R542, R546, R547) -/

/-- What a write of RAIL_CTL that has changed `old` to its present value asks of the region. -/
def State.railEffect (s : State) (g old : Nat) : State :=
  let was := bit old 0
  let now := s.rbit (railReg g 0) 0
  if was = now then s
  else if now then
    let s := s.setRf (railReg g 0) 0 0 0
    s.railRequest g
  else if s.railState g = pdWait then s.setRail g pdOff
  else if s.railState g = pdPending then s.setRail g pdDown
  else if s.railState g = pdOn then s.setRail g pdDown
  else s

/-- R542: a rail may be requested off: no block of the region ON, no tier LOADING, RESIDENT or RENEWING. -/
def State.railMayOff (s : State) (g : Nat) : Bool :=
  (List.range 16).all (fun i => s.bstate (g * 16 + i) != pdOn) &&
    (List.range 8192).all fun i => !([1, 2, 3].contains (s.rf (tierReg (g * 8192 + i)) 18 16))

/-- What a write of CLK_TARGET that has changed `old` to its present value asks of the block's switch. -/
def State.clkEffect (s : State) (b old : Nat) : State :=
  let was := bit old 8
  let now := s.rbit (clkReg b 0) 8
  if was = now then s
  else if now then
    (if s.bstate b = pdOff then s.setBstate b pdUp
     else if s.bstate b = pdDown then (s.setBstate b pdPending).raise 0x0701 2 b
     else s)
  else if s.bstate b = pdOn then s.setBstate b pdDown
  else if s.bstate b = pdPending then s.setBstate b pdDown
  else s

/-- A region that is being shut down abandons its measurement (spec/19, coincidences). -/
def State.calAbandon (s : State) (g : Nat) : State :=
  s.each (fun s i => let t := g * 1024 + i; if (s.tile t).calLeft = 0 then s else s.setTile t { s.tile t with calLeft := 0 }) (List.range 1024)

/-- INRUSH_GRANT: a waiting region ramps at full slew; of two in a row the lower goes first (R543, R544). -/
def execInrushGrant (g : RegionId) (s : State) : Out :=
  let g := g.val
  whenever (s.grantable g && (neighbours g).all fun h => !(decide (h < g) && s.grantable h)) s
    (((s.setRail g pdUp).setRf (railReg g 0) 4 4 0).setSupply g { s.supply g with full := true })

/-- INRUSH_GRANT_TIMEOUT: after 1 ms without a grant the region ramps at half slew (R544). -/
def execInrushGrantTimeout (g : RegionId) (s : State) : Out :=
  let g := g.val
  whenever (s.railState g == pdWait && decide (1000 ≤ (s.supply g).waitUs)) s
    ((((s.setRail g pdUp).setRf (railReg g 0) 4 4 1).setSupply g { s.supply g with full := false }).raise 0x0700 3 g)

/-- A region whose rail is on, and whose requested block switches are all on, starts its first recalibration (R564). -/
def State.calOnReady (s : State) (g : Nat) : State :=
  let bs := (List.range 16).map fun i => g * 16 + i
  let asked := bs.filter fun b => s.rbit (clkReg b 0) 8
  if s.railState g = pdOn ∧ s.calState g = calOff ∧ asked ≠ [] ∧ (asked.all fun b => s.bstate b == pdOn) = true then s.calStart g true else s

/-- A region's rail is in regulation: its controller runs; in SELFTEST firmware requests its block switches (R545, R575
step 12); a request to turn off during the ramp takes effect (R546). -/
def State.railOn (s : State) (g : Nat) : State :=
  let s := (s.setRail g pdOn).setSupply g { s.supply g with full := false }
  if !s.rbit (railReg g 0) 0 then s.setRail g pdDown
  else
    let s := s.setRf (regionReg g 4) 0 0 1
    if s.dev = .selftest then
      s.each (fun s i => let b := g * 16 + i; if s.rbit (clkReg b 0) 8 then s else (s.setRf (clkReg b 0) 8 8 1).clkEffect b 0) (List.range 16)
    else s

/-- A block's switch is on and its island runs, its FLL locked (R545, R547). -/
def State.switchOn (s : State) (b : Nat) : State :=
  let s := s.setBstate b pdOn
  if !s.rbit (clkReg b 0) 8 then s.setBstate b pdDown
  else
    let s := s.setRf (clkReg b 4) 5 0 (s.clkLimit b)
    let s := s.setRf (regionReg (b / 16) 0) (16 + b % 16) (16 + b % 16) 1
    s.calOnReady (b / 16)

/-- DOMAIN_RAMP_DONE: a domain has held its setpoint for 50 µs (R545 to R547, R564). -/
def execDomainRampDone (d : PowerDomain) (s : State) : Out :=
  match d with
  | .region g => whenever (s.railState g.val == pdUp) s (s.railOn g.val)
  | .block b => whenever (s.bstate b.val == pdUp) s (s.switchOn b.val)

/-- A region rail has reached 0 V. -/
def State.railDown (s : State) (g : Nat) : State :=
  let pend := s.railState g = pdPending
  let s := (s.calAbandon g).setCal g { CalRegion.init with limited := (s.calR g).limited }
  let s := ((s.setRf (calReg g 0) 2 0 calOff).setRf (calReg g 0) 31 16 0).setRn (regionReg g 4) 0
  let s := s.setSupply g { Supply.init with warned := (s.supply g).warned }
  s.setRail g (if pend then pdWait else pdOff)

/-- A block switch is off. -/
def State.switchDown (s : State) (b : Nat) : State :=
  let pend := s.bstate b = pdPending
  let s := (s.setRf (clkReg b 4) 5 0 0).setRf (regionReg (b / 16) 0) (16 + b % 16) (16 + b % 16) 0
  let s : State := { s with pwr := { s.pwr with droop := s.pwr.droop.filter fun x => x.1 != b } }
  s.setBstate b (if pend then pdUp else pdOff)

/-- DOMAIN_RAMP_DOWN_DONE: a domain has completed its shutdown; PENDING_ON makes it a new request (R545, R546). -/
def execDomainRampDownDone (d : PowerDomain) (s : State) : Out :=
  match d with
  | .region g => whenever (s.railState g.val == pdDown || s.railState g.val == pdPending) s (s.railDown g.val)
  | .block b => whenever (s.bstate b.val == pdDown || s.bstate b.val == pdPending) s (s.switchDown b.val)

/-! ### The cap loop (R543, R548, R550) -/

/-- CAPPED follows CEIL, and the start of capping is reported (R548). -/
def State.setCeil (s : State) (v : Nat) : State :=
  let was := s.rbit 0x30000C 0
  let s := (s.setRf 0x30000C 21 16 v).setRf 0x30000C 0 0 (if v < 60 then 1 else 0)
  if v < 60 ∧ !was then (s.setBit 0x30000C 1).raiseFw 0x0711 0 0 else s

/-- CAP_LOOP_TICK: 10 µs of the power controller: input power in mW, input current in 10 mA and rail currents in A, each
averaged; CEIL, the waits for inrush, and the FLLs' moves (R543, R544, R548, R550). -/
def execCapLoopTick (mw curr : Nat) (rails : List Nat) (s : State) : Out :=
  whenever (s.dev != .off && rails.length == 16) s
    (let s := (s.setRf 0x300000 31 16 curr).setRn 0x300004 (min 65535 (mw / 1000))
     let s := s.each (fun s g =>
       let a := rails.getD g 0
       let s := s.setRn (railReg g 0x10) (min 65535 a + (if 230 < a then 65536 else 0))
       if s.railState g = pdWait then let P := s.supply g; s.setSupply g { P with waitUs := P.waitUs + 10 } else s) (List.range 16)
     let cap := min (s.rf 0x300008 15 0 * 10000) (825 * s.pwr.vin)
     let p := 10 * mw
     let ceil := s.rf 0x30000C 21 16
     let below := if p * 100 < cap * 98 then s.pwr.belowUs + 10 else 0
     let s : State := { s with pwr := { s.pwr with belowUs := if 100 ≤ below then 0 else below } }
     let s := if cap < p then s.setCeil (max 24 (ceil - 1))
       else if 100 ≤ below then s.setCeil (min 60 (ceil + 1)) else s
     s.each (fun s b => s.clkMove 10 b) (List.range 256))

/-- What a write of PWR_CAP does: TILE_MAX follows the analog allotment in every region (R549). -/
def State.capEffect (s : State) : State :=
  let n := s.rf 0x300008 31 16 * 25 / 4
  s.each (fun s g => (s.setRf (regionReg g 0x4000) 31 16 n).tokenLimits g) (List.range 16)

/-! ### Voltage sensors (R537 to R539, R551) -/

/-- RAIL_MIN and its time are cleared (R538, R539). -/
def State.railMinClear (s : State) (g : Nat) : State :=
  let s := ((s.setRn (railReg g 4) 0xFFFF).setRn (railReg g 8) 0).setRn (railReg g 12) 0
  s.setSupply g { s.supply g with warned := false }

/-- Stretching of one block's clock over 1 ns (R551). -/
def State.stretch (s : State) (b : Nat) : State :=
  if s.bstate b ≠ pdOn then s
  else
    let sp := s.rf (railReg (b / 16) 0) 25 16
    let vs := s.blockVolts b
    let low := vs.any fun v => decide (v + 40 < sp)
    let near := vs.all fun v => decide (sp ≤ v + 30) && decide (v ≤ sp + 30)
    match s.pwr.droop.find? fun x => x.1 = b with
    | none =>
      if low then
        (({ s with pwr := { s.pwr with droop := s.pwr.droop ++ [(b, 0, 0)] } } : State).setBit (clkReg b 4) 16)
      else s
    | some (_, acc, calm) =>
      let acc := acc + s.rf (clkReg b 4) 5 0
      let cyc := acc / 60
      let calm := if near then calm + cyc else 0
      let s := s.bump (clkReg b 8) 31 0 cyc
      let s := if cyc = 0 then s else s.setBit (clkReg b 4) 16
      let rest := s.pwr.droop.filter fun x => x.1 != b
      { s with pwr := { s.pwr with droop := if 32 ≤ calm then rest else rest ++ [(b, acc % 60, calm)] } }

/-- VOLTAGE_SENSOR_SAMPLE: the 64 sensors of a region are read, four of each block in order (R537 to R539, R551). -/
def execVoltageSensorSample (g : RegionId) (readings : List Nat) (s : State) : Out :=
  let g := g.val
  match readings with
  | [] => .next s
  | v :: l =>
    whenever (s.railState g == pdOn && l.length == 63) s
      (let s := s.setSupply g { s.supply g with volts := readings }
       let m := least v l
       let s := if m < s.rf (railReg g 4) 15 0 then
           ((s.setRf (railReg g 4) 15 0 m).setRn (railReg g 8) (s.time % 2 ^ 32)).setRn (railReg g 12) (s.time / 2 ^ 32)
         else s
       let s := if s.rf (railReg g 4) 15 0 + 60 < s.rf (railReg g 0) 25 16 ∧ !(s.supply g).warned then
           (s.setSupply g { s.supply g with warned := true }).raise 0x0702 3 g
         else s
       s.each (fun s i => (s.stretch (g * 16 + i)).clkMove 0 (g * 16 + i)) (List.range 16))

/-! ### Thermal sensors (R42, R43, R552 to R554) -/

/-- Pulses or sub-pulses are queued at a tile (R43). -/
def Tile.programming (T : Tile) : Bool :=
  !T.carries.isEmpty || T.row.isSome || T.procs.any fun p => p.stage == .erasing || p.stage == .writing

/-- The programming hold of the tiles over one sensor (R42, R43). -/
def State.holdTiles (s : State) (b temp : Nat) : State :=
  s.each (fun s i =>
    let t := b * 64 + i
    let T := s.tile t
    let on := if 950 < temp then true else if temp ≤ 920 then false else T.tempHold
    let tell := on && T.programming && !T.holdTold
    let s := s.setTile t { T with tempHold := on, holdTold := on && (T.holdTold || tell) }
    if tell then s.raise 0x0124 2 b else s) (List.range 64)

/-- CEIL of a region's thermal control over 10 µs, outside an emergency (R552). -/
def State.throttle (s : State) (g tmax : Nat) : State :=
  let r := thermReg g 0
  let throt := s.rf (thermReg g 4) 7 0 * 10
  let hyst := s.rf (thermReg g 4) 11 8 * 10
  let P := s.supply g
  let ceil := s.rf r 23 18
  if throt < tmax then
    let heat := P.heatUs + 10
    let s := s.setSupply g { P with heatUs := if 100 ≤ heat then 0 else heat, coolUs := 0, cooled := false }
    let s := if s.rbit r 11 then s else ((s.setRf r 11 11 1).setBit r 16).raise 0x0720 3 g
    if 100 ≤ heat then s.setRf r 23 18 (max 24 (ceil - 1)) else s
  else
    let cooled := P.cooled || decide (tmax + hyst < throt)
    let cool := if cooled then P.coolUs + 10 else 0
    let s := s.setSupply g { P with heatUs := 0, coolUs := if 1000 ≤ cool then 0 else cool, cooled := cooled }
    let s := if 1000 ≤ cool then s.setRf r 23 18 (min 60 (ceil + 1)) else s
    if s.rf r 23 18 = 60 ∧ cooled then s.setRf r 11 11 0 else s

/-- THERMAL_SENSOR_SAMPLE: 10 µs of a region's 16 thermal sensors, in 0.1 °C, one under each block (R42, R43, R552 to
R554). -/
def execThermalSensorSample (g : RegionId) (readings : List Nat) (s : State) : Out :=
  let g := g.val
  let r := thermReg g 0
  whenever (s.dev != .off && readings.length == 16) s
    (let P := s.supply g
     let hot := readings.zipIdx.map fun (v, i) => if 1050 ≤ v then P.hotUs.getD i 0 + 10 else 0
     if hot.any fun n => decide (100 ≤ n) then s.protect 0x0722
     else
       let s := s.setSupply g { P with sensors := readings, hotUs := hot }
       let tmax := readings.foldl max 0
       let s := s.setRf r 10 0 (min 2047 tmax)
       let s := s.each (fun s i => s.holdTiles (g * 16 + i) (readings.getD i 0)) (List.range 16)
       let s := if 1020 ≤ tmax then
           let was := s.rbit r 12
           let s := ((s.setRf r 23 18 24).setRf r 12 12 1).setBit r 17
           let s := s.setSupply g { s.supply g with heatUs := 0, coolUs := 0, cooled := false }
           let s := if s.rbit r 11 then s else ((s.setRf r 11 11 1).setBit r 16).raise 0x0720 3 g
           if was then s else s.raise 0x0721 3 g
         else if s.rbit r 12 then (if tmax < s.rf (thermReg g 4) 7 0 * 10 then s.setRf r 12 12 0 else s)
         else s.throttle g tmax
       s.each (fun s i => s.clkMove 0 (g * 16 + i)) (List.range 16))

/-! ### Coolant (R555) -/

/-- COOLANT_SAMPLE: flow in 0.01 L/min, inlet and outlet in 0.1 °C (R555). -/
def execCoolantSample (flow : Nat) (inlet outlet : Int) (s : State) : Out :=
  whenever (s.dev != .off) s
    (let s := s.setRn 0x340000 (enc2c 16 inlet + enc2c 16 outlet * 65536)
     let s := s.setRf 0x340004 15 0 (min 65535 flow)
     let low := decide (flow < 400)
     let out := decide (inlet < 200) || decide (400 < inlet)
     let tellF := low && !s.pwr.flowTold
     let tellI := out && !s.pwr.inletTold
     let s : State := { s with pwr := { s.pwr with flowTold := low, inletTold := out } }
     let s := if tellF then (s.setBit 0x340004 16).raiseFw 0x0730 0 0 else s
     if tellI then (s.setBit 0x340004 17).raiseFw 0x0731 0 0 else s)

end Sys2Proof.Machine
end

