-- ==== Sys2Proof/Machine/Enclave.lean ====
section
/-!
DEFINITION. Sys2Proof/Machine/Enclave.lean: the security enclave's services (spec/17, R522 to R524, R531 to R535).
-/
namespace Sys2Proof.Machine

/-- The kernels of spec/08's table, which the library of manufacture holds. -/
def kernelIds : List Nat := [0x11, 0x12, 0x21, 0x22, 0x31, 0x41, 0x42, 0x43]

/-- The kernels that the loaded library holds: that of the active slot of type 2 (R243, R514). -/
def Enclave.kernels (e : Enclave) : List Nat :=
  let x := SMap.get (fun _ => FwSlot.init) e.slots (4 + e.active.getD 2 0)
  if x.shipped then kernelIds else Config.imageKernels x.data

/-- DRBG_RESEED: after 2^20 requests or 1 hour (R531). -/
def execDrbgReseed (s : State) : Out :=
  whenever (s.sec.state == .operational && (decide (1048576 ≤ s.sec.drbgReqs) || decide (3600000 ≤ s.sec.drbgMs))) s
    (s.setSec { s.sec with reseeds := s.sec.reseeds + 1, drbgReqs := 0, drbgMs := 0 })

/-- NOISE_SOURCE_FAILURE: a continuous health test fails; `test` is the enclave's number of it (R532). -/
def execNoiseSourceFailure (test : Nat) (s : State) : Out :=
  whenever (s.sec.state == .operational && s.mpUp && decide (test < 255)) s (s.enclaveError test)

/-- Request codes of SPDM 1.3 that the options of R522 support. -/
def spdmCodes : List Nat :=
  [0x81, 0x82, 0x83, 0x84, 0x85, 0x86, 0xE0, 0xE1, 0xE3, 0xE4, 0xE5, 0xE8, 0xE9, 0xEA, 0xEB, 0xEC]

def spdmBusy : Nat := 0x03
def spdmUnsupported : Nat := 0x07

/-- An SPDM ERROR message. -/
def spdmError (req : List Byte) (code : Nat) : List Byte :=
  [req.headD 0x12#8, 0x7F#8, BitVec.ofNat 8 code, if code = spdmUnsupported then req.getD 1 0#8 else 0#8]

/-- Measurement of the image in a slot. -/
def State.measure (s : State) (typ ab : Nat) : List Byte :=
  let x := s.sec.slot typ ab
  if x.shipped then leBytes 48 (Config.shippedMeas typ).toNat else x.bytes 0x18 48

def State.cfgDigest (s : State) : List Byte := ((List.range 12).map fun i => leBytes 4 (s.rn (0x34020 + 4 * i))).flatten

/-- The digests of SPDM measurement blocks 1 to 7 as they are now (R522). DESIGN CHOICE (assumption 175): an item of several
values is hashed as their bytes one after the other, little-endian. -/
def State.measBlocks (s : State) : List (List Byte) :=
  let e := s.sec
  let run (typ : Nat) : List Byte := s.measure typ (e.active.getD typ 0)
  [leBytes 48 Config.romMeas.toNat, sha384 (run 0 ++ leBytes 4 (e.slot 0 (e.active.getD 0 0)).svn), run 2, run 1,
   sha384 (s.cfgDigest ++ leBytes 4 (s.rn 0x34010)),
   sha384 (((List.range 4).map fun i => leBytes 1 (e.minSvn.getD i 0)).flatten ++ leBytes 1 e.revoked),
   sha384 (leBytes 1 s.dev.code ++ leBytes 1 (b2n s.jrn.flagOpen))]

/-- The responder's answer to a request (R522): an error, or a message that the model leaves open. -/
def State.spdmReply (s : State) (req : List Byte) : List Byte × State :=
  match s.sec.state with
  | .operational =>
    if spdmCodes.contains (req.getD 1 0#8).toNat then
      let (d, s) := s.draw
      (Config.spdmAnswer req s.measBlocks d, s)
    else (spdmError req spdmUnsupported, s)
  | _ => (spdmError req spdmBusy, s)

/-! ### Application data (R524)

PRESUMED (assumption 171), from DSP0277: a message is sealed under the 12-byte IV of its direction with its sequence number
exclusive-ored in, little-endian; its associated data is session ID, sequence number and length; its plaintext begins with
the length of the data in 2 bytes. DESIGN CHOICE (assumption 171): key and IV of a direction are the 44 bytes that
HKDF-Expand makes of S_H under its label. -/

/-- Key and IV of a direction. -/
def Session.keys (x : Session) (label : String) : List Byte × List Byte :=
  let m := hkdfExpand x.secret (labelBytes label) 44
  (m.take 32, m.drop 32)

/-- The IV of message `seq`. -/
def seqIv (iv : List Byte) (seq : Nat) : List Byte := xorBytes iv (leBytes 12 seq)
/-- The header of a secured message, its associated data. -/
def sealHead (id seq len : Nat) : List Byte := leBytes 4 id ++ leBytes 2 seq ++ leBytes 2 len

/-- The data of a sealed request. -/
def Session.openData (x : Session) (m : List Byte) : Option (List Byte) :=
  let (k, iv) := x.keys "req data"
  (gcmOpen k (seqIv iv x.rxSeq) (sealHead x.id x.rxSeq m.length) m).map fun p => (p.drop 2).take (leNat (p.take 2))

/-- A secured message that carries data to the requester. -/
def Session.sealData (x : Session) (l : List Byte) : List Byte :=
  let (k, iv) := x.keys "rsp data"
  let head := sealHead x.id x.txSeq (l.length + 18)
  head ++ gcmSeal k (seqIv iv x.txSeq) head (leBytes 2 l.length ++ l)

def State.modSession (s : State) (id : Nat) (f : Session → Session) : State :=
  s.setSec { s.sec with sessions := s.sec.sessions.map fun y => if y.id = id then f y else y }

/-- Application data arrives in a session: none is carried before the session is hybrid, nor any whose tag fails (R524). What is
answered is left open. -/
def State.appData (s : State) (src id : Nat) (m : List Byte) : State :=
  match s.sec.sessions.find? fun x => x.id = id with
  | none => s
  | some x =>
    match (if x.hybrid then x.openData m else none) with
    | none => s
    | some data =>
      let (d, s) := s.draw
      let s := s.modSession id fun y => { y with rxSeq := y.rxSeq + 1, txSeq := y.txSeq + 1 }
      s.emit (.mctp src (x.sealData (Config.appAnswer id data d)))

/-- SPDM_MCTP_MESSAGE: a request of MCTP type 0x05 is answered; up to 8 sessions are open at once (R522). A secured message
brings application data of a session (R524). -/
def execSpdmMctpMessage (q : SpdmIn) (s : State) : Out :=
  match q.data with
  | some (id, m) => whenever (s.mpUp && s.sec.state == .operational) s (s.appData q.src id m)
  | none =>
  let op := s.sec.state == .operational
  let fresh := match q.opens with
    | some (i, _) => decide (s.sec.sessions.length < 8) && s.sec.sessions.all fun x => x.id != i
    | none => true
  let held := match q.ends with | some i => s.sec.sessions.any fun x => x.id == i | none => true
  whenever (s.mpUp && fresh && held && (op || (q.opens.isNone && q.ends.isNone))) s
    (let (r, s) := s.spdmReply q.bytes
     let e := s.sec
     let l := match q.opens with | some (i, m) => e.sessions ++ [{ id := i, hybrid := false, mutAuth := m }] | none => e.sessions
     let l := match q.ends with | some i => l.filter fun x => x.id != i | none => l
     (s.setSec { e with sessions := l }).emit (.mctp q.src r))

/-- VENDOR_DEFINED_REQUEST: the ML-KEM-768 step that makes a session hybrid (R513, R523). -/
def execVendorDefinedRequest (src sess : Nat) (ek : List Byte) (s : State) : Out :=
  match s.sec.sessions.find? fun x => x.id = sess with
  | none => .next s
  | some x =>
    if x.mutAuth && !x.hybrid && ek.length == 1184 && s.sec.state == .operational then
      let (d, s) := s.draw
      let sh := hybridSecret (leBytes 48 (Config.exportMaster sess d).toNat) (leBytes 32 (Config.kemSecret ek d).toNat)
      let s := s.modSession sess fun y => { y with hybrid := true, secret := sh, rxSeq := 0, txSeq := 0 }
      let s := s.setSec { s.sec with hybrids := s.sec.hybrids + 1, drbgReqs := s.sec.drbgReqs + 1 }
      .next (s.emit (.mctp src ((List.range 1088).map (Config.kemCipher ek d))))
    else .next (s.emit (.mctp src (spdmError [0x13#8, 0xFE#8] spdmUnsupported)))

/-- The enclave is zeroised (R534): sessions end and encrypted ports go to FAULT. -/
def State.zeroise (s : State) : State :=
  let s := s.setSec { s.sec with state := .zeroised, sessions := [] }
  (s.each (fun s p => if s.rf (linkReg (p / 2) 0) 4 3 = 1 then s.lpFail p else s) (List.range 32)).raiseFw 0x0806 0 0

end Sys2Proof.Machine
end

