-- ==== Sys2Proof/Machine/Live.lean ====
section
/-!
DEFINITION. Sys2Proof/Machine/Live.lean: what a read of a register returns: the value held, with the read-only fields that
report a unit's present activity (register sections of spec/03 to spec/16).
-/
namespace Sys2Proof.Machine

/-- n with fields replaced: (hi, lo, value). -/
def putFlds (n : Nat) (l : List (Nat × Nat × Nat)) : Nat := l.foldl (fun n (hi, lo, v) => putFld n hi lo v) n

/-- An erase sub-pulse runs only between commands; a tile is erasing while its procedure is. -/
def State.tileLive (s : State) (t n : Nat) : Nat :=
  let T := s.tile t
  putFlds n [(16, 16, b2n (T.read.isSome || T.row.isSome)), (17, 17, b2n T.upkPend),
    (18, 18, b2n (match T.procs with | p :: _ => p.stage == .erasing | [] => false)), (22, 20, T.curTier), (28, 24, T.readQ.length)]

/-- TILE_FENCE of a tile (R111, R114): micro-batches open with epochs below the oldest queued tag. -/
def State.fenceLive (s : State) (t n : Nat) : Nat :=
  let T := s.tile t
  let tags := T.carries.filterMap fun c => c.tag
  let opened := match tags with
    | [] => 0
    | g :: r => ((List.range 4).map fun i => if T.fenceEp.getD i 0 < r.foldl min g then T.fence.getD i 0 else 0).sum
  putFlds n [(11, 0, opened), (12, 12, b2n (tags.any fun g => !T.fenceOk g)), (13, 13, b2n T.row.isSome), (31, 16, min 65535 T.carries.length)]

/-- SEQ_STATUS of a block: queued tasks and what the head tasks wait for (R317, R270, R320). -/
def State.seqLive (s : State) (b n : Nat) : Nat :=
  let q := (s.block b).queue
  let hd := (heads q [] 0).map fun x => x.2
  let code (q : QTask) (k : Nat) : Bool := (s.taskHandles b q).any fun h => s.handleCheck b q.job h.2 == k
  putFlds n [(9, 0, q.length), (16, 16, b2n (hd.any fun q => s.countersMine b q && !s.waitsOk b q)),
    (17, 17, b2n (hd.any fun q => !s.tokensOk b q.record)), (18, 18, b2n (hd.any fun q => code q 1)), (19, 19, b2n (hd.any fun q => code q 2))]

/-- Tokens held by a block's engines and tiles. -/
def State.blockTokens (s : State) (b : Nat) : Nat :=
  8 * (s.tiles.filter fun (t, T) => t / 64 == b && T.tokens).length +
    ([tokMatrix b, tokMover b 0, tokMover b 1, tokCarry b].map fun r => s.held (b / 16) r).sum

/-- INGRESS tasks of a job that wait for its doorbell (R450). -/
def State.doorbellQueue (s : State) (j : Nat) : Nat :=
  (s.blocks.map fun (_, B) => (B.queue.filter fun q =>
    q.job == j && recKind q.record == 8 && decide (i32 (s.rn (xfReg j 0) + 2 ^ 32 - recF q.record 0x34 31 0) < 0)).length).sum

/-- Registers that count what no command reports, bank conflicts (R280) and flits retried by UCIe: what they have counted
since the last read is a free value. -/
def RegRef.freeCount (r : RegRef) : Bool := r.desc.id == .bsConflict || r.desc.id == .ucieErrcnt

/-- What a read of register r at offset a returns (WO fields and reserved bits read as 0). -/
def State.liveReg (s : State) (r : RegRef) (a : Nat) : Nat :=
  let n := s.rn a
  let u := r.unit
  match r.desc.id with
  | .tileStatus => s.tileLive u n
  | .ceStatus => putFld n 16 16 (b2n (!((s.block u).on engCarry).isEmpty))
  | .tileFence => s.fenceLive (u * 64 + r.idx) n
  | .mcStatus =>
    let C := (s.block u).mc
    putFlds n [(16, 16, b2n !C.runs.isEmpty), (17, 17, b2n C.bank), (18, 18, b2n (C.runs.any fun x => x.rerun != 0)), (23, 20, C.queue.length)]
  | .veStatus =>
    let E := (s.block u).ve
    putFlds n [(16, 16, b2n E.run.isSome), (17, 17, b2n (match E.run with | some x => x.chain | none => false)), (31, 22, E.pc)]
  | .bsStatus => putFld n 26 16 (freePages (poolBounds 0) (s.usedRuns 0 (u / 16) (u % 16)))
  | .raStatus =>
    let A := s.alloc u
    putFlds n [(14, 0, (A.table.filter fun (_, e) => e.state != .free).length), (15, 15, b2n (A.queues.any (fun (_, l) => !l.isEmpty) ||
      (s.alloc 16).queues.any fun (_, l) => l.any fun q => q.region == u))]
  | .raHbm =>
    let used := s.usedRuns 1 u 0
    putFlds n [(15, 0, freePages (poolBounds 1) used), (31, 16, largestRun (poolBounds 1) used)]
  | .tsActStatus => putFld n 19 16 (min 8 ((s.slot r.idx).acts.filter fun x => x.state == 4).length)
  | .seqStatus => s.seqLive u n
  | .seqTok => putFld n 15 0 (s.blockTokens u)
  | .ptStatus => putFlds n [(15, 0, s.regionTokens u), (21, 16, (s.tok u).lots), (22, 22, b2n !(s.tokenRequests u).isEmpty)]
  | .ptReserve => putFld n 23 16 s.lotsLent
  | .clStatus =>
    putFlds n [(24, 16, (s.blocks.filter fun (_, B) => B.arrived.contains r.idx).length), (25, 25, b2n (s.rbit 0x20010 r.idx))]
  | .xfStatus => putFld n 23 16 (min 255 (s.doorbellQueue r.idx))
  | .fhState => putFlds n [(2, 0, s.dev.code), (3, 3, b2n s.jrn.flagOpen)]
  | .rjStatus => putFlds n [(9, 0, s.jrn.erased), (17, 17, b2n !s.jrn.staged.isEmpty)]
  | .chipLock => putFlds n [(0, 0, b2n s.hostLock), (1, 1, b2n s.mpLock)]
  | .hbmStatus => putFld n 17 17 (b2n (bit n 16))
  | .bsConflict => min (2 ^ 32 - 1) (n + Config.undefValue s.draws)
  | .ucieErrcnt => putFld n 23 0 (min (2 ^ 24 - 1) (fld n 23 0 + Config.undefValue s.draws))
  | .timeLo => s.time % 2 ^ 32
  | .timeHi => s.time / 2 ^ 32 % 2 ^ 32
  | _ => n

end Sys2Proof.Machine
end

