-- ==== Sys2Proof/Machine/Access.lean ====
section
/-!
DEFINITION. Sys2Proof/Machine/Access.lean: register access (spec/16, R493 to R509): the checks in order, the key guard,
broadcast, and what a write of each register does beyond storing its fields.
-/
namespace Sys2Proof.Machine

/-! ### Locations (R491, R492, R494) -/

/-- What a BAR0 offset names. -/
inductive Loc where
  | reg (r : RegRef)
  | area (m off : Nat)
  | regionWin (x : Nat) (r : RegRef)
  | blockWin (x : Nat) (r : RegRef)
  | none
  deriving DecidableEq, Repr

def locOf (a : Nat) : Loc :=
  if 0x400000 ≤ a ∧ a < 0x600000 then
    match regAtRegion 0 (a - 0x400000) with | some r => .regionWin (a - 0x400000) r | none => .none
  else if 0x600000 ≤ a ∧ a < 0x610000 then
    match regAtRegion 0 (0x100000 + (a - 0x600000)) with | some r => .blockWin (a - 0x600000) r | none => .none
  else if 0x100000 ≤ a ∧ a < 0x200000 ∧ 0x1000 ≤ a % 0x10000 ∧ a % 4 = 0 then .area ((a - 0x100000) / 0x10000) (a % 0x10000 - 0x1000)
  else match regAt a with | some r => .reg r | none => .none

/-- R493: 32 bits wide, aligned, every byte enabled. -/
def accessOk (a : Access) : Bool := a.bytes == 4 && a.off % 4 == 0 && a.be == 15

/-- A requester whose accesses arrive: the host over an active UCIe link, the MP while it runs (R614). -/
def State.reaches (s : State) (w : Writer) : Bool :=
  s.dev != .off && !s.resetN && (match w with | .host => s.ucieUp | .mp => s.mpUp)

/-- R500: a host write that the device state refuses. -/
def State.stateRefuses (s : State) (w : Writer) (a : Nat) : Bool :=
  w == .host && (s.dev == .boot || s.dev == .selftest || s.dev == .glade) &&
    !(decide (0x100000 ≤ a) && decide (a < 0x180000)) && a != 0x10 && a != 0x14 && a != 0x80

/-- R499: the target of an access has no running clock: its block island is stopped, or its region's rail is not ON. A
port is in reset only while the device is. -/
def State.dead (s : State) (dom : Domain) (a : Nat) : Bool :=
  let g := (a - 0x2000000) / 0x200000
  let b := (a % 0x200000 - 0x100000) / 0x10000
  match dom with
  | .region => s.railState g != pdOn
  | .block => s.railState g != pdOn || !s.blockOn (g * 16 + b)
  | _ => false

/-! ### Refusal (R494, R495, R497) -/

/-- REG_ERR.KIND. -/
def rkLocation : Nat := 0
def rkBroadcast : Nat := 1
def rkShape : Nat := 2
def rkLocked : Nat := 3
def rkRule : Nat := 4
def rkCrossing : Nat := 5
def rkState : Nat := 6

/-- REG_ERR latches the first refusal, REG_ERRCNT counts it. -/
def State.latchRefusal (s : State) (w : Writer) (off : Nat) (write : Bool) (kind : Nat) : State :=
  let s := if s.rbit 0x80 0 then s
    else (s.setRn 0x80 (1 + kind * 2 + b2n write * 16 + b2n (w == .mp) * 32)).setRn 0x84 (off % 2 ^ 26)
  s.bump 0x88 31 0 1

/-- An access completes with Completer Abort. -/
def State.refuseAccess (s : State) (w : Writer) (off : Nat) (write : Bool) (kind : Nat) : State :=
  ((s.latchRefusal w off write kind).raise (if kind = rkCrossing then 0x0481 else 0x0480) 0 0).emit
    (if write then .regWrite true else .regRead 0 true)

/-! ### What a write stores -/

/-- The value that a register holds after a write of v: RW and RWK fields taken over, W1C bits cleared (R496); ones of
CL_MPARRIVE only set. -/
def writtenValue (d : RegDesc) (old v : Word) : Word :=
  let m := BitVec.ofNat 32 (d.rw ||| d.rwk)
  if d.id = .clMparrive then old ||| v
  else ((old &&& ~~~m) ||| (v &&& m)) &&& ~~~(v &&& BitVec.ofNat 32 d.w1c)

/-- The low half that a write of the high half completes (R493). -/
def State.lowOf (s : State) (a : Nat) : Word := SMap.get s.reg s.lowHalf (a - 4)
def State.holdLow (s : State) (a : Nat) (v : Word) : State := { s with lowHalf := SMap.set s.reg s.lowHalf a v }

/-- Would the write change an RWK field (R504)? -/
def State.changesRwk (s : State) (d : RegDesc) (a v : Nat) : Bool :=
  let w := BitVec.ofNat 32 v
  ((s.reg a ^^^ writtenValue d (s.reg a) w) &&& BitVec.ofNat 32 d.rwk) != 0#32 ||
    (d.id == .hwinBaseHi && s.lowOf a != s.reg (a - 4))

/-! ### Mailboxes (R460 to R465) -/

/-- A mailbox takes no request: POSTED, BUSY or DONE. -/
def State.mbTaken (s : State) (m : Nat) : Bool := decide (2 ≤ s.mbState m)

/-- A ring of the doorbell (R460, R461). -/
def State.ring' (s : State) (m : Nat) : State :=
  if s.mbTaken m then (s.setBit (mbReg m 4) 4).raise 0x0471 0 0 else s.setMb m mbPosted

def State.writeArea (s : State) (m off : Nat) (l : List Byte) : State :=
  let B := s.box m
  s.setBox m { B with area := (l.zipIdx off).foldl (fun m (v, i) => SMap.set (fun _ => 0#8) m i v) B.area }

/-! ### A register's own rule (check 7) -/

/-- The write breaks the register's own rule (R204, R242, R275, R309, R388, R463, R542, R547, R584, R605). -/
def State.ruleRefuses (s : State) (w : Writer) (r : RegRef) (a v : Nat) : Bool :=
  let u := r.unit
  let i := r.idx
  let active := s.rbit (numReg i 4) 16
  match r.desc.id with
  | .vePstore => (s.block u).ve.run.isSome
  | .numMode => active
  | .numLscale => active
  | .tsSporeKey0 => active
  | .tsSporeKey1 => active
  | .tsSporeStep => active
  | .tsActCfg => active
  | .tsNormCfg => active
  | .tsClip => active
  | .hwinBaseLo => s.rbit (hwinReg i 0xC) 0
  | .hwinBaseHi => s.rbit (hwinReg i 0xC) 0
  | .hwinSize => s.rbit (hwinReg i 0xC) 0
  | .hwinCtl =>
    (s.rbit a 0 && bits v 8 1 != s.rf a 8 1) || (bit v 0 && (s.rf (hwinReg i 8) 18 0 == 0 || s.rbit a 16))
  | .linkCfg => bit v 2 != s.rbit a 2 && s.rf a 1 0 != 0
  | .tierUpkeep => w == .host && writtenValue r.desc (s.reg a) (BitVec.ofNat 32 v) != s.reg a
  | .railCtl => if bit v 0 then s.dev == .glade else !s.railMayOff i
  | .clkTarget =>
    if bit v 8 then s.dev == .glade || s.railState (i / 16) != pdOn else !(s.block i).queue.isEmpty
  | .mbDoorbell => w == .host && decide (8 ≤ u)
  | _ => false

/-! ### What a write does -/

/-- What follows from the value just stored. -/
def State.regEffect (s : State) (r : RegRef) (a old v : Nat) : State :=
  let u := r.unit
  let i := r.idx
  match r.desc.id with
  | .clEn => s.clEnEffect u old
  | .ptCfg => s.tokenLimits u
  | .seqWin => s.seqWinEffect u old
  | .linkCfg => s.linkCfgEffect u old
  | .railCtl => s.railEffect i old
  | .clkTarget => s.clkEffect i old
  | .pwrCap => s.capEffect
  | .railMin => if bit v 31 then s.railMinClear i else s
  | .calRstatus => if bit v 5 then s.calRequest i else s
  | .calCfg => s.calCfgEffect old
  | .zgwTensor => (s.setRf (zgwReg i 8) 15 0 0).setRf (zgwReg i 8) 16 16 0
  | .zgwCfg => (s.setRf (zgwReg i 8) 15 0 0).setRf (zgwReg i 8) 16 16 0
  | .hwinCtl => if bit old 0 && !s.rbit a 0 then s.setRf a 16 16 1 else s
  | .fabId => if old = s.rn a then s else s.helloChanged
  | .mbStatus => if bit v 3 && s.mbState u == mbDone then s.setMb u mbIdle else s
  | .msixCtl =>
    if !s.rbit a 0 && s.rbit (0x78000 + 4 * (i / 32)) (i % 32) then (s.setRf (0x78000 + 4 * (i / 32)) (i % 32) (i % 32) 0).msix i else s
  | _ => s

/-- A write of a key (R503). -/
def State.writeKey (s : State) (w : Writer) (v : Nat) : State :=
  let good := v % 65536 == 0x6A3C
  let s : State := match w with | .host => { s with hostLock := good } | .mp => { s with mpLock := good }
  if good then s else (s.setBit 0x14 16).raise 0x0480 0 0

/-- A write that passed every check takes effect. The halves of a 64-bit register wait for the high one (R493); a
doorbell of a slot that is not ACTIVE is discarded (spec/14); the MP's own broadcast selector is apart from BCAST_SEL. -/
def State.applyWrite (s : State) (w : Writer) (r : RegRef) (a v : Nat) : State :=
  let new := writtenValue r.desc (s.reg a) (BitVec.ofNat 32 v)
  let both (s : State) : State := ((s.setReg (a - 4) (s.lowOf a)).holdLow (a - 4) (s.lowOf a)).setReg a new
  match r.desc.id with
  | .hwinBaseLo => s.holdLow a new
  | .hwinBaseHi => both s
  | .vePstore => if r.idx % 2 = 0 then s.holdLow a new else both s
  | .xfDbell => if s.rbit (numReg r.idx 4) 16 then s.setReg a new else s.setBit (xfReg r.idx 8) 2
  | .bcastSel => if w = .mp then { s with mpBcast := new.toNat } else s.setReg a new
  | .chipUnlock => s.writeKey w v
  | .mbDoorbell => if bit v 0 then s.ring' r.unit else s
  | _ =>
    let old := s.rn a
    (s.setReg a new).regEffect r a old v

/-! ### The checks (R497) -/

def State.isOpen (s : State) (w : Writer) : Bool := match w with | .host => s.hostLock | .mp => s.mpLock
def State.closeLock (s : State) (w : Writer) : State :=
  match w with | .host => { s with hostLock := false } | .mp => { s with mpLock := false }

/-- Checks 4 to 6 of a write to registers of one row at `targets`: the device state, the key guard (R503 to R505), the
encodings (R496). Answers the KIND of the first that fails. -/
def State.checkWrite (s : State) (w : Writer) (d : RegDesc) (off v : Nat) (targets : List Nat) : Option Nat × State :=
  if s.stateRefuses w off then (some rkState, s)
  else if d.rwk ≠ 0 ∧ ¬ s.isOpen w ∧ (targets.any fun a => s.changesRwk d a v) then (some rkLocked, s)
  else
    let s := if d.rwk = 0 then s else s.closeLock w
    if encOk d.id v then (none, s) else (some rkRule, s)

/-- Check 7 and the crossing at one target: the KIND of a refusal, or the state with the write applied. -/
def State.targetWrite (s : State) (w : Writer) (r : RegRef) (a v : Nat) : Option Nat × State :=
  if s.dead r.desc.dom a then (some rkCrossing, s)
  else if s.ruleRefuses w r a v then (some rkRule, s)
  else (none, s.applyWrite w r a v)

/-- A write to one register. -/
def State.writeReg (s : State) (w : Writer) (r : RegRef) (a v : Nat) : State :=
  match s.checkWrite w r.desc a v [a] with
  | (some k, s) => s.refuseAccess w a true k
  | (none, s) =>
    match s.targetWrite w r a v with
    | (some k, s) => s.refuseAccess w a true k
    | (none, s) => s

/-- A write to a message area (R462, R463). -/
def State.writeMsg (s : State) (w : Writer) (a m off v : Nat) : State :=
  if s.stateRefuses w a then s.refuseAccess w a true rkState
  else if (w = .host ∧ 8 ≤ m) ∨ s.mbTaken m then s.refuseAccess w a true rkRule
  else s.writeArea m off (leBytes 4 v)

/-! ### Broadcast (R506 to R509) -/

/-- What became of the targets: how many refused or timed out, the first of them with its KIND, and which causes there
were. -/
structure Fan where
  refused : Nat
  first   : Option (Nat × Nat)
  rule    : Bool
  timeout : Bool
  deriving DecidableEq, Repr

/-- The write fans out to targets: index, register, offset. -/
def State.fan (s : State) (w : Writer) (v : Nat) : List (Nat × RegRef × Nat) → Fan → Fan × State
  | [], f => (f, s)
  | (i, r, a) :: l, f =>
    match s.targetWrite w r a v with
    | (none, s) => s.fan w v l f
    | (some k, s) =>
      s.fan w v l { refused := f.refused + 1, first := (match f.first with | none => some (i, k) | x => x),
                    rule := f.rule || k == rkRule, timeout := f.timeout || k == rkCrossing }

/-- A broadcast write through its group (R506 to R509). -/
def State.broadcast (s : State) (w : Writer) (r : RegRef) (off v : Nat) (targets : List (Nat × RegRef × Nat)) : State :=
  if targets.isEmpty then s.refuseAccess w off true rkBroadcast
  else
    match s.checkWrite w r.desc off v (targets.map fun x => x.2.2) with
    | (some k, s) => s.refuseAccess w off true k
    | (none, s) =>
      let (f, s) := s.fan w v targets { refused := 0, first := none, rule := false, timeout := false }
      let s := if w = .host then s.setRn 0x60 (f.refused + (f.first.map fun x => x.1).getD 0 * 65536) else s
      match f.first with
      | none => s
      | some (_, k) =>
        let s := s.latchRefusal w off true k
        let s := if f.rule then s.raise 0x0480 0 0 else s
        let s := if f.timeout then s.raise 0x0481 0 0 else s
        s.emit (.regWrite true)

/-- The masks of the group that a requester's selector names; field lo = 0 region window, 4 block window. -/
def State.group (s : State) (w : Writer) (lo : Nat) : Nat × Nat :=
  let sel := match w with | .host => s.rn 0x20 | .mp => s.mpBcast
  let g := s.rn (0x40 + 4 * bits sel (lo + 2) lo)
  (g % 65536, g / 65536)

/-- Targets of a region broadcast at offset x (R506). -/
def State.regionTargets (s : State) (w : Writer) (x : Nat) : List (Nat × RegRef × Nat) :=
  let (rm, _) := s.group w 0
  let b := if x < 0x100000 then 0 else (x - 0x100000) / 0x10000
  (List.range 16).filterMap fun g =>
    if bit rm g then (regAtRegion g x).map fun r => (g * 16 + b, r, 0x2000000 + g * 0x200000 + x) else none

/-- Targets of a block broadcast at offset x (R507). -/
def State.blockTargets (s : State) (w : Writer) (x : Nat) : List (Nat × RegRef × Nat) :=
  let (rm, bm) := s.group w 4
  (List.range 256).filterMap fun i =>
    let y := 0x100000 + i % 16 * 0x10000 + x
    if bit rm (i / 16) && bit bm (i % 16) then (regAtRegion (i / 16) y).map fun r => (i, r, 0x2000000 + i / 16 * 0x200000 + y) else none

/-! ### Writes: one command per register with a rule of its own -/

/-- A 32-bit write of v wherever its offset lies (R497). -/
def State.write (s : State) (w : Writer) (a : Access) (v : Nat) : State :=
  if !accessOk a then s.refuseAccess w a.off true rkShape
  else
    match locOf a.off with
    | .none => s.refuseAccess w a.off true rkLocation
    | .reg r => s.writeReg w r a.off v
    | .area m off => s.writeMsg w a.off m off v
    | .regionWin x r => s.broadcast w r a.off v (s.regionTargets w x)
    | .blockWin x r => s.broadcast w r a.off v (s.blockTargets w x)

/-- The register that an offset names, if any. -/
def regIdAt (a : Nat) : Option RegId := match locOf a with | .reg r => some r.desc.id | _ => none

/-- A write to one of the named registers. -/
def State.namedWrite (s : State) (ids : List RegId) (w : Writer) (a : Access) (v : Nat) : Out :=
  whenever (s.reaches w && (match regIdAt a.off with | some i => ids.contains i | none => false)) s (s.write w a v)

/-- NAN_TRAP_CLEAR: a write to NUM_STATUS; a 1 in TRAPPED releases the latch (R220). -/
def execNanTrapClear (w : Writer) (a : Access) (v : Nat) (s : State) : Out := s.namedWrite [.numStatus] w a v
/-- VE_TRAP_CLEAR: a write to VE_STATUS; a 1 in TRAPPED releases the trap registers (R200). -/
def execVeTrapClear (w : Writer) (a : Access) (v : Nat) (s : State) : Out := s.namedWrite [.veStatus] w a v
/-- NUM_MODE_WRITE (R242). -/
def execNumModeWrite (w : Writer) (a : Access) (v : Nat) (s : State) : Out := s.namedWrite [.numMode, .numLscale] w a v
/-- ZGW_WRITE (R238). -/
def execZgwWrite (w : Writer) (a : Access) (v : Nat) (s : State) : Out := s.namedWrite [.zgwTensor, .zgwCfg] w a v
/-- TS_CONTEXT_WRITE (R275). -/
def execTsContextWrite (w : Writer) (a : Access) (v : Nat) (s : State) : Out :=
  s.namedWrite [.tsSporeKey0, .tsSporeKey1, .tsSporeStep, .tsActCfg, .tsNormCfg, .tsClip] w a v
/-- CL_EN_WRITE (R337). -/
def execClEnWrite (w : Writer) (a : Access) (v : Nat) (s : State) : Out := s.namedWrite [.clEn] w a v
/-- The lines that firmware arrives on: of a step line only once the step's marker is written (R338). -/
def State.mpLines (s : State) (v : Nat) : Nat :=
  ((List.range 32).map fun l => if bit v l && s.markerDone l then 2 ^ l else 0).sum

/-- CL_MPARRIVE_WRITE: the MP arrives on lines (R334, R338). -/
def execClMparriveWrite (w : Writer) (a : Access) (v : Nat) (s : State) : Out :=
  s.namedWrite [.clMparrive] w a (match w with | .host => v | .mp => s.mpLines v)
/-- SEQ_WIN_WRITE (R339). -/
def execSeqWinWrite (w : Writer) (a : Access) (v : Nat) (s : State) : Out := s.namedWrite [.seqWin] w a v
/-- HWIN_REGISTER_WRITE (R287, R290, R309). -/
def execHwinRegisterWrite (w : Writer) (a : Access) (v : Nat) (s : State) : Out :=
  s.namedWrite [.hwinBaseLo, .hwinBaseHi, .hwinSize, .hwinCtl] w a v
/-- XF_DBELL_WRITE (R450). -/
def execXfDbellWrite (w : Writer) (a : Access) (v : Nat) (s : State) : Out := s.namedWrite [.xfDbell] w a v
/-- LINK_CFG_WRITE (R344, R388). -/
def execLinkCfgWrite (w : Writer) (a : Access) (v : Nat) (s : State) : Out := s.namedWrite [.linkCfg] w a v
/-- RAIL_CTL_WRITE (R542, R546, R584). -/
def execRailCtlWrite (w : Writer) (a : Access) (v : Nat) (s : State) : Out := s.namedWrite [.railCtl] w a v
/-- CLK_TARGET_WRITE (R547, R584). -/
def execClkTargetWrite (w : Writer) (a : Access) (v : Nat) (s : State) : Out := s.namedWrite [.clkTarget] w a v
/-- PWR_CAP_WRITE (R549). -/
def execPwrCapWrite (w : Writer) (a : Access) (v : Nat) (s : State) : Out := s.namedWrite [.pwrCap] w a v
/-- RAIL_MIN_CLEAR (R538). -/
def execRailMinClear (w : Writer) (a : Access) (v : Nat) (s : State) : Out := s.namedWrite [.railMin] w a v
/-- CAL_RUN_WRITE (R564). -/
def execCalRunWrite (w : Writer) (a : Access) (v : Nat) (s : State) : Out := s.namedWrite [.calRstatus] w a v
/-- CHIP_UNLOCK_WRITE (R503). -/
def execChipUnlockWrite (w : Writer) (a : Access) (v : Nat) (s : State) : Out := s.namedWrite [.chipUnlock] w a v
/-- TIER_UPKEEP_WRITE (R605). -/
def execTierUpkeepWrite (w : Writer) (a : Access) (v : Nat) (s : State) : Out := s.namedWrite [.tierUpkeep] w a v
/-- VE_PSTORE_WRITE (R204, R493). -/
def execVePstoreWrite (w : Writer) (a : Access) (v : Nat) (s : State) : Out := s.namedWrite [.vePstore] w a v
/-- MAILBOX_RING (R460, R461, R463). -/
def execMailboxRing (w : Writer) (a : Access) (v : Nat) (s : State) : Out := s.namedWrite [.mbDoorbell] w a v
/-- MAILBOX_RELEASE (R465). -/
def execMailboxRelease (w : Writer) (a : Access) (v : Nat) (s : State) : Out := s.namedWrite [.mbStatus] w a v

/-- MAILBOX_AREA_WRITE (R462, R463). -/
def execMailboxAreaWrite (w : Writer) (a : Access) (v : Nat) (s : State) : Out :=
  whenever (s.reaches w && (match locOf a.off with | .area _ _ => true | _ => false)) s (s.write w a v)

/-- REGION_BROADCAST_WRITE (R506, R508, R509): any write to the window. -/
def execRegionBroadcastWrite (w : Writer) (a : Access) (v : Nat) (s : State) : Out :=
  whenever (s.reaches w && decide (0x400000 ≤ a.off) && decide (a.off < 0x600000)) s (s.write w a v)

/-- BLOCK_BROADCAST_WRITE (R507 to R509): any write to the window. -/
def execBlockBroadcastWrite (w : Writer) (a : Access) (v : Nat) (s : State) : Out :=
  whenever (s.reaches w && decide (0x600000 ≤ a.off) && decide (a.off < 0x610000)) s (s.write w a v)

/-- Registers whose writes are commands of their own. -/
def ownWrites : List RegId :=
  [.numStatus, .veStatus, .numMode, .numLscale, .zgwTensor, .zgwCfg, .tsSporeKey0, .tsSporeKey1, .tsSporeStep, .tsActCfg, .tsNormCfg,
   .tsClip, .clEn, .clMparrive, .seqWin, .hwinBaseLo, .hwinBaseHi, .hwinSize, .hwinCtl, .xfDbell, .linkCfg, .railCtl, .clkTarget,
   .pwrCap, .railMin, .calRstatus, .chipUnlock, .tierUpkeep, .vePstore, .mbDoorbell, .mbStatus]

/-- REGISTER_WRITE: a write to any other location (R493 to R500). -/
def execRegisterWrite (w : Writer) (a : Access) (v : Nat) (s : State) : Out :=
  let other := match locOf a.off with
    | .reg r => !ownWrites.contains r.desc.id
    | .none => !(decide (0x400000 ≤ a.off) && decide (a.off < 0x610000))
    | _ => false
  whenever (s.reaches w && other) s (s.write w a v)

/-! ### Reads -/

/-- The KIND that refuses a read before it crosses: checks 1 to 3, and R463. -/
def readRefusal (w : Writer) (a : Access) : Option Nat :=
  if !accessOk a then some rkShape
  else
    match locOf a.off with
    | .none => some rkLocation
    | .regionWin _ _ => some rkBroadcast
    | .blockWin _ _ => some rkBroadcast
    | .area m _ => if w = .host ∧ 8 ≤ m then some rkRule else none
    | .reg _ => none

/-- The register that a read reaches: offered by its offset, its clock running. -/
def State.readable (s : State) (w : Writer) (a : Access) : Option RegRef :=
  match locOf a.off with
  | .reg r => if s.reaches w && (readRefusal w a).isNone && !s.dead r.desc.dom a.off then some r else none
  | _ => none

/-- Low words whose read captures the high word. -/
def captures : List RegId := [.tilePhasesLo, .mcCycLo, .veInsnLo, .timeLo, .railMinTLo]

/-- A read that reaches its register returns the value; a low word holds its high word for the next read (R493), and counts
that a read clears are cleared (R10, R502). -/
def State.readReg (s : State) (r : RegRef) (off : Nat) : State :=
  let hi := match regAt (off + 4) with | some h => s.liveReg h (off + 4) | none => 0
  let t := s.emit (.regRead (s.liveReg r off) false)
  let t : State := if captures.contains r.desc.id then
      { t with capHi := SMap.set (fun _ => 0#32) s.capHi (off + 4) (BitVec.ofNat 32 hi) }
    else t
  let t := if r.desc.rc ≠ 0 then t.setReg off (s.reg off &&& ~~~(BitVec.ofNat 32 r.desc.rc)) else t
  if r.desc.rc ≠ 0 ∧ r.freeCount then { t with draws := s.draws + 1 } else t

/-- A 32-bit read wherever its offset lies: a value, the bytes of a message area, or a Completer Abort (R463, R493, R497,
R499, R508). -/
def State.read (s : State) (w : Writer) (a : Access) : State :=
  if !s.reaches w then s
  else
    match readRefusal w a, s.readable w a with
    | some k, _ => s.refuseAccess w a.off false k
    | none, some r => s.readReg r a.off
    | none, none =>
      match locOf a.off with
      | .reg _ => s.refuseAccess w a.off false rkCrossing
      | .area m off => s.emit (.regRead (leNat ((List.range 4).map fun i => SMap.get (fun _ => 0#8) (s.box m).area (off + i))) false)
      | _ => s

/-- REGISTER_READ_REFUSED: a read that a check refuses (R463, R493, R494, R508); one that none refuses has a read's effect. -/
def execRegisterReadRefused (w : Writer) (a : Access) (s : State) : Out := .next (s.read w a)

/-- RC_REGISTER_READ: the counter's value is returned, and it is cleared (R10, R502). -/
def execRcRegisterRead (w : Writer) (a : Access) (s : State) : Out := .next (s.read w a)

/-- LOW_WORD_CAPTURE_READ (R493): the high word is held for the next read of the high half. -/
def execLowWordCaptureRead (w : Writer) (a : Access) (s : State) : Out := .next (s.read w a)

/-- CROSSING_TIMEOUT: an access to a domain whose clock does not run (R499): a write of v, or a read. An access that an earlier
check fails is refused by that check. -/
def execCrossingTimeout (w : Writer) (a : Access) (v : Option Nat) (s : State) : Out :=
  match v with
  | some v => whenever (s.reaches w) s (s.write w a v)
  | none => .next (s.read w a)

/-- KEY_LOCK_TIMEOUT: 100 µs after it opened, a lock closes (R503). -/
def execKeyLockTimeout (w : Writer) (s : State) : Out := whenever (s.isOpen w) s (s.closeLock w)

end Sys2Proof.Machine
end

