-- ==== Sys2Proof/Machine/Graph.lean ====
section
/-!
DEFINITION. Sys2Proof/Machine/Graph.lean: task graphs as firmware loads them (spec/10, R310, R311, R313 to R315, R323,
R610; spec/08, R243): malformed records, refusal, and the load.
-/
namespace Sys2Proof.Machine

/-! ### Malformed records (R311, R610) -/

/-- A field of a record: byte offset, high and low bit from there. -/
abbrev RField := Nat × Nat × Nat

/-- A record with some fields 0. -/
def clearFields (r : Nat) : List RField → Nat
  | [] => r
  | (off, hi, lo) :: l => clearFields (putFld r (off * 8 + hi) (off * 8 + lo) 0) l

/-- Header fields in use (R313). -/
def headerFields (r : Nat) : List RField :=
  let wait (i : Nat) : List RField := if bit (recWait r i) 6 then [(12 + 2 * i, 6, 0), (12 + 2 * i, 15, 8)] else []
  let sig (i : Nat) : List RField := if bit (recSig r i) 6 then [(16 + 4 * i, 23, 0)] else []
  let hdl (h : Nat) : List RField := if recHuse r h then [(0x1C, 4 + h, 4 + h), (32 + 4 * h, 31, 0)] else []
  let bind (i : Nat) (f : AField) : List RField := if f.used then [(0x18, 2 * i + 1, 2 * i)] else []
  [(0, 31, 0), (4, 9, 0), (4, 16, 16), (4, 20, 18), (8, 25, 0), (0x1C, 3, 0)] ++
    (if recKind r = 1 then [(4, 17, 17)] else []) ++ wait 0 ++ wait 1 ++ sig 0 ++ sig 1 ++ hdl 0 ++ hdl 1 ++ hdl 2 ++ hdl 3 ++
    ((addrFields r).zipIdx.map fun (f, i) => bind i f).flatten

/-- Body fields in use (R315, R447, R360). -/
def bodyFields (r : Nat) : List RField :=
  let on (c : Bool) (l : List RField) : List RField := if c then l else []
  let a17 (at_ : Nat) (l : List (AField × Nat)) : List RField :=
    (l.map fun (f, i) => on f.used [(at_, 17 * i + 16, 17 * i)]).flatten
  match recKind r with
  | 0 => (0x30, 3, 0) :: on (recF r 0x30 3 0 == 3) [(0x30, 8, 4)]
  | 1 => [(0x30, 6, 0), (0x30, 18, 8), (0x38, 22, 0), (0x3C, 22, 0), (0x40, 6, 0), (0x40, 18, 8), (0x44, 22, 0), (0x48, 22, 0)]
  | 2 =>
    let q := mmReq r
    [(0x30, 117, 0)] ++ on (mqMx q) [(0x30, 151, 118)] ++ on (mqOp q == 1) [(0x30, 168, 152)] ++ on (!mqChain q) [(0x30, 185, 169)] ++
      on (mqCsum q) [(0x30, 202, 186)] ++ on (mqChain q) [(0x50, 255, 0), (0x70, 70, 68)] ++
      a17 0x70 (((addrFields r).drop 7).zipIdx)
  | 3 => [(0x30, 9, 0), (0x34, 255, 0)] ++ a17 0x54 (addrFields r).zipIdx
  | 4 =>
    let host := mvSrc r == 3 || mvDst r == 3
    [(0x30, 2, 0), (0x30, 7, 4), (0x38, 63, 0), (0x40, 63, 0), (0x48, 31, 0)] ++ on host [(0x30, 9, 8)] ++
      on (host && recF r 0x30 9 8 == 2) [(0x30, 10, 10)]
  | 5 => [(0x30, 1, 0), (0x38, 7, 0)] ++
      on (recF r 0x30 1 0 == 0) ([(0x30, 4, 2), (0x30, 10, 9), (0x34, 19, 0)] ++ on (recF r 0x30 4 2 == 0) [(0x30, 8, 5)])
  | 6 => [(0x30, 17, 0), (0x38, 63, 0)]
  | 7 =>
    let op := egOp r
    let data := op == 0 || op == 1 || op == 2 || op == 5
    let window := op == 3 && egNidx r == 1
    let done := op == 0 || op == 2 || op == 5 || window
    [(0x30, 2, 0)] ++ on (op ≤ 2) [(0x30, 4, 3)] ++ on done [(0x30, 5, 5), (0x3C, 31, 0), (0x48, 63, 0), (0x60, 63, 0)] ++
      on (data || window) [(0x34, 31, 0)] ++ on (op == 0 || op == 1) [(0x38, 11, 0)] ++ on (op == 3) [(0x38, 0, 0)] ++
      on (!window) [(0x40, 63, 0)] ++ on data [(0x50, 31, 0)] ++ on (op == 3 || op == 4) [(0x54, 12, 0)] ++
      on (op == 3 && !window) [(0x58, 63, 0)]
  | 8 => [(0x30, 4, 0), (0x34, 31, 0), (0x40, 63, 0), (0x48, 31, 0)] ++ on (inOp r != 2) [(0x38, 63, 0)] ++
      on (inCrc r || inOp r == 2) [(0x50, 63, 0)]
  | 9 => [(0x30, 12, 0)] ++
      on (coOp r != 3) ([(0x34, 31, 0), (0x38, 63, 0), (0x40, 63, 0), (0x48, 31, 0)] ++ on (coDigest r != 0) [(0x50, 63, 0)])
  | _ => []

/-- Fields in use lie in their stated ranges (R313 to R315, R141, R447, R360). -/
def recRangesOk (r : Nat) : Bool :=
  let wait (i : Nat) : Bool := !bit (recWait r i) 6 || bits (recWait r i) 15 8 != 0
  let sig (i : Nat) : Bool := !bit (recSig r i) 6 || bits (recSig r i) 15 8 != 0
  let hdl (i : Nat) : Bool := let h := recHandle r i; !recHuse r i || hOwner h != 31 || h == 31 * 65536 + bits h 7 0
  let body := match recKind r with
    | 0 => decide (recF r 0x30 3 0 ≤ 3)
    | 1 =>
      let q := trReq r
      rqFmt q != 3 && !(rqMx q && rqFmt q == 0) && inR (rqLen q) 1 1024 && rqIn q % 64 == 0 && rqOut q % 64 == 0 &&
        inR (trVecs r) 1 1024 && recF r 0x44 22 0 % 64 == 0 && recF r 0x48 22 0 % 64 == 0 && !(trDs r && trTile r % 2 == 1)
    | 2 =>
      let q := mmReq r
      mqOp q ≤ 1 && mqAFmt q ≤ 5 && mqBFmt q ≤ 5 && mqOutFmt q ≤ 4 && mqKb q != 0 && mqAStride q != 0 && mqBStride q != 0 &&
        mqCStride q != 0
    | 3 => true
    | 4 =>
      let host := mvSrc r == 3 || mvDst r == 3
      mvSrc r ≤ 3 && mvDst r ≤ 3 && (!host || inR (recF r 0x30 9 8) 1 2) && mvLen r % 64 == 0
    | 5 => recF r 0x30 1 0 ≤ 1 && (recF r 0x30 1 0 == 1 || recF r 0x30 4 2 ≤ 2)
    | 6 => true
    | 7 => egOp r ≤ 5 && recF r 0x30 4 3 ≤ 1 && (!(egOp r == 3 || egOp r == 4) || inR (egTens r) 1 4096)
    | 8 => inOp r ≤ 2 && recF r 0x30 3 2 ≤ 1 && inLen r % 64 == 0
    | 9 => coOp r ≤ 3 && recF r 0x30 5 4 ≤ 1 && coDigest r ≤ 2
    | _ => false
  wait 0 && wait 1 && sig 0 && sig 1 && hdl 0 && hdl 1 && hdl 2 && hdl 3 && body

/-- R311, R610: the record is malformed. -/
def recMalformed (r : Nat) : Bool := clearFields r (headerFields r ++ bodyFields r) != 0 || !recRangesOk r

/-! ### Refusal of a graph (R243, R311) -/

/-- Tokens that a task of region g costs, and whether they are tile tokens (R326). -/
def recCost (b r : Nat) : Nat × Bool :=
  if recKind r = 1 then (if trDs r then 16 else 8, true)
  else match taskTokens b r with | some (_, n) => (n, false) | none => (0, false)

/-- Record r of region g's list breaks R311 for job j. `adm`: the region of R323, 16 where no tile lies in the fence set:
an MB_ADMIT of such a job may then lie in any region's list (DESIGN CHOICE, assumption 144). -/
def State.recRefused (s : State) (j g adm r : Nat) : Bool :=
  let b := g * 16 + recBlock r
  let (cost, tile) := recCost b r
  let line := recF r 0x30 8 4
  let ctl := recKind r == 0
  recMalformed r || decide (s.rf (regionReg g 0x4000) 15 0 < cost) || (tile && decide (s.rf (regionReg g 0x4000) 31 16 < cost)) ||
  !((recWaits r).all fun (c, _) => s.ccMine b c j) || !((recSigs r).all fun (t, c, _) => s.ccMine t c j) ||
  (ctl && recF r 0x30 3 0 == 3 && !(s.rbit (clReg line 0) 6 && s.rf (clReg line 0) 5 0 == j)) ||
  (ctl && recF r 0x30 3 0 == 1 && adm != 16 && g != adm)

/-- The records of a staged list: 128 bytes each. -/
def DList.staged (l : DList) : List Nat :=
  (List.range ((l.len + 127) / 128)).map fun i => leNat ((List.range 128).map fun k => SMap.get (fun _ => 0#8) l.bytes (128 * i + k))

/-- The lowest region that holds a tile of the job's fence set (R323). -/
def State.admitRegion (s : State) (j : Nat) : Nat := ((s.fenceSet j).map fun t => t / 1024).foldl min 16

/-- The event for which firmware refuses the staged graph, or none (R243, R311). -/
def State.graphRefused (s : State) (j : Nat) : Option Nat :=
  let sl := s.slot j
  let adm := s.admitRegion j
  let lists := (List.range 16).map fun g => (g, sl.list g)
  let held := s.sec.kernels
  if lists.any fun (_, l) => (Config.kernelsNamed l.staged).any fun k => !held.contains k then some 0x0261
  else if lists.any fun (g, l) => l.len % 128 != 0 || l.staged.any (s.recRefused j g adm) then some 0x0300
  else none

/-! ### The load -/

/-- The kernels' programs and element-program slots are written into the blocks that run them (spec/08). -/
def State.loadKernels (s : State) (g : Nat) (records : List Nat) : State :=
  s.each (fun s i =>
    let b := g * 16 + i
    let mine := records.filter fun r => recBlock r == i
    if mine.isEmpty then s
    else s.each (fun s (x : Nat × Nat) =>
      if x.1 < 2048 then s.setRn (blockReg b (0x6000 + 4 * x.1)) x.2 else s.setRn (blockReg b (0x5020 + 4 * (x.1 % 8))) x.2)
      (Config.kernelWords mine)) (List.range 16)

/-- The staged graph becomes the job's graph: its lists stand at the start of the pass of the job's present step. -/
def State.loadGraph (s : State) (j : Nat) : State :=
  let s := s.each (fun s g =>
    let l := (s.slot j).list g
    let rs := l.staged
    (s.setList j g { bytes := [], len := 0, records := rs, calls := Config.kernelCalls rs, pos := List.range rs.length, pass := (s.slot j).step }).loadKernels g rs) (List.range 16)
  let sl := s.slot j
  let last := (sl.lists.map fun (_, l) => (l.records.map recLayer).foldl max 0).foldl max 0
  s.setSlot j { sl with graph := true, fwdLast := last }

end Sys2Proof.Machine
end

