-- ==== Sys2Proof/Machine/Ciand.lean ====
section
/-!
DEFINITION. Sys2Proof/Machine/Ciand.lean: Ciand messages (spec/15, R467 to R473): header, checks, operations, and the
families information and configuration.
-/
namespace Sys2Proof.Machine

/-- A request as firmware takes it: mailbox, path (0 host, 1 BMC, 2 links), source, OPCODE, FLAGS, SEQ, payload. -/
structure Req where
  box   : Nat
  path  : Nat
  src   : Nat
  link  : Option Nat := none
  op    : Nat
  flags : Nat
  seq   : Nat
  p     : List Byte
  deriving DecidableEq, Repr

/-- What a command answers: STATUS, DETAIL, OPH, payload. -/
structure Reply where
  status : Nat
  detail : Nat
  oph    : Nat
  data   : List Byte
  deriving DecidableEq, Repr

/-- A command's answer and the state it leaves. -/
abbrev Ans := Reply × State

def ok (data : List Byte) (s : State) : Ans := ({ status := 0, detail := 0, oph := 0, data := data }, s)
def fail (status detail : Nat) (s : State) : Ans := ({ status := status, detail := detail, oph := 0, data := [] }, s)

/-- Status codes (R470). -/
def stAccepted : Nat := 0x0001
def stBadCrc : Nat := 0x0100
def stBadLength : Nat := 0x0101
def stBadOpcode : Nat := 0x0102
def stBadField : Nat := 0x0103
def stDenied : Nat := 0x0200
def stWrongState : Nat := 0x0201
def stNoResource : Nat := 0x0202
def stNotFound : Nat := 0x0203
def stBusyJob : Nat := 0x0204
def stConflict : Nat := 0x0205
def stRefused : Nat := 0x0206
def stAuthFail : Nat := 0x0300
def stRollback : Nat := 0x0301
def stMbBusy : Nat := 0x0400
def stInternal : Nat := 0x0500

/-- Little-endian field of a request's payload. -/
def Req.u (q : Req) (off n : Nat) : Nat := byteN q.p off n

/-- The first payload field of a list that is bad gives BAD_FIELD, with its offset. -/
def firstBad : List (Nat × Bool) → Option Nat
  | [] => none
  | (off, bad) :: l => if bad then some off else firstBad l

/-- A command runs once its payload's fields are good (R468). -/
def checked (bad : List (Nat × Bool)) (s : State) (k : State → Ans) : Ans :=
  match firstBad bad with
  | some off => fail stBadField off s
  | none => k s

/-! ### Header, paths and states (R467, R468, R472) -/

/-- The response header and payload; `crc`: the CRC field is filled (R467). -/
def response (op seq : Nat) (crc : Bool) (box : Nat) (r : Reply) : List Byte :=
  let head := leBytes 2 op ++ leBytes 2 (1 + 2 * b2n crc) ++ leBytes 4 seq ++ leBytes 4 r.data.length ++ leBytes 2 r.status ++
    leBytes 1 box ++ leBytes 1 0 ++ leBytes 4 r.oph ++ leBytes 4 r.detail ++ leBytes 4 0
  head ++ leBytes 4 (if crc then (crc32c (head ++ r.data)).toNat else 0) ++ r.data

/-- Payload bytes that an opcode's request carries, counts and lengths within it included (R473). -/
def wantLen (op path : Nat) (p : List Byte) : Nat :=
  let n := byteN p
  match op with
  | 0x0103 => 8
  | 0x0105 => 4
  | 0x0106 => 2
  | 0x0202 => 8 + n 4 4
  | 0x0203 => 72
  | 0x0204 => 8
  | 0x0205 => 2
  | 0x0301 => 12
  | 0x0302 => 12 + 12 * n 8 4
  | 0x0303 => 4
  | 0x0304 => 4
  | 0x0305 => 4
  | 0x0306 => 4
  | 0x0307 => 8
  | 0x0401 => 108
  | 0x0402 => 8 + 8 * n 4 4
  | 0x0403 => 16
  | 0x0404 => 12 + n 8 4
  | 0x0405 => 1
  | 0x0406 => 1
  | 0x0407 => 1
  | 0x0408 => 1
  | 0x0409 => 1
  | 0x040A => 1
  | 0x0502 => 2
  | 0x0503 => 12
  | 0x0602 => 4
  | 0x0603 => 2
  | 0x0701 => 10
  | 0x0702 => 12
  | 0x0703 => if path = 2 then 4 else 2
  | 0x0801 => 36
  | 0x0802 => 2
  | 0x0902 => 12 + n 8 4
  | 0x0903 => 8
  | 0x0904 => 1
  | 0x0A01 => p.length
  | 0x0A03 => 8
  | 0x0B01 => 2
  | 0x0B02 => 4 + 2 * n 2 2
  | 0x0B04 => 64
  | 0x0B05 => 4
  | 0x0B06 => 12 + 2 * n 8 2
  | 0x0B07 => max 36 p.length
  | 0x0C01 => 8
  | 0x0C02 => 8
  | 0x0C03 => 24
  | 0x0C04 => 2
  | 0x0C05 => 1
  | 0x0C06 => 8
  | _ => 0

/-- Opcodes of the catalogue: commands of each family are numbered from 1. -/
def familySize : Nat → Nat
  | 1 => 6
  | 2 => 5
  | 3 => 7
  | 4 => 10
  | 5 => 3
  | 6 => 3
  | 7 => 4
  | 8 => 3
  | 9 => 4
  | 10 => 3
  | 11 => 7
  | 12 => 6
  | _ => 0

def opcodeOk (op : Nat) : Bool := 1 ≤ op % 256 && op % 256 ≤ familySize (op / 256)

/-- The family is permitted on the path (R472). -/
def pathOk (op path : Nat) : Bool :=
  match op / 256 with
  | 1 => true
  | 2 => path != 1
  | 3 => path == 0
  | 4 => path == 0
  | 5 => path == 0
  | 6 => path != 2
  | 7 => true
  | 8 => path != 2
  | 9 => path != 2
  | 10 => path != 2
  | 11 => path != 1
  | _ => if op = 0x0C06 then path != 2 else path != 1

/-- Commands that the glade monitor serves (R586). -/
def monitorOps : List Nat := [0x0101, 0x0102, 0x0106, 0x0701, 0x0702, 0x0704, 0x0803, 0x0601, 0x0A02]

/-- The family is served in the device state (R472, R586). -/
def State.stateOk (s : State) (op : Nat) : Bool :=
  let run := s.dev == .ready || s.dev == .running
  if s.monitor then monitorOps.contains op
  else
    match op / 256 with
    | 1 => true
    | 4 => run || (s.dev == .draining && (op == 0x0407 || op == 0x0409 || op == 0x040A))
    | 6 => !(s.dev == .glade || s.dev == .flagged) || op == 0x0601
    | 7 => true
    | 8 => run || (op == 0x0803 && (s.dev == .draining || s.dev == .flagged || s.dev == .glade))
    | 9 => run || s.dev == .flagged || s.dev == .glade
    | 10 => s.dev != .boot
    | 11 => s.dev != .boot
    | 12 => if op = 0x0C06 then s.dev == .flagged else run
    | _ => run

/-! ### Operations (R471) -/

/-- The command starts an operation, unless 16 run already. -/
def State.startOp (s : State) (q : Req) (arg : Nat) (k : Nat → State → State) : Ans :=
  if 16 ≤ (s.fw.ops.filter fun o => !o.done).length then fail stNoResource 0 s
  else
    let h := s.fw.nextOph
    let o : Op := { oph := h, opcode := q.op, arg := arg, path := q.path, dst := if q.path = 0 then q.box else q.src, link := q.link, notify := bit q.flags 2,
                    done := false, status := 0, detail := 0, progress := 0, result := [] }
    let s : State := { s with fw := { s.fw with ops := s.fw.ops ++ [o], nextOph := h % (2 ^ 32 - 1) + 1 } }
    ({ status := stAccepted, detail := 0, oph := h, data := [] }, k h s)

/-! ### 0x01 information -/

/-- Version of the image in the active slot of a type. -/
def State.version (s : State) (typ : Nat) : Nat :=
  let x := s.sec.slot typ (s.sec.active.getD typ 0)
  if x.shipped then (Config.shippedVersion typ).toNat else x.version

/-- Tile tiers in a state. -/
def State.tiersIn (s : State) (st : Nat) : Nat := ((List.range 131072).filter fun u => s.tierState u == st).length

def State.getInfo (s : State) : Ans :=
  let dead := s.tiersIn stRetired
  ok (leBytes 2 0x7208 ++ leBytes 1 0xB1 ++ leBytes 1 s.dev.code ++ leBytes 8 Config.serial.toNat ++ leBytes 4 (s.version 0) ++
    leBytes 4 (s.version 1) ++ leBytes 4 (s.version 2) ++ leBytes 4 (131072 - dead) ++ leBytes 4 dead ++ leBytes 2 (s.rn 0x34000)) s

/-- FH_STATE as a read returns it. -/
def State.fhState (s : State) : Nat := putFlds (s.rn 0x40000) [(2, 0, s.dev.code), (3, 3, b2n s.jrn.flagOpen)]

def State.getState (s : State) : Ans :=
  ok (leBytes 4 s.fhState ++ leBytes 4 s.jrn.jclock ++ leBytes 8 s.time ++ leBytes 4 s.jrn.boots ++ leBytes 4 s.fw.overruns) s

/-- The job slot shown for a tier: the first that names its tensor. -/
def State.tierJob (s : State) (u : Nat) : Nat :=
  match (s.tier u).tensor with
  | none => 255
  | some n => ((List.range 64).find? fun j => s.admitted j && (s.slot j).tensors.any fun x => x.1 == n).getD 255

def State.getTiers (s : State) (q : Req) : Ans :=
  checked [(0, decide (16384 ≤ q.u 0 4)), (4, !inR (q.u 4 4) 1 896 || decide (16384 < q.u 0 4 + q.u 4 4))] s
    (ok (((List.range (8 * q.u 4 4)).map fun i =>
      let u := 8 * q.u 0 4 + i
      leBytes 4 (s.rn (tierReg u)) ++ leBytes 2 (s.tier u).erases ++ leBytes 1 (s.tierJob u) ++ leBytes 1 0).flatten))

/-- Job states as GET_JOBS and JOB_STATUS code them (the model's codes). -/
def JobState.code : JobState → Nat
  | .free => 0
  | .admitted => 1
  | .loading => 2
  | .loaded => 3
  | .running => 4
  | .stopping => 4
  | .trapStopped => 5
  | .stopped => 5

def State.getJobs (s : State) : Ans :=
  ok (((List.range 64).map fun j =>
    let x := s.slot j
    leBytes 1 x.state.code ++ leBytes 1 x.flags ++ leBytes 2 0 ++ leBytes 4 x.fjob ++ leBytes 4 x.step ++ leBytes 4 x.epoch).flatten) s

def State.opStatus (s : State) (q : Req) : Ans :=
  match s.fw.ops.find? fun o => o.oph = q.u 0 4 with
  | none => fail stNotFound 0 s
  | some o =>
    let s := if o.done then { s with fw := { s.fw with ops := s.fw.ops.filter fun x => x.oph != o.oph } } else s
    let st := if o.done then o.status else stAccepted
    ({ status := 0, detail := 0, oph := o.oph, data := leBytes 2 st ++ leBytes 2 o.progress ++ leBytes 4 o.detail ++ o.result }, s)

def Notice.bytes (n : Notice) : List Byte :=
  leBytes 2 n.event ++ leBytes 1 n.kind ++ leBytes 1 n.job ++ leBytes 4 n.unit ++ leBytes 8 n.time

def State.evtRead (s : State) (q : Req) : Ans :=
  let n := min (q.u 0 2) 256
  ok ((s.fw.notices.take n).map Notice.bytes).flatten { s with fw := { s.fw with notices := s.fw.notices.drop n } }

/-! ### 0x02 configuration (R381, R382, R478, R479) -/

/-- The fields of CFG_COMMIT as they stand: of the active record, or of the registers while no record was committed. -/
def State.cfgFields (s : State) : List Byte :=
  if s.fw.cfg.isEmpty then
    let c := s.rn 0x34004
    leBytes 4 0 ++ leBytes 1 0 ++ leBytes 1 (bits c 7 0) ++ leBytes 1 (bits c 11 8) ++ leBytes 1 (bits c 15 12) ++ leBytes 1 (bits c 17 16) ++
      leBytes 1 (s.rf 0x34088 15 8) ++ leBytes 2 0 ++ leBytes 4 (s.rn 0x34008) ++ leBytes 48 0 ++ leBytes 4 0
  else s.fw.cfg.take 68

def State.cfgGet (s : State) : Ans := ok (leBytes 4 (s.rn 0x34010) ++ s.cfgDigest ++ s.cfgFields) s

def State.cfgStageCmd (s : State) (q : Req) : Ans :=
  let off := q.u 0 4
  checked [(0, decide (65536 < off)), (4, decide (65536 < off + q.u 4 4))] s fun s =>
    let m := ((q.p.drop 8).zipIdx off).foldl (fun m (v, i) => SMap.set (fun _ => 0#8) m i v) s.fw.cfgStage
    ok [] { s with fw := { s.fw with cfgStage := m } }

/-- A job with more than one member device is admitted (R382). -/
def State.multiJob (s : State) : Bool := (List.range 64).any fun j => s.admitted j && bit (s.slot j).flags 0

/-- CFG_COMMIT: the record is built, kept in the copy not active, and applied; the staged block is cleared whatever
comes of it. -/
def State.cfgCommit (s : State) (q : Req) : Ans :=
  let tmo := q.u 16 4
  let staged := (List.range (q.u 68 4)).map fun i => SMap.get (fun _ => 0#8) s.fw.cfgStage i
  let s : State := { s with fw := { s.fw with cfgStage := [] } }
  checked [(8, decide (1 < q.u 8 1)), (9, !inR (q.u 9 1) 1 50), (10, !inR (q.u 10 1) 2 15), (11, decide (15 < q.u 11 1)),
      (12, decide (3 < q.u 12 1)), (13, q.u 13 1 == 0), (14, q.u 14 2 != 0), (16, !inR (tmo % 65536) 1 60000 || !inR (tmo / 65536) 1 60000),
      (68, decide (65536 < q.u 68 4))] s fun s =>
    if q.u 0 4 ≠ s.rn 0x34010 then fail stConflict 0 s
    else if s.multiJob then fail stBusyJob 0 s
    else
      let meas (t : Nat) : List Byte := s.measure t (s.sec.active.getD t 0)
      let rec' := q.p.drop 4 ++ staged ++ meas 0 ++ meas 2 ++ meas 1 ++ leBytes 2 1
      let epoch := (s.rn 0x34010 + 1) % 2 ^ 32
      let s := ({ s with part := s.part.putConfig epoch rec' } : State).applyConfig rec' epoch
      ok (leBytes 4 epoch ++ s.cfgDigest) s

/-- Range and default of a local parameter (R479). -/
def localParam : Nat → Option (Nat × Nat × Nat)
  | 1 => some (1, 168, 6)
  | 2 => some (5, 200, 30)
  | 3 => some (0, 1, 0)
  | 4 => some (1, 168, 24)
  | 5 => some (1, 255, 10)
  | _ => none

def State.localValue (s : State) (param : Nat) : Nat :=
  match s.fw.locals.find? fun x => x.1 == param with
  | some (_, v) => v
  | none => match localParam param with | some (_, _, d) => d | none => 0

def State.localSet (s : State) (q : Req) : Ans :=
  let k := q.u 0 2
  let v := q.u 4 4
  match localParam k with
  | none => fail stBadField 0 s
  | some (lo, hi, _) =>
    checked [(2, q.u 2 2 != 0), (4, !inR v lo hi)] s fun s =>
      let old := s.localValue k
      let l := (s.fw.locals.filter fun x => decide (x.1 < k)) ++ [(k, v)] ++ s.fw.locals.filter fun x => decide (k < x.1)
      let s : State := { s with part := s.part.putSettings (s.part.settings PartReads.none).1 l, fw := { s.fw with locals := l } }
      let was := s.rn 0x350000
      let s := s.applyLocal k v
      ok (leBytes 4 old) (if k = 3 then s.calCfgEffect was else s)

def State.localGet (s : State) (q : Req) : Ans :=
  match localParam (q.u 0 2) with
  | none => fail stBadField 0 s
  | some _ => ok (leBytes 4 (s.localValue (q.u 0 2))) s

end Sys2Proof.Machine
end

