-- ==== Sys2Proof/Machine/Resid.lean ====
section
/-!
DEFINITION. Sys2Proof/Machine/Resid.lean: Ciand family 0x03, residency (spec/15, R475, R476, R609; spec/04, R134 to R137,
R140; spec/09, R303).
-/
namespace Sys2Proof.Machine

/-- RES_DEFINE (R475). -/
def State.resDefine (s : State) (q : Req) : Ans :=
  let n := q.u 0 4
  if (s.tensor n).isSome then fail stWrongState 0 s
  else checked [(4, !inR (q.u 4 4) 1 131072), (8, decide (1 < q.u 8 1)), (9, q.u 9 1 != 0), (10, q.u 10 2 != 0)] s fun s =>
    ok [] (s.setTensor n (some { state := 1, layout := q.u 8 1, count := q.u 4 4, pieces := [], handles := [] }))

/-- The tier may take piece i of tensor n: FREE, or DORMANT with a residency record that names the piece (R475). -/
def State.takes (s : State) (n i : Nat) (ds : Bool) (u : Nat) : Bool :=
  (s.tierState u == stFree && ((s.tier u).tensor == some n || ((s.tier u).tensor.isNone && !s.underway u))) ||
  (s.tierState u == stDormant && (s.tier u).tensor == some n && (s.tier u).piece == i && (s.tier u).dslice == ds)

/-- The first piece whose tiers cannot take it, or that names a tier of an earlier piece. -/
def State.badPiece (s : State) (n : Nat) (ds : Bool) : List (Nat × Nat) → List Nat → Option Nat
  | [], _ => none
  | (i, u) :: l, seen =>
    let us := pieceUnits ds u
    if us.all (fun v => s.takes n i ds v && !seen.contains v) then s.badPiece n ds l (us ++ seen) else some i

/-- One region's areas of a tensor, and its pieces reserved there (R303, R475). -/
def State.placeRegion (s : State) (n g : Nat) (x : Tensor) : Option (Nat × Nat × Nat) × State :=
  let l := x.inRegion g
  match s.areaAlloc g l.length with
  | (none, s) => (none, s)
  | (some (a, b), s) =>
    (some (a, b, l.length), s.each (fun s (y : (Nat × Nat × Nat × Nat × Int) × Nat) =>
      let (i, u, p) := y.1
      s.reserve n i (x.layout == 1) u p (s.areaBase a + y.2 * 3145728) (s.areaBase b + y.2 * 1048576)) l.zipIdx)

/-- The areas of a tensor in every region of a list: none when pages or table slots run out. -/
def State.place (s : State) (n : Nat) (x : Tensor) : List Nat → Option Tensor × State
  | [] => (some x, s)
  | g :: r =>
    if (x.inRegion g).isEmpty then s.place n x r
    else
      match s.placeRegion n g x with
      | (none, s) => (none, s)
      | (some h, s) => s.place n { x with handles := x.handles ++ [(g, h)] } r

/-- Entries of RES_PIECES: tile-tier unit, rows, columns, σ. -/
def Req.piece (q : Req) (k : Nat) : Nat × Nat × Nat × Int :=
  let at_ := 12 + 12 * k
  (q.u at_ 4, q.u (at_ + 4) 2, q.u (at_ + 6) 2, sext 8 (q.u (at_ + 8) 1))

/-- RES_PIECES (R303, R475). -/
def State.resPieces (s : State) (q : Req) : Ans :=
  let n := q.u 0 4
  let first := q.u 4 4
  let cnt := q.u 8 4
  match s.tensor n with
  | none => fail stNotFound 0 s
  | some x =>
    if x.state ≠ 1 then fail stWrongState 0 s
    else
      let ds := x.layout == 1
      let ks := List.range cnt
      let bad := (ks.map fun k =>
        let p := q.piece k
        let at_ := 12 + 12 * k
        [(at_, decide (131072 ≤ p.1) || (ds && p.1 / 8 % 2 == 1)), (at_ + 4, !inR p.2.1 1 1024), (at_ + 6, !inR p.2.2.1 1 1024),
         (at_ + 9, q.u (at_ + 9) 3 != 0)]).flatten
      checked ([(4, decide (x.count ≤ first)), (8, !inR cnt 1 5116 || decide (x.count < first + cnt))] ++ bad) s fun s =>
        match s.badPiece n ds (ks.map fun k => (first + k, (q.piece k).1)) [] with
        | some i => fail stBadField i s
        | none =>
          let ps := ks.foldl (fun m k => SMap.set (fun _ => (0, 0, 0, 0)) m (first + k) (q.piece k)) x.pieces
          let y : Tensor := { x with pieces := ps }
          if ps.length ≠ x.count then ok [] (s.setTensor n (some y))
          else
            match s.badPiece n ds (ps.map fun (i, u, _) => (i, u)) [] with
            | some i => fail stBadField i s
            | none =>
              match s.place n y (List.range 16) with
              | (some z, s) => ok [] (s.setTensor n (some { z with state := 2 }))
              | (none, _) => fail stNoResource 0 s

/-- The stack offset of a region's area as an HDM offset (R277). -/
def State.hdmOf (s : State) (g h : Nat) : Nat := g * hbmSize + s.areaBase h

/-- RES_QUERY (R475, R609). -/
def State.resQuery (s : State) (q : Req) : Ans :=
  match s.tensor (q.u 0 4) with
  | none => fail stNotFound 0 s
  | some x =>
    ok (leBytes 4 x.state ++ ((List.range 16).map fun g =>
      match x.handles.find? fun h => h.1 = g with
      | some (_, a, b, k) => leBytes 8 (s.hdmOf g a) ++ leBytes 8 (s.hdmOf g b) ++ leBytes 4 k ++ leBytes 4 0
      | none => leBytes 24 0).flatten) s

/-- The tier holds its piece: RESIDENT, or RETIRED with the piece (R609). -/
def State.holdsPiece (s : State) (n u : Nat) : Bool :=
  (s.tierState u == stResident || s.tierState u == stRenewing || s.tierState u == stRetired) && (s.tier u).tensor == some n

/-- Every tier of the tensor holds its piece. -/
def State.allHeld (s : State) (n : Nat) (x : Tensor) : Bool := x.units.all (s.holdsPiece n)

/-- The tiers of a defined tensor that hold no piece yet are reserved again (an operation ended by a drain has left
them FREE, R482). -/
def State.reReserve (s : State) (n : Nat) (x : Tensor) : State :=
  s.each (fun s g =>
    match x.handles.find? fun h => h.1 = g with
    | none => s
    | some (_, a, b, _) =>
      s.each (fun s (y : (Nat × Nat × Nat × Nat × Int) × Nat) =>
        let (i, u, p) := y.1
        if (pieceUnits (x.layout == 1) u).all (s.holdsPiece n) then s
        else s.reserve n i (x.layout == 1) u p (s.areaBase a + y.2 * 3145728) (s.areaBase b + y.2 * 1048576)) (x.inRegion g).zipIdx) (List.range 16)

/-- RES_LOAD and RES_ADOPT start (R134, R136, R475): tiers that hold their piece are left; a load treats a DORMANT tier as
FREE, an adoption sweeps it. -/
def State.resStart (s : State) (q : Req) (adopt : Bool) : Ans :=
  let n := q.u 0 4
  match s.tensor n with
  | none => fail stNotFound 0 s
  | some x =>
    if x.state = 3 ∨ x.state = 4 then fail stConflict 0 s
    else if x.state ≠ 2 ∧ x.state ≠ 6 then fail stWrongState 0 s
    else
      let ds := x.layout == 1
      let todo := x.pieces.filter fun (_, u, _) => !(pieceUnits ds u).all (s.holdsPiece n)
      match todo.find? fun (i, u, _) => !(pieceUnits ds u).all fun v => s.takes n i ds v || s.holdsPiece n v with
      | some (i, _) => fail stBadField i s
      | none =>
        s.startOp q n fun _ s =>
          let s := s.setTensor n (some { x with state := if adopt then 4 else 3 })
          let s := s.reReserve n x
          s.each (fun s v =>
            if s.holdsPiece n v then s
            else if adopt && s.tierState v == stDormant then
              (if ds && s.tierState (twinUnit v) != stDormant then s.adoptAlone v else s.startAdopt v)
            else s.startLoad v) (todo.map fun (_, u, _) => pieceUnits ds u).flatten

/-- RES_RELEASE (R137, R303, R609): the tiers go FREE, the handles are freed, the definition ends. -/
def State.resRelease (s : State) (q : Req) : Ans :=
  let n := q.u 0 4
  match s.tensor n with
  | none => fail stNotFound 0 s
  | some x =>
    if x.state = 3 ∨ x.state = 4 then fail stConflict 0 s
    else
      let mine := x.units.filter fun u => x.state != 1 && (s.tier u).tensor == some n
      let s := s.releaseCopies n
      let s := s.each (fun s u => s.dropTier u) mine
      let s := s.each (fun s (h : Nat × Nat × Nat × Nat) => s.areaFree h.1 (h.2.1, h.2.2.1)) x.handles
      ok [] (s.setTensor n none)

/-- RES_DISCARD (R476): DORMANT tiers of the range go FREE. -/
def State.resDiscard (s : State) (q : Req) : Ans :=
  let first := q.u 0 4
  checked [(0, decide (131072 ≤ first)), (4, !inR (q.u 4 4) 1 131072 || decide (131072 < first + q.u 4 4))] s fun s =>
    let us := ((List.range (q.u 4 4)).map fun i => first + i).filter fun u => s.tierState u == stDormant && !s.underway u
    ok (leBytes 4 us.length) (s.each (fun s u => s.makeFree u) us)

end Sys2Proof.Machine
end

