-- ==== Sys2Proof/Machine/Jobs.lean ====
section
/-!
DEFINITION. Sys2Proof/Machine/Jobs.lean: Ciand family 0x04, jobs (spec/15, R474, R477; spec/07, R240; spec/09, R287 to R290;
spec/10, R322, R338; spec/12, R396).
-/
namespace Sys2Proof.Machine

/-- The command names its job slot in its first byte: an admitted one. -/
def State.onSlot (s : State) (q : Req) (k : Nat → Ans) : Ans :=
  let j := q.u 0 1
  if 64 ≤ j then fail stBadField 0 s
  else if !s.admitted j then fail stNotFound 0 s
  else k j

/-- Numbers of the set bits of an n-bit mask. -/
def bitsOf (n m : Nat) : List Nat := (List.range n).filter fun i => bit m i

/-! ### Admission -/

/-- The fields of JOB_ADMIT that are out of range (R473, R474). -/
def admitBad (q : Req) : List (Nat × Bool) :=
  [(0x04, decide (16 ≤ q.u 4 4)), (0x08, !encOk .numMode (q.u 8 4) || bits (q.u 8 4) 15 10 != 0),
   (0x0C, !encOk .tsActCfg (q.u 0xC 4) || decide (0x200 ≤ q.u 0xC 4)), (0x10, !encOk .tsNormCfg (q.u 0x10 4) || decide (4 ≤ q.u 0x10 4)),
   (0x14, !encOk .tsClip (q.u 0x14 4)), (0x20, !inR (q.u 0x20 4) 1 65535),
   (0x24, q.u 0x24 4 == 0 || q.u 0x24 4 % q.u 0x20 4 != 0), (0x28, !inR (q.u 0x28 4) 1 262144), (0x2C, !inR (q.u 0x2C 4) 1 10000),
   (0x30, decide (1520 < q.u 0x30 2)), (0x32, q.u 0x32 2 != 0), (0x34, decide (48640 < q.u 0x34 4)), (0x38, decide (778240 < q.u 0x38 4)),
   (0x40, decide (32 ≤ q.u 0x40 1) || !bit (q.u 0x3C 4) (q.u 0x40 1)), (0x41, q.u 0x41 3 != 0),
   (0x4C, bit (q.u 4 4) 1 && (bitsOf 256 (q.u 0x4C 32)).any fun b => b % 2 == 1)]

/-- A requested line or counter is already assigned (R474). -/
def State.taken (s : State) (lines ctrs : Nat) (blocks : List Nat) : Bool :=
  ((bitsOf 32 lines).any fun l => s.rbit (clReg l 0) 6) || blocks.any fun b => (bitsOf 64 ctrs).any fun c => s.rbit (ccCtl b c) 22

/-- Lines, counters and redundant pairs of an admitted job (R338, R396, R474). -/
def State.assign (s : State) (j flags lines stepLine ctrs : Nat) (blocks : List Nat) : State :=
  let s := s.each (fun s l =>
    let v := j + 64 + (if l = stepLine then 128 + 256 + b2n (bit flags 3) * 512 else 0)
    s.setRf (clReg l 0) 9 0 v) (bitsOf 32 lines)
  s.each (fun s b =>
    let s := s.each (fun s c => s.setRf (ccCtl b c) 28 22 (1 + 2 * j)) (bitsOf 64 ctrs)
    let s := if bit flags 1 then (s.setRf (blockReg b 0x800) 0 0 1).setRf (blockReg (b + 1) 0x800) 0 0 1 else s
    if (List.range 5).any fun t => (s.test b t).due then s.setRf (blockReg b 0xC308) 0 0 1 else s) blocks

/-- The numeric and training contexts of an admitted job (R240, R255). A restarted job has ACTIVE set once REC_RESTORE_JOB has
written its spore key, step number and loss scale, or with JOB_START (R240, R276). -/
def State.startContexts (s : State) (j : Nat) (q : Req) (k0 k1 : Nat) : State :=
  let s := s.each (fun s (x : Nat × Nat) => s.setRn (numReg j x.1) x.2)
    [(0, q.u 8 4), (4, 0), (8, bits (q.u 8 4) 9 4), (0xC, 0), (0x10, 0), (0x14, 0), (0x18, 0), (0x1C, 0), (0x20, 0)]
  let s := s.each (fun s (x : Nat × Nat) => s.setRn (tsReg j x.1) x.2)
    [(0, k0), (4, k1), (8, 0), (0xC, q.u 0xC 4), (0x10, q.u 0x10 4), (0x14, q.u 0x14 4)]
  if bit (q.u 4 4) 2 then s else s.setBit (numReg j 4) 16

/-- JOB_ADMIT (R240, R255, R474; spec/17 after R531). -/
def State.jobAdmit (s : State) (q : Req) : Ans :=
  checked (admitBad q) s fun s =>
    if s.sec.state ≠ .operational then fail stInternal 0 s
    else
      let flags := q.u 4 4
      let lines := q.u 0x3C 4
      let ctrs := q.u 0x44 8
      let blocks := bitsOf 256 (q.u 0x4C 32)
      match (List.range 64).find? fun j => !s.admitted j with
      | none => fail stNoResource 0 s
      | some j =>
        if s.taken lines ctrs blocks then fail stNoResource 0 s
        else
          let drawn := q.u 0x18 8 == 0
          let (d, s) := (if drawn then s.reseedGenerators.drbgRequest else s.reseedGenerators).draw
          let k0 := if drawn then Config.undefValue d % 2 ^ 32 else q.u 0x18 4
          let k1 := if drawn then Config.undefValue d / 2 ^ 32 % 2 ^ 32 else q.u 0x1C 4
          let s := s.setSlot j { Slot.init with
            state := .admitted, fjob := q.u 0 4, flags := flags, lines := lines, stepLine := q.u 0x40 1, counters := ctrs
            blocks := q.u 0x4C 32, bsQuota := q.u 0x30 2, hbmQuota := q.u 0x34 4, spQuota := q.u 0x38 4, imgInt := q.u 0x20 4
            baseInt := q.u 0x24 4, jrnMin := q.u 0x28 4, jrnRate := q.u 0x2C 4 }
          let s := (s.assign j flags lines (q.u 0x40 1) ctrs blocks).startContexts j q k0 k1
          let s := if s.dev = .ready then s.setDev .running else s
          ok (leBytes 1 j ++ leBytes 3 0 ++ leBytes 4 k0 ++ leBytes 4 k1) s

/-! ### Tensors, windows, graph -/

/-- The job has been started and not stopped since. -/
def JobState.started (st : JobState) : Bool := st.active

/-- JOB_TENSORS (R396, R426, R604). -/
def State.jobTensors (s : State) (q : Req) : Ans :=
  s.onSlot q fun j =>
    let sl := s.slot j
    let es := (List.range (q.u 4 4)).map fun k => (q.u (8 + 8 * k) 4, q.u (12 + 8 * k) 4)
    checked ((1, q.u 1 3 != 0) :: es.zipIdx.map fun (e, k) => (12 + 8 * k, decide (1 < e.2))) s fun s =>
      if sl.state.started then fail stWrongState 0 s
      else if es.any fun e => (s.tensor e.1).isNone then fail stNotFound 0 s
      else if es.any fun e => e.2 == 1 && (match s.writerOf e.1 with | some i => i != j | none => false) then fail stConflict 0 s
      else
        let l := es.foldl (fun l e => (l.filter fun x => x.1 != e.1) ++ [(e.1, e.2 == 1)]) sl.tensors
        let so := { sl with tensors := l }
        let t := s.setSlot j { so with jmeth := so.writables.filter (s.bigTensor so) }
        match t.makeTwins j with
        | (true, t) => ok [] t
        | (false, _) => fail stNoResource 0 s

/-- Sizes of the ACT windows that hold or still drain, in 2 MiB units (R289). -/
def State.actTotal (s : State) : Nat :=
  ((List.range 16).map fun w =>
    if s.rbit (hwinReg w 0xC) 0 ∧ s.rf (hwinReg w 0xC) 2 1 = 0 then s.rf (hwinReg w 8) 18 0 else 0).sum

/-- JOB_WINDOW (R287 to R289): the lowest window that is neither valid nor draining. -/
def State.jobWindow (s : State) (q : Req) : Ans :=
  s.onSlot q fun j =>
    let kind := q.u 1 1
    let size := q.u 12 4
    checked [(1, decide (2 < kind)), (2, q.u 2 2 != 0), (4, q.u 4 8 % 2097152 != 0),
        (12, !inR size 1 262144 || (kind == 0 && size % 16 != 0) || decide (2 ^ 64 < q.u 4 8 + size * 2097152))] s fun s =>
      let most := if kind = 2 then 2 else 1
      let free := (List.range 16).find? fun w => !s.rbit (hwinReg w 0xC) 0 && !s.rbit (hwinReg w 0xC) 16
      if most ≤ (s.windows j kind).length ∨ (kind = 0 ∧ 262144 < s.actTotal + size) then fail stNoResource 0 s
      else
        match free with
        | none => fail stNoResource 0 s
        | some w =>
          ok [BitVec.ofNat 8 w] ((((s.setRn (hwinReg w 0) (q.u 4 4)).setRn (hwinReg w 4) (q.u 8 4)).setRn (hwinReg w 8) size).setRn (hwinReg w 0xC)
            (1 + kind * 2 + j * 8))

/-- JOB_GRAPH_STAGE: bytes of one region's dispatch list. -/
def State.jobGraphStage (s : State) (q : Req) : Ans :=
  s.onSlot q fun j =>
    let g := q.u 1 1
    let off := q.u 4 4
    let len := q.u 8 4
    checked [(1, decide (15 < g)), (2, q.u 2 2 != 0), (8, decide (2 ^ 30 < off + len))] s fun s =>
      let l := (s.slot j).list g
      let m := ((q.p.drop 12).zipIdx off).foldl (fun m (v, i) => SMap.set (fun _ => 0#8) m i v) l.bytes
      ok [] (s.setList j g { l with bytes := m, len := max l.len (off + len) })

/-- JOB_GRAPH_LOAD starts (R311, R477); OPERATION_COMPLETE ends it. -/
def State.jobGraphLoad (s : State) (q : Req) : Ans :=
  s.onSlot q fun j =>
    let sl := s.slot j
    match sl.state with
    | .loading => fail stConflict 0 s
    | .running => fail stWrongState 0 s
    | .trapStopped => fail stWrongState 0 s
    | .stopping => fail stWrongState 0 s
    | .stopped =>
      if (s.opsOf [0x0405] fun a => a == j).isEmpty then s.startOp q j fun _ s => s else fail stConflict 0 s
    | _ => s.startOp q j fun _ s => s.setSlot j { sl with state := .loading }

/-! ### Start, stop, end -/

/-- R11: every tensor of the job is resident in its tiers, in a redundant job in both copies. -/
def State.jobResident (s : State) (j : Nat) : Bool :=
  let sl := s.slot j
  sl.tensors.all fun (n, _) =>
    match s.tensor n with
    | none => false
    | some x =>
      x.state == 5 && s.allHeld n x &&
      (!bit sl.flags 1 || x.pieces.all fun (i, u, _) => u / 512 % 2 == 1 ||
        (match s.twinOf n i u with | some v => (pieceUnits (x.layout == 1) v).all (s.holdsPiece n) | none => false))

/-- JOB_START (R11, R477): the job's lists stand at the start of the pass of its step. -/
def State.jobStart (s : State) (q : Req) : Ans :=
  s.onSlot q fun j =>
    let sl := s.slot j
    if sl.graph && (sl.state == .loaded || sl.state == .stopped) && s.jobResident j then
      ok [] ((s.setBit (numReg j 4) 16).setSlot j { sl with
        state := .running, restored := false, stopCause := 0, stopEvt := 0, failTask := 0
        lists := sl.lists.map fun (g, l) => (g, { l with pos := List.range l.records.length, pass := sl.step }) })
    else fail stWrongState 0 s

/-- JOB_STOP (R322). -/
def State.jobStop (s : State) (q : Req) : Ans :=
  s.onSlot q fun j => if (s.slot j).state.active then ok [] (s.haltJob j 1 0 0) else fail stWrongState 0 s

/-- JOB_RESUME (R222, R477). -/
def State.jobResume (s : State) (q : Req) : Ans :=
  s.onSlot q fun j =>
    let sl := s.slot j
    if sl.state = .trapStopped then ok [] (s.setSlot j { sl with state := .running, stopCause := 0 }) else fail stWrongState 0 s

/-- JOB_STATUS. -/
def State.jobStatus (s : State) (q : Req) : Ans :=
  s.onSlot q fun j =>
    let sl := s.slot j
    ok (leBytes 1 sl.state.code ++ leBytes 1 sl.stopCause ++ leBytes 2 sl.stopEvt ++ leBytes 4 sl.step ++ leBytes 4 sl.epoch ++ leBytes 4 sl.failTask ++
      leBytes 4 sl.aborted.length ++ (sl.aborted.map fun m => leBytes 4 m).flatten) s

/-- What admission assigned is given back (R240, R290, R474). The job's transfers are complete, so its windows need no
draining. -/
def State.unassign (s : State) (j : Nat) : State :=
  let sl := s.slot j
  let s := s.each (fun s l => s.setRf (clReg l 0) 9 0 0) (bitsOf 32 sl.lines)
  let s := s.each (fun s b =>
    let s := s.each (fun s c => s.setRf (ccCtl b c) 28 22 0) (bitsOf 64 sl.counters)
    if bit sl.flags 1 then (s.setRf (blockReg b 0x800) 0 0 0).setRf (blockReg (b + 1) 0x800) 0 0 0 else s) (bitsOf 256 sl.blocks)
  let s := s.each (fun s w =>
    if (s.rbit (hwinReg w 0xC) 0 ∨ s.rbit (hwinReg w 0xC) 16) ∧ s.rf (hwinReg w 0xC) 8 3 = j then (s.setRf (hwinReg w 0xC) 0 0 0).setRf (hwinReg w 0xC) 16 16 0 else s) (List.range 16)
  let s := s.each (fun s e =>
    if s.rbit (zgwReg e 4) 0 ∧ s.rf (zgwReg e 4) 11 6 = j then (s.setRf (zgwReg e 4) 0 0 0).setRn (zgwReg e 8) 0 else s) (List.range 4096)
  s.setRf (numReg j 4) 16 16 0

/-- JOB_END (R240, R302, R322): operations about the slot end with WRONG_STATE; the slot is free. -/
def State.jobEnd (s : State) (q : Req) : Ans :=
  s.onSlot q fun j =>
    let s := s.each (fun s (o : Op) => s.opDone o.oph stWrongState 0 []) (s.opsOf [0x0405, 0x0C04] fun a => a == j)
    let s := ((s.stopJob j).dropTwins j).unassign j
    let s := (s.setSlot j Slot.init).clearNorms j
    ok [] (if s.dev = .running ∧ (List.range 64).all (fun i => !s.admitted i) then s.setDev .ready else s)

end Sys2Proof.Machine
end

