-- ==== Sys2Proof/Machine/Manage.lean ====
section
/-!
DEFINITION. Sys2Proof/Machine/Manage.lean: Ciand families 0x05 to 0x0A: calibration, power and thermal, faults and journal,
tests, firmware, security (spec/15, R473, R480, R485, R486; spec/19, R571; spec/17, R514, R533, R534).
-/
namespace Sys2Proof.Machine

/-! ### 0x05 calibration -/

def State.calStatus (s : State) : Ans :=
  ok (((List.range 16).map fun g => leBytes 4 (s.calState g) ++ leBytes 2 (s.rf (calReg g 4) 15 0) ++ leBytes 2 (s.rf (calReg g 0) 31 16)).flatten) s

/-- CAL_RUN starts (R564); OPERATION_COMPLETE ends it. -/
def State.calRun (s : State) (q : Req) : Ans :=
  s.startOp q (q.u 0 2) fun _ s => s.each (fun s g => s.calRequest g) (bitsOf 16 (q.u 0 2))

/-- The header page of an in-service record (R571): its fields packed, 0 up to its CRC-32C in the last 4 bytes. -/
def CalRec.header (r : CalRec) : List Byte :=
  let h := leBytes 2 0xCA15 ++ leBytes 1 r.region ++ leBytes 4 r.clock ++ leBytes 2 (enc2c 16 r.tcal) ++ leBytes 8 r.seq ++ leBytes 4075 0
  h ++ leBytes 4 (crc32c h).toNat

/-- Bytes of the in-service area from an offset: 25 places of 5 erase blocks in rotation, an erased byte is 0xFF. -/
def State.inService (s : State) (off n : Nat) : List Byte :=
  let recs := s.part.calIn.map fun r => (r.seq % 25, r.header, r.codes)
  (List.range n).map fun i =>
    let a := off + i
    match recs.find? fun x => x.1 = a / 655360 with
    | some (_, h, codes) =>
      let o := a % 655360
      if o < 4096 then h.getD o 0xFF#8 else if o < 593920 then BitVec.ofNat 8 (codes.getD (o - 4096) 0) else 0xFF#8
    | none => 0xFF#8

/-- CAL_READ (R570, R571): area 0 or 1 a factory copy, 2 the in-service area. -/
def State.calRead (s : State) (q : Req) (rd : PartReads) : Ans :=
  let off := q.u 4 4
  let n := q.u 8 4
  checked [(0, decide (2 < q.u 0 1)), (1, q.u 1 3 != 0), (4, decide (16777216 < off)), (8, decide (61408 < n) || decide (16777216 < off + n))] s
    fun s =>
      let s := s.partReads rd
      if 0 < rd.failed + rd.lost.length then fail stInternal 0x0641 s
      else ok (if q.u 0 1 < 2 then (List.range n).map fun i => factoryCopy (off + i) else s.inService off n) s

/-! ### 0x06 power and thermal -/

/-- PWR_GET: the input current in A is known to 10 mA, and which way it is rounded is a free value. -/
def State.pwrGet (s : State) : Ans :=
  let (d, s) := s.draw
  let curr := s.rf 0x300000 31 16
  let amps := if curr % 100 = 0 then curr / 100 else curr / 100 + Config.undefValue d % 2
  ok (((List.range 16).map fun g =>
      leBytes 2 (s.rf (railReg g 4) 15 0) ++ leBytes 4 (s.rn (railReg g 8)) ++ leBytes 4 (s.rn (railReg g 0xC)) ++
        leBytes 2 (s.rf (railReg g 0x10) 15 0)).flatten ++
    leBytes 2 (s.rf 0x300000 15 0) ++ leBytes 2 amps ++ leBytes 2 (s.rf 0x300004 15 0) ++ leBytes 4 (s.rn 0x340000) ++
    leBytes 2 (s.rf 0x340004 15 0)) s

/-- PWR_LIMIT (R548, R549). -/
def State.pwrLimit (s : State) (q : Req) : Ans :=
  checked [(0, !inR (q.u 0 2) 1000 3300), (2, !inR (q.u 2 2) 100 640)] s fun s =>
    ok (leBytes 4 (s.rn 0x300008)) (s.setRn 0x300008 (q.u 0 4)).capEffect

def State.pwrClearMin (s : State) (q : Req) : Ans := ok [] (s.each (fun s g => s.railMinClear g) (bitsOf 16 (q.u 0 2)))

/-! ### 0x07 faults and journal -/

/-- JRN_READ (R403, R404). -/
def State.jrnRead (s : State) (q : Req) (rd : PartReads) : Ans :=
  checked [(8, !inR (q.u 8 2) 1 479)] s fun s =>
    let all := ((s.jrn.readable rd).map List.flatten).flatten
    let s := s.partReads rd
    let l := (all.filter fun r => r.typ != tyFiller && decide (q.u 0 8 ≤ r.seq)).mergeSort fun x y => decide (x.seq ≤ y.seq)
    ok ((l.take (q.u 8 2)).map JRec.bytes).flatten s

/-- Correctable events of a unit in the last 72 hours that the journal's records hold. -/
def Journal.correctableCount (j : Journal) (kind unit : Nat) : Nat :=
  let l := ((j.found ++ j.staged).filter j.correctable).map JRec.occurrences
  (l.flatten.filter fun (k, u, _, t) => k == kind && u == unit && decide (j.jclock ≤ t + hours72)).length

def Journal.isPermanent (j : Journal) (kind unit : Nat) : Bool :=
  (j.found ++ j.staged).any fun r => r.typ == tyPermanent && r.kind == kind && r.unit == unit

/-- JRN_UNITS (R393). -/
def State.jrnUnits (s : State) (q : Req) : Ans :=
  let kind := q.u 0 1
  checked [(0, decide (6 < kind)), (1, q.u 1 3 != 0), (8, !inR (q.u 8 4) 1 7675 || decide (2 ^ 32 < q.u 4 4 + q.u 8 4))] s fun s =>
    ok (((List.range (q.u 8 4)).map fun i =>
      let u := q.u 4 4 + i
      leBytes 4 u ++ leBytes 2 (min 65535 (s.jrn.correctableCount kind u)) ++ leBytes 2 (b2n (s.jrn.isPermanent kind u))).flatten) s

/-- EVT_SUBSCRIBE (R486). -/
def State.evtSubscribe (s : State) (q : Req) : Ans :=
  checked [(0, q.u 0 2 % 2 != 0 || decide (1024 ≤ q.u 0 2)), (2, q.path == 2 && decide (8191 < q.u 2 2))] s fun s =>
    ok [] { s with fw := { s.fw with subs := setAt s.fw.subs q.path (q.u 0 2), manager := if q.path = 2 then q.u 2 2 else s.fw.manager } }

def State.fltGet (s : State) : Ans := ok (leBytes 4 s.fhState ++ leBytes 8 s.fw.causeSeq) s

/-! ### 0x08 tests -/

/-- TEST_RUN starts (R419, R580): in-field test 0x09 to 0x0D falls due on each block of the mask. -/
def State.testRun (s : State) (q : Req) : Ans :=
  let t := q.u 0 1
  checked [(0, !inR t 9 13), (1, q.u 1 3 != 0)] s fun s =>
    s.startOp q (q.u 4 32 * 8 + (t - 9)) fun _ s => s.each (fun s b => s.makeDue b (t - 9)) (bitsOf 256 (q.u 4 32))

/-- TEST_RESULT (R421). -/
def State.testResult (s : State) (q : Req) : Ans :=
  checked [(0, !inR (q.u 0 1) 9 13)] s fun s =>
    let x := s.test (q.u 1 1) (q.u 0 1 - 9)
    ok (leBytes 1 x.result ++ leBytes 4 x.lastRun ++ leBytes 4 (if x.due then 0 else x.dueS)) s

/-- POST_RESULT (R582): of a device that has failed no self-test, the 32 bytes of detail are free values. -/
def State.postResult (s : State) : Ans :=
  let d := s.draws
  let none' := s.fw.postTest == 255
  ok (leBytes 1 s.fw.postTest ++ leBytes 1 s.fw.postKind ++ leBytes 2 0 ++ leBytes 4 s.fw.postUnit ++
    (List.range 32).map fun i => BitVec.ofNat 8 (if none' then Config.undefValue (d + i) else s.fw.postDetail.getD i 0))
    (if none' then { s with draws := d + 32 } else s)

/-! ### 0x09 firmware -/

/-- FW_INFO: slots A and B of types 0 to 3. -/
def State.fwInfo (s : State) : Ans :=
  ok (((List.range 8).map fun i =>
    let typ := i / 2
    let ab := i % 2
    let x := s.sec.slot typ ab
    let ver := if x.shipped then (Config.shippedVersion typ).toNat else x.version
    leBytes 1 (b2n (x.shipped || x.verified)) ++ leBytes 1 (b2n (s.sec.active.getD typ 0 == ab)) ++ leBytes 2 typ ++ leBytes 4 ver ++
      leBytes 4 x.svn ++ s.measure typ ab).flatten) s

/-- Bytes of a boot-flash slot of a type (spec/17, boot flash layout). -/
def slotSize : Nat → Nat
  | 0 => 12582912
  | 1 => 25165824
  | 2 => 8388608
  | _ => 16777216

/-- The slot of a type that is not active. -/
def Enclave.idle (e : Enclave) (typ : Nat) : Nat := 1 - e.active.getD typ 0

/-- In GLADE only recovery images are served (R472, R480). -/
def State.fwType (s : State) (typ : Nat) (k : State → Ans) : Ans :=
  if 3 < typ then fail stBadField 0 s else if s.dev = .glade ∧ typ ≠ 3 then fail stWrongState 0 s else k s

/-- Bytes staged into the idle slot of a type, which is no longer verified nor selected (R480). -/
def State.fwWrite (s : State) (typ off : Nat) (l : List Byte) : State :=
  let e := s.sec
  let ab := e.idle typ
  let x := e.slot typ ab
  let m := (l.zipIdx off).foldl (fun m (v, i) => SMap.set (fun _ => 0#8) m i v) x.data
  s.setSec { e.setSlot typ ab { x with data := m, shipped := false, verified := false } with next := setAt e.next typ (e.active.getD typ 0) }

/-- FW_STAGE (R480). -/
def State.fwStage (s : State) (q : Req) : Ans :=
  let typ := q.u 0 1
  s.fwType typ fun s =>
    checked [(1, q.u 1 3 != 0), (8, decide (slotSize typ < q.u 4 4 + q.u 8 4))] s fun s => ok [] (s.fwWrite typ (q.u 4 4) (q.p.drop 12))

/-- FW_VERIFY starts (R480); OPERATION_COMPLETE ends it. -/
def State.fwVerify (s : State) (q : Req) : Ans :=
  let typ := q.u 0 1
  s.fwType typ fun s =>
    checked [(1, q.u 1 3 != 0), (4, !inR (q.u 4 4) 8192 (slotSize typ))] s fun s => s.startOp q (typ + 4 * q.u 4 4) fun _ s => s

/-- The image staged for a type, of `len` bytes, is verified: 0 accepted, 1 authentication failure, 2 rollback (R514), 3 when the
enclave serves status only (spec/17, "Enclave states"). -/
def State.verifyStaged (s : State) (typ len : Nat) : Nat × State :=
  let e := s.sec
  let ab := e.idle typ
  let x := e.slot typ ab
  let st := if e.state ≠ .operational then 3 else if !x.shipped && 8192 + x.num 0x10 4 != len then 1 else e.imageStatus typ x
  match st with
  | 0 => (0, s.setSec (e.setSlot typ ab { (if x.shipped then x else x.readHeader) with verified := true }))
  | 1 => (1, (s.setSec (e.setSlot typ ab { x with verified := false, shipped := false })).raiseFw 0x0801 0 0)
  | 2 => (2, (s.setSec (e.setSlot typ ab { x with verified := false, shipped := false })).raiseFw 0x0802 0 0)
  | _ => (3, s)

/-- The idle slot of a type is selected for the next boot (R480, R519). -/
def State.selectNext (s : State) (typ : Nat) : State :=
  let e := s.sec
  s.setSec { e with next := setAt e.next typ (e.idle typ), recovery := e.recovery || (typ == 3 && s.dev == .glade) }

/-- FW_ACTIVATE (R480, R519). -/
def State.fwActivate (s : State) (q : Req) : Ans :=
  let typ := q.u 0 1
  s.fwType typ fun s =>
    if (s.sec.slot typ (s.sec.idle typ)).verified then ok [] (s.selectNext typ) else fail stWrongState 0 s

/-! ### 0x0A security -/

/-- SPDM_MSG (R522): the responder's answer. -/
def State.spdmMsg (s : State) (q : Req) : Ans :=
  let (r, s) := s.spdmReply q.p
  ok r s

def State.secStatusCmd (s : State) : Ans := ok s.secStatus s

/-- SEC_ZEROISE (R534). An enclave that serves status only refuses it: it leaves ERROR and ZEROISED by reset alone (R532,
R535). -/
def State.secZeroise (s : State) (q : Req) : Ans :=
  checked [(0, q.u 0 8 != Config.serial.toNat)] s fun s =>
    if s.sec.state = .operational then ok [] s.zeroise else fail stInternal 0 s

end Sys2Proof.Machine
end

