-- ==== Sys2Proof/Machine/Net.lean ====
section
/-!
DEFINITION. Sys2Proof/Machine/Net.lean: Ciand families 0x0B and 0x0C: fabric and links, recovery (spec/15, R473, R481, R487;
spec/11, R351, R352, R360, R388; spec/13, R428 to R437).
-/
namespace Sys2Proof.Machine

/-! ### 0x0B fabric and links -/

/-- FAB_SET_ID (R351): the ID is kept in the partition and carried by the next hellos. -/
def State.fabSetId (s : State) (q : Req) : Ans :=
  checked [(0, decide (0x4000 ≤ q.u 0 2))] s fun s =>
    ok [] (({ s with part := s.part.putSettings (q.u 0 2) s.fw.locals } : State).setRn 0x34000 (q.u 0 2)).helloChanged

/-- The routing entry of a device ID is written (R352). -/
def State.setRoute (s : State) (d e : Nat) : State := s.setRf (0x30000 + d / 2 * 4) (d % 2 * 16 + 15) (d % 2 * 16) e

/-- FAB_ROUTE (R352). -/
def State.fabRoute (s : State) (q : Req) : Ans :=
  let first := q.u 0 2
  let n := q.u 2 2
  checked ([(0, decide (8192 ≤ first)), (2, !inR n 1 8192 || decide (8192 < first + n))] ++
      (List.range n).map fun i => (4 + 2 * i, decide (0x1000 ≤ q.u (4 + 2 * i) 2))) s fun s =>
    ok [] (s.each (fun s i => s.setRoute (first + i) (q.u (4 + 2 * i) 2)) (List.range n))

/-- FAB_NEIGHBOURS. -/
def State.fabNeighbours (s : State) : Ans :=
  ok (((List.range 32).map fun p =>
    let r (x : Nat) : List Byte := leBytes 4 (s.rn (lportReg p x))
    r 0 ++ r 4 ++ r 8 ++ r 12 ++ r 16 ++ r 0x1C ++ leBytes 8 0).flatten) s

/-- FAB_PORTS (R344, R388): values of the 16 LINK_CFG registers. -/
def State.fabPorts (s : State) (q : Req) : Ans :=
  let v (p : Nat) : Nat := q.u (4 * p) 4
  checked ((List.range 16).map fun p => (4 * p, !encOk .linkCfg (v p) || bits (v p) 7 5 != 0 || decide (0x100000 ≤ v p))) s fun s =>
    if (List.range 16).any fun p => s.rf (linkReg p 0) 1 0 != 0 && bits (v p) 2 2 != s.rf (linkReg p 0) 2 2 then fail stWrongState 0 s
    else ok [] (s.each (fun s p => let old := s.rn (linkReg p 0); (s.setRn (linkReg p 0) (v p)).linkCfgEffect p old) (List.range 16))

/-- FAB_TIME: the value of TIME_CFG. -/
def State.fabTime (s : State) (q : Req) : Ans :=
  let v := q.u 0 4
  checked [(0, !encOk .timeCfg v || bits v 7 7 != 0 || decide (0x10000 ≤ v))] s fun s => ok [] (s.setRn 0x34088 v)

/-- FAB_GROUP (R360): one rail of a group of a job. -/
def State.fabGroup (s : State) (q : Req) : Ans :=
  s.onSlot q fun j =>
    let group := q.u 1 1
    let rail := q.u 2 1
    let rails := q.u 3 1
    let n := q.u 8 2
    checked ([(1, decide (15 < group)), (2, decide (rails ≤ rail)), (3, !inR rails 1 4), (4, q.u 4 4 != (s.slot j).fjob),
        (8, n == 0), (10, decide (31 < q.u 10 1)), (11, q.u 11 1 != 0)] ++
        (List.range n).map fun i => (12 + 2 * i, decide (8191 < q.u (12 + 2 * i) 2))) s fun s =>
      let r : Rail := { members := (List.range n).map fun i => q.u (12 + 2 * i) 2, port := q.u 10 1, total := rails }
      let kept := s.fab.groups.filter fun (k, _) => !(decide (groupKey j group rails ≤ k) && decide (k < groupKey j group 4))
      let m := SMap.set (fun _ => ({ members := [], port := 0, total := 0 } : Rail)) kept (groupKey j group rail) r
      ok [] { s with fab := { s.fab with groups := m } }

/-- FAB_FORWARD starts (R487): the request goes out in segments; the response ends the operation. -/
def State.fabForward (s : State) (q : Req) : Ans :=
  let dst := q.u 0 2
  let box := q.u 2 1
  let msg := q.p.drop 4
  checked [(0, decide (8191 < dst)), (2, !inR box 12 15), (3, q.u 3 1 != 0)] s fun s =>
    s.startOp q (dst + 8192 * box) fun h s =>
      let (sent, s) := s.sendSegments none dst box (msg.length / 4096 + 1) 0 msg
      if sent then s else s.opDone h stInternal 0x0510 []

/-! ### 0x0C recovery -/

/-- REC_IMAGE_DONE (R428, R429): segments up to the image's step are no longer kept. -/
def State.recImageDone (s : State) (q : Req) : Ans :=
  s.onSlot q fun j =>
    let n := q.u 4 4
    checked [(1, q.u 1 3 != 0)] s fun s =>
      let sl := s.slot j
      let img := max sl.imgStep n
      let s := s.setSlot j { sl with
        imgStep := img, baseStep := if n % sl.baseInt = 0 then max sl.baseStep n else sl.baseStep
        segs := sl.segs.filter fun (k, _, _, _) => decide (img < k) }
      ok [] ((s.markNow (s.marker 3 j n)).raiseJ 0x0430 0 0 j 0)

/-- REC_RESTART (R434): the restart step of every slot of the fabric job. -/
def State.recRestart (s : State) (q : Req) : Ans :=
  let S := q.u 4 4
  let js := (List.range 64).filter fun j => s.admitted j && (s.slot j).fjob == q.u 0 4
  if js.isEmpty then fail stNotFound 0 s
  else ok [] (s.each (fun s j =>
    let s := s.setSlot j { s.slot j with rests := S, restOrd := 0, restored := false }
    (s.markNow (s.marker 4 j S)).raiseJ 0x0431 0 0 j 0) js)

/-- A job whose state a recovery may set: stopped, or admitted and not started. -/
def JobState.idle (st : JobState) : Bool := st == .admitted || st == .loading || st == .loaded || st == .stopped

/-- REC_RESTORE_JOB (R436): weight epoch, loss scale and clean steps, spore key, and TS_SPORE_STEP at S + 1. -/
def State.recRestoreJob (s : State) (q : Req) : Ans :=
  s.onSlot q fun j =>
    let sl := s.slot j
    let ls := q.u 12 4
    checked [(1, q.u 1 3 != 0), (4, q.u 4 4 != sl.rests), (12, !encOk .numLscale ls || bits ls 15 6 != 0)] s fun s =>
      if !sl.state.idle then fail stWrongState 0 s
      else
        let s := s.setSlot j { sl with epoch := q.u 8 4, restored := true }
        ok [] (((((s.setRn (numReg j 8) ls).setRn (tsReg j 0) (q.u 16 4)).setRn (tsReg j 4) (q.u 20 4)).setRn (tsReg j 8) ((q.u 4 4 + 1) % 2 ^ 32)).setBit (numReg j 4) 16)

/-- REC_BEGIN starts (R434 to R437): orders 1 to 4; RESTORE_COMPLETE ends it. A returning member or a replacement may
begin again. -/
def State.recBegin (s : State) (q : Req) (x : ImgSet) : Ans :=
  s.onSlot q fun j =>
    let sl := s.slot j
    let kind := q.u 1 1
    let old := s.opsOf [0x0C04] fun a => a == j
    checked [(1, decide (2 < kind))] s fun s =>
      if !sl.state.idle then fail stWrongState 0 s
      else if !old.isEmpty ∧ sl.restKind = 0 then fail stConflict 0 s
      else
        let s := if old.isEmpty then s
          else (s.each (fun s (o : Op) => s.opDone o.oph stWrongState 0 []) old).raiseJ 0x0432 0 0 j 0
        s.startOp q j fun h s =>
          let s := s.dropTwins j
          let s := s.setSlot j { s.slot j with restKind := kind, restOrd := 1, restOp := h }
          let (good, s) := s.beginRestart j kind x
          if good then s else s.opDone h stInternal 0x0433 []

/-- REC_STATUS. -/
def State.recStatus (s : State) (q : Req) : Ans :=
  s.onSlot q fun j =>
    let sl := s.slot j
    ok (leBytes 1 sl.restKind ++ leBytes 1 sl.restOrd ++ leBytes 2 0 ++ leBytes 4 sl.rests ++ leBytes 4 sl.restOp) s

/-- REC_CLEAR_FLAG (R405, R481). -/
def State.recClearFlag (s : State) (q : Req) : Ans :=
  checked [(0, q.u 0 8 != Config.serial.toNat)] s fun s => ok [] (s.jState s.dev 2 0)

end Sys2Proof.Machine
end

