-- ==== Sys2Proof/Machine/Serve.lean ====
section
/-!
DEFINITION. Sys2Proof/Machine/Serve.lean: how firmware serves a posted mailbox (spec/15, R464, R465, R467 to R470, R472), and
one command of the device for each Ciand command.
-/
namespace Sys2Proof.Machine

/-! ### The request -/

/-- A byte of a mailbox's message area. -/
def Mailbox.byte (B : Mailbox) (i : Nat) : Byte := SMap.get (fun _ => 0#8) B.area i
def Mailbox.take (B : Mailbox) (off n : Nat) : List Byte := (List.range n).map fun i => B.byte (off + i)
def Mailbox.num (B : Mailbox) (off n : Nat) : Nat := leNat (B.take off n)
/-- Payload bytes that the header announces, at most what the area holds. -/
def Mailbox.length (B : Mailbox) : Nat := min 61408 (B.num 8 4)

/-- The path that a mailbox serves (R459). -/
def boxPath (m : Nat) : Nat := if m < 8 then 0 else if m < 12 then 1 else 2

/-- The request in mailbox m. -/
def State.request (s : State) (m : Nat) : Req :=
  let B := s.box m
  { box := m, path := boxPath m, src := B.src, link := B.link, op := B.num 0 2, flags := B.num 2 2, seq := B.num 4 4, p := B.take 32 B.length }

/-- The checks of the header (R467, R468): CRC, LENGTH, reserved fields. -/
def State.headerBad (s : State) (m : Nat) : Option (Nat × Nat) :=
  let B := s.box m
  let crc := bit (B.num 2 2) 1
  let sum := crc32c (B.take 0 28 ++ B.take 32 B.length)
  let op := B.num 0 2
  if (crc && B.num 28 4 != sum.toNat) || (!crc && boxPath m == 2) then some (stBadCrc, 0)
  else if 61408 < B.num 8 4 ∨ (opcodeOk op = true ∧ B.num 8 4 ≠ wantLen op (boxPath m) (B.take 32 B.length)) then some (stBadLength, 0)
  else if B.num 2 2 % 2 = 1 ∨ 8 ≤ B.num 2 2 ∨ B.num 12 2 ≠ 0 ∨ B.num 15 1 ≠ 0 ∨ B.num 16 4 ≠ 0 ∨ B.num 24 4 ≠ 0 then some (stBadField, 0)
  else none

/-! ### The commands -/

/-- SPDM_MSG with the session that its exchange opens or ends (R522). -/
def State.spdmServe (s : State) (q : Req) (x : ServeIn) : Ans :=
  let op := s.sec.state == .operational
  let (r, s) := s.spdmMsg q
  let l := s.sec.sessions
  let l := match x.opens with
    | some (i, m) => if op && decide (l.length < 8) && l.all (fun y => y.id != i) then l ++ [{ id := i, hybrid := false, mutAuth := m }] else l
    | none => l
  let l := match x.ends with | some i => if op then l.filter (fun y => y.id != i) else l | none => l
  (r, s.setSec { s.sec with sessions := l })

/-- The command of an opcode of the catalogue (R473). -/
def State.command (s : State) (q : Req) (x : ServeIn) : Ans :=
  match q.op with
  | 0x0101 => s.getInfo
  | 0x0102 => s.getState
  | 0x0103 => s.getTiers q
  | 0x0104 => s.getJobs
  | 0x0105 => s.opStatus q
  | 0x0106 => s.evtRead q
  | 0x0201 => s.cfgGet
  | 0x0202 => s.cfgStageCmd q
  | 0x0203 => s.cfgCommit q
  | 0x0204 => s.localSet q
  | 0x0205 => s.localGet q
  | 0x0301 => s.resDefine q
  | 0x0302 => s.resPieces q
  | 0x0303 => s.resQuery q
  | 0x0304 => s.resStart q false
  | 0x0305 => s.resStart q true
  | 0x0306 => s.resRelease q
  | 0x0307 => s.resDiscard q
  | 0x0401 => s.jobAdmit q
  | 0x0402 => s.jobTensors q
  | 0x0403 => s.jobWindow q
  | 0x0404 => s.jobGraphStage q
  | 0x0405 => s.jobGraphLoad q
  | 0x0406 => s.jobStart q
  | 0x0407 => s.jobStop q
  | 0x0408 => s.jobResume q
  | 0x0409 => s.jobStatus q
  | 0x040A => s.jobEnd q
  | 0x0501 => s.calStatus
  | 0x0502 => s.calRun q
  | 0x0503 => s.calRead q x.reads
  | 0x0601 => s.pwrGet
  | 0x0602 => s.pwrLimit q
  | 0x0603 => s.pwrClearMin q
  | 0x0701 => s.jrnRead q x.reads
  | 0x0702 => s.jrnUnits q
  | 0x0703 => s.evtSubscribe q
  | 0x0704 => s.fltGet
  | 0x0801 => s.testRun q
  | 0x0802 => s.testResult q
  | 0x0803 => s.postResult
  | 0x0901 => s.fwInfo
  | 0x0902 => s.fwStage q
  | 0x0903 => s.fwVerify q
  | 0x0904 => s.fwActivate q
  | 0x0A01 => s.spdmServe q x
  | 0x0A02 => s.secStatusCmd
  | 0x0A03 => s.secZeroise q
  | 0x0B01 => s.fabSetId q
  | 0x0B02 => s.fabRoute q
  | 0x0B03 => s.fabNeighbours
  | 0x0B04 => s.fabPorts q
  | 0x0B05 => s.fabTime q
  | 0x0B06 => s.fabGroup q
  | 0x0B07 => s.fabForward q
  | 0x0C01 => s.recImageDone q
  | 0x0C02 => s.recRestart q
  | 0x0C03 => s.recRestoreJob q
  | 0x0C04 => s.recBegin q x.img
  | 0x0C05 => s.recStatus q
  | 0x0C06 => s.recClearFlag q
  | _ => fail stBadOpcode 0 s

/-- A request whose header is good: opcode, path and device state, then the command (R468). -/
def State.answer (s : State) (q : Req) (x : ServeIn) : Ans :=
  if !opcodeOk q.op then fail stBadOpcode 0 s
  else if !pathOk q.op q.path then fail stDenied 0 s
  else if !s.stateOk q.op then fail stWrongState 0 s
  else s.command q x

/-! ### The response (R464, R465, R467, R469, R470) -/

/-- The response leaves on the mailbox's path. -/
def State.deliver (s : State) (q : Req) (bytes : List Byte) : State :=
  let m := q.box
  let s := s.setRf (mbReg m 4) 31 16 q.seq
  match q.path with
  | 0 => ((s.writeArea m 0 bytes).setMb m mbDone).msix m
  | 1 => (s.emit (.mctp q.src bytes)).setMb m mbIdle
  | _ => (s.sendSegments q.link q.src m (bytes.length / 4096 + 1) 0 bytes).2.setMb m mbIdle

/-- The response is delivered, and a refusal reported. -/
def State.respondBox (s : State) (q : Req) (status : Nat) (bytes : List Byte) : State :=
  let s := if 0x0100 ≤ status ∧ status ≠ stMbBusy then s.raiseFw 0x0470 0 0 else s
  s.deliver q bytes

/-- Mailbox m is BUSY and the service pointer stands past it (R464). -/
def State.begun (s : State) (m : Nat) : State :=
  let s := s.setMb m mbBusy
  { s with fw := { s.fw with ptr := (m + 1) % 16 } }

/-- Firmware serves the request in mailbox m, and its pointer moves past it (R464, R465, R468, R469). -/
def State.serveBox (s : State) (m : Nat) (x : ServeIn) : State :=
  let q := s.request m
  let s := s.begun m
  match s.headerBad m with
  | some (st, det) =>
    let (r, s) := fail st det s
    let s := s.setBox m { s.box m with lastKey := none, lastResp := [] }
    s.respondBox q st (response q.op q.seq (bit q.flags 1) m r)
  | none =>
    let B := s.box m
    if B.lastKey = some (q.seq, q.op) then s.respondBox q (leNat ((B.lastResp.drop 12).take 2)) B.lastResp
    else
      let (r, s) := s.answer q x
      let bytes := response q.op q.seq (bit q.flags 1) m r
      let s := s.setBox m { s.box m with lastKey := some (q.seq, q.op), lastResp := bytes }
      s.respondBox q r.status bytes

/-- The first posted mailbox from the service pointer on. -/
def State.nextBox (s : State) : Option Nat := ((List.range 16).map fun i => (s.fw.ptr + i) % 16).find? fun m => s.mbState m == mbPosted

/-- Every posted mailbox is served, once around from the pointer. -/
def State.serveAll (s : State) (x : ServeIn) : Nat → State
  | 0 => s
  | n + 1 => match s.nextBox with | some m => (s.serveBox m x).serveAll x n | none => s

/-- Nothing beside the request. -/
def ServeIn.none : ServeIn :=
  { img := { base := [], segs := [], img := [] }, opens := Option.none, ends := Option.none, reads := PartReads.none }

/-- Firmware's next request is the one in mailbox m, with the opcode given. -/
def State.ciand (s : State) (op : Nat) (m : MailboxId) (x : ServeIn) : Out :=
  whenever (s.mpUp && s.nextBox == some m.val && (s.request m.val).op == op) s
    (s.serveBox m.val x)

/-! ### One command of the device for each Ciand command: firmware serves it from mailbox m -/

/-- GET_INFO. -/
def execGetInfo (m : MailboxId) (s : State) : Out := s.ciand 0x0101 m ServeIn.none
/-- GET_STATE. -/
def execGetState (m : MailboxId) (s : State) : Out := s.ciand 0x0102 m ServeIn.none
/-- GET_TIERS. -/
def execGetTiers (m : MailboxId) (s : State) : Out := s.ciand 0x0103 m ServeIn.none
/-- GET_JOBS. -/
def execGetJobs (m : MailboxId) (s : State) : Out := s.ciand 0x0104 m ServeIn.none
/-- OP_STATUS. -/
def execOpStatus (m : MailboxId) (s : State) : Out := s.ciand 0x0105 m ServeIn.none
/-- EVT_READ. -/
def execEvtRead (m : MailboxId) (s : State) : Out := s.ciand 0x0106 m ServeIn.none
/-- CFG_GET. -/
def execCfgGet (m : MailboxId) (s : State) : Out := s.ciand 0x0201 m ServeIn.none
/-- CFG_STAGE. -/
def execCfgStage (m : MailboxId) (s : State) : Out := s.ciand 0x0202 m ServeIn.none
/-- CFG_COMMIT. -/
def execCfgCommit (m : MailboxId) (s : State) : Out := s.ciand 0x0203 m ServeIn.none
/-- LOCAL_SET. -/
def execLocalSet (m : MailboxId) (s : State) : Out := s.ciand 0x0204 m ServeIn.none
/-- LOCAL_GET. -/
def execLocalGet (m : MailboxId) (s : State) : Out := s.ciand 0x0205 m ServeIn.none
/-- RES_DEFINE. -/
def execResDefine (m : MailboxId) (s : State) : Out := s.ciand 0x0301 m ServeIn.none
/-- RES_PIECES. -/
def execResPieces (m : MailboxId) (s : State) : Out := s.ciand 0x0302 m ServeIn.none
/-- RES_QUERY. -/
def execResQuery (m : MailboxId) (s : State) : Out := s.ciand 0x0303 m ServeIn.none
/-- RES_LOAD. -/
def execResLoad (m : MailboxId) (s : State) : Out := s.ciand 0x0304 m ServeIn.none
/-- RES_ADOPT. -/
def execResAdopt (m : MailboxId) (s : State) : Out := s.ciand 0x0305 m ServeIn.none
/-- RES_RELEASE. -/
def execResRelease (m : MailboxId) (s : State) : Out := s.ciand 0x0306 m ServeIn.none
/-- RES_DISCARD. -/
def execResDiscard (m : MailboxId) (s : State) : Out := s.ciand 0x0307 m ServeIn.none
/-- JOB_ADMIT. -/
def execJobAdmit (m : MailboxId) (s : State) : Out := s.ciand 0x0401 m ServeIn.none
/-- JOB_TENSORS. -/
def execJobTensors (m : MailboxId) (s : State) : Out := s.ciand 0x0402 m ServeIn.none
/-- JOB_WINDOW. -/
def execJobWindow (m : MailboxId) (s : State) : Out := s.ciand 0x0403 m ServeIn.none
/-- JOB_GRAPH_STAGE. -/
def execJobGraphStage (m : MailboxId) (s : State) : Out := s.ciand 0x0404 m ServeIn.none
/-- JOB_GRAPH_LOAD. -/
def execJobGraphLoad (m : MailboxId) (s : State) : Out := s.ciand 0x0405 m ServeIn.none
/-- JOB_START. -/
def execJobStart (m : MailboxId) (s : State) : Out := s.ciand 0x0406 m ServeIn.none
/-- JOB_STOP. -/
def execJobStop (m : MailboxId) (s : State) : Out := s.ciand 0x0407 m ServeIn.none
/-- JOB_RESUME. -/
def execJobResume (m : MailboxId) (s : State) : Out := s.ciand 0x0408 m ServeIn.none
/-- JOB_STATUS. -/
def execJobStatus (m : MailboxId) (s : State) : Out := s.ciand 0x0409 m ServeIn.none
/-- JOB_END. -/
def execJobEnd (m : MailboxId) (s : State) : Out := s.ciand 0x040A m ServeIn.none
/-- CAL_STATUS. -/
def execCalStatus (m : MailboxId) (s : State) : Out := s.ciand 0x0501 m ServeIn.none
/-- CAL_RUN. -/
def execCalRun (m : MailboxId) (s : State) : Out := s.ciand 0x0502 m ServeIn.none
/-- CAL_READ. -/
def execCalRead (m : MailboxId) (rd : PartReads) (s : State) : Out := s.ciand 0x0503 m { ServeIn.none with reads := rd }
/-- PWR_GET. -/
def execPwrGet (m : MailboxId) (s : State) : Out := s.ciand 0x0601 m ServeIn.none
/-- PWR_LIMIT. -/
def execPwrLimit (m : MailboxId) (s : State) : Out := s.ciand 0x0602 m ServeIn.none
/-- PWR_CLEAR_MIN. -/
def execPwrClearMin (m : MailboxId) (s : State) : Out := s.ciand 0x0603 m ServeIn.none
/-- JRN_READ. -/
def execJrnRead (m : MailboxId) (rd : PartReads) (s : State) : Out := s.ciand 0x0701 m { ServeIn.none with reads := rd }
/-- JRN_UNITS. -/
def execJrnUnits (m : MailboxId) (s : State) : Out := s.ciand 0x0702 m ServeIn.none
/-- EVT_SUBSCRIBE. -/
def execEvtSubscribe (m : MailboxId) (s : State) : Out := s.ciand 0x0703 m ServeIn.none
/-- FLT_GET. -/
def execFltGet (m : MailboxId) (s : State) : Out := s.ciand 0x0704 m ServeIn.none
/-- TEST_RUN. -/
def execTestRun (m : MailboxId) (s : State) : Out := s.ciand 0x0801 m ServeIn.none
/-- TEST_RESULT. -/
def execTestResult (m : MailboxId) (s : State) : Out := s.ciand 0x0802 m ServeIn.none
/-- POST_RESULT. -/
def execPostResult (m : MailboxId) (s : State) : Out := s.ciand 0x0803 m ServeIn.none
/-- FW_INFO. -/
def execFwInfo (m : MailboxId) (s : State) : Out := s.ciand 0x0901 m ServeIn.none
/-- FW_STAGE. -/
def execFwStage (m : MailboxId) (s : State) : Out := s.ciand 0x0902 m ServeIn.none
/-- FW_VERIFY. -/
def execFwVerify (m : MailboxId) (s : State) : Out := s.ciand 0x0903 m ServeIn.none
/-- FW_ACTIVATE. -/
def execFwActivate (m : MailboxId) (s : State) : Out := s.ciand 0x0904 m ServeIn.none
/-- SPDM_MSG. -/
def execSpdmMsg (m : MailboxId) (opens : Option (Nat × Bool)) (ends : Option Nat) (s : State) : Out := s.ciand 0x0A01 m { ServeIn.none with opens := opens, ends := ends }
/-- SEC_STATUS. -/
def execSecStatus (m : MailboxId) (s : State) : Out := s.ciand 0x0A02 m ServeIn.none
/-- SEC_ZEROISE. -/
def execSecZeroise (m : MailboxId) (s : State) : Out := s.ciand 0x0A03 m ServeIn.none
/-- FAB_SET_ID. -/
def execFabSetId (m : MailboxId) (s : State) : Out := s.ciand 0x0B01 m ServeIn.none
/-- FAB_ROUTE. -/
def execFabRoute (m : MailboxId) (s : State) : Out := s.ciand 0x0B02 m ServeIn.none
/-- FAB_NEIGHBOURS. -/
def execFabNeighbours (m : MailboxId) (s : State) : Out := s.ciand 0x0B03 m ServeIn.none
/-- FAB_PORTS. -/
def execFabPorts (m : MailboxId) (s : State) : Out := s.ciand 0x0B04 m ServeIn.none
/-- FAB_TIME. -/
def execFabTime (m : MailboxId) (s : State) : Out := s.ciand 0x0B05 m ServeIn.none
/-- FAB_GROUP. -/
def execFabGroup (m : MailboxId) (s : State) : Out := s.ciand 0x0B06 m ServeIn.none
/-- FAB_FORWARD. -/
def execFabForward (m : MailboxId) (s : State) : Out := s.ciand 0x0B07 m ServeIn.none
/-- REC_IMAGE_DONE. -/
def execRecImageDone (m : MailboxId) (s : State) : Out := s.ciand 0x0C01 m ServeIn.none
/-- REC_RESTART. -/
def execRecRestart (m : MailboxId) (s : State) : Out := s.ciand 0x0C02 m ServeIn.none
/-- REC_RESTORE_JOB. -/
def execRecRestoreJob (m : MailboxId) (s : State) : Out := s.ciand 0x0C03 m ServeIn.none
/-- REC_BEGIN. -/
def execRecBegin (m : MailboxId) (x : ImgSet) (s : State) : Out := s.ciand 0x0C04 m { ServeIn.none with img := x }
/-- REC_STATUS. -/
def execRecStatus (m : MailboxId) (s : State) : Out := s.ciand 0x0C05 m ServeIn.none
/-- REC_CLEAR_FLAG. -/
def execRecClearFlag (m : MailboxId) (s : State) : Out := s.ciand 0x0C06 m ServeIn.none

end Sys2Proof.Machine
end

