-- ==== Sys2Proof/Machine/Tick.lean ====
section
/-!
DEFINITION. Sys2Proof/Machine/Tick.lean: firmware's loop (spec/15, R457, R458), the end of operations (R471, R475, R477,
R480), the BMC path (R483 to R485) and the links path (R487 to R489).
-/
namespace Sys2Proof.Machine

/-! ### Timers of one millisecond (R457, step 3) -/

/-- What a whole second adds: the journal clock, sweep intervals, tests due and deferred. -/
def State.second (s : State) : State :=
  let s := s.setJrn { s.jrn with jclock := s.jrn.jclock + 1, msInSec := 0, inSec := 0 }
  let test (x : BlockTest) : BlockTest := { x with dueS := x.dueS - 1, dueFor := if x.due then x.dueFor + 1 else x.dueFor }
  let run := s.dev == .ready || s.dev == .running
  { s with
    tiers := s.tiers.map fun (u, I) => (u, if s.sweepable u then { I with sweepS := I.sweepS - 1 } else I)
    fw := { s.fw with tests := if run then s.fw.tests.map fun (k, x) => (k, test x) else s.fw.tests } }

/-- Journal, drain, commit and reassembly timers. -/
def State.fwTimers (s : State) : State :=
  let j := s.jrn
  let s := s.setJrn { j with msInSec := j.msInSec + 1, stagedMs := if j.staged.isEmpty then 0 else j.stagedMs + 1 }
  let s := if 1000 ≤ s.jrn.msInSec then s.second else s
  let F := s.fw
  { s with
    fw := { F with
      drainMs := if s.dev = .draining then F.drainMs + 1 else F.drainMs
      commitMs := if F.commitLog.isEmpty then 0 else F.commitMs + 1
      reasm := F.reasm.map fun (a, b, t) => (a, b, t + 1) }
    sec := { s.sec with drbgMs := s.sec.drbgMs + 1 } }

/-- Link ports, collective rounds and time synchronisation. -/
def State.fabTimers (s : State) : State :=
  let F := s.fab
  let port (P : Port) : Port :=
    { P with trainMs := P.trainMs + 1, helloMs := P.helloMs + 1, missMs := P.missMs + 1, keyMs := P.keyMs + 1, oldMs := P.oldMs + 1 }
  let ports := ((List.range 32).filter fun p => s.lpState p != lpDisabled).map fun p => (p, port (s.port p))
  let off := F.ports.filter fun (p, _) => s.lpState p == lpDisabled
  let round (r : Round) : Round := if s.ownDone r then { r with waitMs := r.waitMs + 1 } else { r with dataMs := r.dataMs + 1 }
  { s with fab := { F with ports := (ports ++ off).mergeSort (fun x y => decide (x.1 ≤ y.1)), rounds := F.rounds.map round, syncUs := F.syncUs + 1000 } }

/-- Waits of blocks, tiles, allocators, scrubbers and calibration; the region controllers' heartbeat. -/
def State.unitTimers (s : State) : State :=
  let s := s.each (fun s (x : Nat × Block) =>
    match s.doorbellWait x.1 with
    | none => s
    | some (i, _) =>
      let B := s.block x.1
      s.setBlock x.1 { B with queue := B.queue.zipIdx.map fun (q, k) => if k = i then { q with waitMs := q.waitMs + 1 } else q }) s.blocks
  let s := s.each (fun s b =>
    if s.rbit (blockReg b 0xC308) 1 then s.setRf (blockReg b 0xC308) 31 16 (min 65535 (s.rf (blockReg b 0xC308) 31 16 + 1000)) else s) (List.range 256)
  let late (T : Tile) : Bool := T.carries.any fun c => match c.tag with | some g => !T.fenceOk g | none => false
  let queued (l : List AllocReq) : List AllocReq := l.map fun q => { q with waitMs := q.waitMs + 1 }
  let s : State := { s with
    tiles := s.tiles.map fun (t, T) => (t, { T with fenceMs := if late T then T.fenceMs + 1 else 0 })
    allocs := s.allocs.map fun (o, A) => (o, { A with queues := A.queues.map fun (i, l) => (i, queued l) })
    cal := s.cal.map fun (g, C) => (g, { C with waitMs := C.waitMs + 1 }) }
  let s := s.each State.scrubTick (List.range 16)
  s.each (fun s g =>
    if s.rf (railReg g 0) 3 1 = 3 then s.setRf (regionReg g 4) 31 16 (s.rf (regionReg g 4) 31 16 + 1) else s) (List.range 16)

/-- Device time and every timer advance by 1 ms. -/
def State.advance (s : State) : State :=
  let (ns, s) := s.slew
  ((({ s with time := s.time + ns } : State).fwTimers).fabTimers).unitTimers

/-- Pages of the journal that are due, and the commit log (R404, R433, R457 step 4). -/
def State.programDue (s : State) : State :=
  let due (j : Journal) : Bool := decide (32 ≤ j.staged.length) || (!j.staged.isEmpty && decide (100 ≤ j.stagedMs))
  let s := s.each (fun s _ => if due s.jrn then s.setJrn s.jrn.programOne else s) s.jrn.staged
  if s.fw.commitLog.isEmpty || decide (s.fw.commitMs < 100) then s
  else { s with part := s.part.addMarkers s.fw.commitLog, fw := { s.fw with commitLog := [], commitMs := 0 } }

/-- FIRMWARE_TICK: one pass of firmware's loop (R457, R458); `over`: it took longer than 1 ms. -/
def execFirmwareTick (x : ServeIn) (late : Bool) (s : State) : Out :=
  whenever s.mpUp s
    (let s := ((s.takeReports).serveAll x 16).advance.programDue
     if late then { s with fw := { s.fw with overruns := s.fw.overruns + 1 } } else s)

/-! ### Operations end (R471) -/

/-- The staged graph of a job, checked and loaded: the end of JOB_GRAPH_LOAD (R243, R311, R477). -/
def State.endGraphLoad (s : State) (j oph : Nat) : State :=
  let clear (s : State) : State := s.each (fun s g => s.setList j g { (s.slot j).list g with bytes := [], len := 0 }) (List.range 16)
  match s.graphRefused j with
  | some evt =>
    let sl := s.slot j
    let st := if sl.state = .loading then (if sl.graph then JobState.loaded else JobState.admitted) else sl.state
    ((clear (s.setSlot j { sl with state := st })).raiseJ evt 0 0 j 0).opDone oph stRefused evt []
  | none =>
    let s := clear (s.loadGraph j)
    let sl := s.slot j
    (s.setSlot j { sl with state := if sl.state = .loading then JobState.loaded else sl.state }).opDone oph 0 0 []

/-- OPERATION_COMPLETE: a running operation has done its work and completes. A load or adoption has then placed every piece
elsewhere than in the RETIRED tiers that only a residency record names: those hold nothing any more (R41, R140). -/
def execOperationComplete (oph : Nat) (s : State) : Out :=
  match s.fw.ops.find? fun o => o.oph = oph ∧ ¬ o.done with
  | none => .next s
  | some o =>
    let resid : Out :=
      match s.tensor o.arg with
      | none => .next s
      | some x =>
        whenever (s.allHeld o.arg x) s
          (let old := s.tiers.filter fun (u, I) => I.tensor == some o.arg && s.tierState u == stRetired && !s.readEn (u / 8) (u % 8)
           let s := s.each (fun s (u, _) => s.makeFree u) old
           let s := s.setTensor o.arg (some { x with state := 5 })
           let js := (List.range 64).filter fun j => s.admitted j && (s.slot j).tensors.any fun t => t.1 == o.arg
           (s.each (fun s j => (s.makeTwins j).2) js).opDone oph 0 0 [])
    match o.opcode with
    | 0x0304 => resid
    | 0x0305 => resid
    | 0x0405 => .next (s.endGraphLoad o.arg oph)
    | 0x0502 =>
      whenever ((bitsOf 16 o.arg).all fun g => s.calState g == calIdle || s.calState g == calOff) s (s.opDone oph 0 0 [])
    | 0x0801 =>
      whenever ((bitsOf 256 (o.arg / 8)).all fun b => !(s.test b (o.arg % 8)).due) s (s.opDone oph 0 0 [])
    | 0x0903 =>
      let (st, s) := s.verifyStaged (o.arg % 4) (o.arg / 4)
      .next (s.opDone oph (if st = 0 then 0 else if st = 1 then stAuthFail else if st = 2 then stRollback else stInternal) 0 [])
    | _ => .next s

/-- FAB_FORWARD_RESPONSE: the whole response of a forwarded request has come, or MB_BUSY, or the unreachable notice
(`resp` none) (R353, R489). -/
def execFabForwardResponse (src box : Nat) (resp : Option (List Byte)) (s : State) : Out :=
  match s.opsOf [0x0B07] fun a => a == src + 8192 * box with
  | [] => .next s
  | o :: _ =>
    .next (match resp with
      | none => s.opDone o.oph stInternal 0x0510 []
      | some l => if byteN l 12 2 = stMbBusy then s.opDone o.oph stMbBusy 0 l else s.opDone o.oph 0 0 l)

/-! ### The BMC path (R483 to R485) -/

/-- The header that answers a message for which no mailbox is free. -/
def busyReply (msg : List Byte) (box : Nat) : List Byte :=
  response (byteN msg 0 2) (byteN msg 4 4) (bit (byteN msg 2 2) 1) box { status := stMbBusy, detail := 0, oph := 0, data := [] }

/-- A whole message takes a mailbox's area and is posted. -/
def State.post (s : State) (m src : Nat) (msg : List Byte) : State :=
  let B := s.box m
  ((s.setBox m { B with area := [], src := src, filling := false, nextSeg := 0 }).writeArea m 0 (msg.take 61440)).setMb m mbPosted

/-- MCTP_MESSAGE_RECEIVE: the bridge takes packets of a type 0x7F message; when the message is whole, the lowest IDLE
mailbox of 8 to 11 takes it (R484). -/
def execMctpMessageReceive (src : Nat) (bytes : List Byte) (more : Bool) (s : State) : Out :=
  whenever s.mpUp s
    (let old := match s.fw.reasm.find? fun x => x.1 = src with | some (_, l, _) => l | none => []
     let others := s.fw.reasm.filter fun x => x.1 != src
     let msg := old ++ bytes
     if more then { s with fw := { s.fw with reasm := others ++ [(src, msg, 0)] } }
     else
       let s : State := { s with fw := { s.fw with reasm := others } }
       match [8, 9, 10, 11].find? fun m => s.mbState m == mbIdle with
       | some m => s.post m src msg
       | none => (s.emit (.mctp src (busyReply msg 0))).raiseFw 0x0473 0 0)

/-- MCTP_REASSEMBLY_TIMEOUT: packets of a message have stopped for more than 100 ms (R484). -/
def execMctpReassemblyTimeout (src : Nat) (s : State) : Out :=
  match s.fw.reasm.find? fun x => x.1 = src with
  | none => .next s
  | some (_, _, t) =>
    whenever (decide (100 < t)) s
      { s with fw := { s.fw with reasm := s.fw.reasm.filter fun x => x.1 != src } }

/-- An answer that DMTF standards give. -/
def State.mctpAnswer (s : State) (src : Nat) (req : List Byte) : State :=
  let (d, s) := s.draw
  s.emit (.mctp src (Config.mctpReply req d))

/-- MCTP_CONTROL: the MP answers a message of type 0x00 (R483). -/
def execMctpControl (src : Nat) (req : List Byte) (s : State) : Out := whenever s.mpUp s (s.mctpAnswer src req)

/-- Readings of the PLDM sensors (spec/15). -/
def State.sensor (s : State) (id : Nat) : Option Nat :=
  if 1 ≤ id ∧ id ≤ 16 then some (s.rf (thermReg (id - 1) 0) 10 0)
  else if 17 ≤ id ∧ id ≤ 32 then some (s.rf (railReg (id - 17) 4) 15 0)
  else match id with
    | 33 => some (s.rf 0x300000 15 0)
    | 34 => some (s.rf 0x300000 31 16)
    | 35 => some (s.rf 0x300004 15 0)
    | 36 => some (s.rf 0x340000 15 0)
    | 37 => some (s.rf 0x340000 31 16)
    | 38 => some (s.rf 0x340004 15 0)
    | 39 => some s.dev.code
    | 40 => some (b2n s.jrn.flagOpen)
    | _ => none

/-- PLDM_REQUEST: the reading of a sensor, or a base or FRU answer (R483). -/
def execPldmRequest (src : Nat) (sensor : Option Nat) (req : List Byte) (s : State) : Out :=
  whenever s.mpUp s
    (match sensor with
     | none => s.mctpAnswer src req
     | some i => match s.sensor i with | some v => s.emit (.mctp src (leBytes 4 v)) | none => s.mctpAnswer src req)

/-- PLDM_FIRMWARE_UPDATE: a stage of the update agent is FW_STAGE, FW_VERIFY or FW_ACTIVATE of the component's type
(R480, R485). -/
def execPldmFirmwareUpdate (src : Nat) (st : PldmStage) (s : State) : Out :=
  let req (op : Nat) (p : List Byte) : Req := { box := 0, path := 1, src := src, op := op, flags := 0, seq := 0, p := p }
  let q := match st with
    | .transfer c off data => req 0x0902 (leBytes 1 c ++ leBytes 3 0 ++ leBytes 4 off ++ leBytes 4 data.length ++ data)
    | .verify c len => req 0x0903 (leBytes 1 c ++ leBytes 3 0 ++ leBytes 4 len)
    | .activate c => req 0x0904 (leBytes 1 c)
  whenever s.mpUp s
    (let (r, s) := s.answer q ServeIn.none
     s.emit (.mctp src (leBytes 2 r.status)))

/-- PLDM_ACTIVATE_FIRMWARE: self-contained activation is requested: a device reset (R572, R578). -/
def execPldmActivateFirmware (enc : Option Nat) (rd : PartReads) (s : State) : Out :=
  whenever (s.mpUp && !s.resetN) s (s.deviceReset 5 enc rd)

/-- DYNAMIC_ADDRESS_ASSIGNMENT: the BMC assigns the MP's I3C address, of 7 bits (R483). -/
def execDynamicAddressAssignment (addr : Nat) (s : State) : Out :=
  whenever (s.mpUp && decide (addr < 128)) s { s with fw := { s.fw with mctpAddr := some addr } }

/-! ### The links path (R487 to R489) -/

/-- A partial message is discarded: the mailbox is IDLE again. -/
def State.discardPartial (s : State) (m : Nat) : State :=
  let B := s.box m
  (s.setBox m { B with filling := false, nextSeg := 0, area := [] }).raiseFw 0x0470 0 0

/-- A segment is kept; the last one posts the request. `link`: the port of a link-local message. -/
def State.takeSegment (s : State) (m : Nat) (link : Option Nat) (src i : Nat) (last : Bool) (l : List Byte) : State :=
  let B := s.box m
  let B := if i = 0 then { B with area := [], src := src, link := link } else B
  let s := (s.setBox m { B with filling := !last, nextSeg := if last then 0 else i + 1 }).writeArea m (4096 * i) l
  if last then s.setMb m mbPosted else s

/-- MGMT_SEGMENT_RECEIVE: a segment of a Ciand message arrives from a device (R487 to R489), routed or link-local on a port;
without a valid device ID only a link-local one is accepted, and its answer is link-local (R351). -/
def execMgmtSegmentReceive (x : MgmtFrom) (tag : Nat) (payload : List Byte) (s : State) : Out :=
  let lk := x.link.map fun p => p.val
  let src := x.dev
  let m := 12 + tag % 4
  let last := bit tag 2
  let i := tag / 8 % 8192
  let B := s.box m
  whenever (s.mpUp && (s.idValid || x.link.isSome) && decide (src < 8192) && decide (tag < 65536) && decide (payload.length ≤ 4096)) s
    (if B.filling && B.src == src && B.link == lk then
       (if i = B.nextSeg ∧ i < 15 then s.takeSegment m lk src i last payload else s.discardPartial m)
     else if i = 0 then
       (if s.mbState m = mbIdle ∧ B.filling = false then s.takeSegment m lk src 0 last payload
        else ((s.sendSegments lk src m 1 0 (busyReply payload m)).2).raiseFw 0x0473 0 0)
     else s.raiseFw 0x0470 0 0)

end Sys2Proof.Machine
end

