-- ==== Sys2Proof/Machine/Dispatch.lean ====
section
/-!
DEFINITION. Sys2Proof/Machine/Dispatch.lean: which meaning each command has.
-/
namespace Sys2Proof.Machine

def exec (i : Instr) (s : State) : Host.Outcome State Fault Refusal :=
  match i with
  | .powerApplied vin enc rd => Sys2Proof.Machine.execPowerApplied vin enc rd s
  | .powerRemoved => Sys2Proof.Machine.execPowerRemoved s
  | .resetNAssert => Sys2Proof.Machine.execResetNAssert s
  | .resetNRelease enc rd => Sys2Proof.Machine.execResetNRelease enc rd s
  | .bootComplete outs => Sys2Proof.Machine.execBootComplete outs s
  | .selfTestComplete outs => Sys2Proof.Machine.execSelfTestComplete outs s
  | .lockstepMiscompare enc rd => Sys2Proof.Machine.execLockstepMiscompare enc rd s
  | .watchdogExpiry enc rd => Sys2Proof.Machine.execWatchdogExpiry enc rd s
  | .hostDieReset => Sys2Proof.Machine.execHostDieReset s
  | .protectiveShutdown cause => Sys2Proof.Machine.execProtectiveShutdown cause s
  | .inputVoltageSample mv us => Sys2Proof.Machine.execInputVoltageSample mv us s
  | .firmwareTick x late => Sys2Proof.Machine.execFirmwareTick x late s
  | .drainTimeout j => Sys2Proof.Machine.execDrainTimeout j s
  | .drainComplete => Sys2Proof.Machine.execDrainComplete s
  | .tileReadStart t errs => Sys2Proof.Machine.execReadStart t errs s
  | .phaseLatch t pmon => Sys2Proof.Machine.execPhaseLatch t pmon s
  | .tileReadComplete t => Sys2Proof.Machine.execReadComplete t s
  | .dsliceCombine t => Sys2Proof.Machine.execDsliceCombine t s
  | .programPulse t => Sys2Proof.Machine.execPulse t s
  | .verifyRead t => Sys2Proof.Machine.execRowVerify t s
  | .sweepRead t => Sys2Proof.Machine.execSweep t s
  | .sweepDue u => Sys2Proof.Machine.execSweepDue u s
  | .eraseSubPulse t => Sys2Proof.Machine.execEraseSubPulse t s
  | .eraseVerify t => Sys2Proof.Machine.execEraseEnd t s
  | .fenceTimeout t => Sys2Proof.Machine.execFenceTimeout t s
  | .coppiceSwap t => Sys2Proof.Machine.execSwap t s
  | .tierLoadDone u => Sys2Proof.Machine.execLoadDone u s
  | .adoptionSweepDone u => Sys2Proof.Machine.execAdoptDone u s
  | .thermalSensorSample g readings => Sys2Proof.Machine.execThermalSensorSample g readings s
  | .updateTask b errs => Sys2Proof.Machine.execUpdateTask b errs s
  | .matmulStart b errs => Sys2Proof.Machine.execMatmulStart b errs s
  | .matmulCheckPass b f => Sys2Proof.Machine.execMatmulCheckPass b f s
  | .matmulWritePass b => Sys2Proof.Machine.execMatmulWritePass b s
  | .matmulWriteDone b => Sys2Proof.Machine.execMatmulWriteDone b s
  | .veNop b => Sys2Proof.Machine.execVeNop b s
  | .veLd b errs => Sys2Proof.Machine.execVeLd b errs s
  | .veSt b errs f => Sys2Proof.Machine.execVeSt b errs f s
  | .veLds b errs => Sys2Proof.Machine.execVeLds b errs s
  | .veSts b errs => Sys2Proof.Machine.execVeSts b errs s
  | .veSeta b => Sys2Proof.Machine.execVeSeta b s
  | .veAdda b => Sys2Proof.Machine.execVeAdda b s
  | .veSets b => Sys2Proof.Machine.execVeSets b s
  | .veSetsl b => Sys2Proof.Machine.execVeSetsl b s
  | .veFadd b f => Sys2Proof.Machine.execVeFadd b f s
  | .veFsub b f => Sys2Proof.Machine.execVeFsub b f s
  | .veFmul b f => Sys2Proof.Machine.execVeFmul b f s
  | .veFma b f => Sys2Proof.Machine.execVeFma b f s
  | .veFmax b f => Sys2Proof.Machine.execVeFmax b f s
  | .veFmin b f => Sys2Proof.Machine.execVeFmin b f s
  | .veFabs b f => Sys2Proof.Machine.execVeFabs b f s
  | .veFneg b f => Sys2Proof.Machine.execVeFneg b f s
  | .veFscale b f => Sys2Proof.Machine.execVeFscale b f s
  | .veFrcp b f => Sys2Proof.Machine.execVeFrcp b f s
  | .veFrsq b f => Sys2Proof.Machine.execVeFrsq b f s
  | .veFexp2 b f => Sys2Proof.Machine.execVeFexp2 b f s
  | .veFlog2 b f => Sys2Proof.Machine.execVeFlog2 b f s
  | .veFtanh b f => Sys2Proof.Machine.execVeFtanh b f s
  | .veFsigm b f => Sys2Proof.Machine.execVeFsigm b f s
  | .veFcmplt b f => Sys2Proof.Machine.execVeFcmplt b f s
  | .veFcmple b f => Sys2Proof.Machine.execVeFcmple b f s
  | .veFcmpeq b f => Sys2Proof.Machine.execVeFcmpeq b f s
  | .veSel b f => Sys2Proof.Machine.execVeSel b f s
  | .veIadd b f => Sys2Proof.Machine.execVeIadd b f s
  | .veIsub b f => Sys2Proof.Machine.execVeIsub b f s
  | .veImul b f => Sys2Proof.Machine.execVeImul b f s
  | .veIand b f => Sys2Proof.Machine.execVeIand b f s
  | .veIor b f => Sys2Proof.Machine.execVeIor b f s
  | .veIxor b f => Sys2Proof.Machine.execVeIxor b f s
  | .veIshl b f => Sys2Proof.Machine.execVeIshl b f s
  | .veIshra b f => Sys2Proof.Machine.execVeIshra b f s
  | .veIshrl b f => Sys2Proof.Machine.execVeIshrl b f s
  | .veIcmpltu b f => Sys2Proof.Machine.execVeIcmpltu b f s
  | .veCvtw b f => Sys2Proof.Machine.execVeCvtw b f s
  | .veCvtn b f => Sys2Proof.Machine.execVeCvtn b f s
  | .veCvti b f => Sys2Proof.Machine.execVeCvti b f s
  | .veCvtfi b f => Sys2Proof.Machine.execVeCvtfi b f s
  | .veRsumr b f => Sys2Proof.Machine.execVeRsumr b f s
  | .veRsumc b f => Sys2Proof.Machine.execVeRsumc b f s
  | .veRsums b f => Sys2Proof.Machine.execVeRsums b f s
  | .veRmaxr b f => Sys2Proof.Machine.execVeRmaxr b f s
  | .veRmaxc b f => Sys2Proof.Machine.execVeRmaxc b f s
  | .veRamaxr b f => Sys2Proof.Machine.execVeRamaxr b f s
  | .veRamaxc b f => Sys2Proof.Machine.execVeRamaxc b f s
  | .veCmb b f => Sys2Proof.Machine.execVeCmb b f s
  | .veFacc b f => Sys2Proof.Machine.execVeFacc b f s
  | .veFmaxacc b f => Sys2Proof.Machine.execVeFmaxacc b f s
  | .veSpr b => Sys2Proof.Machine.execVeSpr b s
  | .veLoop b => Sys2Proof.Machine.execVeLoop b s
  | .veEnd b => Sys2Proof.Machine.execVeEnd b s
  | .veSync b => Sys2Proof.Machine.execVeSync b s
  | .illegalInstruction b => Sys2Proof.Machine.execIllegalInstruction b s
  | .nanReport j n => Sys2Proof.Machine.execNanReport j n s
  | .nanTrapClear w a v => Sys2Proof.Machine.execNanTrapClear w a v s
  | .veTrapClear w a v => Sys2Proof.Machine.execVeTrapClear w a v s
  | .numModeWrite w a v => Sys2Proof.Machine.execNumModeWrite w a v s
  | .zgwWrite w a v => Sys2Proof.Machine.execZgwWrite w a v s
  | .tsContextWrite w a v => Sys2Proof.Machine.execTsContextWrite w a v s
  | .taskDeliver g => Sys2Proof.Machine.execTaskDeliver g s
  | .taskIssue b => Sys2Proof.Machine.execTaskIssue b s
  | .taskComplete b num => Sys2Proof.Machine.execTaskComplete b num s
  | .creditSignal b c n => Sys2Proof.Machine.execCreditSignal b c n s
  | .controlNop b => Sys2Proof.Machine.execControlNop b s
  | .mbAdmit b => Sys2Proof.Machine.execMbAdmit b s
  | .mbAbort b => Sys2Proof.Machine.execMbAbort b s
  | .arrive b => Sys2Proof.Machine.execArrive b s
  | .clearingLineRelease l => Sys2Proof.Machine.execClearingLineRelease l s
  | .clEnWrite w a v => Sys2Proof.Machine.execClEnWrite w a v s
  | .clMparriveWrite w a v => Sys2Proof.Machine.execClMparriveWrite w a v s
  | .testWindowOpen b => Sys2Proof.Machine.execTestWindowOpen b s
  | .testWindowOverrun b => Sys2Proof.Machine.execTestWindowOverrun b s
  | .seqWinWrite w a v => Sys2Proof.Machine.execSeqWinWrite w a v s
  | .moveTask b mover errs => Sys2Proof.Machine.execMove b mover errs s
  | .tokenGrant g => Sys2Proof.Machine.execTokenGrant g s
  | .tokenLotReturn g => Sys2Proof.Machine.execTokenLotReturn g s
  | .allocTask b => Sys2Proof.Machine.execAlloc b s
  | .freeTask b => Sys2Proof.Machine.execFree b s
  | .queryTask h => Sys2Proof.Machine.execQuery h s
  | .allocQueueServe owner queue => Sys2Proof.Machine.execAllocQueueServe owner queue s
  | .allocTimeout owner queue => Sys2Proof.Machine.execAllocTimeout owner queue s
  | .allocZeroFillDone h => Sys2Proof.Machine.execAllocZeroFillDone h s
  | .offloadComplete j h => Sys2Proof.Machine.execOffloadComplete j h s
  | .offloadRetry j h => Sys2Proof.Machine.execOffloadRetry j h s
  | .prefetchComplete j h => Sys2Proof.Machine.execPrefetchComplete j h s
  | .prefetchPageReread j h page => Sys2Proof.Machine.execPrefetchPageReread j h page s
  | .hbmScrub g page errs => Sys2Proof.Machine.execHbmScrub g page errs s
  | .cxlMemRead hdm errs => Sys2Proof.Machine.execCxlMemRead hdm errs s
  | .cxlMemWrite hdm data be errs => Sys2Proof.Machine.execCxlMemWrite hdm data be errs s
  | .cxlSnoop => Sys2Proof.Machine.execCxlSnoop s
  | .hwinRegisterWrite w a v => Sys2Proof.Machine.execHwinRegisterWrite w a v s
  | .windowDrainDone w => Sys2Proof.Machine.execWindowDrainDone w s
  | .reduceScatter b errs => Sys2Proof.Machine.execReduceScatter b errs s
  | .allGather b errs => Sys2Proof.Machine.execAllGather b errs s
  | .allReduce b errs => Sys2Proof.Machine.execAllReduce b errs s
  | .beat b => Sys2Proof.Machine.execBeat b s
  | .chdrReceive h => Sys2Proof.Machine.execChdrReceive h s
  | .cdataReceive d => Sys2Proof.Machine.execCdataReceive d s
  | .stageDataLost n => Sys2Proof.Machine.execStageDataLost n s
  | .blameNotice => Sys2Proof.Machine.execBlameNotice s
  | .beatSlotBoundary now => Sys2Proof.Machine.execBeatSlotBoundary now s
  | .beatReceive src payload => Sys2Proof.Machine.execBeatReceive src payload s
  | .verdictApply n => Sys2Proof.Machine.execVerdictApply n s
  | .singleDeviceVerdict j => Sys2Proof.Machine.execSingleDeviceVerdict j s
  | .beatTimeout n => Sys2Proof.Machine.execBeatTimeout n s
  | .redundancyCompare b num => Sys2Proof.Machine.execRedundancyCompare b num s
  | .stepCommit j => Sys2Proof.Machine.execStepCommit j s
  | .commitLogProgram => Sys2Proof.Machine.execCommitLogProgram s
  | .imageCopyDone j u => Sys2Proof.Machine.execImageCopyDone j u s
  | .restoreComplete j => Sys2Proof.Machine.execRestoreComplete j s
  | .egressGrad b errs => Sys2Proof.Machine.execEgressGrad b errs s
  | .egressScan b errs => Sys2Proof.Machine.execEgressScan b errs s
  | .egressSend b errs => Sys2Proof.Machine.execEgressSend b errs s
  | .egressNormOut b => Sys2Proof.Machine.execEgressNormOut b s
  | .egressClipfact b errs => Sys2Proof.Machine.execEgressClipfact b errs s
  | .egressData b errs => Sys2Proof.Machine.execEgressData b errs s
  | .ingressDelta b bad => Sys2Proof.Machine.execIngressDelta b bad s
  | .ingressData b bad => Sys2Proof.Machine.execIngressData b bad s
  | .ingressCrcgen b errs => Sys2Proof.Machine.execIngressCrcgen b errs s
  | .xfDbellWrite w a v => Sys2Proof.Machine.execXfDbellWrite w a v s
  | .ingressTimeout b => Sys2Proof.Machine.execIngressTimeout b s
  | .ucieLinkDown => Sys2Proof.Machine.execUcieLinkDown s
  | .ucieTrainingDone good repaired => Sys2Proof.Machine.execUcieTrainingDone good repaired s
  | .linkCfgWrite w a v => Sys2Proof.Machine.execLinkCfgWrite w a v s
  | .linkTrainingDone p lanes => Sys2Proof.Machine.execLinkTrainingDone p lanes s
  | .linkTrainingRetry p => Sys2Proof.Machine.execLinkTrainingRetry p s
  | .helloSend p => Sys2Proof.Machine.execHelloSend p s
  | .helloReceive p payload => Sys2Proof.Machine.execHelloReceive p payload s
  | .helloTimeout p => Sys2Proof.Machine.execHelloTimeout p s
  | .flitAlignmentLoss p => Sys2Proof.Machine.execFlitAlignmentLoss p s
  | .flitReceive p f => Sys2Proof.Machine.execFlitReceive p f s
  | .messageRoute p src dst cls hops seq tag local' payload => Sys2Proof.Machine.execMessageRoute p src dst cls hops seq tag local' payload s
  | .timeSyncInterval => Sys2Proof.Machine.execTimeSyncInterval s
  | .timeMessage t1 t2 t3 t4 => Sys2Proof.Machine.execTimeMessage t1 t2 t3 t4 s
  | .linkKeyEstablished p => Sys2Proof.Machine.execLinkKeyEstablished p s
  | .linkKeyTimeout p failed => Sys2Proof.Machine.execLinkKeyTimeout p failed s
  | .linkKeyRetry p => Sys2Proof.Machine.execLinkKeyRetry p s
  | .linkRekey p => Sys2Proof.Machine.execLinkRekey p s
  | .oldKeyErase p => Sys2Proof.Machine.execOldKeyErase p s
  | .journalPageProgram => Sys2Proof.Machine.execJournalPageProgram s
  | .journalCompaction rd => Sys2Proof.Machine.execJournalCompaction rd s
  | .journalBulkCompaction rd => Sys2Proof.Machine.execJournalBulkCompaction rd s
  | .aggregatorWindowEnd g => Sys2Proof.Machine.execAggregatorWindowEnd g s
  | .rateSummary => Sys2Proof.Machine.execRateSummary s
  | .testDue b test => Sys2Proof.Machine.execTestDue b test s
  | .testForced b test => Sys2Proof.Machine.execTestForced b test s
  | .inFieldTestDone b test pass unit => Sys2Proof.Machine.execInFieldTestDone b test pass unit s
  | .railCtlWrite w a v => Sys2Proof.Machine.execRailCtlWrite w a v s
  | .inrushGrant g => Sys2Proof.Machine.execInrushGrant g s
  | .inrushGrantTimeout g => Sys2Proof.Machine.execInrushGrantTimeout g s
  | .domainRampDone d => Sys2Proof.Machine.execDomainRampDone d s
  | .domainRampDownDone d => Sys2Proof.Machine.execDomainRampDownDone d s
  | .clkTargetWrite w a v => Sys2Proof.Machine.execClkTargetWrite w a v s
  | .capLoopTick mw curr rails => Sys2Proof.Machine.execCapLoopTick mw curr rails s
  | .pwrCapWrite w a v => Sys2Proof.Machine.execPwrCapWrite w a v s
  | .voltageSensorSample g readings => Sys2Proof.Machine.execVoltageSensorSample g readings s
  | .railMinClear w a v => Sys2Proof.Machine.execRailMinClear w a v s
  | .coolantSample flow inlet outlet => Sys2Proof.Machine.execCoolantSample flow inlet outlet s
  | .regionTempEval g => Sys2Proof.Machine.execRegionTempEval g s
  | .calRunWrite w a v => Sys2Proof.Machine.execCalRunWrite w a v s
  | .calibrationMeasurement t meas => Sys2Proof.Machine.execCalibrationMeasurement t meas s
  | .gradualTap t => Sys2Proof.Machine.execGradualTap t s
  | .stepModeTaps t => Sys2Proof.Machine.execStepModeTaps t s
  | .stepModeFallback g => Sys2Proof.Machine.execStepModeFallback g s
  | .inServiceRecord g => Sys2Proof.Machine.execInServiceRecord g s
  | .drbgReseed => Sys2Proof.Machine.execDrbgReseed s
  | .noiseSourceFailure test => Sys2Proof.Machine.execNoiseSourceFailure test s
  | .spdmMctpMessage q => Sys2Proof.Machine.execSpdmMctpMessage q s
  | .vendorDefinedRequest src sess ek => Sys2Proof.Machine.execVendorDefinedRequest src sess ek s
  | .mailboxRing w a v => Sys2Proof.Machine.execMailboxRing w a v s
  | .mailboxAreaWrite w a v => Sys2Proof.Machine.execMailboxAreaWrite w a v s
  | .mailboxRelease w a v => Sys2Proof.Machine.execMailboxRelease w a v s
  | .mctpMessageReceive src bytes more => Sys2Proof.Machine.execMctpMessageReceive src bytes more s
  | .mctpReassemblyTimeout src => Sys2Proof.Machine.execMctpReassemblyTimeout src s
  | .mctpControl src req => Sys2Proof.Machine.execMctpControl src req s
  | .pldmRequest src sensor req => Sys2Proof.Machine.execPldmRequest src sensor req s
  | .pldmFirmwareUpdate src st => Sys2Proof.Machine.execPldmFirmwareUpdate src st s
  | .pldmActivateFirmware enc rd => Sys2Proof.Machine.execPldmActivateFirmware enc rd s
  | .mgmtSegmentReceive src tag payload => Sys2Proof.Machine.execMgmtSegmentReceive src tag payload s
  | .operationComplete oph => Sys2Proof.Machine.execOperationComplete oph s
  | .fabForwardResponse src box resp => Sys2Proof.Machine.execFabForwardResponse src box resp s
  | .getInfo m => Sys2Proof.Machine.execGetInfo m s
  | .getState m => Sys2Proof.Machine.execGetState m s
  | .getTiers m => Sys2Proof.Machine.execGetTiers m s
  | .getJobs m => Sys2Proof.Machine.execGetJobs m s
  | .opStatus m => Sys2Proof.Machine.execOpStatus m s
  | .evtRead m => Sys2Proof.Machine.execEvtRead m s
  | .cfgGet m => Sys2Proof.Machine.execCfgGet m s
  | .cfgStage m => Sys2Proof.Machine.execCfgStage m s
  | .cfgCommit m => Sys2Proof.Machine.execCfgCommit m s
  | .localSet m => Sys2Proof.Machine.execLocalSet m s
  | .localGet m => Sys2Proof.Machine.execLocalGet m s
  | .resDefine m => Sys2Proof.Machine.execResDefine m s
  | .resPieces m => Sys2Proof.Machine.execResPieces m s
  | .resQuery m => Sys2Proof.Machine.execResQuery m s
  | .resLoad m => Sys2Proof.Machine.execResLoad m s
  | .resAdopt m => Sys2Proof.Machine.execResAdopt m s
  | .resRelease m => Sys2Proof.Machine.execResRelease m s
  | .resDiscard m => Sys2Proof.Machine.execResDiscard m s
  | .jobAdmit m => Sys2Proof.Machine.execJobAdmit m s
  | .jobTensors m => Sys2Proof.Machine.execJobTensors m s
  | .jobWindow m => Sys2Proof.Machine.execJobWindow m s
  | .jobGraphStage m => Sys2Proof.Machine.execJobGraphStage m s
  | .jobGraphLoad m => Sys2Proof.Machine.execJobGraphLoad m s
  | .jobStart m => Sys2Proof.Machine.execJobStart m s
  | .jobStop m => Sys2Proof.Machine.execJobStop m s
  | .jobResume m => Sys2Proof.Machine.execJobResume m s
  | .jobStatus m => Sys2Proof.Machine.execJobStatus m s
  | .jobEnd m => Sys2Proof.Machine.execJobEnd m s
  | .calStatus m => Sys2Proof.Machine.execCalStatus m s
  | .calRun m => Sys2Proof.Machine.execCalRun m s
  | .calRead m rd => Sys2Proof.Machine.execCalRead m rd s
  | .pwrGet m => Sys2Proof.Machine.execPwrGet m s
  | .pwrLimit m => Sys2Proof.Machine.execPwrLimit m s
  | .pwrClearMin m => Sys2Proof.Machine.execPwrClearMin m s
  | .jrnRead m rd => Sys2Proof.Machine.execJrnRead m rd s
  | .jrnUnits m => Sys2Proof.Machine.execJrnUnits m s
  | .evtSubscribe m => Sys2Proof.Machine.execEvtSubscribe m s
  | .fltGet m => Sys2Proof.Machine.execFltGet m s
  | .testRun m => Sys2Proof.Machine.execTestRun m s
  | .testResult m => Sys2Proof.Machine.execTestResult m s
  | .postResult m => Sys2Proof.Machine.execPostResult m s
  | .fwInfo m => Sys2Proof.Machine.execFwInfo m s
  | .fwStage m => Sys2Proof.Machine.execFwStage m s
  | .fwVerify m => Sys2Proof.Machine.execFwVerify m s
  | .fwActivate m => Sys2Proof.Machine.execFwActivate m s
  | .spdmMsg m opens ends => Sys2Proof.Machine.execSpdmMsg m opens ends s
  | .secStatus m => Sys2Proof.Machine.execSecStatus m s
  | .secZeroise m => Sys2Proof.Machine.execSecZeroise m s
  | .fabSetId m => Sys2Proof.Machine.execFabSetId m s
  | .fabRoute m => Sys2Proof.Machine.execFabRoute m s
  | .fabNeighbours m => Sys2Proof.Machine.execFabNeighbours m s
  | .fabPorts m => Sys2Proof.Machine.execFabPorts m s
  | .fabTime m => Sys2Proof.Machine.execFabTime m s
  | .fabGroup m => Sys2Proof.Machine.execFabGroup m s
  | .fabForward m => Sys2Proof.Machine.execFabForward m s
  | .recImageDone m => Sys2Proof.Machine.execRecImageDone m s
  | .recRestart m => Sys2Proof.Machine.execRecRestart m s
  | .recRestoreJob m => Sys2Proof.Machine.execRecRestoreJob m s
  | .recBegin m x => Sys2Proof.Machine.execRecBegin m x s
  | .recStatus m => Sys2Proof.Machine.execRecStatus m s
  | .recClearFlag m => Sys2Proof.Machine.execRecClearFlag m s
  | .chipUnlockWrite w a v => Sys2Proof.Machine.execChipUnlockWrite w a v s
  | .keyLockTimeout w => Sys2Proof.Machine.execKeyLockTimeout w s
  | .regionBroadcastWrite w a v => Sys2Proof.Machine.execRegionBroadcastWrite w a v s
  | .blockBroadcastWrite w a v => Sys2Proof.Machine.execBlockBroadcastWrite w a v s
  | .crossingTimeout w a v => Sys2Proof.Machine.execCrossingTimeout w a v s
  | .registerReadRefused w a => Sys2Proof.Machine.execRegisterReadRefused w a s
  | .rcRegisterRead w a => Sys2Proof.Machine.execRcRegisterRead w a s
  | .tierUpkeepWrite w a v => Sys2Proof.Machine.execTierUpkeepWrite w a v s
  | .vePstoreWrite w a v => Sys2Proof.Machine.execVePstoreWrite w a v s
  | .registerWrite w a v => Sys2Proof.Machine.execRegisterWrite w a v s
  | .lowWordCaptureRead w a => Sys2Proof.Machine.execLowWordCaptureRead w a s
  | .dynamicAddressAssignment addr => Sys2Proof.Machine.execDynamicAddressAssignment addr s

end Sys2Proof.Machine
end

