-- ==== Sys2Proof/WellFormed.lean ====
section
/-!
DEFINITION. Sys2Proof/WellFormed.lean: the ranges of the operands that a command brings from outside (widths of fields,
lengths of messages, numbers of sensors). `Instr.wf` says that a command could come from the hardware's surroundings; the
meanings do not rest on it.
-/
namespace Sys2Proof

/-- A failed enclave self-test has a number below 255 (SEC_STATUS). -/
def encTestOk (enc : Option Nat) : Bool := match enc with | some k => k < 255 | none => true

/-- Self-tests 1 to 14 (R579), unit kinds 0 to 6 (R390). -/
def outsOk (l : List TestOutcome) : Bool := l.all fun o => 1 ≤ o.test && o.test ≤ 14 && o.kind ≤ 6 && o.unit < 2 ^ 32

/-- A storage error lies in one of 16 stacks of 96 GiB or 256 block stores of 6 MiB. -/
def errsOk (l : List MemErr) : Bool :=
  l.all fun e => if e.hbm then e.unit < 16 && e.addr < 103079215104 else e.unit < 256 && e.addr < 6291456

def veFaultOk (f : VeFault) : Bool := f.res ≤ 2 && f.ecc ≤ 2 && f.lane < 512
def matFaultOk (f : MatFault) : Bool := f.kind ≤ 3 && f.m < 128 && f.n < 128

/-- An access of at most 8 bytes within BAR0's 64 MiB. -/
def shapeOk (a : Access) : Bool := a.off < 2 ^ 26 && 1 ≤ a.bytes && a.bytes ≤ 8 && a.be < 2 ^ a.bytes

def valueOk (v : Option Nat) : Bool := match v with | some n => n < 2 ^ 32 | none => true

/-- Credits of four virtual channels. -/
def flitOk (f : FlitIn) : Bool := f.credits.length == 4

/-- Fields of a stage header fit their widths (spec/11). -/
def chdrOk (h : Chdr) : Bool :=
  h.fjob < 2 ^ 32 && h.group < 16 && h.rail < 4 && h.step < 2 ^ 32 && h.round < 2 ^ 16 && h.attempt < 256 && h.stage < 2 ^ 16 && h.op < 8

def cdataOk (d : Cdata) : Bool := d.fjob < 2 ^ 32 && d.group < 16 && d.rail < 4 && d.step < 2 ^ 32 && d.data.length ≤ 65536

/-- Image entries name a tile tier, a row and a column, and hold 4 bytes. -/
def imgRecOk (x : ImgRec) : Bool := x.unit < 131072 && x.row < 1024 && x.col < 1024 && x.val < 2 ^ 32
def imgOk (x : ImgSet) : Bool := x.base.all imgRecOk && x.img.all imgRecOk && x.segs.all fun e => e < 2 ^ 64
/-- The partition has 65,536 pages; the journal area 768 erase blocks of 32 pages (R53). -/
def readsOk (x : PartReads) : Bool := x.fixed ≤ 65536 && x.failed ≤ 65536 && (x.lost.all fun p => p.1 < 768 && p.2 < 32) &&
  x.other.all fun p => p.1 < 5 && p.2.1 < 256 && p.2.2 < 32

def serveOk (x : ServeIn) : Bool := imgOk x.img && readsOk x.reads

/-- An SPDM request has a code; a secured message is no SPDM request. -/
def spdmOk (q : SpdmIn) : Bool := q.data.isSome || 2 ≤ q.bytes.length

/-- Components 0 to 3 (R485). -/
def pldmOk (p : PldmStage) : Bool :=
  match p with
  | .transfer c off data => c < 4 && off + data.length < 2 ^ 32
  | .verify c len => c < 4 && len < 2 ^ 32
  | .activate c => c < 4

/-- Sensors 1 to 40. -/
def sensorOk (i : Option Nat) : Bool := match i with | some n => 1 ≤ n && n ≤ 40 | none => true

/-- A response is a header of 32 bytes and a payload. -/
def respOk (l : Option (List Byte)) : Bool := match l with | some b => 32 ≤ b.length && b.length ≤ 61440 | none => true

/-- The command is one that the device's surroundings can give. -/
def Instr.wf (i : Instr) : Bool :=
  match i with
  | .powerApplied vin enc rd => vin < 65536 && encTestOk enc && readsOk rd
  | .powerRemoved => true
  | .resetNAssert => true
  | .resetNRelease enc rd => encTestOk enc && readsOk rd
  | .bootComplete outs => outsOk outs
  | .selfTestComplete outs => outsOk outs
  | .lockstepMiscompare enc rd => encTestOk enc && readsOk rd
  | .watchdogExpiry enc rd => encTestOk enc && readsOk rd
  | .hostDieReset => true
  | .protectiveShutdown cause => cause < 5
  | .inputVoltageSample mv _ => mv < 65536
  | .firmwareTick x _ => serveOk x
  | .drainTimeout _ => true
  | .drainComplete => true
  | .tileReadStart _ errs => errsOk errs
  | .phaseLatch _ _ => true
  | .tileReadComplete _ => true
  | .dsliceCombine _ => true
  | .programPulse x => errsOk x.errs
  | .verifyRead x => errsOk x.errs
  | .sweepRead x => errsOk x.errs
  | .sweepDue _ => true
  | .eraseSubPulse _ => true
  | .eraseVerify _ => true
  | .fenceTimeout _ => true
  | .coppiceSwap _ => true
  | .tierLoadDone _ => true
  | .adoptionSweepDone _ => true
  | .thermalSensorSample _ readings => readings.length == 16 && readings.all (fun x => x < 2048)
  | .updateTask _ errs => errsOk errs
  | .matmulStart _ errs => errsOk errs
  | .matmulCheckPass _ f => matFaultOk f
  | .matmulWritePass _ => true
  | .matmulWriteDone x => errsOk x.errs
  | .veNop _ => true
  | .veLd _ errs => errsOk errs
  | .veSt _ errs f => errsOk errs && veFaultOk f
  | .veLds _ errs => errsOk errs
  | .veSts _ errs => errsOk errs
  | .veSeta _ => true
  | .veAdda _ => true
  | .veSets _ => true
  | .veSetsl _ => true
  | .veFadd _ f => veFaultOk f
  | .veFsub _ f => veFaultOk f
  | .veFmul _ f => veFaultOk f
  | .veFma _ f => veFaultOk f
  | .veFmax _ f => veFaultOk f
  | .veFmin _ f => veFaultOk f
  | .veFabs _ f => veFaultOk f
  | .veFneg _ f => veFaultOk f
  | .veFscale _ f => veFaultOk f
  | .veFrcp _ f => veFaultOk f
  | .veFrsq _ f => veFaultOk f
  | .veFexp2 _ f => veFaultOk f
  | .veFlog2 _ f => veFaultOk f
  | .veFtanh _ f => veFaultOk f
  | .veFsigm _ f => veFaultOk f
  | .veFcmplt _ f => veFaultOk f
  | .veFcmple _ f => veFaultOk f
  | .veFcmpeq _ f => veFaultOk f
  | .veSel _ f => veFaultOk f
  | .veIadd _ f => veFaultOk f
  | .veIsub _ f => veFaultOk f
  | .veImul _ f => veFaultOk f
  | .veIand _ f => veFaultOk f
  | .veIor _ f => veFaultOk f
  | .veIxor _ f => veFaultOk f
  | .veIshl _ f => veFaultOk f
  | .veIshra _ f => veFaultOk f
  | .veIshrl _ f => veFaultOk f
  | .veIcmpltu _ f => veFaultOk f
  | .veCvtw _ f => veFaultOk f
  | .veCvtn _ f => veFaultOk f
  | .veCvti _ f => veFaultOk f
  | .veCvtfi _ f => veFaultOk f
  | .veRsumr _ f => veFaultOk f
  | .veRsumc _ f => veFaultOk f
  | .veRsums _ f => veFaultOk f
  | .veRmaxr _ f => veFaultOk f
  | .veRmaxc _ f => veFaultOk f
  | .veRamaxr _ f => veFaultOk f
  | .veRamaxc _ f => veFaultOk f
  | .veCmb _ f => veFaultOk f
  | .veFacc _ f => veFaultOk f
  | .veFmaxacc _ f => veFaultOk f
  | .veSpr _ => true
  | .veLoop _ => true
  | .veEnd x => errsOk x.errs
  | .veSync _ => true
  | .illegalInstruction _ => true
  | .nanReport _ _ => true
  | .nanTrapClear _ a v => shapeOk a && v < 2 ^ 32
  | .veTrapClear _ a v => shapeOk a && v < 2 ^ 32
  | .numModeWrite _ a v => shapeOk a && v < 2 ^ 32
  | .zgwWrite _ a v => shapeOk a && v < 2 ^ 32
  | .tsContextWrite _ a v => shapeOk a && v < 2 ^ 32
  | .taskDeliver _ => true
  | .taskIssue _ => true
  | .taskComplete _ _ => true
  | .creditSignal _ _ _ => true
  | .controlNop _ => true
  | .mbAdmit _ => true
  | .mbAbort _ => true
  | .arrive _ => true
  | .clearingLineRelease _ => true
  | .clEnWrite _ a v => shapeOk a && v < 2 ^ 32
  | .clMparriveWrite _ a v => shapeOk a && v < 2 ^ 32
  | .testWindowOpen _ => true
  | .testWindowOverrun _ => true
  | .seqWinWrite _ a v => shapeOk a && v < 2 ^ 32
  | .moveTask _ _ errs => errsOk errs
  | .tokenGrant x => errsOk x.errs
  | .tokenLotReturn _ => true
  | .allocTask _ => true
  | .freeTask _ => true
  | .queryTask h => h < 2 ^ 32
  | .allocQueueServe owner queue => owner < 17 && queue < 17
  | .allocTimeout owner queue => owner < 17 && queue < 17
  | .allocZeroFillDone _ => true
  | .offloadComplete x _ => errsOk x.errs
  | .offloadRetry _ _ => true
  | .prefetchComplete x _ => errsOk x.errs
  | .prefetchPageReread _ _ x => x.page < 1536
  | .hbmScrub _ page errs => page < 49152 && errsOk errs
  | .cxlMemRead hdm errs => hdm % 64 == 0 && hdm + 64 ≤ 1649267441664 && errsOk errs
  | .cxlMemWrite hdm data be errs => hdm % 64 == 0 && hdm + 64 ≤ 1649267441664 && data < 2 ^ 512 && be < 2 ^ 64 && errsOk errs
  | .cxlSnoop => true
  | .hwinRegisterWrite _ a v => shapeOk a && v < 2 ^ 32
  | .windowDrainDone _ => true
  | .reduceScatter _ errs => errsOk errs
  | .allGather _ errs => errsOk errs
  | .allReduce _ errs => errsOk errs
  | .beat _ => true
  | .chdrReceive h => chdrOk h
  | .cdataReceive d => cdataOk d.what && errsOk d.errs
  | .stageDataLost _ => true
  | .blameNotice => true
  | .beatSlotBoundary _ => true
  | .beatReceive src _ => src < 8192
  | .verdictApply _ => true
  | .singleDeviceVerdict _ => true
  | .beatTimeout _ => true
  | .redundancyCompare _ _ => true
  | .stepCommit _ => true
  | .commitLogProgram => true
  | .imageCopyDone x _ => errsOk x.errs
  | .restoreComplete _ => true
  | .egressGrad _ errs => errsOk errs
  | .egressScan _ errs => errsOk errs
  | .egressSend _ errs => errsOk errs
  | .egressNormOut x => errsOk x.errs
  | .egressClipfact _ errs => errsOk errs
  | .egressData _ errs => errsOk errs
  | .ingressDelta x _ => errsOk x.errs
  | .ingressData x _ => errsOk x.errs
  | .ingressCrcgen _ errs => errsOk errs
  | .xfDbellWrite _ a v => shapeOk a && v < 2 ^ 32
  | .ingressTimeout _ => true
  | .ucieLinkDown => true
  | .ucieTrainingDone good repaired => good < 16 && repaired < 16
  | .linkCfgWrite _ a v => shapeOk a && v < 2 ^ 32
  | .linkTrainingDone _ lanes => lanes < 256
  | .linkTrainingRetry _ => true
  | .helloSend _ => true
  | .helloReceive _ payload => payload.length == 64
  | .helloTimeout _ => true
  | .flitAlignmentLoss _ => true
  | .flitReceive _ f => flitOk f
  | .messageRoute _ src dst cls hops seq tag _ _ => src < 8192 && dst < 8192 && cls < 6 && hops < 64 && seq < 2 ^ 32 && tag < 2 ^ 32
  | .timeSyncInterval => true
  | .timeMessage _ _ _ _ => true
  | .linkKeyEstablished _ => true
  | .linkKeyTimeout _ _ => true
  | .linkKeyRetry _ => true
  | .linkRekey _ => true
  | .oldKeyErase _ => true
  | .journalPageProgram => true
  | .journalCompaction rd => readsOk rd
  | .journalBulkCompaction rd => readsOk rd
  | .aggregatorWindowEnd _ => true
  | .rateSummary => true
  | .testDue _ _ => true
  | .testForced _ _ => true
  | .inFieldTestDone _ _ _ _ => true
  | .railCtlWrite _ a v => shapeOk a && v < 2 ^ 32
  | .inrushGrant _ => true
  | .inrushGrantTimeout _ => true
  | .domainRampDone _ => true
  | .domainRampDownDone _ => true
  | .clkTargetWrite _ a v => shapeOk a && v < 2 ^ 32
  | .capLoopTick _ _ rails => rails.length == 16
  | .pwrCapWrite _ a v => shapeOk a && v < 2 ^ 32
  | .voltageSensorSample _ readings => readings.length == 64 && readings.all (fun x => x < 65536)
  | .railMinClear _ a v => shapeOk a && v < 2 ^ 32
  | .coolantSample flow inlet outlet => flow < 32768 && decide (-32768 ≤ inlet ∧ inlet < 32768) && decide (-32768 ≤ outlet ∧ outlet < 32768)
  | .regionTempEval _ => true
  | .calRunWrite _ a v => shapeOk a && v < 2 ^ 32
  | .calibrationMeasurement _ meas => meas.isEmpty || meas.length == 576
  | .gradualTap _ => true
  | .stepModeTaps _ => true
  | .stepModeFallback _ => true
  | .inServiceRecord _ => true
  | .drbgReseed => true
  | .noiseSourceFailure test => test < 255
  | .spdmMctpMessage q => spdmOk q
  | .vendorDefinedRequest _ _ _ => true
  | .mailboxRing _ a v => shapeOk a && v < 2 ^ 32
  | .mailboxAreaWrite _ a v => shapeOk a && v < 2 ^ 32
  | .mailboxRelease _ a v => shapeOk a && v < 2 ^ 32
  | .mctpMessageReceive _ _ _ => true
  | .mctpReassemblyTimeout _ => true
  | .mctpControl _ _ => true
  | .pldmRequest _ sensor _ => sensorOk sensor
  | .pldmFirmwareUpdate _ st => pldmOk st
  | .pldmActivateFirmware enc rd => encTestOk enc && readsOk rd
  | .mgmtSegmentReceive src tag payload => src.dev < 8192 && tag < 65536 && payload.length ≤ 4096
  | .operationComplete oph => oph < 2 ^ 32
  | .fabForwardResponse src box resp => src < 8192 && 12 ≤ box && box < 16 && respOk resp
  | .getInfo _ => true
  | .getState _ => true
  | .getTiers _ => true
  | .getJobs _ => true
  | .opStatus _ => true
  | .evtRead _ => true
  | .cfgGet _ => true
  | .cfgStage _ => true
  | .cfgCommit _ => true
  | .localSet _ => true
  | .localGet _ => true
  | .resDefine _ => true
  | .resPieces _ => true
  | .resQuery _ => true
  | .resLoad _ => true
  | .resAdopt _ => true
  | .resRelease _ => true
  | .resDiscard _ => true
  | .jobAdmit _ => true
  | .jobTensors _ => true
  | .jobWindow _ => true
  | .jobGraphStage _ => true
  | .jobGraphLoad _ => true
  | .jobStart _ => true
  | .jobStop _ => true
  | .jobResume _ => true
  | .jobStatus _ => true
  | .jobEnd _ => true
  | .calStatus _ => true
  | .calRun _ => true
  | .calRead _ rd => readsOk rd
  | .pwrGet _ => true
  | .pwrLimit _ => true
  | .pwrClearMin _ => true
  | .jrnRead _ rd => readsOk rd
  | .jrnUnits _ => true
  | .evtSubscribe _ => true
  | .fltGet _ => true
  | .testRun _ => true
  | .testResult _ => true
  | .postResult _ => true
  | .fwInfo _ => true
  | .fwStage _ => true
  | .fwVerify _ => true
  | .fwActivate _ => true
  | .spdmMsg _ _ _ => true
  | .secStatus _ => true
  | .secZeroise _ => true
  | .fabSetId _ => true
  | .fabRoute _ => true
  | .fabNeighbours _ => true
  | .fabPorts _ => true
  | .fabTime _ => true
  | .fabGroup _ => true
  | .fabForward _ => true
  | .recImageDone _ => true
  | .recRestart _ => true
  | .recRestoreJob _ => true
  | .recBegin _ x => imgOk x
  | .recStatus _ => true
  | .recClearFlag _ => true
  | .chipUnlockWrite _ a v => shapeOk a && v < 2 ^ 32
  | .keyLockTimeout _ => true
  | .regionBroadcastWrite _ a v => shapeOk a && v < 2 ^ 32
  | .blockBroadcastWrite _ a v => shapeOk a && v < 2 ^ 32
  | .crossingTimeout _ a v => shapeOk a && valueOk v
  | .registerReadRefused _ a => shapeOk a
  | .rcRegisterRead _ a => shapeOk a
  | .tierUpkeepWrite _ a v => shapeOk a && v < 2 ^ 32
  | .vePstoreWrite _ a v => shapeOk a && v < 2 ^ 32
  | .registerWrite _ a v => shapeOk a && v < 2 ^ 32
  | .lowWordCaptureRead _ a => shapeOk a
  | .dynamicAddressAssignment addr => addr < 128

end Sys2Proof
end

