-- ==== Sys2Proof/Safety.lean ====
section
/-!
DEFINITION. Sys2Proof/Safety.lean: the terms in which claims about the device are stated: a command that completes, what a
command leaves alone, and the canonical form of everything stored.
-/
namespace Sys2Proof.Machine

/-- The command has its effect in the state, and what it leaves satisfies P. -/
def Completes (c : Instr) (s : State) (P : State → Prop) : Prop := ∃ t, exec c s = .next t ∧ P t

/-- No cell and no byte of a memory has changed. -/
structure SameMem (s t : State) : Prop where
  cells  : ∀ k, t.cell k = s.cell k
  bytes  : ∀ sp a, t.rdByte sp a = s.rdByte sp a
  norms  : ∀ k, t.norm k = s.norm k

/-- No register has changed but those at the offsets listed. -/
def SameRegs (s t : State) (offs : List Nat) : Prop := ∀ a, a ∉ offs → t.reg a = s.reg a

/-- Nothing of the device's management has changed: state of the device, journal, partition, enclave, jobs. -/
structure SameManagement (s t : State) : Prop where
  dev  : t.dev = s.dev
  jrn  : t.jrn = s.jrn
  part : t.part = s.part
  sec  : t.sec = s.sec
  slots : t.slots = s.slots

/-- No unit has changed beside its registers and memories: tiles, tiers, blocks, jobs, allocators, tokens, power,
calibration, management. -/
structure SameUnits (s t : State) : Prop where
  tiles  : t.tiles = s.tiles
  tiers  : t.tiers = s.tiers
  blocks : t.blocks = s.blocks
  slots  : t.slots = s.slots
  allocs : t.allocs = s.allocs
  arb    : t.arb = s.arb
  scrub  : t.scrub = s.scrub
  toks   : t.toks = s.toks
  pwr    : t.pwr = s.pwr
  cal    : t.cal = s.cal
  dev    : t.dev = s.dev
  jrn    : t.jrn = s.jrn
  part   : t.part = s.part
  sec    : t.sec = s.sec

/-- An access has completed with Completer Abort and changed nothing but the record of the refusal in REG_ERR and
REG_ERRCNT and the event (R494, R495). -/
structure Aborted (s t : State) (answer : OutMsg) (event : Nat) : Prop where
  out   : t.fab.out = s.fab.out ++ [answer]
  told  : t.fw.reports = s.fw.reports ++ [{ code := event, kind := 0, unit := 0, job := 255, task := 0, count := 1 }]
  regs  : SameRegs s t [0x80, 0x84, 0x88]
  mem   : SameMem s t
  units : SameUnits s t
  boxes : t.fw.boxes = s.fw.boxes
  halves : t.lowHalf = s.lowHalf

/-- A write of v that passes every check of R497 at the register r. -/
structure Accepted (s : State) (w : Writer) (a : Access) (v : Nat) (r : RegRef) : Prop where
  here  : s.reaches w = true
  shape : accessOk a = true
  names : locOf a.off = .reg r
  state : s.stateRefuses w a.off = false
  key   : r.desc.rwk = 0 ∨ s.isOpen w = true ∨ s.changesRwk r.desc a.off v = false
  enc   : encOk r.desc.id v = true
  clock : s.dead r.desc.dom a.off = false
  rule  : s.ruleRefuses w r a.off v = false

/-- The value that a register holds after a write of v (R10, R496): RW and RWK bits take v's, a one clears a W1C bit,
the others stay. -/
def Wrote (d : RegDesc) (old new : Word) (v : Nat) : Prop :=
  ∀ i < 32, new.getLsbD i =
    ((if (d.rw ||| d.rwk).testBit i then v.testBit i else old.getLsbD i) && !(d.w1c.testBit i && v.testBit i))

/-- What neither a reset nor a loss of power touches (R7, R574, R590): cells, the partition's areas but for residency
pages that BOOT adds of tiers whose 10,000th erase was interrupted (R59), fuses. -/
structure Nonvolatile (s t : State) : Prop where
  cells : ∀ k, t.cell k = s.cell k
  part  : { t.part with resid := s.part.resid } = s.part
  resid : (∀ u < 131072, (s.tier u).eraseOpen = true → (s.tier u).erases < 10000) → t.part.resid = s.part.resid
  fuses : t.sec.minSvn = s.sec.minSvn ∧ t.sec.revoked = s.sec.revoked

/-- The scan of the journal at BOOT finds the replacement flag open (R395, R407). -/
def State.flagFound (s : State) (rd : PartReads) : Bool := (s.jrn.kept.scanned rd).flagOpen

/-- Every register is at its reset value and every byte of the memories is 0. -/
structure Blank (t : State) : Prop where
  regs  : ∀ a, t.reg a = regReset a
  bytes : ∀ sp a, t.rdByte sp a = 0

/-- An event of a unit has been raised: firmware holds its report, or an aggregator does (R390, R412). -/
def State.Heard (t : State) (code kind unit : Nat) : Prop :=
  (∃ r ∈ t.fw.reports, r.code = code ∧ r.kind = kind ∧ r.unit = unit) ∨
  ∃ g, ∃ r ∈ SMap.get (fun _ => []) t.aggs g, r.code = code ∧ r.kind = kind ∧ r.unit = unit

/-- The tasks of one block, by their running numbers, but for those listed. -/
def SameRuns (s t : State) (b : Nat) (but : List Nat) : Prop := ∀ n, n ∉ but → t.run b n = s.run b n

/-- The unfinished ARRIVE tasks of a block that have not arrived. -/
def State.arrivals (s : State) (b : Nat) : List RTask :=
  (s.block b).running.filter fun r =>
    recKind r.task.record == 0 && recF r.task.record 0x30 3 0 == 3 && decide (0 < r.left) && !r.arrived

/-- The line an ARRIVE task names. -/
def RTask.line (r : RTask) : Nat := recF r.task.record 0x30 8 4

/-- R336: the block is no participant of the task's line, or the line is not the job's. -/
def State.strayArrival (s : State) (b : Nat) (r : RTask) : Bool :=
  !s.rbit (blockReg b 0xC300) r.line || !s.rbit (clReg r.line 0) 6 || s.rf (clReg r.line 0) 5 0 != r.task.job

/-- The verdict of job j's step has been taken (R19, R222, R226, R228): it is recorded and shown in LAST_VERDICT, the next
step awaits its own, the local flags have moved up, and the loss scale follows R226. -/
structure VerdictTaken (s t : State) (j : Nat) (nf : Bool) : Prop where
  step   : (t.slot j).vstep = (s.slot j).vstep + 1
  noted  : (t.slot j).verdicts = ((s.slot j).vstep, nf) :: (s.slot j).verdicts.take 3
  shown  : t.rbit (numReg j 4) 7 = nf
  flags  : t.rbit (numReg j 4) 5 = s.rbit (numReg j 4) 6 ∧ t.rbit (numReg j 4) 6 = false
  skips  : nf = true → t.rf (numReg j 0xC) 31 0 = min (2 ^ 32 - 1) (s.rf (numReg j 0xC) 31 0 + 1) ∧ t.Heard 0x0910 0 0
  down   : nf = true → s.rbit (numReg j 0) 2 = true → -8 < sext 6 (s.rf (numReg j 8) 5 0) →
    t.rn (numReg j 8) = enc2c 6 (sext 6 (s.rf (numReg j 8) 5 0) - 1)
  clean  : nf = false → s.rbit (numReg j 0) 2 = true → s.rf (numReg j 8) 31 16 + 1 < s.rf (numReg j 0) 31 16 →
    t.rf (numReg j 8) 31 16 = s.rf (numReg j 8) 31 16 + 1 ∧ t.rf (numReg j 8) 5 0 = s.rf (numReg j 8) 5 0
  up     : nf = false → s.rbit (numReg j 0) 2 = true → s.rf (numReg j 0) 31 16 ≤ s.rf (numReg j 8) 31 16 + 1 →
    sext 6 (s.rf (numReg j 8) 5 0) < 24 → t.rn (numReg j 8) = enc2c 6 (sext 6 (s.rf (numReg j 8) 5 0) + 1)
  off    : s.rbit (numReg j 0) 2 = false → t.reg (numReg j 8) = s.reg (numReg j 8)
  trap   : nf = true → s.rbit (numReg j 0) 3 = true → s.rbit (numReg j 4) 3 = true → (t.slot j).state = .trapStopped

/-- The events of a list of page reads (R51). -/
def partReports (x : PartReads) : List Report :=
  let r (code : Nat) : Report := { code := code, kind := 0, unit := 0, job := 255, task := 0, count := 1 }
  List.replicate x.fixed (r 0x0640) ++ List.replicate (x.failed + x.lost.length + x.other.length) (r 0x0641)

/-- The operation is no longer running: its result is kept (R471). -/
def State.Ended (t : State) (oph status detail : Nat) : Prop :=
  (∃ o ∈ t.fw.ops, o.oph = oph ∧ o.done = true ∧ o.status = status ∧ o.detail = detail) ∧ ∀ o ∈ t.fw.ops, o.oph = oph → o.done = true

/-- Firmware's next request is the one in mailbox m, with opcode op; its header is good, path and device state let the
command run, and it repeats no request (R464, R467 to R469, R472). -/
structure Serving (s : State) (m op : Nat) : Prop where
  up    : s.mpUp = true
  next  : s.nextBox = some m
  code  : (s.request m).op = op
  header : s.headerBad m = none
  path  : pathOk op (boxPath m) = true
  state : s.stateOk op = true
  fresh : (s.box m).lastKey ≠ some ((s.request m).seq, op)

/-- A field of the request's payload in mailbox m. -/
def State.arg (s : State) (m off n : Nat) : Nat := (s.request m).u off n

/-- The request in mailbox m has been answered (R464, R465, R467, R469): the response is kept with its SEQ and opcode, the
pointer has moved on; on the host path the response stands in the area and the mailbox is DONE, on the others it is IDLE. -/
structure Answered (s t : State) (m op : Nat) (r : Reply) : Prop where
  resp  : (t.box m).lastResp = response op (s.request m).seq (bit (s.request m).flags 1) m r
  key   : (t.box m).lastKey = some ((s.request m).seq, op)
  moved : t.fw.ptr = (m + 1) % 16
  host  : boxPath m = 0 → t.mbState m = mbDone ∧ ∀ i < (t.box m).lastResp.length, (t.box m).byte i = (t.box m).lastResp.getD i 0
  idle  : boxPath m ≠ 0 → t.mbState m = mbIdle
  sent  : boxPath m = 1 → .mctp (s.request m).src (t.box m).lastResp ∈ t.fab.out
  others : ∀ k, k ≠ m → t.box k = s.box k

/-- The reply of a command that succeeded at once. -/
def good (data : List Byte) : Reply := { status := 0, detail := 0, oph := 0, data := data }

/-- Command c answers a request in mailbox m with data d for which P holds, and changes nothing else: no memory, no unit,
no register but the mailbox's status and the pending bits of MSI-X. -/
def Tells (c : Instr) (s : State) (m op : Nat) (P : List Byte → Prop) : Prop :=
  Completes c s fun t => (∃ d, Answered s t m op (good d) ∧ P d) ∧ SameMem s t ∧ SameUnits s t ∧ SameRegs s t [mbReg m 4, 0x78000]

/-- Command c answers with success and no data, and leaves a state in which P holds. -/
def Does (c : Instr) (s : State) (m op : Nat) (P : State → Prop) : Prop :=
  Completes c s fun t => Answered s t m op (good []) ∧ P t

/-- Command c starts an operation (R471): ACCEPTED with its handle; it stands among firmware's operations. -/
def Starts (c : Instr) (s : State) (m op arg : Nat) (P : State → Prop) : Prop :=
  Completes c s fun t => Answered s t m op { status := stAccepted, detail := 0, oph := s.fw.nextOph, data := [] } ∧
    (∃ o ∈ t.fw.ops, o.oph = s.fw.nextOph ∧ o.opcode = op ∧ o.arg = arg) ∧ P t

/-- An operation may start: fewer than 16 run (R471). -/
def State.opRoom (s : State) : Bool := decide ((s.fw.ops.filter fun o => !o.done).length < 16)

/-! ### Vector engine (spec/06) -/

/-- The engine of block b runs R and stands at a legal word with opcode `op` that is not the last word of a chunk. -/
structure VeAt (s : State) (b op : Nat) (R : VeRun) : Prop where
  run  : (s.block b).ve.run = some R
  op   : wOp (s.veWord b (s.block b).ve.pc) = op
  ok   : s.veLegalHere b R = true
  more : R.chain = true → (s.block b).ve.pc + 1 < R.entry + R.len

/-- Registers that an instruction of the engine of block b may change for job j: VE_STATUS, the trap registers, its
error and instruction counts, NUM_STATUS of the job, the aggregator's count. -/
def veRegs (b j : Nat) : List Nat :=
  [blockReg b 0x5004, blockReg b 0x5008, blockReg b 0x500C, blockReg b 0x5010, blockReg b 0x5014, blockReg b 0x5040,
   blockReg b 0x5048, blockReg b 0x504C, numReg j 4, regionReg (b / 16) 0x5004]

/-- The engine has gone on to the next word, and nothing outside it has changed but its registers. -/
structure VeOn (s t : State) (b : Nat) (R : VeRun) : Prop where
  next  : if R.chain = true then (t.block b).ve.pc = (s.block b).ve.pc + 1 ∧ (t.block b).ve.loops = (s.block b).ve.loops
          else ((t.block b).ve.loops, (t.block b).ve.pc) = loopNext (s.block b).ve.loops ((s.block b).ve.pc + 1)
  run   : ∃ u, (t.block b).ve.run = some { R with undo := u } ∧
          (wOp (s.veWord b (s.block b).ve.pc) ≠ 0x02 ∨ R.chain = false → u = R.undo)
  count : t.rn (blockReg b 0x5048) = (s.rn (blockReg b 0x5048) + 1) % 2 ^ 32
  regs  : SameRegs s t (veRegs b R.task.job)
  others : ∀ c, c ≠ b → t.block c = s.block c
  mc    : (t.block b).mc = (s.block b).mc
  tiles : t.tiles = s.tiles ∧ t.tiers = s.tiers ∧ t.allocs = s.allocs ∧ t.dev = s.dev ∧ t.jrn = s.jrn ∧ t.part = s.part ∧
          t.sec = s.sec

/-- The lanes listed of VD hold their results, every other lane and the A and S registers are as before, and the sticky
bits of VE_STATUS show the conditions met (R181, R182, R185 to R188, R198, R199). -/
structure VeWrites (s t : State) (b w : Nat) (l : List (Nat × LaneRes)) : Prop where
  lanes : ∀ x ∈ l, SMap.get (fun _ => 0) (t.block b).ve.v (wVd w * 512 + x.1) = x.2.code
  other : ∀ k, (∀ x ∈ l, k ≠ wVd w * 512 + x.1) →
          SMap.get (fun _ => 0) (t.block b).ve.v k = SMap.get (fun _ => 0) (s.block b).ve.v k
  same  : (t.block b).ve.a = (s.block b).ve.a ∧ (t.block b).ve.s = (s.block b).ve.s
  nan   : t.rbit (blockReg b 0x5004) 2 = (s.rbit (blockReg b 0x5004) 2 || l.any fun x => x.2.nan)
  sovf  : t.rbit (blockReg b 0x5004) 3 = (s.rbit (blockReg b 0x5004) 3 || l.any fun x => x.2.sovf)
  ovf   : t.rbit (blockReg b 0x5004) 4 = (s.rbit (blockReg b 0x5004) 4 || l.any fun x => x.2.ovf)
  divz  : t.rbit (blockReg b 0x5004) 5 = (s.rbit (blockReg b 0x5004) 5 || l.any fun x => x.2.divz)
  sat   : t.rbit (blockReg b 0x5004) 6 = (s.rbit (blockReg b 0x5004) 6 || l.any fun x => x.2.sat)
  lost  : t.rbit (blockReg b 0x5004) 7 = (s.rbit (blockReg b 0x5004) 7 || l.any fun x => x.2.nanLost)
  flush : t.rbit (blockReg b 0x5004) 8 = (s.rbit (blockReg b 0x5004) 8 || l.any fun x => x.2.flushed)

/-- The instruction with opcode `op` completes wherever the engine stands at it: lane l of VD becomes what `h` gives
for the state, block, program, word, lane and random bits, which are 0 unless RM is stochastic. -/
def VeLane (op : Nat) (c : BlockId → Instr) (h : State → Nat → VeRun → Nat → Nat → Nat → LaneRes) : Prop :=
  ∀ (s : State) (b : BlockId) (R : VeRun), VeAt s b.val op R → R.task.job < 64 →
    let w := s.veWord b.val (s.block b.val).ve.pc
    Completes (c b) s fun t => SameMem s t ∧ VeOn s t b.val R ∧ ∃ g : Nat → Nat, (wRm w ≠ 4 → ∀ i, g i = 0) ∧
      VeWrites s t b.val w ((List.range 512).map fun l => (l, h s b.val R w l (g l)))

/-- Operands of a lane. -/
def State.opA (s : State) (b : Nat) (R : VeRun) (w l : Nat) : Nat := s.veSrc b R (wVa w) (wBa w) l
def State.opB (s : State) (b : Nat) (R : VeRun) (w l : Nat) : Nat := s.veSnd b R w l
def State.opC (s : State) (b : Nat) (R : VeRun) (w l : Nat) : Nat := s.veSrc b R (wVc w) (wBc w) l

/-! ### Canonical form -/

/-- Everything stored is in its canonical form: keys rising, and no entry that an unlisted key reads as anyway. -/
def State.Canon (s : State) : Prop := s.store.wf = true

end Sys2Proof.Machine
end

