-- ==== Sys2Proof/Certificates/Slice0/Obligations.lean ====
section
/-!
DEFINITION. Sys2Proof/Certificates/Slice0/Obligations.lean: the statements about the KLG-7208-L model, for the provers.
-/
section
open Sys2Proof Sys2Proof.Machine

/-- For every state s: if s.pending is c followed by rest, step s is exec c of s with the queue rest; on an empty queue
step answers s itself (idling is the model's choice, assumption 3).
Cites: spec/00_scope.md. -/
def Obligations.StepTakesFrontCommand : Prop :=
  ∀ s : State, (∀ c rest, s.pending = c :: rest → step s = exec c { s with pending := rest }) ∧
    (s.pending = [] → step s = .next s)

/-- State.reset: every register reads its reset value, every cell is at the erased level of 31 (in thousandths of a level
step), every byte of block store, HBM and host memory and every norm reads 0; the device state is BOOT, RESET_N is
asserted, MP and host die are in reset; the queue is empty. What unwritten bytes read and the reset values named in
the assumption log are the model's choice.
Cites: R5, R573, R574, spec/16_register_access_and_map.md. -/
def Obligations.ResetState : Prop :=
  Blank State.reset ∧ (∀ k, State.reset.cell k = 31000) ∧ (∀ k, State.reset.norm k = 0) ∧ State.reset.dev = .boot ∧
    State.reset.resetN = true ∧ State.reset.mpUp = false ∧ State.reset.hostUp = false ∧ State.reset.pending = []

/-- State.reset has its registers, cells, memories and norm tables in canonical form (the invariant of CanonKept).
Cites: spec/00_scope.md. -/
def Obligations.CanonAtReset : Prop :=
  State.reset.Canon

/-- For every state whose store is in canonical form (keys strictly rising, no entry that an unlisted key reads as anyway)
and every step that answers a next state, that state's store is in canonical form: equal contents stay equal data.
Cites: spec/02_charge_trap_arrays.md, spec/09_memory_and_allocation.md, spec/16_register_access_and_map.md. -/
def Obligations.CanonKept : Prop :=
  ∀ s t : State, s.Canon → step s = .next t → t.Canon

/-- For every command c and every state s there is a state t with exec c s = next t: no command of the table ends the
machine, whatever its operands and whatever the state. Where the state does not let an internal event come about, the
next state is the state as it was (the model's choice, assumption 5); the other statements say what each command's own
effect is and where it has it. Completes: every constructor of Instr.
Cites: spec/00_scope.md. -/
def Obligations.NoCommandFaults : Prop :=
  ∀ (c : Instr) (s : State), ∃ t, exec c s = .next t

/-- For every step that answers a next state on a queue c followed by rest, the queue of the next state is rest: no
command touches the queue.
Cites: spec/00_scope.md. -/
def Obligations.QueueKept : Prop :=
  ∀ (s t : State) (c : Instr) (rest : List Instr), s.pending = c :: rest → step s = .next t → t.pending = rest

/-- POWER_REMOVED (with 50 V present), RESET_N_ASSERT (from any state but OFF; in OFF it only asserts the pin),
PROTECTIVE_SHUTDOWN (causes 0 to 4) and an INPUT_VOLTAGE_SAMPLE beyond its shutdown limits complete: every register is
at its reset value, block stores, HBM and host memory read 0, MP and host die are down; cells, partition, programmed
journal pages, boot-flash slots and fuses are as before. The device is OFF (BOOT with RESET_N asserted). A shutdown
latches the first cause: 0x0722 for a thermal trip, else 0x0703. (Zeros in host memory, whose LPDDR6 R590 leaves
undefined, are the model's choice, assumption 174, as are those of the other memories, assumption 9.) An input sample
within 40 to 60 V only shows its voltage; between the limits it sets the sticky bit and reports 0x0710 once per
excursion. Completes: powerRemoved, resetNAssert, protectiveShutdown, inputVoltageSample.
Cites: R5, R7, R536, R540, R573, R574, R590. -/
def Obligations.PowerLossKeepsNonvolatile : Prop :=
  ∀ s : State,
    let kept (t : State) : Prop := Nonvolatile s t ∧ t.part = s.part ∧ t.jrn.blocks = s.jrn.blocks ∧ t.sec.slots = s.sec.slots ∧ Blank t ∧
      t.mpUp = false ∧ t.hostUp = false
    let down (ev : Nat) (t : State) : Prop := kept t ∧ t.dev = .off ∧ t.pwr.shut = true ∧
      t.pwr.cause = if s.pwr.cause = 0 then ev else s.pwr.cause
    (s.unpowered = false → Completes .powerRemoved s fun t => kept t ∧ t.dev = .off ∧ t.pwr.shut = false ∧ t.pwr.vin = 0) ∧
    (s.resetN = false → s.dev ≠ .off → Completes .resetNAssert s fun t => kept t ∧ t.dev = .boot ∧ t.resetN = true) ∧
    (s.resetN = false → s.dev = .off → exec .resetNAssert s = .next { s with resetN := true }) ∧
    (∀ cause, s.dev ≠ .off → cause < 5 →
      Completes (.protectiveShutdown cause) s (down (if cause = 4 then 0x0722 else 0x0703))) ∧
    (∀ mv us, s.dev ≠ .off → (mv < 38000 ∧ 100 ≤ us ∨ 62000 < mv ∧ 10 ≤ us) →
      Completes (.inputVoltageSample mv us) s (down 0x0703)) ∧
    (∀ mv us, s.dev ≠ .off → 40000 ≤ mv → mv ≤ 60000 → Completes (.inputVoltageSample mv us) s fun t =>
      t.rf 0x300000 15 0 = mv ∧ SameMem s t ∧ SameRegs s t [0x300000] ∧ SameManagement s t ∧ t.fw.reports = s.fw.reports ∧
      t.pwr.vinTold = false) ∧
    (∀ mv us, s.dev ≠ .off → mv < 40000 ∨ 60000 < mv → ¬ (mv < 38000 ∧ 100 ≤ us ∨ 62000 < mv ∧ 10 ≤ us) →
      Completes (.inputVoltageSample mv us) s fun t =>
      t.rf 0x300000 15 0 = mv % 65536 ∧ SameMem s t ∧ SameRegs s t [0x300000, 0x30000C] ∧ SameManagement s t ∧
      t.pwr.vinTold = true ∧
      (if s.pwr.vinTold = true then t.fw.reports = s.fw.reports ∧ t.reg 0x30000C = s.reg 0x30000C
       else t.rbit 0x30000C 2 = true ∧ t.fw.reports = s.fw.reports ++
         [{ code := 0x0710, kind := 0, unit := 0, job := 255, task := 0, count := 1 }]))

/-- POWER_APPLIED (38 V to 62 V on an unpowered module), RESET_N_RELEASE, LOCKSTEP_MISCOMPARE, WATCHDOG_EXPIRY and
PLDM_ACTIVATE_FIRMWARE (the MP running) complete. With RESET_N asserted power leaves the device in BOOT with the MP in
reset; a release without power only releases the pin. Otherwise the device starts: cells, partition (but for residency
pages of R59) and fuses are as before, RESET_N is released; if the enclave passes its self-tests the device is in BOOT
at device time 0 with the enclave OPERATIONAL, and the MP runs if an MP bundle or a recovery image is accepted; if it
fails self-test k, the enclave is in ERROR with that test, the glade monitor runs, and the device is FLAGGED when the
journal's scan finds the flag open, else in GLADE. This holds whatever firmware's reads of the partition meet.
Completes: powerApplied, resetNRelease, lockstepMiscompare, watchdogExpiry, pldmActivateFirmware.
Cites: R5, R7, R516, R572, R574, R575, R586, R587, R588. -/
def Obligations.StartUpKeepsNonvolatile : Prop :=
  ∀ (s : State) (enc : Option Nat) (rd : PartReads),
    let taken (e : Enclave) (typ : Nat) : Prop := ∃ ab, (ab = e.active.getD typ 0 ∨ ab = 1 - e.active.getD typ 0) ∧
      e.imageStatus typ (e.slot typ ab) = 0
    let up (e : Enclave) (t : State) : Prop := Nonvolatile s t ∧ t.resetN = false ∧ t.pwr.shut = false ∧
      (match enc with
       | none => t.dev = .boot ∧ t.time = 0 ∧ t.sec.state = .operational ∧
         (taken e.installRecovery 0 ∨ taken e.installRecovery 3 → t.mpUp = true)
       | some k => t.sec.state = .error ∧ t.sec.failed = k ∧ t.monitor = true ∧ t.mpUp = true ∧
         t.dev = if s.flagFound rd = true then .flagged else .glade)
    let anew (c : Instr) : Prop := Completes c s (up s.sec.kept)
    (∀ vin, s.unpowered = true → 38000 ≤ vin → vin ≤ 62000 → Completes (.powerApplied vin enc rd) s fun t =>
      if s.resetN = true then t = { s with dev := .boot, pwr := { s.pwr with vin := vin, pwrgood := false } } else up s.sec t) ∧
    (s.resetN = true → Completes (.resetNRelease enc rd) s fun t =>
      if s.unpowered = true then t = { s with resetN := false } else up s.sec t) ∧
    (s.mpUp = true → s.resetN = false → anew (.lockstepMiscompare enc rd) ∧ anew (.watchdogExpiry enc rd) ∧
      anew (.pldmActivateFirmware enc rd))

/-- BOOT_COMPLETE completes in BOOT with the MP running its firmware, for any list of tests of BOOT that did not pass at
first; the device is then in FLAGGED, GLADE or SELFTEST. With no such test it is FLAGGED if the journal's flag is
open, GLADE if a self-test had failed, else SELFTEST with every region rail requested. SELF_TEST_COMPLETE with a test
that failed again leaves GLADE and names the test. With none, and every rail, block switch and calibration up, the
array sample reads 0x0E are judged from the cells: if a tier fails them twice, GLADE names test 14 and that tier; else
the device is READY with block stores and HBM reading 0, their poison marks gone, every HBM stack ready, the other
memory as before, and each fused minimum SVN is raised to the SVN of the active image if that image commits it and it
is higher. Completes: bootComplete, selfTestComplete.
Cites: R5, R308, R520, R576, R577, R580, R581, R582, R583, R584. -/
def Obligations.BootAndSelfTestEnd : Prop :=
  ∀ s : State,
    (∀ outs : List TestOutcome, s.dev = .boot → s.mpUp = true → s.monitor = false → (∀ o ∈ outs, bootTests.contains o.test = true) →
      Completes (.bootComplete outs) s fun t => (t.dev = .flagged ∨ t.dev = .glade ∨ t.dev = .selftest) ∧ SameMem s t) ∧
    (s.dev = .boot → s.mpUp = true → s.monitor = false → Completes (.bootComplete []) s fun t =>
      if s.jrn.flagOpen = true then t.dev = .flagged
      else if s.fw.postTest = 255 then t.dev = .selftest ∧ ∀ g < 16, t.rbit (railReg g 0) 0 = true
      else t.dev = .glade) ∧
    (∀ (outs : List TestOutcome) (o : TestOutcome), s.dev = .selftest → (∀ o ∈ outs, selfTests.contains o.test = true) →
      outs.find? (fun o => o.again) = some o → Completes (.selfTestComplete outs) s fun t =>
      t.dev = .glade ∧ t.fw.postTest = o.test ∧ t.fw.postKind = o.kind ∧ t.fw.postUnit = o.unit ∧ SameMem s t) ∧
    (∀ outs : List TestOutcome, s.dev = .selftest → (∀ o ∈ outs, selfTests.contains o.test = true) →
      outs.find? (fun o => o.again) = none → s.planeUp = true → Completes (.selfTestComplete outs) s fun t =>
      match s.arrayTest.1 with
      | some u => t.dev = .glade ∧ t.fw.postTest = 14 ∧ t.fw.postKind = 1 ∧ t.fw.postUnit = u ∧ SameMem s t
      | none => t.dev = .ready ∧ (∀ b a, t.rdByte (.bs b) a = 0) ∧ (∀ g a, t.rdByte (.hbm g) a = 0) ∧
      (∀ a, t.rdByte .host a = s.rdByte .host a) ∧ (∀ k, t.cell k = s.cell k) ∧ t.hbmPoison = [] ∧ t.bsPoison = [] ∧
      (∀ g < 16, t.rbit (regionReg g 0x3000) 16 = true) ∧
      (s.sec.minSvn.length = 4 → ∀ typ < 3, t.sec.minSvn.getD typ 0 =
        let x := s.sec.slot typ (s.sec.active.getD typ 0)
        if x.commit = true ∧ s.sec.minSvn.getD typ 0 < x.svn then x.svn else s.sec.minSvn.getD typ 0))

/-- HOST_DIE_RESET (MP and host die running) completes: the device state is as before, host memory reads 0 (LPDDR6 is
undefined by R590; the zeros are the model's choice, assumption 174), mailboxes 0 to 7 are IDLE and empty, no window
is VALID, every job is stopped, cells are as before, and the host die runs again if the enclave accepts its image.
DRAIN_TIMEOUT in DRAINING on an active job once DRAIN_TO seconds have passed: the job is stopped with cause 4, 0x0417
is reported, cells are as before, and all memory if the job has no pager transfer in flight. DRAIN_COMPLETE in
DRAINING with no active job, no draining window and idle engines: the device is FLAGGED, memory, jobs and partition as
before, 0x0411 is reported. Completes: hostDieReset, drainTimeout, drainComplete.
Cites: R5, R416, R417, R589. -/
def Obligations.HostDieResetAndDrainEnd : Prop :=
  ∀ s : State,
    (s.hostUp = true → s.mpUp = true → Completes .hostDieReset s fun t =>
      t.dev = s.dev ∧ (t.hostUp = true → s.sec.state = .operational ∧ ∃ ab, t.sec.imageStatus 1 (t.sec.slot 1 ab) = 0) ∧ (∀ a, t.rdByte .host a = 0) ∧ (∀ m < 8, t.mbState m = mbIdle ∧ t.box m = Mailbox.init) ∧
      (∀ w < 16, t.rbit (hwinReg w 0xC) 0 = false) ∧ (∀ j < 64, (t.slot j).state = .free ∨ (t.slot j).state = .stopped) ∧
      (∀ k, t.cell k = s.cell k)) ∧
    (∀ j : SlotId, s.dev = .draining → (s.slot j.val).state.active = true → s.rf 0x40004 7 0 * 1000 ≤ s.fw.drainMs →
      Completes (.drainTimeout j) s fun t => (t.slot j.val).state = .stopped ∧ (t.slot j.val).stopCause = 4 ∧
        t.dev = .draining ∧ t.Heard 0x0417 0 0 ∧ (∀ k, t.cell k = s.cell k) ∧
        ((∀ r ∈ (s.slot j.val).acts, r.state ≠ 1 ∧ r.state ≠ 4 ∧ r.state ≠ 6) → SameMem s t)) ∧
    (s.dev = .draining → (∀ j < 64, (s.slot j).state.active = false) → (∀ w < 16, s.rbit (hwinReg w 0xC) 16 = false) →
      s.enginesIdle = true → Completes .drainComplete s fun t => t.dev = .flagged ∧ t.Heard 0x0411 0 0 ∧ SameMem s t ∧
        t.slots = s.slots ∧ t.part = s.part)

/-- TILE_READ_START, when the tile can grant a read and no storage error is found, takes the head request off the queue:
if READ_EN of its tier is set and every input element is finite, the read in progress holds the request, the exponent
of R63 and the phases of R67; with READ_EN clear the request is rejected with status bit 4 and no read starts.
PHASE_LATCH with a phase in flight counts it in TILE_PHASES; a saturated phase of two or more lines is split and its
halves follow the phase in flight (R76, R77), with status bit 0 set; a first-run phase with no saturation, no pulse-
monitor difference and no failed check set enters the partial sums (R73), a first-run phase that fails is run again
after the phase in flight (R83), and a re-run phase enters the sums (R87). LSB_SHIFT, CHK_SLOPE and CHK_EN are those
of the request boundary. No memory, cell or tier changes. Completes: tileReadStart, phaseLatch.
Cites: R61, R63, R64, R67, R71, R73, R76, R77, R81, R83, R87. -/
def Obligations.TileReadPlansAndSenses : Prop :=
  ∀ (s : State) (t : TileId),
    let b := tileBlock t.val
    let quiet (t' : State) : Prop := SameMem s t' ∧ t'.tiers = s.tiers ∧ t'.dev = s.dev ∧ t'.jrn = s.jrn
    (∀ q rest, s.readGrant t.val = true → (s.tile t.val).readQ = q :: rest → q.task.job < 64 →
      Completes (.tileReadStart t []) s fun t' => quiet t' ∧
        let el := (List.range (rqLen q.req)).map fun i => s.tileElem b q.req (s.denorm q.task.job) i
        if s.readEn t.val (rqTier q.req) = true then
          ∃ R, (t'.tile t.val).read = some R ∧ R.req = q ∧ R.phases = 0 ∧ R.retries = 0 ∧
            R.cfg = s.rn (tileReg t.val 0) ∧ R.budget = s.rn (tileReg t.val 4) ∧
            ((∀ x ∈ el, x.1.isNaN = false ∧ x.1.isInf = false ∧ x.2.2 = false) →
              let e := vecExp (el.map fun x => x.1)
              R.exp = e ∧ R.todo = planVector (s.tileW t.val) (s.rf (tileReg t.val 4) 10 0)
                (((List.range (rqLen q.req)).zip el).map fun x =>
                  (x.1, (tileMag e x.2.1).1, (tileMag e x.2.1).2)))
        else t'.rbit (tileReg t.val 0x10) 4 = true ∧ (t'.tile t.val).read = none) ∧
    (∀ R p rest pm, (s.tile t.val).read = some R → R.todo = p :: rest →
      Completes (.phaseLatch t pm) s fun t' => quiet t' ∧
        t'.rn (tileReg t.val 0x20) = (s.rn (tileReg t.val 0x20) + 1) % 2 ^ 32 ∧
        let lsb := fld R.cfg 2 0
        let trans := rqMode R.req.req
        let rs := s.convertAll (t.val * 8 + rqTier R.req.req) (2 ^ lsb) trans p.lines (if trans = true then 1024 else 1056)
        let tol := checkTol (p.lines.foldl (fun a x => a + x.2) 0) (fld R.budget 23 16) lsb
        if rs.any saturated = true ∧ 2 ≤ p.lines.length then
          t'.rbit (tileReg t.val 0x10) 0 = true ∧
            ∃ R', (t'.tile t.val).read = some R' ∧ R'.todo = rest.take 1 ++ splitPhase p ++ rest.drop 1 ∧ R'.sums = R.sums ∧
              R'.phases = R.phases
        else if p.lin = 0 ∧ rs.any saturated = false ∧ (pm = false ∨ bit R.cfg 9 = false) ∧
            (trans = true ∨ bit R.cfg 8 = false ∨ failedSets rs tol = []) then
          ∃ R', (t'.tile t.val).read = some R' ∧ R'.todo = rest ∧ R'.sums = addPhase R.sums p lsb rs ∧
            R'.phases = R.phases + 1 ∧ R'.flags = R.flags
        else if p.lin = 0 then
          ∃ R', (t'.tile t.val).read = some R' ∧ R'.sums = R.sums ∧ R'.phases = R.phases ∧
            R'.todo = rest.take 1 ++ [{ p with retry := true, lin := R.nextLin }] ++ rest.drop 1
        else ∃ R', (t'.tile t.val).read = some R' ∧ R'.todo = rest ∧ R'.sums = addPhase R.sums p lsb rs ∧
          R'.phases = R.phases + 1)

/-- TILE_READ_COMPLETE, with a read in progress whose phases have all been latched, stores the output record of the read
at the request's output address in its block's store and ends the read; a half of a double-slice request stores
nothing. DSLICE_COMBINE, with both halves of a pair's request complete, stores the combined record: 16 times the even
tile's sums plus the odd tile's, E of the even tile, the OR of the flags; PHASES and RETRIES of the combined record
are free values. Every other byte of memory and every cell is as before. (R60 lets in no request whose record would
leave the block store.) Completes: tileReadComplete, dsliceCombine.
Cites: R60, R68, R75, R78, R89, spec/03_tile_reads.md. -/
def Obligations.TileReadWritesRecord : Prop :=
  ∀ (s : State) (t : TileId),
    let b := tileBlock t.val
    let stores (t' : State) (a : Nat) (l : List Byte) : Prop :=
      l.length = 4160 ∧ (∀ i < 4160, t'.rdByte (.bs b) (a + i) = l.getD i 0) ∧
      (∀ sp x, sp ≠ .bs b ∨ x < a ∨ a + 4160 ≤ x → (∀ b', sp = .bs b' → x < bsSize) → t'.rdByte sp x = s.rdByte sp x)
    let quiet (t' : State) : Prop := (∀ k, t'.cell k = s.cell k) ∧ (∀ k, t'.norm k = s.norm k) ∧ t'.tiers = s.tiers ∧
      t'.dev = s.dev ∧ t'.jrn = s.jrn ∧ t'.slots = s.slots
    (∀ R, (s.tile t.val).read = some R → R.todo = [] → rqOut R.req.req + 4160 ≤ bsSize → Completes (.tileReadComplete t) s fun t' =>
      (t'.tile t.val).read = none ∧
        if R.req.ds = true then SameMem s t'
        else (∀ k, t'.cell k = s.cell k) ∧ (∀ k, t'.norm k = s.norm k) ∧ t'.tiers = s.tiers ∧
          stores t' (rqOut R.req.req) (outRecord R.exp R.flags R.phases R.retries (rqEpoch R.req.req) R.sums)) ∧
    (∀ x y l1 l2, t.val % 2 = 0 →
      pickFirst (fun h => h.tile == t.val && (s.block b).halves.any fun k =>
        k.tile == t.val + 1 && k.req.task.num == h.req.task.num && k.req.req == h.req.req) (s.block b).halves = some (x, l1) →
      pickFirst (fun h => h.tile == t.val + 1 && h.req.task.num == x.req.task.num && h.req.req == x.req.req) l1 = some (y, l2) →
      rqOut x.req.req + 4160 ≤ bsSize → Completes (.dsliceCombine t) s fun t' => quiet t' ∧ (t'.block b).halves = l2 ∧
        (∃ p r, stores t' (rqOut x.req.req)
          (outRecord x.exp (orFlags x.flags y.flags) p r (rqEpoch x.req.req) (combineSums x.sums y.sums))) ∧
        (∀ c < 1024, SMap.get (fun _ => 0) (combineSums x.sums y.sums) c =
          SMap.get (fun _ => 0) x.sums c * 16 + SMap.get (fun _ => 0) y.sums c))

/-- PROGRAM_PULSE, with a pulse round due on a row, an upkeep grant possible and no temperature hold, leaves every cell
outside that row as it was and raises none. VERIFY_READ with the row's verify due changes no cell and leaves the row
waiting for a trim round or finished. SWEEP_READ of the head procedure's sweep, which no other upkeep precedes,
changes no cell, and the sweep has gone on to the row after the one read or has ended. ERASE_SUB_PULSE leaves every
cell outside the erased tier as it was and lowers none of it. None of them changes a block store or host memory; a
sub-pulse changes no memory. Storage errors may be found. Completes: programPulse, verifyRead, sweepRead,
eraseSubPulse.
Cites: R30, R31, R32, R35, R42, R94, R119, R131, R600, R601. -/
def Obligations.TileProgrammingTouchesOneRow : Prop :=
  ∀ (s : State) (t : TileId),
    let T := s.tile t.val
    let stores (t' : State) : Prop := (∀ b a, t'.rdByte (.bs b) a = s.rdByte (.bs b) a) ∧
      (∀ a, t'.rdByte .host a = s.rdByte .host a) ∧ (∀ k, t'.norm k = s.norm k)
    (∀ errs r, ((s.memErrs errs).takeRow t.val).pulseNext t.val = some r → s.upkGrant t.val = true → T.tempHold = false →
      (∀ x ∈ r.carry.changes, x.1 < 1056) → (∀ x ∈ r.vals, x.1 < 1056) →
      Completes (.programPulse { what := t, errs := errs }) s fun t' => stores t' ∧ (∀ k, t'.cell k ≤ s.cell k) ∧
        (∀ k, (∀ p < 1056, ∀ side < 2, k ≠ cellKey (r.unit t.val) r.carry.row p side) → t'.cell k = s.cell k) ∧
        (T.row = some r → ∃ r', (t'.tile t.val).row = some r' ∧ r'.carry = r.carry ∧
          (if r.stage = .fullRounds then r'.done = r.done + 1 else r'.trims = r.trims + 1 ∧ r'.stage = .verify))) ∧
    (∀ errs r, (((s.memErrs errs).takeRow t.val).tile t.val).row = some r → r.stage = .verify → s.upkGrant t.val = true →
      Completes (.verifyRead { what := t, errs := errs }) s fun t' => stores t' ∧ (∀ k, t'.cell k = s.cell k) ∧
        ((t'.tile t.val).row = none ∨ ∃ r', (t'.tile t.val).row = some r' ∧ r'.stage = .trimRound ∧ r'.carry = r.carry)) ∧
    (∀ errs p ps, T.procs = p :: ps → p.stage = .sweeping → s.otherGrant t.val = true →
      Completes (.sweepRead { what := t, errs := errs }) s fun t' => stores t' ∧ (∀ k, t'.cell k = s.cell k) ∧
        ∀ row, s.sweepRow t.val p = some row → s.rowFolds (t.val * 8 + p.tier) row = false →
          (t'.tile t.val).procs = ps ∨ ∃ q, (t'.tile t.val).procs = q :: ps ∧ (q.stage = .sweeping → q.row = row + 1)) ∧
    (∀ p ps, T.procs = p :: ps → p.stage = .erasing → p.verify = false → s.otherGrant t.val = true → T.tempHold = false →
      Completes (.eraseSubPulse t) s fun t' =>
        (∀ sp a, t'.rdByte sp a = s.rdByte sp a) ∧ (∀ k, s.cell k ≤ t'.cell k) ∧
        (∀ k, k / 2162688 ≠ p.eraseUnit t.val → t'.cell k = s.cell k) ∧
        (∃ q, (t'.tile t.val).procs = q :: ps ∧ q.pulses = p.pulses + 1 ∧ (8 ≤ q.pulses → q.verify = true)))

/-- ERASE_VERIFY of the head procedure: with every cell of the tier at level 30.5 or above the erase is closed; else a
further sub-pulse follows, or after four extra ones the procedure ends. SWEEP_DUE of a RESIDENT tier (or a RETIRED one
that is read) whose interval has run sets SWEEP_DUE and queues the sweep. COPPICE_SWAP at a request boundary, every
row folded: the new tier holds the piece and the old one none, queued carries follow. TIER_LOAD_DONE, when both tiles
of a double-slice piece are written and all rows folded, makes the tier RESIDENT (RETIRED when its 10,000 erases are
spent) with READ_EN set. ADOPTION_SWEEP_DONE without too many exceptions does the same for each tier of the piece.
FENCE_TIMEOUT sets its status bit and aborts the blocking micro-batches. No cell changes, and no memory (for
FENCE_TIMEOUT: if the job has no pager transfer in flight). Completes: eraseVerify, sweepDue, coppiceSwap,
tierLoadDone, adoptionSweepDone, fenceTimeout.
Cites: R35, R36, R40, R118, R126, R130, R134, R135, R136. -/
def Obligations.TileUpkeepMilestones : Prop :=
  ∀ (s : State),
    let live (t' : State) (u : Nat) : Prop := t'.tierState u = (if 10000 ≤ (s.tier u).erases then stRetired else stResident) ∧
      t'.readEn (u / 8) (u % 8) = true
    (∀ (t : TileId) p ps, (s.tile t.val).procs = p :: ps → p.stage = .erasing → p.verify = true → (s.tile t.val).read = none →
      Completes (.eraseVerify t) s fun t' => SameMem s t' ∧
        (if s.eraseOk (p.eraseUnit t.val) = true then (t'.tier (p.eraseUnit t.val)).eraseOpen = false
         else if p.extra < 4 then (t'.tile t.val).procs = { p with verify := false } :: ps
         else (t'.tile t.val).procs = ps)) ∧
    (∀ u : TileTierId, s.tierState u.val = stResident ∨ s.tierState u.val = stRetired ∧ s.readEn (u.val / 8) (u.val % 8) = true →
      (s.tier u.val).sweepS = 0 → s.rbit (tierReg u.val) 20 = false →
      Completes (.sweepDue u) s fun t' => SameMem s t' ∧ t'.rbit (tierReg u.val) 20 = true ∧ t'.tiers = s.tiers ∧
        ∃ p ∈ (t'.tile (u.val / 8)).procs, p.kind = .sweep ∧ p.tier = u.val % 8 ∧ p.stage = .sweeping) ∧
    (∀ (t : TileId) p ps new, (s.tile t.val).procs = p :: ps → p.kind = .coppiceFree new → p.tier < 8 → new < 8 → new ≠ p.tier →
      let v := twinUnit (t.val * 8) / 8
      let ds := (s.tier (t.val * 8 + p.tier)).dslice
      let idle (x : Nat) : Prop := (s.tile x).read = none ∧ (s.tile x).row = none ∧
        ∃ q qs, (s.tile x).procs = q :: qs ∧ q.stage = .swapping ∧ q.tier = p.tier
      let moved (t' : State) (x : Nat) : Prop := (t'.tier (x * 8 + new)).tensor = (s.tier (x * 8 + p.tier)).tensor ∧
        (t'.tier (x * 8 + new)).shadow = (s.tier (x * 8 + p.tier)).shadow ∧ (t'.tier (x * 8 + p.tier)).tensor = none ∧
        live t' (x * 8 + new) ∧ t'.readEn x p.tier = false ∧ (t'.tile x).procs = ((s.tile x).procs.drop 1).filter (fun q => !(q.kind == .sweep && q.tier == p.tier)) ∧
        (t'.tile x).carries = ((s.tile x).readdress p.tier new).carries
      idle t.val → (ds = true → idle v) → s.foldDue (t.val * 8 + p.tier) = false → Completes (.coppiceSwap t) s fun t' => SameMem s t' ∧ moved t' t.val ∧
        (ds = true → moved t' v)) ∧
    (∀ (u : TileTierId) p rest,
      pickFirst (fun p => p.kind == .load && p.tier == u.val % 8 && p.stage == .finished) (s.tile (u.val / 8)).procs =
        some (p, rest) → ((s.tier u.val).dslice = true → (s.tile (twinUnit u.val / 8)).writes (u.val % 8) = false) →
      s.foldDue u.val = false → Completes (.tierLoadDone u) s fun t' => SameMem s t' ∧ live t' u.val ∧
        (t'.tile (u.val / 8)).procs = rest ∧ (t'.tier u.val).lastErase = false) ∧
    (∀ u : TileTierId,
      let e := evenUnit (s.tier u.val).dslice u.val
      let units := if (s.tier u.val).dslice = true then [e, e + 8] else [e]
      let swept (v : Nat) : Option (TierProc × List TierProc) :=
        pickFirst (fun p => p.kind == .adopt && p.tier == v % 8 && p.stage == .finished) (s.tile (v / 8)).procs
      (∀ v ∈ units, (swept v).isSome = true) → Completes (.adoptionSweepDone u) s fun t' => SameMem s t' ∧
        ((s.tier e).erases < 10000 →
          (∀ v ∈ units, ∀ p rest, swept v = some (p, rest) → p.exc ≤ s.rf (blockReg (e / 512) 0x2008) 31 16) →
          ∀ v ∈ units, live t' v ∧ ∀ p rest, swept v = some (p, rest) → (t'.tile (v / 8)).procs = rest)) ∧
    (∀ (t : TileId) c r, (s.tile t.val).carries.filter (fun c => match c.tag with
        | some g => !(s.tile t.val).fenceOk g | none => false) = c :: r →
      s.rf (blockReg (tileBlock t.val) 0x2008) 15 0 ≤ (s.tile t.val).fenceMs →
      Completes (.fenceTimeout t) s fun t' => (∀ k, t'.cell k = s.cell k) ∧
        ((∀ x ∈ (s.slot (c.job.getD 0)).acts, x.state ≠ 1 ∧ x.state ≠ 4 ∧ x.state ≠ 6) → SameMem s t') ∧ t'.rbit (blockReg (tileBlock t.val) 0x200C) 3 = true ∧
        (t'.tile t.val).fenceMs = 0 ∧
        (t'.slot (c.job.getD 0)).aborted = (s.slot (c.job.getD 0)).aborted ++
          (((s.slot (c.job.getD 0)).open_.filter fun o => o.tiles.contains t.val && decide (o.epoch < c.tag.getD 0)).map
            fun o => o.mb))

/-- UPDATE_TASK with an UPDATE task in the block's carry engine completes. If the job does not name the tensor, or the
tier is not of this block (or is a pair's odd tile), the task fails and no memory changes. If its step was skipped the
part is done with no memory changed; if the tensor is read-only also status bit 5 is set. Otherwise no cell, block
store or host byte changes, and in the piece's stack only bytes of the records of its rows and columns. For a delta
vector in a block store, all of it finite and unpoisoned, with every record of the piece valid and no storage error,
each record becomes that of R104 to R106 for its integer delta under some rounding bits. Completes: updateTask.
Cites: R12, R15, R103, R104, R105, R106, R110, R138, R453, R615. -/
def Obligations.UpdateTaskChangesOnlyItsPiece : Prop :=
  ∀ (s : State) (b : BlockId) (errs : List MemErr) (r : RTask), s.working b.val engCarry 6 (fun _ => true) = some r →
    let u := upTier r.task.record + (if r.odd = true then 512 else 0)
    let I := s.tier u
    let j := r.task.job
    let sl := s.slot j
    let named := match I.tensor with
      | some n => (sl.tensors.find? fun x => x.1 = n).map fun x => x.2
      | none => none
    let mine := u / 512 = b.val ∧ ¬ (I.dslice = true ∧ u / 8 % 2 = 1)
    let skip := sl.skipped.contains r.task.step = true
    let w := if upBf16 r.task.record = true then 2 else 4
    let delta (row col : Nat) : BAddr := (addrAt r.addrs 0).plus ((1024 * row + col) * w)
    let d (row col : Nat) : FpNum :=
      ((if upBf16 r.task.record = true then bf16 else fp32).input (s.denorm j) (s.rdNAt (delta row col) w)).1
    (named = none ∨ ¬ mine → Completes (.updateTask b errs) s fun t => SameMem s t ∧ t.rbit (blockReg b.val 0xC304) 24 = true) ∧
    (named.isSome = true → mine → skip → Completes (.updateTask b errs) s fun t =>
      SameMem s t ∧ SameManagement s t ∧ SameRegs s t [] ∧ t.tiles = s.tiles) ∧
    (named = some false → mine → ¬ skip → Completes (.updateTask b errs) s fun t =>
      SameMem s t ∧ SameManagement s t ∧ t.tiles = s.tiles ∧ t.rbit (blockReg b.val 0x200C) 5 = true ∧
      SameRegs s t [blockReg b.val 0x200C, regionReg (b.val / 16) 0x5004]) ∧
    (named = some true → mine → ¬ skip → I.rows ≤ 1024 → I.cols ≤ 1024 → I.shadow + 3145728 ≤ hbmSize →
      Completes (.updateTask b errs) s fun t => (∀ k, t.cell k = s.cell k) ∧ (∀ c a, t.rdByte (.bs c) a = s.rdByte (.bs c) a) ∧
        (∀ a, t.rdByte .host a = s.rdByte .host a) ∧
        (∀ g a, a < hbmSize → (g = unitStack u → ∀ row < I.rows, ∀ col < I.cols,
          a < recAddr I.shadow row col ∨ recAddr I.shadow row col + 3 ≤ a) → t.rdByte (.hbm g) a = s.rdByte (.hbm g) a)) ∧
    (named = some true → mine → ¬ skip → I.rows ≤ 1024 → I.cols ≤ 1024 → I.shadow + 3145728 ≤ hbmSize → j < 64 →
      r.reran = false → (addrAt r.addrs 0).pool = 0 →
      (∀ row < I.rows, ∀ col < I.cols, s.poisonedAt (delta row col) w = false ∧ (d row col).isFinite = true ∧
        s.recBad I u row col = none) →
      Completes (.updateTask b []) s fun t => ∀ row < I.rows, ∀ col < I.cols, ∃ g,
        t.rdRec I u row col = (carryUpdate I.dslice (s.rdRec I u row col)
          (intDelta I.dslice (s.sums j) I.sigma g (d row col)).1 (s.rf (blockReg b.val 0x2000) 3 0)).1)

/-- MATMUL_START, when the core can start its oldest request, takes it off the queue and holds its run: for a request
without stochastic sums each accumulator is the sum of R149 to R151 over the operands in the block store.
MATMUL_CHECK_PASS on the oldest run due: with no failing comparison it is checked; a first failure runs the request
again; a repeated one drops it, marks its task's results poisoned (what becomes of the task is the model's choice,
assumption 147), counts it and logs it. No memory changes. Completes: matmulStart, matmulCheckPass.
Cites: R143, R149, R150, R151, R159, R162, R163, R164. -/
def Obligations.MatmulStartAndCheck : Prop :=
  ∀ (s : State) (b : BlockId),
    let C := (s.block b.val).mc
    (∀ errs q rest, C.canStart = true → C.queue = q :: rest → Completes (.matmulStart b errs) s fun t => SameMem s t ∧
      (t.block b.val).mc.queue = rest ∧ (t.block b.val).mc.bank = !C.bank ∧
      ∃ run, (t.block b.val).mc.runs = C.runs ++ [run] ∧ run.req = q ∧ run.stage = .checking ∧ run.rerun = 0 ∧
        (q.task.job < 64 → mqGacc q.req = false ∨ s.sums q.task.job = false → ∀ m < mqM q.req, ∀ n < mqN q.req,
          SMap.get (fun _ => 0) run.acc (m * 128 + n) =
            (s.mcPe b.val q.req (s.denorm q.task.job) .nearest (fun _ => 0) m n).1)) ∧
    (∀ f before r after, splitRuns .checking C.runs = some (before, r, after) → Completes (.matmulCheckPass b f) s fun t =>
      SameMem s t ∧
      match r.failure f with
      | none => (t.block b.val).mc.runs = before ++ { r with stage := .checked } :: after ∧
          (r.rerun = 1 → t.rbit (blockReg b.val 0x4004) 0 = true) ∧ (r.rerun = 2 → t.rbit (blockReg b.val 0x4004) 2 = true)
      | some (kind, _, _, _) =>
        if r.rerun = 0 then ∃ r', (t.block b.val).mc.runs = before ++ r' :: after ∧ r'.req = r.req ∧ r'.stage = .checking ∧
          r'.rerun = if kind = 1 then 1 else 2
        else (t.block b.val).mc.runs = before ++ after ∧
          t.rbit (blockReg b.val 0x4004) (if kind = 1 then 1 else 3) = true ∧
          (t.block b.val).running = (s.block b.val).running.map fun x =>
            if x.num = r.req.task.num then { x with poisoned := true, left := x.left - 1 } else x)

/-- MATMUL_WRITE_PASS on the oldest checked request: an unchained one begins its write pass with no memory changed; a
chained one with a valid element-program slot and legal words starts the vector engine at the slot's entry.
MATMUL_WRITE_DONE on a request in its write pass stores bytes only within the request's output runs in its block
store, counts the request and ends it; without MX scales and checksum record, with rows that do not overlap, each row
holds the packed codes of its accumulators. Storage errors may be found. Completes: matmulWritePass, matmulWriteDone.
Cites: R147, R155, R156, R165, R166, R193, R197. -/
def Obligations.MatmulOutput : Prop :=
  ∀ (s : State) (b : BlockId) (r : McRun) (rest : List McRun), (s.block b.val).mc.runs = r :: rest →
    let q := r.req.req
    let slot := s.rn (blockReg b.val (0x5020 + 4 * r.req.slot))
    let dn := s.denorm r.req.task.job
    (r.stage = .checked → mqChain q = false → Completes (.matmulWritePass b) s fun t => SameMem s t ∧
      ∃ r', (t.block b.val).mc.runs = r' :: rest ∧ r'.stage = .writing ∧ r'.acc = r.acc ∧ r'.req = r.req) ∧
    (r.stage = .checked → mqChain q = true → (s.block b.val).ve.run = none → bit slot 31 = true →
      (∀ i < bits slot 20 16 + 1, bits slot 9 0 + i < 1024 ∧ veLegal true (s.veWord b.val (bits slot 9 0 + i)) = true) →
      Completes (.matmulWritePass b) s fun t => SameMem s t ∧ (t.block b.val).ve.pc = bits slot 9 0 ∧
        (∃ R, (t.block b.val).ve.run = some R ∧ R.chain = true ∧ R.task = r.req.task ∧ R.m = mqM q ∧ R.n = mqN q ∧ R.chunk = 0) ∧
        (t.block b.val).mc.runs = { r with stage := .chained } :: rest) ∧
    (r.stage = .checked → mqChain q = true → (s.block b.val).ve.run = none →
      ¬ (bit slot 31 = true ∧ ∀ i < bits slot 20 16 + 1, bits slot 9 0 + i < 1024 ∧
        veLegal true (s.veWord b.val (bits slot 9 0 + i)) = true) →
      Completes (.matmulWritePass b) s fun t => SameMem s t ∧ t.rbit (blockReg b.val 0x5004) 0 = true) ∧
    (∀ errs, r.stage = .writing → mqBad q = false → mqChain q = false →
      Completes (.matmulWriteDone { what := b, errs := errs }) s fun t =>
      (t.block b.val).mc.runs = rest ∧ (∀ k, t.cell k = s.cell k) ∧
      (r.req.task.job < 64 →
        t.rn (blockReg b.val 0x4010) = min (2 ^ 32 - 1) (s.rn (blockReg b.val 0x4010) + 1)) ∧
      (∀ sp a, (∀ c, sp = .bs c → a < bsSize) → (sp = .bs b.val → ∀ x ∈ mqWrites q, a < x.1 ∨ x.1 + x.2 ≤ a) →
        t.rdByte sp a = s.rdByte sp a) ∧
      (mqOutMx q = false → mqCsum q = false → packed (mqOutFmt q) (mqN q) ≤ 64 * mqCStride q → ∀ m < mqM q,
        ∀ i < packed (mqOutFmt q) (mqN q), t.rdByte (.bs b.val) (64 * (mqCOut q + mqCStride q * m) + i) =
          (packRow (mcFmt (mqOutFmt q)) ((List.range (mqN q)).map fun n =>
            mcOut (mcFmt (mqOutFmt q)) dn (McRun.num r.acc (m * 128 + n)))).getD i 0))

/-- FADD, FSUB, FMUL, FMA, FMAX, FMIN, FABS, FNEG, FSCALE and the six transcendental instructions complete wherever the
engine stands at their legal word and no check finds an error: lane l of VD becomes the result on lane l of the
operands (with broadcasts and SB) under the word's rounding mode and the job's DENORM; sums, products and fused sums
are rounded once from the exact value; the sticky bits of VE_STATUS show overflow, division by zero, NaN and flushes;
no other lane, A or S register, block, tile, tier or memory changes. FRCP to FSIGM give the values of R181 and its
table for special operands, else a code within the table's error that the device chooses. Completes: veFadd, veFsub,
veFmul, veFma, veFmax, veFmin, veFabs, veFneg, veFscale, veFrcp, veFrsq, veFexp2, veFlog2, veFtanh, veFsigm.
Cites: R173, R174, R175, R180, R181, R198, R199. -/
def Obligations.VectorFloat : Prop :=
  let f32 (dn : Bool) (x : Nat) : FpNum := (fp32.input dn x).1
  VeLane 0x10 (fun b => .veFadd b noFault) (fun s b R w l g => addL (wMode w) R.denorm g (s.opA b R w l) (s.opB b R w l)) ∧
  VeLane 0x11 (fun b => .veFsub b noFault) (fun s b R w l g =>
    fp2 (fun x y => FpNum.add (wMode w) x y.neg) (wMode w) R.denorm g (s.opA b R w l) (s.opB b R w l)) ∧
  VeLane 0x12 (fun b => .veFmul b noFault) (fun s b R w l g =>
    fp2 FpNum.mul (wMode w) R.denorm g (s.opA b R w l) (s.opB b R w l)) ∧
  VeLane 0x13 (fun b => .veFma b noFault) (fun s b R w l g =>
    fmaL (wMode w) R.denorm g (s.opA b R w l) (s.opB b R w l) (s.opC b R w l)) ∧
  VeLane 0x14 (fun b => .veFmax b noFault) (fun s b R w l g => fp2 numMax .nearest R.denorm g (s.opA b R w l) (s.opB b R w l)) ∧
  VeLane 0x15 (fun b => .veFmin b noFault) (fun s b R w l g => fp2 numMin' .nearest R.denorm g (s.opA b R w l) (s.opB b R w l)) ∧
  VeLane 0x16 (fun b => .veFabs b noFault) (fun s b R w l _ =>
    { code := (fp32.round .nearest true 0 (f32 R.denorm (s.opA b R w l)).abs).code
      nan := (f32 R.denorm (s.opA b R w l)).isNaN, flushed := (fp32.input R.denorm (s.opA b R w l)).2 }) ∧
  VeLane 0x17 (fun b => .veFneg b noFault) (fun s b R w l _ =>
    { code := (fp32.round .nearest true 0 (positiveNaN (f32 R.denorm (s.opA b R w l)).neg)).code
      nan := (f32 R.denorm (s.opA b R w l)).isNaN, flushed := (fp32.input R.denorm (s.opA b R w l)).2 }) ∧
  VeLane 0x18 (fun b => .veFscale b noFault) (fun s b R w l g =>
    let x := f32 R.denorm (s.opA b R w l)
    outF (wMode w) R.denorm g (fp32.input R.denorm (s.opA b R w l)).2 x.isNaN
      (if x.isNaN = true then .nan false else x.scale (sext 8 (wImm w)))) ∧
  VeLane 0x1A (fun b => .veFrcp b noFault) (fun s b R w l _ => transL 0x1A R.denorm (s.opA b R w l)) ∧
  VeLane 0x1B (fun b => .veFrsq b noFault) (fun s b R w l _ => transL 0x1B R.denorm (s.opA b R w l)) ∧
  VeLane 0x1C (fun b => .veFexp2 b noFault) (fun s b R w l _ => transL 0x1C R.denorm (s.opA b R w l)) ∧
  VeLane 0x1D (fun b => .veFlog2 b noFault) (fun s b R w l _ => transL 0x1D R.denorm (s.opA b R w l)) ∧
  VeLane 0x1E (fun b => .veFtanh b noFault) (fun s b R w l _ => transL 0x1E R.denorm (s.opA b R w l)) ∧
  VeLane 0x1F (fun b => .veFsigm b noFault) (fun s b R w l _ => transL 0x1F R.denorm (s.opA b R w l))

/-- FCMPLT, FCMPLE, FCMPEQ write 0xFFFFFFFF where the comparison holds and neither operand is a NaN, else 0; SEL writes VA
where VC is not 0, else the second operand; IADD, ISUB and IMUL wrap at 2^32, IAND, IOR, IXOR are bitwise, ISHL, ISHRA
and ISHRL shift by the low five bits of the second operand, ICMPLTU writes 0xFFFFFFFF where VA is below it. They
complete and leave everything else as VectorFloat says. Completes: veFcmplt, veFcmple, veFcmpeq, veSel, veIadd,
veIsub, veImul, veIand, veIor, veIxor, veIshl, veIshra, veIshrl, veIcmpltu.
Cites: R173, R174, R182, spec/06_vector_engine.md. -/
def Obligations.VectorIntegerAndCompare : Prop :=
  let cmp (p : Int → Bool) (dn : Bool) (x y : Nat) : LaneRes :=
    let a := fp32.input dn x
    let b := fp32.input dn y
    { code := if (!a.1.isNaN && !b.1.isNaN && p (FpNum.cmp a.1 b.1)) = true then 0xFFFFFFFF else 0
      nan := a.1.isNaN || b.1.isNaN, flushed := a.2 || b.2 }
  let int (f : Nat → Nat → Nat) (s : State) (b : Nat) (R : VeRun) (w l _g : Nat) : LaneRes :=
    { code := f (s.opA b R w l) (s.opB b R w l) }
  VeLane 0x20 (fun b => .veFcmplt b noFault) (fun s b R w l _ =>
    cmp (fun c => decide (c < 0)) R.denorm (s.opA b R w l) (s.opB b R w l)) ∧
  VeLane 0x21 (fun b => .veFcmple b noFault) (fun s b R w l _ =>
    cmp (fun c => decide (c ≤ 0)) R.denorm (s.opA b R w l) (s.opB b R w l)) ∧
  VeLane 0x22 (fun b => .veFcmpeq b noFault) (fun s b R w l _ =>
    cmp (fun c => decide (c = 0)) R.denorm (s.opA b R w l) (s.opB b R w l)) ∧
  VeLane 0x23 (fun b => .veSel b noFault) (fun s b R w l _ =>
    { code := if s.opC b R w l ≠ 0 then s.opA b R w l else s.opB b R w l }) ∧
  VeLane 0x28 (fun b => .veIadd b noFault) (int fun x y => (x + y) % 2 ^ 32) ∧
  VeLane 0x29 (fun b => .veIsub b noFault) (int fun x y => (x + 2 ^ 32 - y) % 2 ^ 32) ∧
  VeLane 0x2A (fun b => .veImul b noFault) (int fun x y => x * y % 2 ^ 32) ∧
  VeLane 0x2B (fun b => .veIand b noFault) (int fun x y => x &&& y) ∧
  VeLane 0x2C (fun b => .veIor b noFault) (int fun x y => x ||| y) ∧
  VeLane 0x2D (fun b => .veIxor b noFault) (int fun x y => x ^^^ y) ∧
  VeLane 0x2E (fun b => .veIshl b noFault) (int fun x y => x * 2 ^ (y % 32) % 2 ^ 32) ∧
  VeLane 0x2F (fun b => .veIshra b noFault) (int fun x y => enc2c 32 (i32 x / (2 ^ (y % 32) : Nat))) ∧
  VeLane 0x30 (fun b => .veIshrl b noFault) (int fun x y => x / 2 ^ (y % 32)) ∧
  VeLane 0x31 (fun b => .veIcmpltu b noFault) (int fun x y => if x < y then 0xFFFFFFFF else 0)

/-- CVTW, CVTI and CVTFI write each lane of VD by R185 and R188. CVTN without MX packs each row's 16 results into their
part of VD's row (R186); with MX it packs 32 results and writes the group's scale byte into VB (R187). RSUMR and RSUMC
write the tree sums of R183 into column 0 or row 0 and 0 elsewhere; RSUMS writes the total into S. RMAXR, RMAXC,
RAMAXR and RAMAXC write the maximum over the lanes that R194 does not skip, a free value when none is left. FACC and
FMAXACC write the lanes not skipped. CMB by R189 and R190; SPR the mask or value of R250 to R253. They complete and
leave everything else as VectorFloat says. Completes: veCvtw, veCvtn, veCvti, veCvtfi, veRsumr, veRsumc, veRsums,
veRmaxr, veRmaxc, veRamaxr, veRamaxc, veFacc, veFmaxacc, veCmb, veSpr.
Cites: R183, R184, R185, R186, R187, R188, R189, R190, R194, R196, R251, R252. -/
def Obligations.VectorConvertAndReduce : Prop :=
  let runs (op : Nat) (c : BlockId → Instr) (P : State → State → Nat → VeRun → Nat → (Nat → Nat) → Prop) : Prop :=
    ∀ (s : State) (b : BlockId) (R : VeRun), VeAt s b.val op R → R.task.job < 64 →
      let w := s.veWord b.val (s.block b.val).ve.pc
      Completes (c b) s fun t => SameMem s t ∧ VeOn s t b.val R ∧
        ∃ g : Nat → Nat, (wRm w ≠ 4 → ∀ i, g i = 0) ∧ P s t b.val R w g
  let tree (R : VeRun) (w : Nat) (g : Nat → Nat) (n : Nat) (l : List Nat) : LaneRes :=
    treeSum (wMode w) R.denorm g n 0 (l.map fun x => { code := x })
  let rowTree (s : State) (b : Nat) (R : VeRun) (w : Nat) (g : Nat → Nat) (r : Nat) : LaneRes :=
    tree R w (fun k => g (r * 16 + k)) 4 ((List.range 16).map fun c => s.opA b R w (r * 16 + c))
  let maxOf (mag : Bool) (s : State) (b : Nat) (R : VeRun) (w : Nat) (ls : List Nat) : Option LaneRes :=
    maxList mag R.denorm ((ls.filter fun l => !R.skips l).map fun l => s.opA b R w l)
  let rows (mag : Bool) (s t : State) (b : Nat) (R : VeRun) (w : Nat) (_ : Nat → Nat) : Prop :=
    ∃ x : Nat → LaneRes, VeWrites s t b w (perRow ((List.range 32).map x)) ∧
      ∀ r < 32, ∀ y, maxOf mag s b R w ((List.range 16).map fun c => r * 16 + c) = some y → x r = y
  let cols (mag : Bool) (s t : State) (b : Nat) (R : VeRun) (w : Nat) (_ : Nat → Nat) : Prop :=
    ∃ x : Nat → LaneRes, VeWrites s t b w (perCol ((List.range 16).map x)) ∧
      ∀ c < 16, ∀ y, maxOf mag s b R w ((List.range 32).map fun r => r * 16 + c) = some y → x c = y
  let acc (h : RM → Bool → Nat → Nat → Nat → LaneRes) (s t : State) (b : Nat) (R : VeRun) (w : Nat) (g : Nat → Nat) : Prop :=
    VeWrites s t b w (((List.range 512).filter fun l => !R.skips l).map fun l =>
      (l, h (wMode w) R.denorm (g l) (s.veReg b R (wVd w) l) (s.opA b R w l)))
  VeLane 0x38 (fun b => .veCvtw b noFault) (fun s b R w l _ =>
    let e := 16 * cPart w + l % 16
    let n := cBits (cFmt w)
    cvtwL R.denorm (cFmt w) (cXs w)
      (if cMx w = true then some (bits (s.veRow b R (wVb w) (wBb w) (l / 16)) (e / 32 * 8 + 7) (e / 32 * 8)) else none)
      (bits (s.veRow b R (wVa w) (wBa w) (l / 16)) (e * n + n - 1) (e * n))) ∧
  VeLane 0x3A (fun b => .veCvti b noFault) (fun s b R w l g => cvtiL (wMode w) R.denorm g (sext 8 (wImm w)) (s.opA b R w l)) ∧
  VeLane 0x3B (fun b => .veCvtfi b noFault) (fun s b R w l g => cvtfiL (wMode w) R.denorm g (sext 8 (wImm w)) (s.opA b R w l)) ∧
  runs 0x39 (fun b => .veCvtn b noFault) (fun s t b R w g =>
    let n := cBits (cFmt w)
    let field (reg r k : Nat) : Nat := bits (t.veRow b R reg 0 r) (k * n + n - 1) (k * n)
    (∀ k, k / 512 ≠ wVd w → (cMx w = true → k / 512 ≠ wVb w) →
      SMap.get (fun _ => 0) (t.block b).ve.v k = SMap.get (fun _ => 0) (s.block b).ve.v k) ∧
    (t.block b).ve.a = (s.block b).ve.a ∧ (t.block b).ve.s = (s.block b).ve.s ∧
    if cMx w = true then
      wVb w ≠ wVd w → ∀ r < 32,
        let x := mxGroup (cFormat (cFmt w)) (wMode w) R.denorm (fun i => g (r * 32 + i))
          ((List.range 32).map fun i => (fp32.input R.denorm (s.veSrc b R (wVa w + i / 16) (wBa w) (r * 16 + i % 16))).1)
        (∀ i < 32, field (wVd w) r (32 * cPart w + i) = (x.2.getD i { code := 0 }).code % 2 ^ n) ∧
        bits (t.veRow b R (wVb w) 0 r) (8 * cPart w + 7) (8 * cPart w) = x.1 % 256
    else (∀ r < 32, ∀ c < 16, field (wVd w) r (16 * cPart w + c) =
      (cvtnL (wMode w) R.denorm (g (r * 16 + c)) (cFmt w) (cXs w) (s.opA b R w (r * 16 + c))).code % 2 ^ n)) ∧
  runs 0x40 (fun b => .veRsumr b noFault) (fun s t b R w g =>
    VeWrites s t b w (perRow ((List.range 32).map fun r => rowTree s b R w g r))) ∧
  runs 0x41 (fun b => .veRsumc b noFault) (fun s t b R w g =>
    VeWrites s t b w (perCol ((List.range 16).map fun c =>
      tree R w (fun k => g (c * 32 + k)) 5 ((List.range 32).map fun r => s.opA b R w (r * 16 + c))))) ∧
  runs 0x46 (fun b => .veRsums b noFault) (fun s t b R w g =>
    (t.block b).ve.v = (s.block b).ve.v ∧ (t.block b).ve.a = (s.block b).ve.a ∧
    ∀ k, t.veS b k = if k = wVd w then
      (treeSum (wMode w) R.denorm (fun k => g (512 + k)) 5 0 ((List.range 32).map fun r => rowTree s b R w g r)).code
      else s.veS b k) ∧
  runs 0x42 (fun b => .veRmaxr b noFault) (rows false) ∧ runs 0x44 (fun b => .veRamaxr b noFault) (rows true) ∧
  runs 0x43 (fun b => .veRmaxc b noFault) (cols false) ∧ runs 0x45 (fun b => .veRamaxc b noFault) (cols true) ∧
  runs 0x4C (fun b => .veFacc b noFault) (acc addL) ∧
  runs 0x4D (fun b => .veFmaxacc b noFault) (acc fun _ dn g x y => fp2 numMax .nearest dn g x y) ∧
  runs 0x48 (fun b => .veCmb b noFault) (fun s t b R w g =>
    let h := s.veS b (wVb w)
    let e : Int := i16 (h % 65536) + sext 8 (wImm w)
    VeWrites s t b w ((List.range 512).map fun l =>
      if bit h 16 = true then (l, { code := fp32.nanCode false, nan := true })
      else
        let p := cvtiL (wMode w) R.denorm (g l) e (s.opA b R w l)
        let y := addL (wMode w) R.denorm (g (512 + l)) (s.opC b R w l) p.code
        (l, { y with ovf := y.ovf || p.ovf, flushed := y.flushed || p.flushed }))) ∧
  VeLane 0x50 (fun b => .veSpr b) (fun s b R w l _ =>
    let sr (i : Nat) : Nat := s.veS b (bits (wImm w) 3 0 + i)
    let off := if bits (wImm w) 6 6 = 1 then chunkM R.chunk l * sr 5 + chunkN R.chunk l else l
    let v := sporeValue (s.rn (tsReg R.task.job 0)) (s.rn (tsReg R.task.job 4)) (sr 1) (sr 2) R.task.step ((sr 0 + off) % 2 ^ 32)
    { code := if v < sr 3 % 65536 then 0 else if bits (wImm w) 5 4 = 0 then 0xFFFFFFFF else sr 4 })

/-- LD whose 32 rows lie in the block store fills VD from them and changes no memory; LDS loads one word into S; ST stores
exactly the lanes of its rows (all but those R194 skips), STS one word; every other byte is as before. An address
beyond the store sets VE_STATUS bit 1, ends the program with its task failed, stores nothing and undoes what the chunk
of an element program had stored. In a kernel's program ST and STS store nothing: END leaves the kernel's results (the
model's choice, assumption 27). SETA and ADDA set A modulo 2^17, SETS and SETSL the upper 24 and the low 8 bits of S.
Nothing else of the engine changes, and without storage errors nothing outside it. Completes: veLd, veSt, veLds,
veSts, veSeta, veAdda, veSets, veSetsl.
Cites: R177, R178, R179, R194, R281. -/
def Obligations.VectorMemoryAndScalar : Prop :=
  ∀ (s : State) (b : BlockId) (R : VeRun), R.task.job < 64 →
    let e := (s.block b.val).ve
    let w := s.veWord b.val e.pc
    let addr (r : Nat) : Nat := s.veRowAddr b.val w R r
    let row (r : Nat) : Nat := if wStride w = 0 then 0 else r
    let word := s.veWordAddr b.val w
    let faults (t : State) : Prop := SameMem (s.veUndo b.val R) t ∧ t.rbit (blockReg b.val 0x5004) 1 = true ∧ (t.block b.val).ve.run = none ∧
      (t.block b.val).ve.v = e.v ∧ (t.block b.val).ve.s = e.s
    let lane (t : State) (k : Nat) : Nat := SMap.get (fun _ => 0) (t.block b.val).ve.v k
    let on (errs : List MemErr) (t : State) : Prop := errs = [] → VeOn s t b.val R
    let setS (t : State) (n v : Nat) : Prop := (t.block b.val).ve.v = e.v ∧ (t.block b.val).ve.a = e.a ∧
      ∀ k, t.veS b.val k = if k = n then v else s.veS b.val k
    let setA (t : State) (n v : Nat) : Prop := (t.block b.val).ve.v = e.v ∧ (t.block b.val).ve.s = e.s ∧
      ∀ k, t.veA b.val k = if k = n then v else s.veA b.val k
    let outside (t : State) (seg : Nat → Nat → Prop) : Prop := (∀ k, t.cell k = s.cell k) ∧
      ∀ sp a, (∀ c, sp = .bs c → a < bsSize) → (sp = .bs b.val → ∀ x n, seg x n → a < x ∨ x + n ≤ a) →
        t.rdByte sp a = s.rdByte sp a
    (VeAt s b.val 0x01 R → ∀ errs, ((∀ r < 32, addr (row r) + 64 ≤ bsSize) →
        Completes (.veLd b errs) s fun t => SameMem s t ∧ on errs t ∧ (t.block b.val).ve.s = e.s ∧ (t.block b.val).ve.a = e.a ∧
          ∀ k, lane t k = if k / 512 = wVd w then s.rdN (.bs b.val) (addr (row (k % 512 / 16)) + 4 * (k % 16)) 4
            else SMap.get (fun _ => 0) e.v k) ∧
      (¬ (∀ r < 32, addr (row r) + 64 ≤ bsSize) → Completes (.veLd b errs) s faults)) ∧
    (VeAt s b.val 0x02 R → ∀ errs,
      let kept (r c : Nat) : Prop := r < 32 ∧ c < wWidth w / 4 ∧ R.skips (r * 16 + c) = false
      ((∀ r c, kept r c → addr r + 4 * c + 4 ≤ bsSize) →
        Completes (.veSt b errs noFault) s fun t => on errs t ∧ (t.block b.val).ve.v = e.v ∧ (R.kernel = true → SameMem s t) ∧
          outside t (fun x n => n = 4 ∧ ∃ r c, kept r c ∧ x = addr r + 4 * c) ∧
          ∀ r c, R.kernel = false → kept r c → t.rdN (.bs b.val) (addr r + 4 * c) 4 = s.opA b.val R w (r * 16 + c) % 2 ^ 32) ∧
      (¬ (∀ r c, kept r c → addr r + 4 * c + 4 ≤ bsSize) → Completes (.veSt b errs noFault) s faults)) ∧
    (VeAt s b.val 0x03 R → ∀ errs, if word + 4 ≤ bsSize then
        Completes (.veLds b errs) s fun t => SameMem s t ∧ on errs t ∧ setS t (wVd w) (s.rdN (.bs b.val) word 4)
      else Completes (.veLds b errs) s faults) ∧
    (VeAt s b.val 0x04 R → ∀ errs, if word + 4 ≤ bsSize then
        Completes (.veSts b errs) s fun t => on errs t ∧ (t.block b.val).ve.v = e.v ∧ (t.block b.val).ve.s = e.s ∧
          (R.kernel = true → SameMem s t) ∧ outside t (fun x n => x = word ∧ n = 4) ∧
          (R.kernel = false → t.rdN (.bs b.val) word 4 = s.veS b.val (wVa w) % 2 ^ 32)
      else Completes (.veSts b errs) s faults) ∧
    (VeAt s b.val 0x08 R → Completes (.veSeta b) s fun t => SameMem s t ∧ VeOn s t b.val R ∧ setA t (wVd w) (wImm w % 2 ^ 17)) ∧
    (VeAt s b.val 0x09 R → Completes (.veAdda b) s fun t => SameMem s t ∧ VeOn s t b.val R ∧
      setA t (wVd w) (enc2c 17 ((s.veA b.val (wVd w) : Int) + sext 24 (wImm w)))) ∧
    (VeAt s b.val 0x0A R → Completes (.veSets b) s fun t => SameMem s t ∧ VeOn s t b.val R ∧ setS t (wVd w) (wImm w * 256)) ∧
    (VeAt s b.val 0x0B R → Completes (.veSetsl b) s fun t => SameMem s t ∧ VeOn s t b.val R ∧
      setS t (wVd w) (s.veS b.val (wVd w) / 256 * 256 + wImm w % 256))

/-- NOP and SYNC change nothing but the program address. LOOP with a count of 0 goes on behind its body; else it opens a
loop that starts at the next word. END makes the engine idle and completes the task's part; only the END of a kernel's
part writes memory, the kernel's results (R244; that END leaves them is the model's choice, assumption 27), and no
cell. At an illegal word, or beyond the program store, ILLEGAL_INSTRUCTION sets VE_STATUS bit 0, makes the engine idle
and fails the task; no memory changes. Completes: veNop, veSync, veLoop, veEnd, illegalInstruction.
Cites: R175, R176, R191, R192. -/
def Obligations.VectorControl : Prop :=
  ∀ (s : State) (b : BlockId) (R : VeRun), R.task.job < 64 →
    let e := (s.block b.val).ve
    let w := s.veWord b.val e.pc
    let len := bits (wImm w) 20 16
    let cnt := bits (wImm w) 15 0
    let kept (t : State) : Prop := SameMem s t ∧ (t.block b.val).ve.v = e.v ∧ (t.block b.val).ve.a = e.a ∧
      (t.block b.val).ve.s = e.s ∧ (∀ c, c ≠ b.val → t.block c = s.block c)
    (VeAt s b.val 0x00 R → Completes (.veNop b) s fun t => kept t ∧ VeOn s t b.val R) ∧
    (VeAt s b.val 0x62 R → Completes (.veSync b) s fun t => kept t ∧ VeOn s t b.val R) ∧
    (VeAt s b.val 0x60 R → Completes (.veLoop b) s fun t => kept t ∧ (t.block b.val).ve.run = some R ∧
      if cnt = 0 then ((t.block b.val).ve.loops, (t.block b.val).ve.pc) = loopNext e.loops (e.pc + len + 1)
      else (t.block b.val).ve.pc = e.pc + 1 ∧
        (t.block b.val).ve.loops = { start := e.pc + 1, len := len, total := cnt, done := 0 } :: e.loops) ∧
    (VeAt s b.val 0x61 R → ∀ errs, Completes (.veEnd { what := b, errs := errs }) s fun t => (t.block b.val).ve.run = none ∧
      (t.block b.val).ve.v = e.v ∧ (t.block b.val).ve.a = e.a ∧ (t.block b.val).ve.s = e.s ∧ (∀ k, t.cell k = s.cell k) ∧
      (R.kernel = false → kept t ∧ (t.block b.val).running = (s.block b.val).running.map fun x =>
        if x.num = R.task.num then { x with left := x.left - 1 } else x)) ∧
    (e.run = some R → s.veLegalHere b.val R = false → Completes (.illegalInstruction b) s fun t =>
      SameMem s t ∧ t.rbit (blockReg b.val 0x5004) 0 = true ∧ (t.block b.val).ve.run = none ∧
      ((s.run b.val R.task.num).isSome = true → t.rbit (blockReg b.val 0xC304) 24 = true))

/-- For every checked vector instruction: when the register check finds an uncorrectable error (VE_STATUS bit 13), or,
with residue checks on, an opcode with residue checks fails twice (bit 11), the instruction writes no lane, the engine
becomes idle and every running task of that number is poisoned; a corrected register error sets bit 12 and the
instruction goes on.
Cites: R201, R202. -/
def Obligations.VectorChecksPoison : Prop :=
  let ops : List (Nat × (BlockId → VeFault → Instr)) :=
    [(0x02, fun b f => .veSt b [] f), (0x10, .veFadd), (0x11, .veFsub), (0x12, .veFmul), (0x13, .veFma), (0x14, .veFmax), (0x15, .veFmin),
     (0x16, .veFabs), (0x17, .veFneg), (0x18, .veFscale), (0x1A, .veFrcp), (0x1B, .veFrsq), (0x1C, .veFexp2), (0x1D, .veFlog2),
     (0x1E, .veFtanh), (0x1F, .veFsigm), (0x20, .veFcmplt), (0x21, .veFcmple), (0x22, .veFcmpeq), (0x23, .veSel), (0x28, .veIadd),
     (0x29, .veIsub), (0x2A, .veImul), (0x2B, .veIand), (0x2C, .veIor), (0x2D, .veIxor), (0x2E, .veIshl), (0x2F, .veIshra),
     (0x30, .veIshrl), (0x31, .veIcmpltu), (0x38, .veCvtw), (0x39, .veCvtn), (0x3A, .veCvti), (0x3B, .veCvtfi), (0x40, .veRsumr),
     (0x41, .veRsumc), (0x42, .veRmaxr), (0x43, .veRmaxc), (0x44, .veRamaxr), (0x45, .veRamaxc), (0x46, .veRsums), (0x48, .veCmb),
     (0x4C, .veFacc), (0x4D, .veFmaxacc)]
  ∀ x ∈ ops, ∀ (s : State) (b : BlockId) (R : VeRun) (f : VeFault), VeAt s b.val x.1 R →
    let bad := f.res = 2 ∧ resChecked x.1 = true ∧ (s.block b.val).ve.cfg % 2 = 1
    (f.ecc = 2 ∨ f.ecc ≠ 2 ∧ bad → Completes (x.2 b f) s fun t => SameMem s t ∧ (t.block b.val).ve.v = (s.block b.val).ve.v ∧
      (t.block b.val).ve.run = none ∧ t.rbit (blockReg b.val 0x5004) (if f.ecc = 2 then 13 else 11) = true ∧
      ∀ y ∈ (t.block b.val).running, y.num = R.task.num → y.poisoned = true) ∧
    (f.ecc = 1 → ¬ bad → Completes (x.2 b f) s fun t => t.rbit (blockReg b.val 0x5004) 12 = true)

/-- For every state, requester that reaches the device, access and value: a write to NUM_MODE, NUM_LSCALE,
TS_SPORE_KEY0/1, TS_SPORE_STEP, TS_ACT_CFG, TS_NORM_CFG or TS_CLIP of a slot whose NUM_STATUS.ACTIVE is 1, to
VE_PSTORE while the engine is busy, to LINK_CFG changing BIFUR while an EN bit is 1, or to a message area whose
mailbox is POSTED, BUSY or DONE, answers a next state in which the write has been answered by Completer Abort and no
register but REG_ERR0, REG_ERR1 and REG_ERRCNT, no memory, no unit and no mailbox has changed. (Which event reports it
depends on the check that refuses first.)
Cites: R204, R242, R275, R388, R462. -/
def Obligations.RegisterRulesRefuseWrites : Prop :=
  ∀ (s : State) (w : Writer) (a : Access) (v : Nat), s.reaches w = true →
    let no (c : Instr) : Prop := Completes c s fun t => ∃ ev, Aborted s t (.regWrite true) ev
    (∀ r, locOf a.off = .reg r →
      (r.desc.id = .numMode ∨ r.desc.id = .numLscale → s.rbit (numReg r.idx 4) 16 = true → no (.numModeWrite w a v)) ∧
      ([RegId.tsSporeKey0, .tsSporeKey1, .tsSporeStep, .tsActCfg, .tsNormCfg, .tsClip].contains r.desc.id = true →
        s.rbit (numReg r.idx 4) 16 = true → no (.tsContextWrite w a v)) ∧
      (r.desc.id = .vePstore → (s.block r.unit).ve.run ≠ none → no (.vePstoreWrite w a v)) ∧
      (r.desc.id = .linkCfg → bit v 2 ≠ s.rbit a.off 2 → s.rf a.off 1 0 ≠ 0 → no (.linkCfgWrite w a v))) ∧
    (∀ m off, locOf a.off = .area m off → 2 ≤ s.mbState m → no (.mailboxAreaWrite w a v))

/-- For every state, requester, access and value that passes the checks of R497 at ZGW_TENSOR or ZGW_CFG of entry e: the
write completes, RUN and FIRED of entry e are 0, the register holds the value written, no register but these two and
no memory or unit has changed. Completes: zgwWrite.
Cites: R238. -/
def Obligations.ZeroGradientWatchWrite : Prop :=
  ∀ (s : State) (w : Writer) (a : Access) (v : Nat) (r : RegRef), Accepted s w a v r →
    (r.desc.id = .zgwTensor ∧ a.off = zgwReg r.idx 0 ∨ r.desc.id = .zgwCfg ∧ a.off = zgwReg r.idx 4) →
    Completes (.zgwWrite w a v) s fun t => t.rf (zgwReg r.idx 8) 15 0 = 0 ∧ t.rbit (zgwReg r.idx 8) 16 = false ∧
      Wrote r.desc (s.reg a.off) (t.reg a.off) v ∧ SameRegs s t [a.off, zgwReg r.idx 8] ∧ SameMem s t ∧ SameUnits s t

/-- For every state and every accepted write of 1 to MB_DOORBELL.RING of a mailbox in POSTED, BUSY or DONE: the command
completes, MB_STATUS.OVERRUN is 1, event 0x0471 is reported, no other bit of MB_STATUS and no other register has
changed, nor any memory, unit or mailbox contents.
Cites: R461. -/
def Obligations.MailboxOverrun : Prop :=
  ∀ (s : State) (w : Writer) (a : Access) (v : Nat) (r : RegRef), Accepted s w a v r → r.desc.id = .mbDoorbell →
    bit v 0 = true → 2 ≤ s.mbState r.unit → Completes (.mailboxRing w a v) s fun t =>
      t.rbit (mbReg r.unit 4) 4 = true ∧ (∀ i < 32, i ≠ 4 → t.rbit (mbReg r.unit 4) i = s.rbit (mbReg r.unit 4) i) ∧
      SameRegs s t [mbReg r.unit 4] ∧ SameMem s t ∧ SameUnits s t ∧ t.fw.boxes = s.fw.boxes ∧
      t.fw.reports = s.fw.reports ++ [{ code := 0x0471, kind := 0, unit := 0, job := 255, task := 0, count := 1 }]

/-- For every accepted write (every check of R497 passes): NUM_MODE, NUM_LSCALE, the TS registers, NUM_STATUS, VE_STATUS,
TIER_UPKEEP and every register without a command or an effect of its own take the value by their access codes; ones of
CL_MPARRIVE only set bits, the MP's own without those of step lines whose marker is not written (R338; that firmware
waits so is the model's choice, assumption 96); the first half of a VE_PSTORE word or HWIN_BASE is held and the second
half writes both; HWIN_SIZE takes the value, and a write that clears VALID of HWIN_CTL sets DRAINING; XF_DBELL takes
the value if the slot is ACTIVE and else only sets its sticky bit; CHIP_UNLOCK opens the requester's lock with 0x6A3C,
and with any other value closes it, sets BADKEY and reports 0x0480. A message-area write into a mailbox that takes a
request stores its 4 bytes. In each, no other register, no memory and no unit changes. Completes: numModeWrite,
tsContextWrite, nanTrapClear, veTrapClear, tierUpkeepWrite, clMparriveWrite, registerWrite, vePstoreWrite,
hwinRegisterWrite, xfDbellWrite, chipUnlockWrite, mailboxAreaWrite.
Cites: R10, R200, R220, R242, R275, R309, R334, R450, R493, R496, R503, R605. -/
def Obligations.RegisterWrites : Prop :=
  ∀ (s : State) (w : Writer) (a : Access) (v : Nat),
    let rest (t : State) (l : List Nat) : Prop := SameRegs s t l ∧ SameMem s t ∧ SameUnits s t
    (∀ r, Accepted s w a v r →
      let plain (c : Instr) : Prop := Completes c s fun t => Wrote r.desc (s.reg a.off) (t.reg a.off) v ∧ rest t [a.off]
      let both (c : Instr) : Prop := Completes c s fun t => t.reg (a.off - 4) = s.lowOf a.off ∧
        Wrote r.desc (s.reg a.off) (t.reg a.off) v ∧ rest t [a.off - 4, a.off]
      let held (c : Instr) : Prop := Completes c s fun t => Wrote r.desc (s.reg a.off) (t.lowOf (a.off + 4)) v ∧ rest t []
      ([RegId.numMode, .numLscale].contains r.desc.id = true → plain (.numModeWrite w a v)) ∧
      ([RegId.tsSporeKey0, .tsSporeKey1, .tsSporeStep, .tsActCfg, .tsNormCfg, .tsClip].contains r.desc.id = true →
        plain (.tsContextWrite w a v)) ∧
      (r.desc.id = .numStatus → plain (.nanTrapClear w a v)) ∧ (r.desc.id = .veStatus → plain (.veTrapClear w a v)) ∧
      (r.desc.id = .tierUpkeep → plain (.tierUpkeepWrite w a v)) ∧
      (r.desc.id = .clMparrive → Completes (.clMparriveWrite w a v) s fun t =>
        t.reg a.off = s.reg a.off ||| BitVec.ofNat 32 (match w with | .host => v | .mp => s.mpLines v) ∧ rest t [a.off]) ∧
      (ownWrites.contains r.desc.id = false → [RegId.calCfg, .fabId, .msixCtl, .bcastSel, .ptCfg].contains r.desc.id = false →
        plain (.registerWrite w a v)) ∧
      (r.desc.id = .vePstore → if r.idx % 2 = 0 then held (.vePstoreWrite w a v) else both (.vePstoreWrite w a v)) ∧
      (r.desc.id = .hwinBaseLo → held (.hwinRegisterWrite w a v)) ∧ (r.desc.id = .hwinBaseHi → both (.hwinRegisterWrite w a v)) ∧
      (r.desc.id = .hwinSize → plain (.hwinRegisterWrite w a v)) ∧
      (r.desc.id = .hwinCtl → (s.rbit a.off 0 = false ∨ bit v 0 = true) → plain (.hwinRegisterWrite w a v)) ∧
      (r.desc.id = .hwinCtl → s.rbit a.off 0 = true → bit v 0 = false → Completes (.hwinRegisterWrite w a v) s fun t =>
        t.rbit a.off 0 = false ∧ t.rbit a.off 16 = true ∧ rest t [a.off]) ∧
      (r.desc.id = .xfDbell → s.rbit (numReg r.idx 4) 16 = true → plain (.xfDbellWrite w a v)) ∧
      (r.desc.id = .xfDbell → s.rbit (numReg r.idx 4) 16 = false → Completes (.xfDbellWrite w a v) s fun t =>
        t.rbit (xfReg r.idx 8) 2 = true ∧ rest t [xfReg r.idx 8]) ∧
      (r.desc.id = .chipUnlock → v % 65536 = 0x6A3C → Completes (.chipUnlockWrite w a v) s fun t =>
        t.isOpen w = true ∧ rest t [] ∧ t.fw = s.fw) ∧
      (r.desc.id = .chipUnlock → v % 65536 ≠ 0x6A3C → Completes (.chipUnlockWrite w a v) s fun t =>
        t.isOpen w = false ∧ t.rbit 0x14 16 = true ∧ rest t [0x14] ∧ t.fw.reports = s.fw.reports ++
          [{ code := 0x0480, kind := 0, unit := 0, job := 255, task := 0, count := 1 }])) ∧
    (∀ m off, s.reaches w = true → accessOk a = true → locOf a.off = .area m off → s.stateRefuses w a.off = false →
      (w = .host → m < 8) → s.mbState m < 2 → Completes (.mailboxAreaWrite w a v) s fun t => rest t [] ∧
        ∀ m' x, SMap.get (fun _ => 0#8) (t.box m').area x =
          if m' = m ∧ off ≤ x ∧ x < off + 4 then BitVec.ofNat 8 (v / 2 ^ (8 * (x - off)))
          else SMap.get (fun _ => 0#8) (s.box m').area x)

/-- REGISTER_READ_REFUSED: a read that checks 1 to 3 or R463 refuse completes with Completer Abort and event 0x0480,
changing nothing but REG_ERR and REG_ERRCNT. RC_REGISTER_READ: a readable register with an RC field answers its value,
and the RC bits are then 0, no other register or memory changed. LOW_WORD_CAPTURE_READ: a readable low word answers
its value and holds the high word for the next read. CROSSING_TIMEOUT: an access to a domain without a clock completes
with Completer Abort; a read raises 0x0481, and so does a write that the earlier checks pass. KEY_LOCK_TIMEOUT: an
open lock closes, nothing else changes. Completes: registerReadRefused, rcRegisterRead, lowWordCaptureRead,
crossingTimeout, keyLockTimeout.
Cites: R10, R463, R493, R494, R497, R499, R502, R503, R508. -/
def Obligations.RegisterReads : Prop :=
  ∀ (s : State) (w : Writer) (a : Access),
    (∀ k, readRefusal w a = some k → s.reaches w = true →
      Completes (.registerReadRefused w a) s fun t => Aborted s t (.regRead 0 true) 0x0480) ∧
    (∀ r, s.readable w a = some r → r.desc.rc ≠ 0 → Completes (.rcRegisterRead w a) s fun t =>
      t.fab.out = s.fab.out ++ [.regRead (s.liveReg r a.off) false] ∧ SameRegs s t [a.off] ∧ SameMem s t ∧ SameUnits s t ∧
      ∀ i < 32, (t.reg a.off).getLsbD i = ((s.reg a.off).getLsbD i && !r.desc.rc.testBit i)) ∧
    (∀ r h, s.readable w a = some r → captures.contains r.desc.id = true → regAt (a.off + 4) = some h →
      Completes (.lowWordCaptureRead w a) s fun t => t.fab.out = s.fab.out ++ [.regRead (s.liveReg r a.off) false] ∧
        SMap.get (fun _ => 0#32) t.capHi (a.off + 4) = BitVec.ofNat 32 (s.liveReg h (a.off + 4)) ∧ t.store = s.store ∧
        SameUnits s t) ∧
    (∀ r, s.reaches w = true → accessOk a = true → locOf a.off = .reg r → s.dead r.desc.dom a.off = true →
      Completes (.crossingTimeout w a none) s (fun t => Aborted s t (.regRead 0 true) 0x0481) ∧
      ∀ v, Completes (.crossingTimeout w a (some v)) s fun t => (∃ ev, Aborted s t (.regWrite true) ev) ∧
        ((s.checkWrite w r.desc a.off v [a.off]).1 = none → Aborted s t (.regWrite true) 0x0481)) ∧
    (s.isOpen w = true → Completes (.keyLockTimeout w) s fun t => t.isOpen w = false ∧
      t = match w with | .host => { s with hostLock := false } | .mp => { s with mpLock := false })

/-- A 32-bit write to the region or block broadcast window, where every offset of the window names a register. With no
target in the selected group it completes with Completer Abort and event 0x0480. Where the checks made once pass,
every target has its clock, no target's own rule refuses, and the register is one without an effect of its own (none
with a command of its own but VE_STATUS and TIER_UPKEEP, and not PT_CFG, whose new limits R329 applies): every target
holds the value by its access codes, no other register but the host's BCAST_STATUS changes, which then reads 0, and no
memory or unit changes. Completes: regionBroadcastWrite, blockBroadcastWrite.
Cites: R497, R506, R507, R508, R509. -/
def Obligations.BroadcastWrites : Prop :=
  ∀ (s : State) (w : Writer) (a : Access) (v x : Nat) (r : RegRef), s.reaches w = true → accessOk a = true →
    let good (c : Instr) (l : List (Nat × RegRef × Nat)) : Prop :=
      (l = [] → Completes c s fun t => Aborted s t (.regWrite true) 0x0480) ∧
      (l ≠ [] → (s.checkWrite w r.desc a.off v (l.map fun y => y.2.2)).1 = none →
        (∀ y ∈ l, s.dead y.2.1.desc.dom y.2.2 = false ∧ s.ruleRefuses w y.2.1 y.2.2 v = false ∧
          (ownWrites.contains y.2.1.desc.id = false ∧ y.2.1.desc.id ≠ .ptCfg ∨ y.2.1.desc.id = .veStatus ∨ y.2.1.desc.id = .tierUpkeep)) →
        Completes c s fun t => (∀ y ∈ l, Wrote y.2.1.desc (s.reg y.2.2) (t.reg y.2.2) v) ∧
          SameRegs s t (0x60 :: l.map fun y => y.2.2) ∧ (w = .host → t.rn 0x60 = 0) ∧ (w = .mp → t.reg 0x60 = s.reg 0x60) ∧
          SameMem s t ∧ SameUnits s t ∧ t.fw.reports = s.fw.reports)
    (locOf a.off = .regionWin x r → good (.regionBroadcastWrite w a v) (s.regionTargets w x)) ∧
    (locOf a.off = .blockWin x r → good (.blockBroadcastWrite w a v) (s.blockTargets w x))

/-- If some slot has a record its region's list can deliver, TASK_DELIVER completes: the slot is the first at or after the
region's pointer that has one, the record joins the end of its block's queue with the slot and the pass as its step,
it leaves the pass, and no other block, slot, memory, register, tile or allocator has changed. Completes: taskDeliver.
Cites: R310, R312, R316, R317. -/
def Obligations.TaskDelivery : Prop :=
  ∀ (s : State) (g : RegionId),
    let p := SMap.get (fun _ => 0) s.schedPtr g.val
    (∃ j < 64, (s.nextRecord g.val j).isSome = true) → Completes (.taskDeliver g) s fun t => ∃ j i l, j < 64 ∧
      s.nextRecord g.val j = some (i, l) ∧
      (∀ j' < 64, (j' + 64 - p % 64) % 64 < (j + 64 - p % 64) % 64 → s.nextRecord g.val j' = none) ∧
      (∃ q : QTask, (t.block (g.val * 16 + recBlock (l.records.getD i 0))).queue =
          (s.block (g.val * 16 + recBlock (l.records.getD i 0))).queue ++ [q] ∧
        q.record = l.records.getD i 0 ∧ q.job = j ∧ q.step = l.pass) ∧
      (∀ c, c ≠ g.val * 16 + recBlock (l.records.getD i 0) → t.block c = s.block c) ∧
      ((t.slot j).list g.val).pos = l.pos.filter (fun k => k != i) ∧ (∀ k, k ≠ j → t.slot k = s.slot k) ∧
      t.store = s.store ∧ t.tiles = s.tiles ∧ t.allocs = s.allocs

/-- For a block outside a test window with no head newly held for its records and a head task that is not held: the task
whose engine is next in round robin leaves the queue and the pointer moves past its engine. A ready task of a kind
other than TILE_READ and MATMUL that runs in one block only and is no adapter update of a skipped step is added to the
running tasks with the handles it names, each handle's INUSE has risen, and each counter it waits on has fallen by the
sum of its N; unless it is a first backward task (which prefetches), no other register and no memory has changed. A
failing task is not running; TASKFAIL is set and 0x0272 and its cause are reported. When no head can issue, heads
newly held for their records are counted and nothing else happens. Completes: taskIssue.
Cites: R270, R295, R317, R318, R319, R320, R322, R330. -/
def Obligations.TaskIssue : Prop :=
  ∀ (s : State) (b : BlockId),
    let B := s.block b.val
    let able := (heads B.queue [] 0).filter fun x => s.ready b.val x.2 != .held
    let shut := B.winWait || s.rbit (blockReg b.val 0xC308) 1
    (∀ i q, shut = false → s.markStalls b.val = s → pickHead B.rrEngine able = some (i, q) →
      Completes (.taskIssue b) s (fun t => (t.block b.val).queue = B.queue.eraseIdx i ∧
        (t.block b.val).rrEngine = (firstEngine q + 1) % 72) ∧
      (s.ready b.val q = .yes → [0, 3, 4, 5, 6, 7, 8, 9].contains (recKind q.record) = true →
        (s.paired b.val = false ∨ bothKinds (recKind q.record) = false) →
        ((s.slot q.job).adapts (b.val / 16) q.record = true → (s.slot q.job).skipped.contains q.step = false) →
        Completes (.taskIssue b) s fun t =>
          (∃ r : RTask, (t.block b.val).running = B.running ++ [r] ∧ r.task = q ∧ r.num = B.nextNum ∧ r.left = 1 ∧
            r.handles = (s.taskHandles b.val q).map fun h => h.2) ∧
          (recBwdFirst q.record = false → SameMem s t ∧ SameRegs s t ((List.range 64).map (ccVal b.val)) ∧
            (∀ h ∈ s.taskHandles b.val q, (s.hentry h.2).inuse < (t.hentry h.2).inuse) ∧
            ∀ c < 64, t.rf (ccVal b.val c) 15 0 =
              s.rf (ccVal b.val c) 15 0 - (((recWaits q.record).filter fun w => w.1 == c).map fun w => w.2).sum)) ∧
      (∀ ev, s.ready b.val q = .fails ev → Completes (.taskIssue b) s fun t => t.run b.val B.nextNum = none ∧
        t.rbit (blockReg b.val 0xC304) 24 = true ∧ t.Heard 0x0272 2 b.val ∧ (ev ≠ 0 → t.Heard ev 2 b.val))) ∧
    ((shut = true ∨ pickHead B.rrEngine able = none) → s.markStalls b.val ≠ s →
      exec (.taskIssue b) s = .next (s.markStalls b.val))

/-- TASK_COMPLETE of a running task whose parts are complete (in a redundant pair, after its comparison): the task is no
longer running and no other task of the block has changed. If its signal counters are its job's, its signals join
those on their way, in order; without LAST_T and REC_LAST, and no part of a fused kernel, it changes no memory, and no
register unless a poisoned result sets the step's local non-finite flag; GRAD and the step's gradient rounds add one
to the step's count; LAST_T closes the tiles it names, and a tile already closed raises 0x0274. Otherwise it sends
nothing, sets TASKFAIL and raises 0x0272. CREDIT_SIGNAL delivers the n oldest signals of a counter: the counter holds
the sum clamped to 0 to 65,535, with its sticky bit and 0x0270 when first set; other registers and signals stay.
Completes: taskComplete, creditSignal.
Cites: R112, R245, R321, R322, R325, R330, R331, R333, R392. -/
def Obligations.TaskCompletion : Prop :=
  ∀ (s : State) (b : BlockId),
    (∀ num r, s.run b.val num = some r → r.left = 0 → r.odd = false → (r.redundant = true → r.passed = true) →
      Completes (.taskComplete b num) s (fun t => t.run b.val num = none ∧ SameRuns s t b.val [num] ∧
        if (recSigs r.task.record).all (fun x => s.ccMine x.1 x.2.1 r.task.job) = true then t.sigs = s.sigs ++ recSigs r.task.record
        else t.sigs = s.sigs ∧ t.rbit (blockReg b.val 0xC304) 24 = true ∧ t.Heard 0x0272 2 b.val) ∧
      (r.redundant = false → (recSigs r.task.record).all (fun x => s.ccMine x.1 x.2.1 r.task.job) = true →
        recRecLast r.task.record = false →
        (recLastT r.task.record = false → s.kernelOf r.task.job b.val (recId r.task.record) = none →
          Completes (.taskComplete b num) s fun t => SameMem s t ∧
          SameRegs s t (if r.poisoned then [numReg r.task.job 4] else []) ∧
          (r.poisoned = true → r.task.step = (s.slot r.task.job).vstep → t.rbit (numReg r.task.job 4) 5 = true) ∧
          SMap.get (fun _ => 0) (t.slot r.task.job).gradDone r.task.step =
            SMap.get (fun _ => 0) (s.slot r.task.job).gradDone r.task.step + b2n (recProduces r.task.record)) ∧
        (∀ o, recLastT r.task.record = true → (s.slot r.task.job).openMb (recMb r.task.record) r.task.step = some o →
          Completes (.taskComplete b num) s fun t =>
            (∃ o', (t.slot r.task.job).openMb (recMb r.task.record) r.task.step = some o' ∧
              ∀ x ∈ o'.tiles, x ∉ (taskEngines r.task.record).map fun e => b.val * 64 + e) ∧
            ((∃ e ∈ taskEngines r.task.record, (s.fenceSet r.task.job).contains (b.val * 64 + e) = true ∧
              b.val * 64 + e ∉ o.tiles) → t.Heard 0x0274 2 b.val)))) ∧
    (∀ (c : Fin 64) n,
      let mine (l : List (Nat × Nat × Int)) : List (Nat × Nat × Int) := l.filter fun x => x.1 == b.val && x.2.1 == c.val
      let v : Int := (s.rf (ccVal b.val c.val) 15 0 : Nat) + (((mine s.sigs).take n).map fun x => x.2.2).sum
      n ≠ 0 → n ≤ (mine s.sigs).length → Completes (.creditSignal b c n) s fun t =>
        (t.rf (ccVal b.val c.val) 15 0 : Int) = clampI 0 65535 v ∧ mine t.sigs = (mine s.sigs).drop n ∧
        (t.sigs.filter fun x => !(x.1 == b.val && x.2.1 == c.val)) = (s.sigs.filter fun x => !(x.1 == b.val && x.2.1 == c.val)) ∧
        (v < 0 → t.rbit (ccVal b.val c.val) 16 = true ∧ (s.rbit (ccVal b.val c.val) 16 = false → t.Heard 0x0270 2 b.val)) ∧
        (65535 < v → t.rbit (ccVal b.val c.val) 17 = true ∧ (s.rbit (ccVal b.val c.val) 17 = false → t.Heard 0x0270 2 b.val)) ∧
        SameRegs s t [ccVal b.val c.val, regionReg (b.val / 16) 0x5004] ∧ SameMem s t ∧ SameUnits s t)

/-- CONTROL_NOP of a block's running NOP task: its part is done, nothing else changes. MB_ADMIT, when every tile of the
job's fence set lets the epoch in: each such tile counts the micro-batch open in the job's epoch, no other tile
changes, the job lists it, and its queued tasks take its epoch. MB_ABORT of an open micro-batch: it holds no tile open
any more. ARRIVE of a task due: the block has arrived on its line and the task waits there; a block outside the line,
or a line of another job, makes the task fail with 0x0400 and 0x0272. None of the first, second and last changes a
memory. Completes: controlNop, mbAdmit, mbAbort, arrive.
Cites: R111, R112, R113, R323, R324, R325, R334, R335, R336. -/
def Obligations.ControlTasks : Prop :=
  ∀ (s : State) (b : BlockId) (r : RTask), s.run b.val r.num = some r →
    (s.control b.val 0 = some r → Completes (.controlNop b) s fun t => t.run b.val r.num = some { r with left := r.left - 1 } ∧
      SameRuns s t b.val [r.num] ∧ (∀ c, c ≠ b.val → t.block c = s.block c) ∧ t.store = s.store ∧ t.slots = s.slots ∧ t.tiles = s.tiles) ∧
    (s.control b.val 1 = some r →
      let j := r.task.job
      let e := (s.slot j).epoch
      (∀ x ∈ s.fenceSet j, (s.tile x).admits e = true) → Completes (.mbAdmit b) s fun t =>
        (∀ x, t.tile x = if (s.fenceSet j).contains x then (s.tile x).openFence e else s.tile x) ∧
        (t.slot j).open_ = (s.slot j).open_ ++
          [{ mb := recMb r.task.record, step := r.task.step, epoch := e, tiles := s.fenceSet j }] ∧
        (∀ c, ∀ q ∈ (t.block c).queue, q.job = j → q.step = r.task.step → recMb q.record = recMb r.task.record → q.epoch = e) ∧
        t.run b.val r.num = some { r with left := r.left - 1 } ∧ t.store = s.store) ∧
    (∀ o, s.control b.val 2 = some r → (s.slot r.task.job).openMb (recMb r.task.record) r.task.step = some o →
      Completes (.mbAbort b) s fun t => ∃ o', (t.slot r.task.job).openMb (recMb r.task.record) r.task.step = some o' ∧ o'.tiles = []) ∧
    ((s.arrivals b.val).find? (fun x => s.strayArrival b.val x || !(s.block b.val).arrived.contains x.line) = some r →
      if s.strayArrival b.val r = true then Completes (.arrive b) s fun t => t.run b.val r.num = none ∧ t.Heard 0x0400 2 b.val ∧
        t.Heard 0x0272 2 b.val ∧ t.rbit (blockReg b.val 0xC304) 24 = true ∧ SameMem s t
      else Completes (.arrive b) s fun t => (t.block b.val).arrived = (s.block b.val).arrived ++ [r.line] ∧
        t.run b.val r.num = some { r with arrived := true } ∧ t.store = s.store ∧ t.slots = s.slots)

/-- CLEARING_LINE_RELEASE of a line all of whose participants have arrived (a job's step line: once the step's commit
marker is written) completes: no block and not the MP has arrived on it any more, every other line's arrivals are as
before, its release count rises by one modulo 65,536, and every counter that realigns on it stands at its base value.
If it is no job's step line, no memory and no job changes. If it is job j's step line and no drain waits for it, j's
step and TS_SPORE_STEP rise by one, its norm tables are 0 and no cell changes, nor a byte of memory unless a record of
the step is in transfer. An accepted CL_EN write stores its value and releases, in increasing order, each line that a
cleared bit satisfies. Completes: clearingLineRelease, clEnWrite.
Cites: R14, R264, R332, R334, R335, R337. -/
def Obligations.ClearingLines : Prop :=
  (∀ (s : State) (l : LineId), s.lineReady l.val = true → Completes (.clearingLineRelease l) s fun t =>
    let job := s.rf (clReg l.val 0) 5 0
    let stepLine := s.rbit (clReg l.val 0) 8 && s.rbit (clReg l.val 0) 6
    (stepLine = false → (∀ b, (t.block b).arrived = (s.block b).arrived.filter fun x => x != l.val) ∧ SameMem s t ∧
      (∀ j, t.slot j = s.slot j)) ∧
    t.rbit 0x20010 l.val = false ∧ t.rf (clReg l.val 4) 15 0 = (s.rf (clReg l.val 4) 15 0 + 1) % 65536 ∧
    ((stepLine = true → (s.slot job).stepLine < 32) → ∀ x ∈ s.realigned l.val, t.rf (ccVal x.1 x.2) 15 0 = s.rf (ccCtl x.1 x.2) 15 0) ∧
    (stepLine = true → (s.slot job).stopAtLine = false → (t.slot job).step = (s.slot job).step + 1 ∧
      (∀ b, (t.block b).arrived = (s.block b).arrived.filter fun x => x != l.val) ∧
      t.rn (tsReg job 8) = (s.rn (tsReg job 8) + 1) % 2 ^ 32 ∧ (∀ k, k / 4096 % 64 = job → t.norm k = 0) ∧
      (∀ k, k / 4096 % 64 ≠ job → t.norm k = s.norm k) ∧ (∀ k, t.cell k = s.cell k) ∧
      ((∀ r ∈ (s.slot job).acts, r.step = (s.slot job).step → [1, 4, 6].contains r.state = false) →
        ∀ sp a, t.rdByte sp a = s.rdByte sp a))) ∧
  (∀ (s : State) (w : Writer) (a : Access) (v : Nat) (r : RegRef), Accepted s w a v r → r.desc.id = .clEn →
    a.off = blockReg r.unit 0xC300 → ∃ s1 : State, Wrote r.desc (s.reg a.off) (s1.reg a.off) v ∧ SameRegs s s1 [a.off] ∧ SameMem s s1 ∧
      SameUnits s s1 ∧ exec (.clEnWrite w a v) s = .next (s1.each (fun u i =>
        if bit (s.rn a.off) i && !u.rbit a.off i && u.lineReady i then u.releaseLine i else u) (List.range 32)))

/-- TEST_WINDOW_OPEN (a block that waits for its window with no engine work) sets OPEN and starts its time at 0.
TEST_WINDOW_OVERRUN (20 ms open) clears OPEN, sets OVERRUN, reports 0x0273 and abandons the lowest test due: counted,
or settled as failed the third time. An accepted SEQ_WIN write that clears DUE ends the window. TEST_DUE makes a due
test due and asks for a window if a job uses the block. TEST_FORCED sets WIN_EN of the job's step line and reports
0x0415. IN_FIELD_TEST_DONE: a pass settles the test as passed (1), or passed on re-run (2) with 0x0414; a first
failure makes it run again; a second settles it as failed (3) with 0x0413. No memory changes. Completes:
testWindowOpen, testWindowOverrun, seqWinWrite, testDue, testForced, inFieldTestDone.
Cites: R339, R418, R419, R420, R421, R422, R423. -/
def Obligations.TestsAndWindows : Prop :=
  ∀ (s : State) (b : BlockId),
    ((s.block b.val).winWait = true → (s.block b.val).working = false → s.rbit (blockReg b.val 0xC308) 1 = false →
      Completes (.testWindowOpen b) s fun t => t.rbit (blockReg b.val 0xC308) 1 = true ∧ t.rf (blockReg b.val 0xC308) 31 16 = 0 ∧
        SameRegs s t [blockReg b.val 0xC308] ∧ SameMem s t ∧ SameUnits s t) ∧
    (s.rbit (blockReg b.val 0xC308) 1 = true → 20000 ≤ s.rf (blockReg b.val 0xC308) 31 16 →
      Completes (.testWindowOverrun b) s fun t => t.rbit (blockReg b.val 0xC308) 1 = false ∧ t.rbit (blockReg b.val 0xC308) 2 = true ∧
        (t.block b.val).winWait = false ∧ t.Heard 0x0273 2 b.val ∧ SameMem s t ∧
        ∀ x, (List.range 5).find? (fun i => (s.test b.val i).due) = some x →
          if 2 ≤ (s.test b.val x).overruns then (t.test b.val x).result = 3 ∧ (t.test b.val x).due = false
          else t.test b.val x = { s.test b.val x with overruns := (s.test b.val x).overruns + 1 }) ∧
    (∀ w a v r, Accepted s w a v r → r.desc.id = .seqWin → a.off = blockReg r.unit 0xC308 →
      Completes (.seqWinWrite w a v) s fun t => SameRegs s t [a.off] ∧ SameMem s t ∧ t.rbit a.off 0 = bit v 0 ∧
        (s.rbit a.off 0 = true → bit v 0 = false → t.rbit a.off 1 = false ∧ (t.block r.unit).winWait = false)) ∧
    (∀ x : Fin 5, (s.dev = .ready ∨ s.dev = .running) → (s.test b.val x.val).dueS = 0 → (s.test b.val x.val).due = false →
      Completes (.testDue b x) s fun t => (t.test b.val x.val).due = true ∧ SameRegs s t [blockReg b.val 0xC308] ∧ SameMem s t ∧
        SameUnits s t ∧ ((s.blockJob b.val).isSome = true → t.rbit (blockReg b.val 0xC308) 0 = true)) ∧
    (∀ (x : Fin 5) j, s.blockJob b.val = some j → (s.test b.val x.val).due = true →
      (14400 ≤ (s.test b.val x.val).dueFor ∨ (s.test b.val x.val).overruns ≠ 0 ∨ (s.test b.val x.val).failedOnce = true) →
      (s.slot j).stepLine < 32 → s.rbit (clReg (s.slot j).stepLine 0) 9 = false → Completes (.testForced b x) s fun t =>
        t.rbit (clReg (s.slot j).stepLine 0) 9 = true ∧ (t.slot j).winForced = true ∧ t.Heard 0x0415 2 b.val ∧
        SameRegs s t [clReg (s.slot j).stepLine 0, regionReg (b.val / 16) 0x5004] ∧ SameMem s t) ∧
    (∀ (x : Fin 5) (pass : Bool) unit, (s.test b.val x.val).due = true → s.testable b.val = true →
      Completes (.inFieldTestDone b x pass unit) s fun t => SameMem s t ∧
        match pass, (s.test b.val x.val).failedOnce with
        | true, false => (t.test b.val x.val).result = 1 ∧ (t.test b.val x.val).due = false
        | true, true => (t.test b.val x.val).result = 2 ∧ (t.test b.val x.val).due = false ∧
            t.Heard 0x0414 (testUnit b.val x.val unit).1 (testUnit b.val x.val unit).2
        | false, false => t.test b.val x.val = { s.test b.val x.val with failedOnce := true } ∧ SameRegs s t []
        | false, true => (t.test b.val x.val).result = 3 ∧ (t.test b.val x.val).due = false ∧
            t.Heard 0x0413 (testUnit b.val x.val unit).1 (testUnit b.val x.val unit).2)

/-- TOKEN_GRANT with a request waiting, the one at the region's pointer being requester q for n tokens: if the region
stands over no lowered limit, the tiles' share suffices and so do the region's tokens, with lots that the reserve has
left and no lower region asks for, the request is granted (a tile holds its tokens; another requester holds n more),
the pointer moves past it and the lots needed are borrowed; else the pointer stands at it and nothing is granted.
TOKEN_LOT_RETURN with 128 borrowed tokens unused returns one lot. Unless a carry engine's grant lets folds go on, and
without storage errors, no register, memory, block, job or other region's tokens change. Completes: tokenGrant,
tokenLotReturn.
Cites: R326, R327, R328, R329, R340. -/
def Obligations.PowerTokens : Prop :=
  ∀ (s : State) (g : RegionId),
    let k := s.tok g.val
    let rest (t : State) : Prop := t.store = s.store ∧ (∀ h, h ≠ g.val → t.tok h = s.tok h) ∧ t.blocks = s.blocks ∧ t.slots = s.slots
    (∀ errs q n, atPointer k.ptr (s.tokenRequests g.val) = some (q, n) →
      let lim := s.overLimit g.val
      let lots := (s.regionTokens g.val + n - (s.rf (regionReg g.val 0x4000) 15 0 + 128 * k.lots) + 127) / 128
      let fits := lim = (false, false) ∧ (1024 ≤ q ∨ s.tileTokens g.val + n ≤ s.rf (regionReg g.val 0x4000) 31 16) ∧
        (lots = 0 ∨ ((∀ i < g.val, s.asksLots i = false) ∧ lots + s.lotsLent ≤ s.rf 0x20000 15 0 / 128))
      (fits → errs = [] → (1072 ≤ q → q < 1088 → s.foldsReady (g.val * 16 + (q - 1072)) = []) →
        Completes (.tokenGrant { what := g, errs := errs }) s fun t => rest t ∧ (t.tok g.val).ptr = q + 1 ∧ (t.tok g.val).lots = k.lots + lots ∧
          if q < 1024 then (t.tile (g.val * 1024 + q)).tokens = true ∧ (t.tok g.val).held = k.held
          else t.held g.val q = s.held g.val q + n ∧ t.tiles = s.tiles) ∧
      (¬ fits → Completes (.tokenGrant { what := g, errs := errs }) s fun t => rest t ∧
        t.tok g.val = { k with ptr := q, overTok := lim.1, overTile := lim.2 } ∧ t.tiles = s.tiles)) ∧
    (k.lots ≠ 0 → s.regionTokens g.val + 128 ≤ s.rf (regionReg g.val 0x4000) 15 0 + 128 * k.lots →
      Completes (.tokenLotReturn g) s fun t => rest t ∧ t.tok g.val = { k with lots := k.lots - 1 } ∧ t.tiles = s.tiles)

/-- When n reports on their way to slot j arrive in one cycle (each of a requester below 18): they leave the way, NAN is
set, NUM_NANCNT rises by n and saturates, and TRAPPED is set. If TRAPPED was 0, the trap registers hold unit, opcode,
block, task and coordinates of one of them whose requester no other precedes from the pointer on, the pointer stands
after it and 0x0900 is reported; if TRAPPED was 1 the trap registers stay. The step that awaits its verdict is marked
non-finite when one of them is of it (the link complex's, requester 16, only tell of what its round has marked). No
other register, no memory changes. Completes: nanReport.
Cites: R219, R220, R221, R227. -/
def Obligations.NanReports : Prop :=
  ∀ (s : State) (j : SlotId) (n : Nat),
    let now := (s.slot j.val).nanQ.take n
    let near (r : NanRep) : Nat := (r.req + 18 - (s.slot j.val).nanPtr % 18) % 18
    n ≠ 0 → n ≤ (s.slot j.val).nanQ.length → (∀ r ∈ now, r.req < 18) → Completes (.nanReport j n) s fun t =>
      (t.slot j.val).nanQ = (s.slot j.val).nanQ.drop n ∧ t.rbit (numReg j.val 4) 1 = true ∧ t.rbit (numReg j.val 4) 3 = true ∧
      t.rf (numReg j.val 0x10) 31 0 = min (2 ^ 32 - 1) (s.rf (numReg j.val 0x10) 31 0 + n) ∧
      ((∃ r ∈ now, r.req ≠ 16 ∧ r.step = (s.slot j.val).vstep) → t.rbit (numReg j.val 4) 5 = true) ∧ SameMem s t ∧
      SameRegs s t [numReg j.val 4, numReg j.val 0x10, numReg j.val 0x14, numReg j.val 0x18, numReg j.val 0x1C, numReg j.val 0x20] ∧
      (s.rbit (numReg j.val 4) 3 = true →
        ∀ x ∈ [0x14, 0x18, 0x1C, 0x20], t.reg (numReg j.val x) = s.reg (numReg j.val x)) ∧
      (s.rbit (numReg j.val 4) 3 = false → ∃ r ∈ now, (∀ r' ∈ now, near r ≤ near r') ∧
        t.rn (numReg j.val 0x14) = (r.unit + r.op * 256 + r.blk * 65536) % 2 ^ 32 ∧ t.rn (numReg j.val 0x18) = r.task % 2 ^ 32 ∧
        t.rn (numReg j.val 0x1C) = r.x % 65536 + r.y % 65536 * 65536 ∧ t.rn (numReg j.val 0x20) = r.z % 65536 + r.w % 65536 * 65536 ∧
        (t.slot j.val).nanPtr = (r.req + 1) % 18 ∧ t.Heard 0x0900 0 0)

/-- A mover's running MOVE task (the host link active where an end is a host window), no storage error found: device to
device of one memory each, device to host, host to device and host to host copy LEN bytes: the destination bytes hold
the source's, every other byte of every memory is as before, no cell or norm changes. In every such copy (the spread
pool included) the task's part is done and no register changes. A source or destination whose handle lies in another
pool than its code names fails the task with 0x0626; a host end outside its window fails it with the window's event.
Neither changes a memory. Completes: moveTask.
Cites: R281, R288, R315, R322, R440. -/
def Obligations.MoveTask : Prop :=
  ∀ (s : State) (b : BlockId) (m : Fin 2) (r : RTask), s.working b.val (engMover + m.val) 4 (fun _ => true) = some r →
    s.run b.val r.num = some r →
    let q := r.task.record
    let n := mvLen q
    let src := s.moveEnd r (mvSrc q == 3) 0 (recF q 0x38 63 0)
    let dst := s.moveEnd r (mvDst q == 3) 1 (recF q 0x40 63 0)
    let good := endOk (mvSrc q) src = true ∧ endOk (mvDst q) dst = true
    let copied (f d : Space × Nat) : Prop := Completes (.moveTask b m []) s fun t =>
      (∀ i < n, t.rdByte d.1 (d.2 + i) = s.rdByte f.1 (f.2 + i)) ∧
      (∀ sp a, (∀ c, sp = .bs c → a < bsSize) → (∀ c, sp = .hbm c → a < 2 ^ 37) → ¬ (sp = d.1 ∧ d.2 ≤ a ∧ a < d.2 + n) →
        t.rdByte sp a = s.rdByte sp a) ∧
      (∀ k, t.cell k = s.cell k) ∧ (∀ k, t.norm k = s.norm k) ∧ (t.run b.val r.num).map RTask.left = some (r.left - 1)
    let inside (d : Space × Nat) : Prop := (∀ c, d.1 = .bs c → d.2 + n ≤ bsSize) ∧ (∀ c, d.1 = .hbm c → d.2 + n ≤ 2 ^ 37)
    let failed (ev : Nat) : Prop := Completes (.moveTask b m []) s fun t => t.run b.val r.num = none ∧ t.Heard ev 2 b.val ∧
      t.Heard 0x0272 2 b.val ∧ SameMem s t
    (mvSrc q = 3 ∨ mvDst q = 3 → s.ucieUp = true) →
    (good → (∀ e, src ≠ .inr (.err e)) → (∀ e, dst ≠ .inr (.err e)) → Completes (.moveTask b m []) s fun t =>
      (t.run b.val r.num).map RTask.left = some (r.left - 1) ∧ (∀ k, t.cell k = s.cell k) ∧ ∀ a, t.reg a = s.reg a) ∧
    (∀ x y, src = .inl x → dst = .inl y → good → x.pool < 2 → y.pool < 2 → inside (y.at 0) → copied (x.at 0) (y.at 0)) ∧
    (∀ x h, src = .inl x → dst = .inr (.at h) → good → x.pool < 2 → copied (x.at 0) (.host, h)) ∧
    (∀ h y, src = .inr (.at h) → dst = .inl y → good → y.pool < 2 → inside (y.at 0) → copied (.host, h) (y.at 0)) ∧
    (∀ h k, src = .inr (.at h) → dst = .inr (.at k) → good → copied (.host, h) (.host, k)) ∧
    (¬ good → failed 0x0626) ∧ (∀ ev, good → src = .inr (.err ev) → failed ev) ∧
    (∀ ev, good → (∀ e, src ≠ .inr (.err e)) → dst = .inr (.err ev) → failed ev)

/-- In a block's turn at its allocator (ALLOC: after every FREE that waits and every queued request that can be served;
FREE: after a dispatch check of the handle): ALLOC of its running task that every check passes, with nothing queued
before it: the lowest FREE slot at or after the last one holds a LIVE entry of the pool, pages and job asked for at
the lowest free run, its generation following the slot's; without ZERO the handle register holds the handle and the
part is done; with ZERO the fill is under way. A request that must wait joins its queue. FREE of a LIVE or AWAY entry
that no task uses makes it FREE, else FREEING; a second FREE (0x0622) and an unknown handle (0x0621) are refused:
RA_LASTERR, RA_LASTHDL, the sticky bit and the event show it, and the task fails. QUERY answers an entry that exists
and refuses another with 0x0621. Completes: allocTask, freeTask, queryTask.
Cites: R291, R292, R293, R294, R296, R297, R298, R299, R300, R314, R606, R607. -/
def Obligations.AllocatorRequests : Prop :=
  (∀ (s : State) (b : BlockId) (r : RTask), s.memTask b.val 0 = some r → s.run b.val r.num = some r →
    let q := r.memReq s b.val
    let A := s.alloc q.owner
    (s.memWaiting 1 q.owner).isEmpty = true → s.queueReady q.owner = false → s.memTurn 0 q.owner b.val = true →
    (∀ base i, s.allocCheck q = (0, base) → s.queueOf q.owner q.queue = [] →
      A.findSlot (tableSize q.owner) (tableSize q.owner) A.next = some i → Completes (.allocTask b) s fun t =>
        (t.alloc q.owner).entry i =
          { state := .live, gen := (A.entry i).gen % 255 + 1, pool := q.pool, block := q.block, base := base, pages := q.pages,
            job := q.job, fw := false, pager := false, inuse := 0, away := false, zeroing := q.zero } ∧
        (∀ k, k ≠ i → (t.alloc q.owner).entry k = A.entry k) ∧ (∀ a, t.reg a = s.reg a) ∧
        let h := mkHandle i q.owner q.pool ((A.entry i).gen % 255 + 1)
        if q.zero = true then (t.alloc q.owner).zeros = A.zeros ++ [(h, q)] ∧ SameMem s t
        else SMap.get (fun _ => 0) (t.slot q.job).hregs (b.val / 16 * 256 + q.reg) = h ∧
          (t.run b.val r.num).map RTask.left = some (r.left - 1)) ∧
    (∀ base, (s.allocCheck q).1 = 1 ∨ s.allocCheck q = (0, base) ∧ s.queueOf q.owner q.queue ≠ [] → q.wait = true →
      Completes (.allocTask b) s fun t => t.queueOf q.owner q.queue = s.queueOf q.owner q.queue ++ [q] ∧ t.store = s.store)) ∧
  (∀ (s : State) (b : BlockId) (r : RTask), s.memTask b.val 1 = some r → s.run b.val r.num = some r →
    let q := r.memReq s b.val
    let h := q.handle
    s.memTurn 1 q.owner b.val = true → s.dispatching h = false →
    (s.hmatch h = true → ((s.hentry h).state = .live ∨ (s.hentry h).state = .away) → Completes (.freeTask b) s fun t =>
      (t.hentry h).state = (if (s.hentry h).inuse = 0 then .free else .freeing) ∧ t.store = s.store ∧
      (t.run b.val r.num).map RTask.left = some (r.left - 1)) ∧
    (∀ code ev bitNo, (s.hmatch h = false ∧ code = 3 ∧ ev = 0x0621 ∧ bitNo = 16 ∨
        s.hmatch h = true ∧ ((s.hentry h).state = .free ∨ (s.hentry h).state = .freeing) ∧ code = 4 ∧ ev = 0x0622 ∧ bitNo = 17) →
      q.job < 64 → Completes (.freeTask b) s fun t => t.run b.val r.num = none ∧ t.Heard ev 3 (b.val / 16) ∧ t.Heard 0x0272 2 b.val ∧
        t.rbit (regionReg (b.val / 16) 0x2004) bitNo = true ∧ t.rf (regionReg (b.val / 16) 0x200C) 3 0 = code ∧ SameMem s t)) ∧
  (∀ (s : State) (h : Nat), Completes (.queryTask h) s fun t => SameMem s t ∧ t.slots = s.slots ∧ t.blocks = s.blocks ∧
    if s.hmatch h = true ∧ (s.hentry h).state ≠ .free then
      (t.alloc (hOwner h)).last = { status := 0, handle := h, entry := some (s.hentry h) } ∧ t.store = s.store
    else t.Heard 0x0621 3 (if hOwner h ≤ 15 then hOwner h else 0))

/-- ALLOC_QUEUE_SERVE with the head request's check passing and no FREE waiting completes: the queue has lost its head.
ALLOC_TIMEOUT takes the oldest request of a queue that has waited RA_CFG.ALLOC_TO out of it, latches status 6 in the
region's RA_LASTERR, sets ALLOC_TO and reports 0x0623. ALLOC_ZERO_FILL_DONE of a handle whose fill runs: every byte of
a block-store or stack allocation reads 0, every other byte of memory is as before, the entry is no longer zeroing,
and the task's handle register holds the handle. Completes: allocQueueServe, allocTimeout, allocZeroFillDone.
Cites: R299, R300, R301, R607. -/
def Obligations.AllocatorQueues : Prop :=
  (∀ (s : State) (o k base : Nat) (q : AllocReq) (rest : List AllocReq), s.queueOf o k = q :: rest →
    (s.setQueue o k rest).allocCheck q = (0, base) → (s.memWaiting 1 o).isEmpty = true → Completes (.allocQueueServe o k) s fun t => t.queueOf o k = rest) ∧
  (∀ (s : State) (o k : Nat) (q : AllocReq) (rest : List AllocReq), q.region < 16 → q.job < 64 →
    pickFirst (fun x => decide (s.allocTo x ≤ x.waitMs)) (s.queueOf o k) = some (q, rest) → Completes (.allocTimeout o k) s fun t =>
      ((∀ b num r, q.by_ = .task b num → s.run b num = some r → r.handles = [] ∧ r.redundant = false) → t.queueOf o k = rest) ∧
      t.rbit (regionReg q.region 0x2004) 18 = true ∧ t.rf (regionReg q.region 0x200C) 3 0 = 6 ∧
      t.Heard 0x0623 3 q.region ∧ SameMem s t) ∧
  (∀ (s : State) (h : Nat) (q : AllocReq) (rest : List (Nat × AllocReq)),
    pickFirst (fun x => x.1 == h) (s.alloc (hOwner h)).zeros = some ((h, q), rest) →
    let e := s.hentry h
    Completes (.allocZeroFillDone h) s fun t => (t.hentry h).zeroing = false ∧ (∀ a, t.reg a = s.reg a) ∧ (∀ k, t.cell k = s.cell k) ∧
      (e.pool = 0 → e.base * 4096 + q.run * 4096 ≤ bsSize → ∀ sp a, (∀ c, sp = .bs c → a < bsSize) → t.rdByte sp a =
        if sp = .bs (q.region * 16 + e.block) ∧ e.base * 4096 ≤ a ∧ a < e.base * 4096 + q.run * 4096 then 0 else s.rdByte sp a) ∧
      (e.pool = 1 → e.base * 2 ^ 21 + q.run * 2 ^ 21 ≤ 2 ^ 37 → ∀ sp a, (∀ c, sp = .hbm c → a < 2 ^ 37) → t.rdByte sp a =
        if sp = .hbm q.region ∧ e.base * 2 ^ 21 ≤ a ∧ a < e.base * 2 ^ 21 + q.run * 2 ^ 21 then 0 else s.rdByte sp a) ∧
      ∀ b num, q.by_ = .task b num → q.op = 0 → SMap.get (fun _ => 0) (t.slot q.job).hregs (q.region * 256 + q.reg) = h)

/-- OFFLOAD_COMPLETE of a running offload with the link active, tokens held, every window page reachable and the turn at
the host arbiter: the host pages hold the record's bytes, its page list holds page, poison and CRC, and it is AWAY (or
kept, when a prefetch waits for it); block stores, other HBM, cells and registers are as before. Which command has the
turn is the model's choice (assumption 162), and so is the place of the page list (161). OFFLOAD_RETRY of a waiting
record for which window pages are free starts its offload. PREFETCH_COMPLETE of the next prefetch all of whose pages
pass, in its turn: the pages' bytes are in the block store, the entry is LIVE again, the record is on chip and holds
no window page. PREFETCH_PAGE_REREAD reads a page again once: 0x0650 when it now passes, 0x0651 when it fails twice,
with its sticky bit; no memory changes. Completes: offloadComplete, offloadRetry, prefetchComplete,
prefetchPageReread.
Cites: R268, R271, R272, R273, R304, R305, R306, R307. -/
def Obligations.ActivationPager : Prop :=
  ∀ (s : State) (j : SlotId) (h : Nat) (r : ActRec), s.act j.val h = some r →
    let reach : Prop := s.ucieUp = true ∧ s.hasTokens r.region (pagerReq h) = true ∧ r.pages.length ≤ 1536 ∧ r.pages.Nodup ∧
      ∀ p ∈ r.pages, ∃ a, s.pageAcc j.val r p = .at a
    let onChip (i : Nat) : Space × Nat := s.recordPage r i
    ((r.state = 1 ∨ r.state = 6) → reach → s.outGrant 0 r.pages.length = true →
      Completes (.offloadComplete { what := j, errs := [] } h) s fun t => (∀ k, t.cell k = s.cell k) ∧ (∀ a, t.reg a = s.reg a) ∧
        (∀ c a, t.rdByte (.bs c) a = s.rdByte (.bs c) a) ∧
        (∀ c a, a < 2 ^ 37 → (r.state = 1 → c = r.region → a < pageList h 0 ∨ pageList h r.pages.length ≤ a) →
          t.rdByte (.hbm c) a = s.rdByte (.hbm c) a) ∧
        (∀ i < r.pages.length, ∀ a, s.pageAcc j.val r (r.pages.getD i 0) = .at a →
          (∀ x < 4096, t.rdByte .host (a + x) = s.rdByte (onChip i).1 ((onChip i).2 + x)) ∧
          (r.state = 1 → t.rdN (.hbm r.region) (pageList h i) 8 = listEntry (r.pages.getD i 0)
            (s.poisoned (onChip i).1 (onChip i).2 4096) (s.rdBytes (onChip i).1 (onChip i).2 4096))) ∧
        (r.state = 6 → (t.act j.val h).map ActRec.state = some 0 ∧ t.hentry h = s.hentry h) ∧
        (r.state = 1 → (t.act j.val h).map ActRec.state = some 3 ∧
          ((s.hentry h).state = .live → (t.hentry h).state = .away))) ∧
    (r.state = 2 → ((s.offloadStart j.val h).act j.val h).map ActRec.state = some 1 → Completes (.offloadRetry j h) s fun t =>
      (t.act j.val h).map ActRec.state = some 1 ∧ t.store = s.store) ∧
    (r.state = 4 → reach → r.bad = [] →
      (∀ x ∈ (s.slot j.val).acts, x.mb = r.mb → x.step = r.step → (x.state = 4 ∨ x.state = 5) → x.layer ≤ r.layer) →
      (∀ i < r.pages.length, s.pageOk j.val r i = true) → s.prefetchGrant r.pages.length = true →
      Completes (.prefetchComplete { what := j, errs := [] } h) s fun t =>
        ((s.hentry h).state = .away → (t.hentry h).state = .live) ∧ (∀ k, t.cell k = s.cell k) ∧ (∀ a, t.reg a = s.reg a) ∧
        (∀ a, t.rdByte .host a = s.rdByte .host a) ∧
        (∀ i < r.pages.length, ∀ a, s.pageAcc j.val r (r.pages.getD i 0) = .at a → ∀ x < 4096,
          t.rdByte (onChip i).1 ((onChip i).2 + x) = s.rdByte .host (a + x)) ∧
        ∃ x, t.act j.val h = some x ∧ x.state = 0 ∧ x.pages = []) ∧
    (∀ page bad, r.state = 4 → page < r.pages.length → r.rereads.contains page = false →
      Completes (.prefetchPageReread j h { page := page, bad := bad }) s fun t => SameMem s t ∧
        if bad = false ∧ s.pageOk j.val r page = true then t.rbit (tsReg j.val 0x18) 1 = true ∧ t.Heard 0x0650 3 r.region
        else t.rbit (tsReg j.val 0x18) 2 = true ∧ t.Heard 0x0651 3 r.region)

/-- HBM_SCRUB of the page that is due in a trained stack's interval, with no error found, moves the scrubber on and
changes nothing else. CXL_MEM_READ of a served line outside the firmware area, unpoisoned: its 64 bytes go out; an
unserved line, one of the firmware area or a poisoned line goes out poisoned. CXL_MEM_WRITE of a full line stores it,
and of some bytes only those; a write that is not served is discarded. CXL_SNOOP is answered. WINDOW_DRAIN_DONE clears
DRAINING. UCIE_LINK_DOWN clears ACTIVE, sets DOWN and reports 0x0460. UCIE_TRAINING_DONE makes the link active; fewer
than four modules set DEGRADED and report 0x0461. Completes: hbmScrub, cxlMemRead, cxlMemWrite, cxlSnoop,
windowDrainDone, ucieLinkDown, ucieTrainingDone.
Cites: R283, R284, R285, R290, R441, R442, R444, R445, R446. -/
def Obligations.HostMemoryAccess : Prop :=
  ∀ s : State,
    (∀ (g : RegionId) page, s.rbit (regionReg g.val 0x3000) 16 = true → page < 49152 → page = (s.scrubber g.val).next →
      page * s.scrubMs g.val ≤ (s.scrubber g.val).ms * 49152 → exec (.hbmScrub g page []) s =
        .next (s.setScrubber g.val { next := page + 1, ms := (s.scrubber g.val).ms })) ∧
    (∀ hdm, s.ucieUp = true → hdm + 64 ≤ hdmSize → hdm % 64 = 0 →
      let g := hdm / hbmSize
      let a := hdm % hbmSize
      (s.cxlServed g = true → fwArea a = false → s.poisoned (.hbm g) a 64 = false → Completes (.cxlMemRead hdm []) s fun t =>
        t = { s with fab := { s.fab with out := s.fab.out ++ [.cxlRead (s.rdBytes (.hbm g) a 64) false] } }) ∧
      (s.cxlServed g = false ∨ fwArea a = true ∨ s.poisoned (.hbm g) a 64 = true → Completes (.cxlMemRead hdm []) s fun t =>
        (∃ d, t.fab.out = s.fab.out ++ [.cxlRead d true]) ∧ SameMem s t ∧
        (s.cxlServed g = true → fwArea a = true → t.Heard 0x0625 4 g)) ∧
      (∀ data be, s.cxlServed g = true → fwArea a = false → Completes (.cxlMemWrite hdm data be []) s fun t =>
        (∀ i < 64, t.rdByte (.hbm g) (a + i) = if bit be i = true then BitVec.ofNat 8 (data / 2 ^ (8 * i)) else s.rdByte (.hbm g) (a + i)) ∧
        (∀ x, ¬ (a ≤ x ∧ x < a + 64) → t.rdByte (.hbm g) x = s.rdByte (.hbm g) x) ∧
        (∀ c x, c ≠ g → x < 2 ^ 37 → t.rdByte (.hbm c) x = s.rdByte (.hbm c) x) ∧
        (∀ c x, t.rdByte (.bs c) x = s.rdByte (.bs c) x) ∧ (∀ x, t.reg x = s.reg x) ∧ ∀ k, t.cell k = s.cell k) ∧
      (∀ data be, s.cxlServed g = false → exec (.cxlMemWrite hdm data be []) s = .next s) ∧
      (∀ data be, s.cxlServed g = true → fwArea a = true → Completes (.cxlMemWrite hdm data be []) s fun t =>
        SameMem s t ∧ t.Heard 0x0625 4 g)) ∧
    (s.ucieUp = true → Completes .cxlSnoop s fun t => t = { s with fab := { s.fab with out := s.fab.out ++ [.cxlSnoop] } }) ∧
    (∀ w : WindowId, s.rbit (hwinReg w.val 0xC) 16 = true →
      (s.rf (hwinReg w.val 0xC) 2 1 = kindAct → ∀ r ∈ (s.slot (s.rf (hwinReg w.val 0xC) 8 3)).acts, r.state ≠ 1 ∧ r.state ≠ 4 ∧ r.state ≠ 6) →
      Completes (.windowDrainDone w) s fun t => t.rbit (hwinReg w.val 0xC) 16 = false ∧
        (∀ i < 32, i ≠ 16 → t.rbit (hwinReg w.val 0xC) i = s.rbit (hwinReg w.val 0xC) i) ∧ SameRegs s t [hwinReg w.val 0xC] ∧ SameMem s t) ∧
    (s.ucieUp = true → Completes .ucieLinkDown s fun t => t.ucieUp = false ∧ t.rbit 0x51000 8 = true ∧ t.Heard 0x0460 0 0 ∧ SameMem s t ∧
      ∀ b < 256, ∀ r ∈ (s.block b).running, r.usesHost = true → t.run b r.num = none) ∧
    (∀ good rep, s.ucieUp = false → s.hostUp = true → ucieModules good ≠ [] → Completes (.ucieTrainingDone good rep) s fun t =>
      t.ucieUp = true ∧ SameMem s t ∧ SameRegs s t [0x51000] ∧
      t.rf 0x51000 2 1 = (if (ucieModules good).length = 4 then 3 else if (ucieModules good).length = 2 then 2 else 1) ∧
      ((ucieModules good).length < 4 → t.rbit 0x51000 9 = true ∧ t.Heard 0x0461 0 0))

/-- For a running EGRESS task of the OP (no storage error; for all but SCAN the link active, its turn at the host arbiter
(when, is the model's choice, assumption 162), destination and completion record inside the XFER window and apart):
GRAD writes each element divided by its step's loss scale, SEND (with CLIP_EN) that times TS_CLIPFACT, DATA the words
unchanged, at the destination; the 32-byte completion record names token, tensor, step, count and slot; the part is
done. GRAD and SCAN add the squares of what was scaled to the norm table entry; SCAN writes no memory. GRAD and SEND
add to the step's watch counts of the tensor's entries. Every other byte of every memory, every cell and every other
norm is as before. SEND without CLIP_EN fails. Completes: egressGrad, egressScan, egressSend, egressData.
Cites: R225, R235, R264, R266, R440, R448, R449. -/
def Obligations.EgressTasks : Prop :=
  ∀ (s : State) (b : BlockId) (op : Nat) (r : RTask), s.egTask b.val op = some r → s.run b.val r.num = some r → r.task.job < 64 →
    let q := r.task.record
    let j := r.task.job
    let l := (List.range (egLen q)).map fun i =>
      egElem (s.denorm j) (egBf16 q) (s.stepExp r.task) (s.egIn (addrAt r.addrs 0) (egBf16 q) i)
    let key := normKey (b.val / 16) j (egNidx q)
    let dst := s.hostAcc j kindXfer 0 (recF q 0x48 63 0) (4 * egLen q)
    let cpl := s.hostAcc j kindXfer 0 (recF q 0x60 63 0) 32
    let done (t : State) : Prop := (t.run b.val r.num).map RTask.left = some (r.left - 1) ∧ (∀ k, t.cell k = s.cell k) ∧
      (∀ c x, t.rdByte (.bs c) x = s.rdByte (.bs c) x) ∧ (∀ c x, t.rdByte (.hbm c) x = s.rdByte (.hbm c) x)
    let normed (t : State) : Prop := t.norm key = (addSquares (s.denorm j) (s.norm key) (l.map fun x => x.1)).1 ∧
      ∀ k, k ≠ key → t.norm k = s.norm k
    let watched (t : State) : Prop := ∀ e < 4096,
      SMap.get (fun _ => 0) (t.slot j).zgwN (zgwKey r.task.step e) = SMap.get (fun _ => 0) (s.slot j).zgwN (zgwKey r.task.step e) +
      if s.rbit (zgwReg e 4) 0 = true ∧ s.rf (zgwReg e 4) 11 6 = j ∧ s.rn (zgwReg e 0) = recF q 0x34 31 0 then egLen q else 0
    let sent (w : Nat → Nat) (a c : Nat) (t : State) : Prop := (∀ i < egLen q, t.rdN .host (a + 4 * i) 4 = w i % 2 ^ 32) ∧
      t.rdN .host c 4 = recF q 0x3C 31 0 ∧ t.rdN .host (c + 4) 4 = recF q 0x34 31 0 ∧ t.rdN .host (c + 8) 4 = r.task.step % 2 ^ 32 ∧
      t.rdN .host (c + 12) 4 = egLen q ∧ t.rdN .host (c + 20) 4 = j ∧
      ∀ x, ¬ (a ≤ x ∧ x < a + 4 * egLen q) → ¬ (c ≤ x ∧ x < c + 32) → t.rdByte .host x = s.rdByte .host x
    (op = 1 → Completes (.egressScan b []) s fun t => done t ∧ normed t ∧ ∀ x, t.rdByte .host x = s.rdByte .host x) ∧
    (op = 2 → s.rbit (tsReg j 0x10) 1 = false → Completes (.egressSend b []) s fun t => t.run b.val r.num = none ∧
      t.Heard 0x0272 2 b.val ∧ SameMem s t) ∧
    (∀ a c, s.ucieUp = true → s.outGrant 1 (egChunks q) = true → dst = .at a → cpl = .at c → (c + 32 ≤ a ∨ a + 4 * egLen q ≤ c) →
      (op = 0 → Completes (.egressGrad b []) s fun t => done t ∧ normed t ∧ watched t ∧
        sent (fun i => (l.getD i (.nan false, 0, false)).2.1) a c t) ∧
      (op = 2 → s.rbit (tsReg j 0x10) 1 = true → Completes (.egressSend b []) s fun t => done t ∧ (∀ k, t.norm k = s.norm k) ∧
        watched t ∧ sent (fun i => (f32 (s.denorm j) (FpNum.mul (v32 (l.getD i (.nan false, 0, false)).2.1)
          (fp32.input (s.denorm j) (s.rn (tsReg j 0x20))).1)).1) a c t) ∧
      (op = 5 → Completes (.egressData b []) s fun t => done t ∧ (∀ k, t.norm k = s.norm k) ∧
        sent (fun i => s.rdNAt ((addrAt r.addrs 0).plus (4 * i)) 4) a c t))

/-- A running NORM_OUT egress that goes to memory (both ends in one memory each, apart): word i at SRC and word i at CSUM
are the chip's sum of norm table entry i over the 16 regions, unscaled; one that goes to the window (link active, its
turn at the host arbiter, destination and completion record inside it and apart) writes them there, with GLOBAL set
those that the step's norm round accepted, with clipping enabled each times the square of TS_CLIPFACT. CLIPFACT sets
TS_CLIPFACT to clipping threshold over the square root of the accepted sums plus 2^-20, at most 1.0, each operation in
FP32, and changes no other register (but NUM_STATUS when it flushes) and no memory. In each the task's part is done.
Completes: egressNormOut, egressClipfact.
Cites: R264, R265, R266, R449. -/
def Obligations.NormsAndClipping : Prop :=
  ∀ (s : State) (b : BlockId) (r : RTask), s.run b.val r.num = some r → r.task.job < 64 →
    let q := r.task.record
    let j := r.task.job
    let d0 := (addrAt r.addrs 0).at 0
    let d1 := (addrAt r.addrs 1).at 0
    let n := 4 * egTens q
    let dn := s.denorm j
    let cf := (fp32.input dn (s.rn (tsReg j 0x20))).1
    let c2 := (f32 dn (FpNum.mul cf cf)).1
    let sum (i : Nat) : Nat := if egNidx q = 1 ∧ s.rbit (tsReg j 0x10) 0 = true then ((s.globalNorms r.task).getD []).getD i 0
      else (s.normOut r.task i).1
    let word (i : Nat) : Nat := if egNidx q = 1 ∧ s.rbit (tsReg j 0x10) 1 = true then (f32 dn (FpNum.mul (v32 (sum i)) (v32 c2))).1
      else sum i
    let left (t : State) : Prop := (t.run b.val r.num).map RTask.left = some (r.left - 1)
    (s.egTask b.val 3 = some r → egNidx q ≠ 1 → (addrAt r.addrs 0).pool < 2 → (addrAt r.addrs 1).pool < 2 →
      (d0.1 = d1.1 → d0.2 + n ≤ d1.2 ∨ d1.2 + n ≤ d0.2) → (∀ c, d0.1 = .bs c → d0.2 + n ≤ bsSize) → (∀ c, d1.1 = .bs c → d1.2 + n ≤ bsSize) →
      (∀ c, d0.1 = .hbm c → d0.2 + n ≤ 2 ^ 37) → (∀ c, d1.1 = .hbm c → d1.2 + n ≤ 2 ^ 37) → Completes (.egressNormOut { what := b, errs := [] }) s fun t => left t ∧
        ∀ i < egTens q, t.rdN d0.1 (d0.2 + 4 * i) 4 = word i % 2 ^ 32 ∧ t.rdN d1.1 (d1.2 + 4 * i) 4 = word i % 2 ^ 32) ∧
    (∀ a c, s.egTask b.val 3 = some r → egNidx q = 1 → s.ucieUp = true → s.outGrant 1 (egChunks q) = true →
      (s.rbit (tsReg j 0x10) 0 = true → (s.globalNorms r.task).isSome = true) → s.hostAcc j kindXfer 0 (recF q 0x48 63 0) n = .at a →
      s.hostAcc j kindXfer 0 (recF q 0x60 63 0) 32 = .at c → (c + 32 ≤ a ∨ a + n ≤ c) → Completes (.egressNormOut { what := b, errs := [] }) s fun t => left t ∧
        (∀ i < egTens q, t.rdN .host (a + 4 * i) 4 = word i % 2 ^ 32) ∧ (∀ c x, t.rdByte (.bs c) x = s.rdByte (.bs c) x) ∧
        ∀ c x, t.rdByte (.hbm c) x = s.rdByte (.hbm c) x) ∧
    (s.egTask b.val 4 = some r → Completes (.egressClipfact b []) s fun t => left t ∧ SameMem s t ∧ SameRegs s t [tsReg j 0x20, numReg j 4] ∧
      t.rn (tsReg j 0x20) = (clipFactor dn (s.rn (tsReg j 0x14))
        ((List.range (egTens q)).map fun i => s.rdNAt ((addrAt r.addrs 0).plus (4 * i)) 4)).1 % 2 ^ 32)

/-- A running DELTA or DATA ingress, the link active, its source inside the XFER window, DELTA in its turn at the host
arbiter (when, is the model's choice, assumption 162): its bytes stand at DST as in host memory (destination in one
memory, apart from the CRC records), every other memory byte outside DST and CSUM of a block without a pair is as
before, the part is done; a poisoned completion fails the task with 0x0463 and changes no memory. CRCGEN writes one
CRC-64 per 16,384 elements of the bytes at DST to CSUM. INGRESS_TIMEOUT of a head task that has waited XF_CTL.TO for
its doorbell fails it with 0x0462 and sets its sticky bit. Completes: ingressDelta, ingressData, ingressCrcgen,
ingressTimeout.
Cites: R322, R440, R450, R451, R452. -/
def Obligations.IngressTasks : Prop :=
  ∀ (s : State) (b : BlockId),
    (∀ (r : RTask), s.run b.val r.num = some r → s.paired b.val = false → (addrAt r.addrs 0).pool < 2 → (addrAt r.addrs 1).pool < 2 →
      let q := r.task.record
      let n := inLen q
      let d := (addrAt r.addrs 0).at 0
      let e := (addrAt r.addrs 1).at 0
      let crcs (l : List Byte) : List Byte := crcRecords (16384 * if inBf16 q then 2 else 4) l.length l
      let left (t : State) : Prop := (t.run b.val r.num).map RTask.left = some (r.left - 1)
      (∀ c, d.1 = .bs c → d.2 + n ≤ bsSize) → (∀ c, d.1 = .hbm c → d.2 + n ≤ 2 ^ 37) →
      (∀ h, s.ucieUp = true → s.hostAcc r.task.job kindXfer 0 (recF q 0x38 63 0) n = .at h →
        let crc := crcs (s.rdBytes .host h n)
        let fine (t : State) : Prop := left t ∧ (∀ i < n, t.rdByte d.1 (d.2 + i) = s.rdByte .host (h + i)) ∧
          (inCrc q = true → ∀ i < crc.length, t.rdByte e.1 (e.2 + i) = crc.getD i 0) ∧
          ∀ sp a, (∀ c, sp = .bs c → a < bsSize) → (∀ c, sp = .hbm c → a < 2 ^ 37) → ¬ (sp = d.1 ∧ d.2 ≤ a ∧ a < d.2 + n) →
            ¬ (inCrc q = true ∧ sp = e.1 ∧ e.2 ≤ a ∧ a < e.2 + crc.length) → t.rdByte sp a = s.rdByte sp a
        let poisoned (t : State) : Prop := t.run b.val r.num = none ∧ t.Heard 0x0463 2 b.val ∧ t.Heard 0x0272 2 b.val ∧ SameMem s t
        ((inCrc q = true → (d.1 = e.1 → d.2 + n ≤ e.2 ∨ e.2 + crc.length ≤ d.2) ∧ (∀ c, e.1 = .bs c → e.2 + crc.length ≤ bsSize) ∧
            (∀ c, e.1 = .hbm c → e.2 + crc.length ≤ 2 ^ 37)) →
          (s.inTask b.val 0 = some r → s.deltaGrant (chunks n) = true → Completes (.ingressDelta { what := b, errs := [] } false) s fine) ∧
          (s.inTask b.val 1 = some r → Completes (.ingressData { what := b, errs := [] } false) s fine)) ∧
        (s.inTask b.val 0 = some r → s.deltaGrant (chunks n) = true → Completes (.ingressDelta { what := b, errs := [] } true) s poisoned) ∧
        (s.inTask b.val 1 = some r → Completes (.ingressData { what := b, errs := [] } true) s poisoned)) ∧
      (s.inTask b.val 2 = some r →
        let crc := crcs (s.rdAt (addrAt r.addrs 0) n)
        Completes (.ingressCrcgen b []) s fun t => left t ∧ (∀ i < crc.length, t.rdByte e.1 (e.2 + i) = crc.getD i 0) ∧
          ∀ k, t.cell k = s.cell k)) ∧
    (∀ i q, s.doorbellWait b.val = some (i, q) → q.job < 64 → s.rf (xfReg q.job 4) 15 0 ≤ q.waitMs → Completes (.ingressTimeout b) s fun t =>
      t.rbit (xfReg q.job 8) 0 = true ∧ t.Heard 0x0462 2 b.val ∧ t.Heard 0x0272 2 b.val ∧
      t.run b.val (s.block b.val).nextNum = none ∧ (t.block b.val).queue = (s.block b.val).queue.eraseIdx i ∧ SameMem s t)

/-- Both copies of a task of a pair have ended and have not passed: if they agree, both are passed, with 0x0280 counted in
both blocks when the pair had been re-run; if they differ after a re-run, both are passed and poisoned and 0x0281 is
reported for both blocks with LAST_TASK; if they differ at first, no cell changes, and (for a MOVE or UPDATE) both
copies run again from the start, what they noted as written put back and forgotten (a MATMUL once both matrix cores
have room, R143). Completes: redundancyCompare.
Cites: R398, R399, R400, R401, R402. -/
def Obligations.RedundancyComparison : Prop :=
  ∀ (s : State) (b : BlockId) (num : Nat) (x y : RTask), b.val % 2 = 0 → s.run b.val num = some x → s.run (b.val + 1) num = some y →
    x.redundant = true → y.odd = true → x.left = 0 → y.left = 0 → x.passed = false →
    let both (t : State) (p : RTask → Prop) : Prop := (∃ r, t.run b.val num = some r ∧ p r) ∧ ∃ r, t.run (b.val + 1) num = some r ∧ p r
    if s.copiesAgree b.val x y = true then Completes (.redundancyCompare b num) s fun t => both t (fun r => r.passed = true) ∧
        (∀ k, t.cell k = s.cell k) ∧ (x.reran = true → t.Heard 0x0280 2 b.val ∧ t.Heard 0x0280 2 (b.val + 1)) ∧
        (recKind x.task.record ≠ 1 → SameMem s t)
    else if x.reran = true then Completes (.redundancyCompare b num) s fun t => both t (fun r => r.passed = true ∧ r.poisoned = true) ∧
        SameMem s t ∧ t.Heard 0x0281 2 b.val ∧ t.Heard 0x0281 2 (b.val + 1) ∧ t.rbit (blockReg b.val 0x804) 1 = true ∧
        t.rf (blockReg b.val 0x804) 31 16 = recId x.task.record % 65536 ∧ t.rf (blockReg (b.val + 1) 0x804) 31 16 = recId x.task.record % 65536
    else s.rerunRoom b.val x = true → Completes (.redundancyCompare b num) s fun t => (∀ k, t.cell k = s.cell k) ∧
        ([4, 6].contains (recKind x.task.record) = true → [4, 6].contains (recKind y.task.record) = true →
          both t fun r => r.reran = true ∧ r.left = 1 ∧ r.writes = [])

/-- For REDUCE_SCATTER, ALL_GATHER, ALL_REDUCE and BEAT of a task that has not started (no storage error): a malformed
body fails it with 0x0528 and 0x0272 and changes no memory. Alone in its group, a beat's part is done at once with
nothing stored, and the others convert SRC to DST in the wire format (destination in one memory; a code already in it
as it stands) and their part is done. With other members its round is under way, the task has arrived and no cell
changes; unless messages of other members wait for it, it is the last among the rounds and no memory changes at all
unless it gathers (which writes its own shard to DST). Completes: reduceScatter, allGather, allReduce, beat.
Cites: R231, R360, R361, R362, R363, R365. -/
def Obligations.CollectiveStart : Prop :=
  ∀ (s : State) (b : BlockId) (op : Nat) (c : Instr) (x : RTask),
    (op = 0 ∧ c = .reduceScatter b [] ∨ op = 1 ∧ c = .allGather b [] ∨ op = 2 ∧ c = .allReduce b [] ∨ op = 3 ∧ c = .beat b) →
    s.collTask b.val op = some x → s.run b.val x.num = some x → x.arrived = false →
    let r := s.newRound b.val op x
    let d := r.dst.at 0
    let left (t : State) : Prop := (t.run b.val x.num).map RTask.left = some (x.left - 1)
    (s.collBad x.task.job x.task.record = true → Completes c s fun t => t.run b.val x.num = none ∧ t.Heard 0x0528 2 b.val ∧
      t.Heard 0x0272 2 b.val ∧ SameMem s t) ∧
    (s.collBad x.task.job x.task.record = false →
      (s.groupSize x = 1 → op = 3 → Completes c s fun t => left t ∧ t.store = s.store) ∧
      (s.groupSize x = 1 → op ≠ 3 → r.dst.pool < 2 → Completes c s fun t => left t ∧ ∃ g : Nat → Nat, ∀ i < r.elems,
        t.rdN d.1 (d.2 + i * r.wireW) r.wireW =
          (s.wireElem r (g i) (s.rdNAt (r.src.plus (i * r.srcW)) r.srcW) ((s.ownElems r 0 r.elems).getD i (.nan false, false))).code
            % 2 ^ (8 * r.wireW)) ∧
      (s.groupSize x ≠ 1 → Completes c s fun t => (∃ y ∈ t.fab.rounds, y.same r = true) ∧
        (t.run b.val x.num).map RTask.arrived = some true ∧ (∀ k, t.cell k = s.cell k) ∧
        (s.fab.early = [] → (op ≠ 1 → SameMem s t) ∧
          ((∀ y ∈ s.fab.rounds, y.same r = false) → ∃ nf, t.fab.rounds = s.fab.rounds ++ [{ r with nf := nf }]))))

/-- CHDR_RECEIVE of a header of a round under way: with another configuration prefix the round is refused with 0x0523; out
of turn it loses the round with 0x0525; else it opens the stage (c, KMAX, the sender's flag). CDATA_RECEIVE: a tile
out of order, of another stage or with a bad CRC loses the round with 0x0525; else the rail goes on to the next tile
or stage, a tile of a gathering stage stands at DST (in one memory), and a digest failure marks the round rejected
with 0x0520. A round that is refused, lost or complete takes neither. STAGE_DATA_LOST after STAGE_TO loses the round.
BLAME_NOTICE reports 0x0522. No cell or norm changes. Completes: chdrReceive, cdataReceive, stageDataLost,
blameNotice.
Cites: R229, R362, R364, R366, R367, R372, R373, R374, R375. -/
def Obligations.CollectiveReceive : Prop :=
  (∀ (s : State) (h : Chdr) (r : Round) (x : RailRun), s.idValid = true → s.roundOf (.chdr h) = some r → h.attempt = r.attempt →
    r.runs[h.rail]? = some x → Completes (.chdrReceive h) s fun t => t.store = s.store ∧
      if r.done = true then t.fab.rounds = s.fab.rounds
      else if h.cfgPrefix ≠ s.rn 0x34020 + s.rn 0x34024 * 2 ^ 32 then
        t.Heard 0x0523 0 0 ∧ ∃ r' ∈ t.fab.rounds, r'.same r = true ∧ r'.refused = true ∧ r'.done = true
      else if h.stage ≠ x.stage ∨ x.hdr = true then
        t.Heard 0x0525 0 0 ∧ ∃ r' ∈ t.fab.rounds, r'.same r = true ∧ r'.lost = true ∧ r'.done = true
      else (s.setRound { (r.setRail h.rail { x with hdr := true, c := h.c, kmax := h.kmax, seq := 0 }) with
        nf := r.nf || h.nf, dataMs := 0 }).fab.rounds = t.fab.rounds) ∧
  (∀ (s : State) (d : Cdata) (r : Round) (x : RailRun), s.idValid = true → s.roundOf (.cdata d) = some r → d.attempt = r.attempt →
    r.runs[d.rail]? = some x →
    let good : Prop := x.hdr = true ∧ d.stage = x.stage ∧ d.seq = x.seq ∧ d.crcOk = true
    let n := (s.ring r d.rail).length
    let i := s.ringIndex r d.rail
    let k := r.reduceStages n
    let shard := (i + 2 * n - 1 - (d.stage - k)) % n
    let out := (r.dst.plus ((r.tileAt n d.rail shard x.tile).1 * r.wireW)).at 0
    (r.done = true → Completes (.cdataReceive { what := d, errs := [] }) s fun t => t.store = s.store ∧ t.fab.rounds = s.fab.rounds) ∧
    (r.done = false → ¬ good → Completes (.cdataReceive { what := d, errs := [] }) s fun t => t.store = s.store ∧ t.Heard 0x0525 0 0 ∧
      ∃ r' ∈ t.fab.rounds, r'.same r = true ∧ r'.lost = true ∧ r'.done = true) ∧
    (r.done = false → good → Completes (.cdataReceive { what := d, errs := [] }) s fun t => (∀ c, t.cell c = s.cell c) ∧ (∀ c, t.norm c = s.norm c) ∧
      (∃ r' ∈ t.fab.rounds, r'.same r = true ∧
        r'.runs[d.rail]? = some (if x.tile + 1 < r.tiles n then { x with tile := x.tile + 1, seq := x.seq + 1 }
          else { RailRun.init with stage := x.stage + 1 }) ∧
        (s.tileFails r x d.words ((List.range (r.tileAt n d.rail (if d.stage < k then (i + 2 * n - d.stage - 2) % n else shard) x.tile).2).map
            fun y => (r.wire.input (s.denorm r.job) (byteN d.data (y * r.wireW) r.wireW)).1) d.data = true →
          r'.reject = true ∧ t.Heard 0x0520 0 0)) ∧
      (k ≤ d.stage → r.dst.pool < 2 → ∀ y < d.data.length, t.rdByte out.1 (out.2 + y) = d.data.getD y 0))) ∧
  (∀ (s : State) (i : Nat) (r : Round), s.roundAt i = some r → r.done = false → r.beatOnly = false → s.rf 0x34008 15 0 ≤ r.dataMs →
    Completes (.stageDataLost i) s fun t => t.store = s.store ∧ t.Heard 0x0525 0 0 ∧
      ∃ r' ∈ t.fab.rounds, r'.same r = true ∧ r'.lost = true ∧ r'.done = true) ∧
  (∀ s : State, s.idValid = true → Completes .blameNotice s fun t => t.Heard 0x0522 0 0 ∧ t.store = s.store ∧ SameUnits s t)

/-- BEAT_SLOT_BOUNDARY: the time is the boundary; a round whose own part and children are complete has sent its up beat,
and at the root holds the verdict. BEAT_RECEIVE: an up beat adds its child, its bits and the lower blame; a down beat
is kept and one that is late raises 0x0527. VERDICT_APPLY: a step's verdict ends its round and is taken by the job; an
accepted round ends with its task's part done; a rejected one runs again with the next attempt, or, refused or out of
re-runs, is abandoned with 0x0524. SINGLE_DEVICE_VERDICT takes the job's own flag. BEAT_TIMEOUT abandons the round
with 0x0526 when the own part is complete. Completes: beatSlotBoundary, beatReceive, verdictApply,
singleDeviceVerdict, beatTimeout.
Cites: R19, R222, R226, R228, R231, R232, R376, R377, R378, R379, R380. -/
def Obligations.BeatsAndVerdicts : Prop :=
  ∀ s : State,
    (∀ now, now % (s.rf 0x34004 7 0 * 1000) = 0 → s.time ≤ now → Completes (.beatSlotBoundary now) s fun t => t.time = now ∧ SameMem s t ∧
      ∀ r ∈ s.rounds, r.upSent = false → s.ownDone r = true →
        (∀ k ∈ s.children (s.members r).length (indexOf (s.members r) s.ownId), k ∈ r.ups) →
        ∃ r' ∈ t.rounds, r'.same r = true ∧ r'.upSent = true) ∧
    (∀ src (p : List Byte) r,
      let ctl := byteN p 4 4
      s.idValid = true → s.roundOf (.beat src p) = some r →
      (bit ctl 5 = true → r.down = none → Completes (.beatReceive src p) s fun t => SameMem s t ∧
        (∃ r' ∈ t.rounds, r'.same r = true ∧ r'.down = some (byteN p 16 2, byteN p 18 2, byteN p 24 8)) ∧
        (byteN p 24 8 < s.time → t.Heard 0x0527 0 0)) ∧
      (bit ctl 5 = false → (s.members r).contains src = true → r.ups.contains (indexOf (s.members r) src) = false →
        Completes (.beatReceive src p) s fun t => t.store = s.store ∧ ∃ r' ∈ t.rounds, r'.same r = true ∧
          r'.ups = r.ups ++ [indexOf (s.members r) src] ∧ r'.bits = orBits r.bits (byteN p 16 2) ∧ r'.blame = min r.blame (byteN p 18 2))) ∧
    (∀ i r bts bl at_, s.roundAt i = some r → r.down = some (bts, bl, at_) → r.job < 64 →
      (r.beatOnly = true → Completes (.verdictApply i) s fun t => t.time = max s.time at_ ∧ VerdictTaken s t r.job (bit bts 0) ∧ SameMem s t ∧
        t.rounds = s.rounds.filter fun x => !x.same r) ∧
      (r.beatOnly = false → bits bts 3 1 = 0 → Completes (.verdictApply i) s fun t => t.rounds = (s.rounds.filter fun x => !x.same r) ∧
        SameMem s t ∧ ∀ x, s.run r.block r.num = some x → t.run r.block r.num = some { x with left := x.left - 1 }) ∧
      (r.beatOnly = false → bits bts 3 1 ≠ 0 →
        if bit bts 3 = true ∨ s.rf 0x34004 17 16 ≤ r.reruns then Completes (.verdictApply i) s fun t =>
          t.rounds = (s.rounds.filter fun x => !x.same r) ∧ t.Heard 0x0524 0 0 ∧ SameMem s t
        else Completes (.verdictApply i) s fun t => (∀ k, t.cell k = s.cell k) ∧
          ∃ r' ∈ t.rounds, r'.same r = true ∧ r'.attempt = r.attempt + 1 ∧ r'.reruns = r.reruns + 1 ∧
            (s.fab.early = [] → r'.down = none))) ∧
    (∀ j : SlotId, (s.slot j.val).state = .running → bit (s.slot j.val).flags 0 = false →
      (∃ y ∈ (s.slot j.val).lists, (s.slot j.val).vstep ≤ y.2.pass ∧ (y.2.pos.length < y.2.records.length ∨ (s.slot j.val).vstep < y.2.pass)) →
      s.gradDone j.val (s.slot j.val).vstep = true → Completes (.singleDeviceVerdict j) s fun t =>
        VerdictTaken s t j.val (s.nf j.val (s.slot j.val).vstep) ∧ SameMem s t) ∧
    (∀ i r, s.roundAt i = some r → s.ownDone r = true → r.down = none → s.rf 0x34008 31 16 ≤ r.waitMs → Completes (.beatTimeout i) s fun t =>
      t.rounds = (s.rounds.filter fun x => !x.same r) ∧ t.Heard 0x0526 0 0 ∧ t.store = s.store)

/-- STEP_COMMIT of an active job's step with a verdict, all updates complete: the step is committed, the weight epoch
rises by one modulo 2^32 unless the verdict was non-finite, the log holds one more marker (COMMITTED or SKIPPED, with
step and new epoch), its carry-journal segments are closed, and no memory of the device changes, nor any register or
memory while the UCIe link is down or the step has no segment (segments go to the IMAGE window; that they go at once
is the model's choice, assumption 163). COMMIT_LOG_PROGRAM programs the log's markers to the partition and empties it.
IMAGE_COPY_DONE with the link active takes the piece off the job's copies, and where its image lies in the window each
weight's image entry stands there. RESTORE_COMPLETE: the job stands at the step after its restart step, restored, and
the operation is done. Completes: stepCommit, commitLogProgram, imageCopyDone, restoreComplete.
Cites: R14, R16, R19, R426, R427, R432, R433, R436. -/
def Obligations.CommitsAndRestart : Prop :=
  ∀ (s : State),
    (∀ (j : SlotId) (nf : Bool), ((s.slot j.val).verdicts.find? fun v => v.1 = (s.slot j.val).step) = some ((s.slot j.val).step, nf) →
      (s.slot j.val).state.active = true → (s.slot j.val).committed = false → s.updatesDone j.val (s.slot j.val).step = true →
      Completes (.stepCommit j) s fun t => (t.slot j.val).committed = true ∧ t.part = s.part ∧
        (s.ucieUp = false ∨ (∀ y ∈ (s.slot j.val).segs, y.1 ≠ (s.slot j.val).step) → t.store = s.store) ∧
        (∀ k, t.cell k = s.cell k) ∧ (∀ c a, t.rdByte (.bs c) a = s.rdByte (.bs c) a) ∧ (∀ c a, t.rdByte (.hbm c) a = s.rdByte (.hbm c) a) ∧
        (t.slot j.val).epoch = (if nf then (s.slot j.val).epoch else ((s.slot j.val).epoch + 1) % 2 ^ 32) ∧
        (∃ m, t.fw.commitLog = s.fw.commitLog ++ [m] ∧ m.typ = (if nf then 2 else 1) ∧ m.job = j.val ∧ m.step = (s.slot j.val).step ∧
          m.epoch = (t.slot j.val).epoch ∧ m.lscale = s.rn (numReg j.val 8)) ∧
        (∀ y ∈ (t.slot j.val).segs, y.1 = (s.slot j.val).step → y.2.2.1 = true) ∧ ∀ k, k ≠ j.val → t.slot k = s.slot k) ∧
    (s.fw.commitLog ≠ [] → Completes .commitLogProgram s fun t => t.part = s.part.addMarkers s.fw.commitLog ∧
      t.fw.commitLog = [] ∧ t.store = s.store ∧ t.slots = s.slots) ∧
    (∀ (j : SlotId) (u : TileTierId), (s.slot j.val).imgCopy.contains u.val = true → s.ucieUp = true →
      let I := s.tier u.val
      let full := match I.tensor with | some n => (s.slot j.val).imgFull.contains n | none => true
      let off := imageBytes ((firstIdx (fun v => v == u.val) (s.imageUnits j.val)).getD 0)
      Completes (.imageCopyDone { what := j, errs := [] } u) s fun t =>
        (t.slot j.val).imgCopy = (s.slot j.val).imgCopy.filter (fun v => v != u.val) ∧
        ∀ h, s.hostAcc j.val kindImage 0 off (4 * (1024 * (I.rows - 1) + I.cols)) = .at h → I.cols ≤ 1024 → ∀ r < I.rows, ∀ c < I.cols,
          t.rdN .host (h + 4096 * r + 4 * c) 4 = s.imageEntry I u.val r c full % 2 ^ 32) ∧
    (∀ (j : SlotId) (o : Op), (s.slot j.val).restOrd = 4 → (s.slot j.val).restored = true →
      (∀ u ∈ s.jobUnits j.val, s.tierState u = stResident ∨ s.tierState u = stRetired ∧ (s.tier u).tensor ≠ none) →
      s.opsOf [0x0C04] (fun a => a == j.val) = [o] → (s.fw.ops.find? fun x => x.oph = (s.slot j.val).restOp ∧ ¬ x.done) = some o →
      Completes (.restoreComplete j) s fun t => (t.slot j.val).restOrd = 5 ∧ (t.slot j.val).step = (s.slot j.val).rests + 1 ∧
        (t.slot j.val).vstep = (s.slot j.val).rests + 1 ∧ (t.slot j.val).verdicts = [] ∧
        ∃ x ∈ t.fw.ops, x.oph = o.oph ∧ x.done = true ∧ x.status = 0)

/-- LINK_CFG_WRITE accepted: a half that is enabled and exists leaves DISABLED or FAULT for TRAINING, one that is not ends
in DISABLED. LINK_TRAINING_DONE: with both halves trained (or the half of a bifurcated port) the port enters HELLO
with its lanes, with one half of a full port also degraded with 0x0503; else it waits to retry. LINK_TRAINING_RETRY
tries again. HELLO_RECEIVE keeps the peer's fields; a duplicate ID (0x0504) or another version, encryption or prefix
(MISMATCH, and 0x0505 on entry) leads to MGMT_ONLY, else UP, or on an encrypted port without keys key establishment.
HELLO_TIMEOUT and FLIT_ALIGNMENT_LOSS take the link down: TRAINING, 0x0501. No memory changes. Completes:
linkCfgWrite, linkTrainingDone, linkTrainingRetry, helloReceive, helloTimeout, flitAlignmentLoss.
Cites: R344, R345, R346, R347, R349, R350, R525. -/
def Obligations.PortStates : Prop :=
  ∀ (s : State),
    (∀ w a v r, Accepted s w a v r → r.desc.id = .linkCfg → a.off = linkReg r.unit 0 → r.unit < 16 → Completes (.linkCfgWrite w a v) s fun t =>
      SameMem s t ∧ Wrote r.desc (s.reg a.off) (t.reg a.off) v ∧ ∀ h < 2, t.lpState (2 * r.unit + h) =
        (if bit v h = true ∧ (h = 0 ∨ bit v 2 = true) then
          (if s.lpState (2 * r.unit + h) = lpDisabled ∨ s.lpState (2 * r.unit + h) = lpFault then lpTraining else s.lpState (2 * r.unit + h))
        else lpDisabled)) ∧
    ∀ p : PortId,
      let half (l h : Nat) : Bool := bits l (4 * h + 3) (4 * h) == 15
      let split := s.rbit (linkReg (p.val / 2) 0) 2
      (∀ l, s.lpState p.val = lpTraining → s.lpEn p.val = true → (s.port p.val).trainFailed = false →
        Completes (.linkTrainingDone p l) s fun t => SameMem s t ∧
          let n := if split then (if half l (p.val % 2) then 4 else 0)
            else if half l 0 && half l 1 then 8 else if half l 0 || half l 1 then 4 else 0
          if n = 0 then (t.port p.val).trainFailed = true ∧ t.store = s.store
          else t.lpState p.val = lpHello ∧ t.rf (lportReg p.val 0) 7 4 = n ∧ SameRegs s t [lportReg p.val 0] ∧
            t.rbit (lportReg p.val 0) 3 = (!split && n == 4) ∧ (split = false → n = 4 → t.Heard 0x0503 5 p.val)) ∧
      (s.lpState p.val = lpTraining → (s.port p.val).trainFailed = true → 1000 ≤ (s.port p.val).trainMs →
        Completes (.linkTrainingRetry p) s fun t => t.port p.val = { s.port p.val with trainFailed := false, trainMs := 0 } ∧ t.store = s.store) ∧
      (∀ pl : List Byte, s.helloState p.val = true → pl.length = 64 → Completes (.helloReceive p pl) s fun t => SameMem s t ∧
        t.rn (lportReg p.val 8) = byteN pl 8 4 ∧ t.rf (lportReg p.val 4) 12 0 = byteN pl 4 2 % 8192 ∧ (t.port p.val).missMs = 0 ∧
        let dup := bit (byteN pl 2 2) 0 && s.idValid && byteN pl 4 2 % 8192 == s.ownId
        let enc := s.rf (linkReg (p.val / 2) 0) 4 3 == 1
        let fits := byteN pl 0 2 == 1 && bit (byteN pl 2 2) 1 == enc && byteN pl 0x10 8 == s.rn 0x34020 + s.rn 0x34024 * 2 ^ 32
        (fits = false → t.rbit (lportReg p.val 0) 18 = true ∧ (s.lpState p.val ≠ lpMgmt → t.Heard 0x0505 5 p.val)) ∧
        if dup = true then t.lpState p.val = lpMgmt ∧ t.Heard 0x0504 5 p.val
        else if fits = false then t.lpState p.val = lpMgmt
        else if enc = true ∧ (s.port p.val).keyOk = false then t.lpState p.val = s.lpState p.val ∧
          ((t.port p.val).keying = true ∨ (s.port p.val).keyFailed = true)
        else t.lpState p.val = lpUp) ∧
      (s.helloState p.val = true → s.rf (linkReg (p.val / 2) 0) 19 16 * s.rf (linkReg (p.val / 2) 0) 15 8 ≤ (s.port p.val).missMs →
        Completes (.helloTimeout p) s fun t => t.lpState p.val = lpTraining ∧ t.Heard 0x0501 5 p.val ∧ t.port p.val = Port.init ∧ SameMem s t) ∧
      (s.helloState p.val = true → Completes (.flitAlignmentLoss p) s fun t => t.lpState p.val = lpTraining ∧ t.Heard 0x0501 5 p.val ∧
        t.port p.val = Port.init ∧ SameMem s t)

/-- HELLO_SEND due: the hello is sent or queued and the interval starts again. FLIT_RECEIVE: a bad CRC counts a replay and
the ninth failure retrains; on an encrypted port a bad tag counts and the ninth fails the port with 0x0812; else the
failure counts are 0. MESSAGE_ROUTE: a message for this device, or unmarked by a valid ID, frees its receive buffer
and changes nothing else; one without hops left is dropped with 0x0511; one without a port, with 0x0510. Key
establishment ends in UP with keys, or fails with 0x0811 once, and is tried again after 1 s; after 2^31 flits a rekey
starts the next generation with the next secret, and the old key is erased after 1 ms. A TIME exchange starts; its
answer sets the clock before the first lock and the offset to slew after it. No memory changes. Completes: helloSend,
flitReceive, messageRoute, linkKeyEstablished, linkKeyTimeout, linkKeyRetry, linkRekey, oldKeyErase, timeSyncInterval,
timeMessage.
Cites: R346, R351, R353, R358, R383, R384, R385, R525, R526, R527, R529, R530. -/
def Obligations.FlitsKeysAndTime : Prop :=
  ∀ (s : State) (p : PortId),
    let P := s.port p.val
    let only (t : State) : Prop := t.store = s.store ∧ (∀ k, k ≠ p.val → t.port k = s.port k)
    (s.helloState p.val = true → (P.changed = true ∨ s.rf (linkReg (p.val / 2) 0) 15 8 ≤ P.helloMs) → Completes (.helloSend p) s fun t =>
      only t ∧ (t.port p.val).changed = false ∧ (t.port p.val).helloMs = 0 ∧
      (.hello p.val (s.helloBytes p.val) ∈ t.fab.out ∨ ∃ x ∈ (t.port p.val).txQ, x.msg = .hello p.val (s.helloBytes p.val))) ∧
    (∀ f : FlitIn, s.helloState p.val = true → Completes (.flitReceive p f) s fun t => SameMem s t ∧
      (f.crcOk = false → P.flitFails < 8 → P.replays.length < 1000 → (t.port p.val).flitFails = P.flitFails + 1 ∧ t.lpState p.val = s.lpState p.val ∧
        t.rf (lportReg p.val 0x14) 15 0 = min 65535 (s.rf (lportReg p.val 0x14) 15 0 + 1)) ∧
      (f.crcOk = false → 8 ≤ P.flitFails → t.lpState p.val = lpTraining ∧ t.Heard 0x0502 5 p.val) ∧
      (f.crcOk = true → P.keyOk = true → f.tagOk = false → 8 ≤ P.tagFails → t.lpState p.val = lpFault ∧ t.Heard 0x0812 5 p.val) ∧
      (f.crcOk = true → (P.keyOk = false ∨ f.tagOk = true) → (t.port p.val).flitFails = 0 ∧ (t.port p.val).tagFails = 0 ∧
        t.lpState p.val = s.lpState p.val ∧ (f.eccUnc = true → t.Heard 0x0506 5 p.val))) ∧
    (∀ src dst cls hops seq tag (here : Bool) (pl : List Byte), s.carries p.val cls = true → 2 ≤ cls → cls ≤ 5 →
      (here = true ∨ s.idValid = false ∨ dst = s.ownId → exec (.messageRoute p src dst cls hops seq tag here pl) s =
        .next (s.freeBuffer p.val (classVc cls) (s.flitsOf p.val pl.length))) ∧
      (here = false → s.idValid = true → dst ≠ s.ownId → Completes (.messageRoute p src dst cls hops seq tag here pl) s fun t => t.store = s.store ∧
        (hops = 0 → t.Heard 0x0511 0 0) ∧ (hops ≠ 0 → s.routePort dst cls = none → t.Heard 0x0510 0 0) ∧
        ∀ q, hops ≠ 0 → s.routePort dst cls = some q → .routed q src dst cls (hops - 1) seq tag pl ∈ t.fab.out ∨
          ∃ x ∈ (t.port q).txQ, x.msg = .routed q src dst cls (hops - 1) seq tag pl)) ∧
    ((s.lpState p.val = lpHello ∨ s.lpState p.val = lpMgmt) → P.keying = true → s.sec.state = .operational → P.peerSerial ≠ Config.serial.toNat →
      Completes (.linkKeyEstablished p) s fun t => t.lpState p.val = lpUp ∧ (t.port p.val).keyOk = true ∧ (t.port p.val).keying = false ∧
        (t.port p.val).txFlits = 0 ∧ SameMem s t ∧ SameRegs s t [lportReg p.val 0]) ∧
    (∀ failed, (s.lpState p.val = lpHello ∨ s.lpState p.val = lpMgmt) → P.keying = true → (failed = true ∨ 100 ≤ P.keyMs) → Completes (.linkKeyTimeout p failed) s fun t =>
      only t ∧ t.port p.val = { P with keying := false, keyFailed := true, keyMs := 0 } ∧ (P.keyFailed = false → t.Heard 0x0811 5 p.val)) ∧
    ((s.lpState p.val = lpHello ∨ s.lpState p.val = lpMgmt) → P.keyFailed = true → P.keying = false → 1000 ≤ P.keyMs → Completes (.linkKeyRetry p) s fun t =>
      only t ∧ t.port p.val = { P with keying := true, keyMs := 0 }) ∧
    (s.lpState p.val = lpUp → P.keyOk = true → 2 ^ 31 ≤ P.txFlits → Completes (.linkRekey p) s fun t => only t ∧
      t.port p.val = { P with gen := P.gen + 1, txFlits := 0, tx := nextSecret P.tx }) ∧
    (P.oldKey = true → 1 ≤ P.oldMs → Completes (.oldKeyErase p) s fun t => only t ∧ t.port p.val = { P with oldKey := false, rxOld := [] }) ∧
    (∀ q, s.timeParent = some q → s.rf 0x34088 15 8 * 125 ≤ s.fab.syncUs → Completes .timeSyncInterval s fun t => t.fab.syncUs = 0 ∧
      t.store = s.store ∧ (.timeMsg q ∈ t.fab.out ∨ ∃ x ∈ (t.port q).txQ, x.msg = .timeMsg q)) ∧
    (∀ q (t1 t2 t3 t4 : Nat), s.timeParent = some q →
      let off : Int := (((t2 : Int) - t1) - ((t4 : Int) - t3)) / 2
      Completes (.timeMessage t1 t2 t3 t4) s fun t => SameMem s t ∧ SameRegs s t [lportReg q 0x1C, 0x3408C] ∧
        t.rf 0x3408C 31 16 = enc2c 16 (clampI (-32768) 32767 off) ∧
        if s.fab.locked = false then t.time = ((s.time : Int) + off / 4).toNat ∧ t.fab.locked = decide (off.natAbs ≤ 8)
        else t.time = s.time ∧ t.fab.offset = off ∧ (40000 < off.natAbs → t.rbit 0x3408C 2 = true ∧ t.Heard 0x0530 0 0))

/-- JOURNAL_PAGE_PROGRAM due (32 staged records, or 100 ms): the oldest 32 staged records follow the programmed ones.
JOURNAL_COMPACTION and JOURNAL_BULK_COMPACTION due: the records of the erased blocks that R408 keeps and that their
pages return (R51) are rewritten after the others, WEAR (and TALLY) records follow, nothing else is lost.
AGGREGATOR_WINDOW_END forwards the oldest held report. RATE_SUMMARY with room stages one SUMMARY of all occurrences
counted and clears the counters. FIRMWARE_TICK with no report and no request: device time advances by 1 ms and the
slew, the region controllers' heartbeats count, staged pages that are due are programmed. OPERATION_COMPLETE: a load
or adoption whose tiers hold their pieces makes the tensor RESIDENT; a staged graph is loaded or refused; calibration
runs, tests and image checks end. FAB_FORWARD_RESPONSE ends the forwarded request. No memory changes but what an
operation's own work writes. Completes: journalPageProgram, journalCompaction, journalBulkCompaction,
aggregatorWindowEnd, rateSummary, firmwareTick, operationComplete, fabForwardResponse.
Cites: R404, R408, R409, R412, R414, R457, R471, R475, R477, R480, R487, R489. -/
def Obligations.JournalAndFirmwareLoop : Prop :=
  ∀ s : State,
    ((32 ≤ s.jrn.staged.length ∨ s.jrn.staged ≠ [] ∧ 100 ≤ s.jrn.stagedMs) → Completes .journalPageProgram s fun t =>
      t = s.setJrn t.jrn ∧ t.jrn.records = s.jrn.records ++ s.jrn.staged.take 32 ∧ t.jrn.staged = s.jrn.staged.drop 32 ∧
      t.jrn.nextSeq = s.jrn.nextSeq) ∧
    (∀ rd b rest, s.jrn.readable rd = b :: rest → rest ≠ [] → s.jrn.erased < 16 →
      (b.flatten.filter s.jrn.keeps).length + (s.wearOf b.flatten).length ≤ 512 → Completes (.journalCompaction rd) s fun t =>
        t = { s.setJrn t.jrn with fw := { s.fw with reports := s.fw.reports ++ partReports rd } } ∧ t.jrn.nextSeq = s.jrn.nextSeq + (s.wearOf b.flatten).length ∧
        t.jrn.records = ((s.jrn.blocks.drop 1).map List.flatten).flatten ++ b.flatten.filter s.jrn.keeps ++ numberRecs s.jrn.nextSeq (s.wearOf b.flatten)) ∧
    (∀ rd b rest, s.jrn.readable rd = b :: rest → 32 ≤ rest.length → s.jrn.erased < 16 →
      512 < (b.flatten.filter s.jrn.keeps).length + (s.wearOf b.flatten).length → Completes (.journalBulkCompaction rd) s fun t =>
        t = { s.setJrn t.jrn with fw := { s.fw with reports := s.fw.reports ++ partReports rd } } ∧ ∃ new, (∀ r ∈ new, r.typ = tyTally ∨ r.typ = tyWear) ∧ t.jrn.nextSeq = s.jrn.nextSeq + new.length ∧
          t.jrn.records = ((s.jrn.blocks.drop 32).map List.flatten).flatten ++
            ((((s.jrn.readable rd).take 32).map List.flatten).flatten.filter fun r => s.jrn.keeps r && !s.jrn.correctable r) ++
            numberRecs s.jrn.nextSeq new) ∧
    (∀ (g : RegionId) r rest, SMap.get (fun _ => []) s.aggs g.val = r :: rest → Completes (.aggregatorWindowEnd g) s fun t =>
      t.fw.reports = s.fw.reports ++ [r] ∧ t.store = s.store ∧ SameUnits s t ∧
      ∀ h, SMap.get (fun _ => []) t.aggs h = if h = g.val then rest else SMap.get (fun _ => []) s.aggs h) ∧
    ((s.jrn.src ≠ [] ∨ s.jrn.others ≠ 0) → (∀ r, r.typ = tySummary → r.cls = 0 → s.jrn.room r = true) → Completes .rateSummary s fun t =>
      t = s.setJrn t.jrn ∧ t.jrn.src = [] ∧ t.jrn.others = 0 ∧ ∃ r, t.jrn.staged = s.jrn.staged ++ [r] ∧ r.typ = tySummary ∧
        r.seq = s.jrn.nextSeq ∧ r.count = (s.jrn.src.map fun x => x.2.2.2).sum + s.jrn.others) ∧
    (∀ x late, s.mpUp = true → s.fw.reports = [] → s.nextBox = none → Completes (.firmwareTick x late) s fun t =>
      t.time = s.time + (1000000 + clampI (-800) 800 s.fab.offset / 4).toNat ∧ t.fab.offset = s.fab.offset - clampI (-800) 800 s.fab.offset ∧
      t.fw.overruns = s.fw.overruns + (if late then 1 else 0) ∧ t.jrn.records ++ t.jrn.staged = s.jrn.records ++ s.jrn.staged ∧
      t.jrn.staged.length < 32 ∧ t.jrn.jclock = s.jrn.jclock + (if 999 ≤ s.jrn.msInSec then 1 else 0) ∧ SameMem s t ∧
      ∀ g < 16, t.rf (regionReg g 4) 31 16 = (s.rf (regionReg g 4) 31 16 + (if s.railState g = pdOn then 1 else 0)) % 65536) ∧
    (∀ o oph, (s.fw.ops.find? fun o => o.oph = oph ∧ ¬ o.done) = some o →
      (∀ x, o.opcode = 0x0304 ∨ o.opcode = 0x0305 → s.tensor o.arg = some x → s.allHeld o.arg x = true →
        Completes (.operationComplete oph) s fun t => t.Ended oph 0 0 ∧ (t.tensor o.arg).map (fun y => y.state) = some 5) ∧
      (o.opcode = 0x0405 → Completes (.operationComplete oph) s fun t => SameMem s t ∧ match s.graphRefused o.arg with
        | some evt => t.Ended oph stRefused evt ∧ (t.slot o.arg).graph = (s.slot o.arg).graph ∧ t.Heard evt 0 0
        | none => t.Ended oph 0 0 ∧ (t.slot o.arg).graph = true ∧
            ∀ g < 16, ((t.slot o.arg).list g).records = ((s.slot o.arg).list g).staged) ∧
      (o.opcode = 0x0502 → (∀ g ∈ bitsOf 16 o.arg, s.calState g = calIdle ∨ s.calState g = calOff) →
        Completes (.operationComplete oph) s fun t => t.Ended oph 0 0 ∧ SameMem s t) ∧
      (o.opcode = 0x0801 → (∀ b ∈ bitsOf 256 (o.arg / 8), (s.test b (o.arg % 8)).due = false) →
        Completes (.operationComplete oph) s fun t => t.Ended oph 0 0 ∧ SameMem s t) ∧
      (o.opcode = 0x0903 → Completes (.operationComplete oph) s fun t => SameMem s t ∧
        let st := (s.verifyStaged (o.arg % 4) (o.arg / 4)).1
        t.Ended oph (if st = 0 then 0 else if st = 1 then stAuthFail else if st = 2 then stRollback else stInternal) 0 ∧
        if s.sec.state = .operational then ((t.sec.slot (o.arg % 4) (s.sec.idle (o.arg % 4))).verified = true ↔ st = 0)
        else st = 3 ∧ t.sec = s.sec)) ∧
    (∀ src box resp o rest, (s.opsOf [0x0B07] fun a => a == src + 8192 * box) = o :: rest →
      Completes (.fabForwardResponse src box resp) s fun t => SameMem s t ∧ match resp with
        | none => t.Ended o.oph stInternal 0x0510
        | some l => t.Ended o.oph (if byteN l 12 2 = stMbBusy then stMbBusy else 0) 0)

/-- MAILBOX_RING of a mailbox that takes a request posts it; MAILBOX_RELEASE of a DONE mailbox makes it IDLE. A whole BMC
message takes the lowest IDLE mailbox of 8 to 11, or is answered MB_BUSY with 0x0473; a part waits, and is dropped
after 100 ms. MCTP control, base PLDM and SPDM requests are answered once (what DMTF standards put there is a free
value); a PLDM sensor request returns the reading; the update agent's transfer writes the idle slot and its activation
selects it. A segment fills mailbox 12 + tag mod 4 in order and the last posts it; one out of order discards the
message with 0x0470; a first one for a mailbox not IDLE raises 0x0473. The BMC assigns the I3C address. The DRBG is
reseeded when due; a noise-source failure ends the enclave's operation and its sessions with 0x0803; SPDM sessions
open up to 8; the ML-KEM step makes a session hybrid, and only such a session carries data (R524). No memory changes.
Completes: mailboxRing, mailboxRelease, mctpMessageReceive, mctpReassemblyTimeout, mctpControl, pldmRequest,
pldmFirmwareUpdate, mgmtSegmentReceive, dynamicAddressAssignment, drbgReseed, noiseSourceFailure, spdmMctpMessage,
vendorDefinedRequest.
Cites: R460, R465, R483, R484, R485, R487, R488, R522, R523, R524, R531, R532. -/
def Obligations.MailboxesAndManagementPaths : Prop :=
  ∀ s : State,
    (∀ w a v r, Accepted s w a v r → r.desc.id = .mbDoorbell → bit v 0 = true → s.mbState r.unit < 2 →
      Completes (.mailboxRing w a v) s fun t => t.mbState r.unit = mbPosted ∧ SameRegs s t [mbReg r.unit 4] ∧ SameMem s t ∧
        SameUnits s t ∧ t.fw = s.fw) ∧
    (∀ w a v r, Accepted s w a v r → r.desc.id = .mbStatus → a.off = mbReg r.unit 4 → bit v 3 = true → s.mbState r.unit = mbDone →
      Completes (.mailboxRelease w a v) s fun t => t.mbState r.unit = mbIdle ∧ t.rbit a.off 3 = false ∧
        t.rbit a.off 4 = (s.rbit a.off 4 && !bit v 4) ∧ SameRegs s t [a.off] ∧ SameMem s t ∧ SameUnits s t ∧ t.fw = s.fw) ∧
    (s.mpUp = true →
      (∀ src bytes, let old := match s.fw.reasm.find? fun x => x.1 = src with | some (_, l, _) => l | none => []
        (Completes (.mctpMessageReceive src bytes true) s fun t => t.store = s.store ∧ SameUnits s t ∧ t.fw.boxes = s.fw.boxes ∧
          (t.fw.reasm.find? fun x => x.1 = src) = some (src, old ++ bytes, 0)) ∧
        match [8, 9, 10, 11].find? fun m => s.mbState m == mbIdle with
        | some m => Completes (.mctpMessageReceive src bytes false) s fun t => t.mbState m = mbPosted ∧ (t.box m).src = src ∧
            (∀ i < min 61440 (old ++ bytes).length, (t.box m).byte i = (old ++ bytes).getD i 0) ∧ SameRegs s t [mbReg m 4] ∧
            SameMem s t ∧ SameUnits s t ∧ ∀ k, k ≠ m → t.box k = s.box k
        | none => Completes (.mctpMessageReceive src bytes false) s fun t => t.store = s.store ∧ SameUnits s t ∧
            t.fab.out = s.fab.out ++ [.mctp src (busyReply (old ++ bytes) 0)] ∧ t.fw.boxes = s.fw.boxes ∧ t.Heard 0x0473 0 0) ∧
      (∀ src req, Completes (.mctpControl src req) s fun t => (∃ b, t.fab.out = s.fab.out ++ [.mctp src b]) ∧ t.store = s.store ∧
        SameUnits s t ∧ t.fw = s.fw) ∧
      (∀ src req, Completes (.pldmRequest src none req) s fun t => (∃ b, t.fab.out = s.fab.out ++ [.mctp src b]) ∧ t.store = s.store ∧
        SameUnits s t ∧ t.fw = s.fw) ∧
      (∀ src req i v, s.sensor i = some v → Completes (.pldmRequest src (some i) req) s fun t => t.store = s.store ∧ SameUnits s t ∧
        t.fab.out = s.fab.out ++ [.mctp src (leBytes 4 v)] ∧ t.fw = s.fw) ∧
      (∀ src c off data, s.stateOk 0x0902 = true → (s.dev = .glade → c = 3) → c < 4 → off + data.length ≤ slotSize c →
        Completes (.pldmFirmwareUpdate src (.transfer c off data)) s fun t => t.store = s.store ∧
          t.fab.out = s.fab.out ++ [.mctp src (leBytes 2 0)] ∧ (t.sec.slot c (s.sec.idle c)).verified = false ∧
          ∀ i < data.length, SMap.get (fun _ => 0#8) (t.sec.slot c (s.sec.idle c)).data (off + i) = data.getD i 0) ∧
      (∀ src c, s.stateOk 0x0904 = true → (s.dev = .glade → c = 3) → c < 4 → (s.sec.slot c (s.sec.idle c)).verified = true →
        Completes (.pldmFirmwareUpdate src (.activate c)) s fun t => t.store = s.store ∧
          t.fab.out = s.fab.out ++ [.mctp src (leBytes 2 0)] ∧ t.sec.next = setAt s.sec.next c (s.sec.idle c)) ∧
      (∀ (x : MgmtFrom) tag pl, let src := x.dev; let lk : Option Nat := x.link.map fun p => p.val
        (s.idValid = true ∨ x.link.isSome = true) → src < 8192 → tag < 65536 → pl.length ≤ 4096 →
        let m := 12 + tag % 4
        let i := tag / 8 % 8192
        let c := Instr.mgmtSegmentReceive x tag pl
        let kept (t : State) : Prop := (∀ k < pl.length, (t.box m).byte (4096 * i + k) = pl.getD k 0) ∧
          (bit tag 2 = true → t.mbState m = mbPosted ∧ (t.box m).filling = false) ∧
          (bit tag 2 = false → t.mbState m = s.mbState m ∧ (t.box m).filling = true ∧ (t.box m).nextSeg = i + 1)
        Completes c s fun t => SameMem s t ∧ SameUnits s t ∧ SameRegs s t [mbReg m 4] ∧ (∀ k, k ≠ m → t.box k = s.box k) ∧
          (if (s.box m).filling = true ∧ (s.box m).src = src ∧ (s.box m).link = lk then
             (if i = (s.box m).nextSeg ∧ i < 15 then kept t else (t.box m).filling = false ∧ t.Heard 0x0470 0 0)
           else if i = 0 then
             (if s.mbState m = mbIdle ∧ (s.box m).filling = false then kept t ∧ (t.box m).src = src ∧ (t.box m).link = lk
              else t.box m = s.box m ∧ t.Heard 0x0473 0 0)
           else t.box m = s.box m ∧ t.Heard 0x0470 0 0)) ∧
      (∀ addr, addr < 128 → Completes (.dynamicAddressAssignment addr) s fun t => t = { s with fw := { s.fw with mctpAddr := some addr } }) ∧
      (∀ test, s.sec.state = .operational → test < 255 → Completes (.noiseSourceFailure test) s fun t => t.sec.state = .error ∧
        t.sec.failed = test ∧ t.sec.sessions = [] ∧ t.Heard 0x0803 0 0 ∧ SameMem s t ∧ (s.dev = .ready ∨ s.dev = .running →
          ∀ p < 32, s.rf (linkReg (p / 2) 0) 4 3 = 1 → s.lpState p ≠ lpDisabled → t.lpState p = lpFault)) ∧
      (∀ q : SpdmIn, q.data = none → s.sec.state = .operational → (∀ x, q.opens = some x → s.sec.sessions.length < 8 ∧
          ∀ y ∈ s.sec.sessions, y.id ≠ x.1) → (∀ i, q.ends = some i → ∃ y ∈ s.sec.sessions, y.id = i) →
        Completes (.spdmMctpMessage q) s fun t => t.store = s.store ∧ t.fw = s.fw ∧
        (∃ b, t.fab.out = s.fab.out ++ [.mctp q.src b] ∧ (spdmCodes.contains (q.bytes.getD 1 0).toNat = false → b = spdmError q.bytes spdmUnsupported)) ∧
        t.sec.sessions = (s.sec.sessions ++ (match q.opens with | some (i, m) => [{ id := i, hybrid := false, mutAuth := m }] | none => [])).filter
          fun y => q.ends != some y.id) ∧
      (∀ (q : SpdmIn) id m, q.data = some (id, m) → s.sec.state = .operational → Completes (.spdmMctpMessage q) s fun t =>
        t.store = s.store ∧ t.fw = s.fw ∧
        (∀ x data, (s.sec.sessions.find? fun x => x.id = id) = some x → x.hybrid = true → x.openData m = some data →
          (∃ a, t.fab.out = s.fab.out ++ [.mctp q.src (x.sealData a)]) ∧ ∀ y ∈ t.sec.sessions, y.id = id →
            ∃ z ∈ s.sec.sessions, z.id = id ∧ y.rxSeq = z.rxSeq + 1 ∧ y.txSeq = z.txSeq + 1) ∧
        ((∀ x, (s.sec.sessions.find? fun x => x.id = id) = some x → x.hybrid = false ∨ x.openData m = none) → t = s))) ∧
    (∀ src x, (s.fw.reasm.find? fun x => x.1 = src) = some x → 100 < x.2.2 → Completes (.mctpReassemblyTimeout src) s fun t =>
      t.store = s.store ∧ SameUnits s t ∧ t.fw.boxes = s.fw.boxes ∧ t.fw.reasm = s.fw.reasm.filter fun x => x.1 != src) ∧
    (s.sec.state = .operational → (1048576 ≤ s.sec.drbgReqs ∨ 3600000 ≤ s.sec.drbgMs) → Completes .drbgReseed s fun t =>
      t = s.setSec { s.sec with reseeds := s.sec.reseeds + 1, drbgReqs := 0, drbgMs := 0 }) ∧
    (∀ src sess (ek : List Byte) x, (s.sec.sessions.find? fun x => x.id = sess) = some x → Completes (.vendorDefinedRequest src sess ek) s fun t =>
      t.store = s.store ∧ t.fw = s.fw ∧ ∃ b, t.fab.out = s.fab.out ++ [.mctp src b] ∧
        if x.mutAuth = true ∧ x.hybrid = false ∧ ek.length = 1184 ∧ s.sec.state = .operational then
          b.length = 1088 ∧ t.sec.hybrids = s.sec.hybrids + 1 ∧ t.sec.drbgReqs = s.sec.drbgReqs + 1 ∧ ∀ y ∈ t.sec.sessions, y.id = sess → y.hybrid = true
        else b = spdmError [0x13#8, 0xFE#8] spdmUnsupported ∧ t.sec = s.sec)

/-- An accepted RAIL_CTL or CLK_TARGET takes its fields; asking an OFF rail on leads to WAIT_GRANT and an OFF switch to
RAMP_UP, one ramping down to PENDING_ON with 0x0701; asking off withdraws a wait or a pending request and ramps an ON
domain down. INRUSH_GRANT (no neighbour at peak or at full slew; the lower region first) ramps at full slew, after 1
ms at half slew with 0x0700. A ramp that ends turns the domain ON, or down again if it is no longer requested; in
SELFTEST the region's switches are then requested; a switch that turns on runs its clock at the limit, and the last
one requested starts the first recalibration. A ramp down ends OFF, or in the new request. CAP_LOOP_TICK takes its
measurements, lowers CEIL by one step above the cap (0x0711 when capping starts), raises it after 100 µs below 98 %,
moves clocks by at most 10 steps and never beyond what the voltage allows. PWR_CAP sets every region's tile allotment.
No memory changes. Completes: railCtlWrite, clkTargetWrite, inrushGrant, inrushGrantTimeout, domainRampDone,
domainRampDownDone, capLoopTick, pwrCapWrite.
Cites: R537, R542, R543, R544, R545, R546, R547, R548, R549, R550, R564, R575. -/
def Obligations.PowerDomainsAndCaps : Prop :=
  ∀ s : State,
    (∀ w a v r, Accepted s w a v r → r.desc.id = .railCtl → a.off = railReg r.idx 0 → r.idx < 16 → Completes (.railCtlWrite w a v) s fun t =>
      let old := s.railState r.idx
      SameMem s t ∧ t.rf a.off 25 16 = bits v 25 16 ∧ t.rbit a.off 0 = bit v 0 ∧
      (bit v 0 = s.rbit a.off 0 → t.railState r.idx = old) ∧
      (bit v 0 = true → s.rbit a.off 0 = false →
        t.railState r.idx = (if old = pdOff then pdWait else if old = pdDown then pdPending else old) ∧ (old = pdDown → t.Heard 0x0701 3 r.idx)) ∧
      (bit v 0 = false → s.rbit a.off 0 = true →
        t.railState r.idx = (if old = pdWait then pdOff else if old = pdOn ∨ old = pdPending then pdDown else old))) ∧
    (∀ w a v r, Accepted s w a v r → r.desc.id = .clkTarget → a.off = clkReg r.idx 0 → r.idx < 256 → Completes (.clkTargetWrite w a v) s fun t =>
      let old := s.bstate r.idx
      SameMem s t ∧ t.rf a.off 5 0 = bits v 5 0 ∧ t.rbit a.off 8 = bit v 8 ∧
      (bit v 8 = s.rbit a.off 8 → t.bstate r.idx = old) ∧
      (bit v 8 = true → s.rbit a.off 8 = false →
        t.bstate r.idx = (if old = pdOff then pdUp else if old = pdDown then pdPending else old) ∧ (old = pdDown → t.Heard 0x0701 2 r.idx)) ∧
      (bit v 8 = false → s.rbit a.off 8 = true → t.bstate r.idx = (if old = pdOn ∨ old = pdPending then pdDown else old))) ∧
    (∀ g : RegionId,
      (s.grantable g.val = true → (∀ h ∈ neighbours g.val, h < g.val → s.grantable h = false) → Completes (.inrushGrant g) s fun t =>
        t.railState g.val = pdUp ∧ t.rbit (railReg g.val 0) 4 = false ∧ (t.supply g.val).full = true ∧ SameMem s t ∧ SameRegs s t [railReg g.val 0]) ∧
      (s.railState g.val = pdWait → 1000 ≤ (s.supply g.val).waitUs → Completes (.inrushGrantTimeout g) s fun t =>
        t.railState g.val = pdUp ∧ t.rbit (railReg g.val 0) 4 = true ∧ (t.supply g.val).full = false ∧ t.Heard 0x0700 3 g.val ∧ SameMem s t ∧
        SameRegs s t [railReg g.val 0, regionReg g.val 0x5004]) ∧
      (s.railState g.val = pdUp → Completes (.domainRampDone (.region g)) s fun t => SameMem s t ∧
        t.railState g.val = (if s.rbit (railReg g.val 0) 0 = true then pdOn else pdDown) ∧
        (s.rbit (railReg g.val 0) 0 = true → t.rbit (regionReg g.val 4) 0 = true ∧ (s.dev = .selftest → ∀ i < 16,
          s.bstate (g.val * 16 + i) = pdOff → s.rbit (clkReg (g.val * 16 + i) 0) 8 = false →
          t.bstate (g.val * 16 + i) = pdUp ∧ t.rbit (clkReg (g.val * 16 + i) 0) 8 = true))) ∧
      (s.railState g.val = pdDown ∨ s.railState g.val = pdPending → Completes (.domainRampDownDone (.region g)) s fun t => SameMem s t ∧
        t.railState g.val = (if s.railState g.val = pdPending then pdWait else pdOff) ∧ t.calState g.val = calOff ∧
        t.rn (regionReg g.val 4) = 0 ∧ (t.supply g.val).waitUs = 0 ∧ ∀ i < 1024, (t.tile (g.val * 1024 + i)).calLeft = 0)) ∧
    (∀ b : BlockId, let g := b.val / 16
      (s.bstate b.val = pdUp → Completes (.domainRampDone (.block b)) s fun t => SameMem s t ∧
        t.bstate b.val = (if s.rbit (clkReg b.val 0) 8 = true then pdOn else pdDown) ∧
        (s.rbit (clkReg b.val 0) 8 = true → t.rf (clkReg b.val 4) 5 0 = s.clkLimit b.val ∧ t.rbit (regionReg g 0) (16 + b.val % 16) = true ∧
          (s.railState g = pdOn → s.calState g = calOff → (∀ i < 16, s.rbit (clkReg (g * 16 + i) 0) 8 = true → g * 16 + i ≠ b.val →
            s.bstate (g * 16 + i) = pdOn) → t.calState g = calMeasuring))) ∧
      (s.bstate b.val = pdDown ∨ s.bstate b.val = pdPending → Completes (.domainRampDownDone (.block b)) s fun t => SameMem s t ∧
        t.bstate b.val = (if s.bstate b.val = pdPending then pdUp else pdOff) ∧ t.rf (clkReg b.val 4) 5 0 = 0 ∧
        t.rbit (regionReg g 0) (16 + b.val % 16) = false)) ∧
    (∀ mw curr rails, s.dev ≠ .off → rails.length = 16 → Completes (.capLoopTick mw curr rails) s fun t =>
      SameMem s t ∧ t.rn 0x300004 = min 65535 (mw / 1000) ∧ t.rf 0x300000 31 16 = curr % 65536 ∧
      (∀ g < 16, t.rf (railReg g 0x10) 15 0 = min 65535 (rails.getD g 0) ∧ t.rbit (railReg g 0x10) 16 = decide (230 < rails.getD g 0) ∧
        (t.supply g).waitUs = (s.supply g).waitUs + (if s.railState g = pdWait then 10 else 0)) ∧
      (let cap := min (s.rf 0x300008 15 0 * 10000) (825 * s.pwr.vin)
       let ceil := s.rf 0x30000C 21 16
       let below := if 10 * mw * 100 < cap * 98 then s.pwr.belowUs + 10 else 0
       (cap < 10 * mw → t.rf 0x30000C 21 16 = max 24 (ceil - 1) ∧ (t.rbit 0x30000C 0 = true ↔ max 24 (ceil - 1) < 60) ∧
         (max 24 (ceil - 1) < 60 → s.rbit 0x30000C 0 = false → t.Heard 0x0711 0 0)) ∧
       (10 * mw ≤ cap → 100 ≤ below → t.rf 0x30000C 21 16 = min 60 (ceil + 1)) ∧
       (10 * mw ≤ cap → below < 100 → t.reg 0x30000C = s.reg 0x30000C ∧ t.pwr.belowUs = below)) ∧
      ∀ b < 256, s.bstate b = pdOn → t.rf (clkReg b 4) 5 0 ≤ s.rf (clkReg b 4) 5 0 + 10 ∧
        ∀ x l, s.blockVolts b = x :: l → t.rf (clkReg b 4) 5 0 ≤ vfAllowed (least x l)) ∧
    (∀ w a v r, Accepted s w a v r → r.desc.id = .pwrCap → a.off = 0x300008 → Completes (.pwrCapWrite w a v) s fun t =>
      SameMem s t ∧ Wrote r.desc (s.reg a.off) (t.reg a.off) v ∧ SameRegs s t (0x300008 :: (List.range 16).map fun g => regionReg g 0x4000) ∧
      ∀ g < 16, t.rf (regionReg g 0x4000) 31 16 = bits v 31 16 * 25 / 4 ∧ t.rf (regionReg g 0x4000) 15 0 = s.rf (regionReg g 0x4000) 15 0)

/-- VOLTAGE_SENSOR_SAMPLE of an ON region: the least reading lowers RAIL_MIN and captures the time, 60 mV below the
setpoint raises 0x0702 once; a block with a reading more than 40 mV below its setpoint starts to stretch its clock,
and no clock stays faster than its voltage allows. RAIL_MIN_CLEAR resets the register, its time and the warning.
THERMAL_SENSOR_SAMPLE: a sensor at 105 °C for 100 µs shuts the module down (0x0722 latched unless another cause is);
else TMAX shows the hottest, tiles above 95 °C hold programming until 92 °C, 102 °C drops CEIL to 24 with 0x0721,
above THROT the region throttles with 0x0720 and its CEIL falls one step per 100 µs. COOLANT_SAMPLE shows flow and
temperatures; flow under 4 L/min raises 0x0730, an inlet outside 20 to 40 °C 0x0731, once per excursion. No memory
changes. Completes: voltageSensorSample, railMinClear, thermalSensorSample, coolantSample.
Cites: R42, R43, R537, R538, R539, R540, R551, R552, R553, R554, R555. -/
def Obligations.SensorSamples : Prop :=
  ∀ s : State,
    (∀ (g : RegionId) v l, s.railState g.val = pdOn → l.length = 63 → Completes (.voltageSensorSample g (v :: l)) s fun t =>
      let min' := railReg g.val 4
      SameMem s t ∧ (t.supply g.val).volts = v :: l ∧ t.rf min' 15 0 = min (s.rf min' 15 0) (least v l) ∧
      (least v l < s.rf min' 15 0 → t.rn (railReg g.val 8) = s.time % 2 ^ 32 ∧ t.rn (railReg g.val 12) = s.time / 2 ^ 32 % 2 ^ 32) ∧
      (s.rf min' 15 0 ≤ least v l → t.reg (railReg g.val 8) = s.reg (railReg g.val 8) ∧ t.reg (railReg g.val 12) = s.reg (railReg g.val 12)) ∧
      (min (s.rf min' 15 0) (least v l) + 60 < s.rf (railReg g.val 0) 25 16 → (s.supply g.val).warned = false →
        t.Heard 0x0702 3 g.val ∧ (t.supply g.val).warned = true) ∧
      ∀ i < 16, let b := g.val * 16 + i
        let four := ((v :: l).drop (4 * i)).take 4
        s.bstate b = pdOn → (∀ x y, four = x :: y → t.rf (clkReg b 4) 5 0 = min (s.rf (clkReg b 4) 5 0) (vfAllowed (least x y))) ∧
          ((∀ x ∈ s.pwr.droop, x.1 ≠ b) → (∃ x ∈ four, x + 40 < s.rf (railReg g.val 0) 25 16) →
            (∃ x ∈ t.pwr.droop, x.1 = b) ∧ t.rbit (clkReg b 4) 16 = true)) ∧
    (∀ w a v r, Accepted s w a v r → r.desc.id = .railMin → a.off = railReg r.idx 4 → bit v 31 = true → Completes (.railMinClear w a v) s fun t =>
      t.rn a.off = 0xFFFF ∧ t.rn (a.off + 4) = 0 ∧ t.rn (a.off + 8) = 0 ∧ (t.supply r.idx).warned = false ∧ SameMem s t ∧
      SameRegs s t [a.off, a.off + 4, a.off + 8]) ∧
    (∀ (g : RegionId) (readings : List Nat), s.dev ≠ .off → readings.length = 16 →
      let r := thermReg g.val 0
      let tmax := readings.foldl max 0
      let throt := s.rf (thermReg g.val 4) 7 0 * 10
      let trips := ∃ i < 16, 1050 ≤ readings.getD i 0 ∧ 90 ≤ (s.supply g.val).hotUs.getD i 0
      (trips → Completes (.thermalSensorSample g readings) s fun t => t.dev = .off ∧
        t.pwr.cause = if s.pwr.cause = 0 then 0x0722 else s.pwr.cause) ∧
      (¬ trips → Completes (.thermalSensorSample g readings) s fun t => SameMem s t ∧ t.rf r 10 0 = min 2047 tmax ∧
        (t.supply g.val).sensors = readings ∧
        (∀ i < 16, ∀ k < 64, let n := (g.val * 16 + i) * 64 + k
          (t.tile n).tempHold = if 950 < readings.getD i 0 then true else if readings.getD i 0 ≤ 920 then false else (s.tile n).tempHold) ∧
        (1020 ≤ tmax → t.rf r 23 18 = 24 ∧ t.rbit r 12 = true ∧ t.rbit r 11 = true ∧ (s.rbit r 12 = false → t.Heard 0x0721 3 g.val)) ∧
        (tmax < 1020 → s.rbit r 12 = true → t.rbit r 12 = decide (throt ≤ tmax)) ∧
        (tmax < 1020 → s.rbit r 12 = false → throt < tmax → t.rbit r 11 = true ∧ (s.rbit r 11 = false → t.Heard 0x0720 3 g.val) ∧
          t.rf r 23 18 = if 90 ≤ (s.supply g.val).heatUs then max 24 (s.rf r 23 18 - 1) else s.rf r 23 18))) ∧
    (∀ flow inlet outlet, s.dev ≠ .off → Completes (.coolantSample flow inlet outlet) s fun t =>
      SameMem s t ∧ SameRegs s t [0x340000, 0x340004] ∧ t.rn 0x340000 = enc2c 16 inlet + enc2c 16 outlet * 65536 ∧
      t.rf 0x340004 15 0 = min 65535 flow ∧ t.pwr.flowTold = decide (flow < 400) ∧ t.pwr.inletTold = decide (inlet < 200 ∨ 400 < inlet) ∧
      (flow < 400 → s.pwr.flowTold = false → t.rbit 0x340004 16 = true ∧ t.Heard 0x0730 0 0) ∧
      (inlet < 200 ∨ 400 < inlet → s.pwr.inletTold = false → t.rbit 0x340004 17 = true ∧ t.Heard 0x0731 0 0))

/-- CAL_RUN_WRITE accepted with RUN: an OFF region stays OFF, a measuring one holds the request, another begins: every
tile has 40 measurements to take and TCAL takes TNOW. REGION_TEMP_EVAL forms TNOW from the 16 sensors and starts a
recalibration of an IDLE or APPLYING region beyond THRESH. CALIBRATION_MEASUREMENT with a grant takes one measurement;
the last one gives each of the 576 trims its target: the measured code limited to its range, or the factory prediction
when it is further from it than TCHK. GRADUAL_TAP moves the tile's next trim by one tap toward its target and no other
trim; STEP_MODE_TAPS moves all of the tile's trims to their targets; with no target left the region is IDLE, CAL_RUNS
counts, 0x0340. STEP_MODE_FALLBACK after 1 s goes on in gradual mode. IN_SERVICE_RECORD stores the region's codes in
an area of the latest 25 records (a size read from the spec's flash layout, assumption 44). No cell changes.
Completes: calRunWrite, regionTempEval, calibrationMeasurement, gradualTap, stepModeTaps, stepModeFallback,
inServiceRecord.
Cites: R557, R558, R559, R560, R561, R562, R563, R564, R566, R567, R569, R571. -/
def Obligations.Calibration : Prop :=
  ∀ s : State,
    (∀ w a v r, Accepted s w a v r → r.desc.id = .calRstatus → a.off = calReg r.idx 0 → r.idx < 16 → bit v 5 = true →
      Completes (.calRunWrite w a v) s fun t => SameMem s t ∧
        (s.calState r.idx = calOff → t.calState r.idx = calOff ∧ t.cal = s.cal ∧ t.tiles = s.tiles) ∧
        (s.calState r.idx = calMeasuring → t.calState r.idx = calMeasuring ∧ (t.calR r.idx).held = true ∧ t.tiles = s.tiles) ∧
        (s.calState r.idx ≠ calOff → s.calState r.idx ≠ calMeasuring → t.calState r.idx = calMeasuring ∧ t.tcal r.idx = s.tnow r.idx ∧
          (∀ i < 1024, (t.tile (r.idx * 1024 + i)).calLeft = 40) ∧ (t.calR r.idx).targets = (s.calR r.idx).targets)) ∧
    (∀ g : RegionId, s.railState g.val = pdOn → (s.supply g.val).sensors.length = 16 → Completes (.regionTempEval g) s fun t =>
      SameMem s t ∧ (let sum := (s.supply g.val).sensors.sum
        t.rf (calReg g.val 4) 31 16 = sum / 16 % 65536 ∨ sum % 16 ≠ 0 ∧ t.rf (calReg g.val 4) 31 16 = (sum / 16 + 1) % 65536) ∧
      if (s.calState g.val = calIdle ∨ s.calState g.val = calApplying) ∧ s.rf 0x350000 7 0 < (t.tnow g.val - s.tcal g.val).natAbs then
        t.calState g.val = calMeasuring ∧ t.tcal g.val = t.tnow g.val ∧ ∀ i < 1024, (t.tile (g.val * 1024 + i)).calLeft = 40
      else t.calState g.val = s.calState g.val ∧ t.tcal g.val = s.tcal g.val ∧ t.tiles = s.tiles) ∧
    (∀ (n : TileId) (meas : List Int), let g := n.val / 1024
      let T := s.tile n.val
      T.calLeft ≠ 0 → s.otherGrant n.val = true → s.blockOn (n.val / 64) = true → s.rbit (blockReg (n.val / 64) 0xC308) 1 = false →
      (T.calLeft = 1 → meas.length = 576) → Completes (.calibrationMeasurement n meas) s fun t => (∀ k, t.cell k = s.cell k) ∧
        (T.calLeft ≠ 1 → (t.tile n.val).calLeft = T.calLeft - 1 ∧ t.cal = s.cal) ∧
        (T.calLeft = 1 → ((s.calR g).held = false → (t.tile n.val).calLeft = 0) ∧ ∀ i < 576,
          let k := n.val * 576 + i
          let c := clampI 0 (trimMax i) (meas.getD i 0)
          let p : Int := predict k (s.tcal g)
          let far := s.rf 0x350000 20 16 < (c - p).natAbs
          (((listGet (t.calR g).targets k).getD ((t.calR g).trim k) : Nat) : Int) = (if far then p else c) ∧
          (c ≠ meas.getD i 0 → t.rbit (calReg g 0) 3 = true ∧ k ∈ (t.calR g).limited) ∧ (far → t.rbit (calReg g 0) 4 = true))) ∧
    (∀ n : TileId, let g := n.val / 1024
      let C := s.calR g
      let settled (t : State) : Prop := if (t.calR g).targets = [] then t.calState g = calIdle ∧ t.Heard 0x0340 3 g ∧
          t.rn (calReg g 8) = min (2 ^ 32 - 1) (s.rn (calReg g 8) + 1) else t.calState g = calApplying
      s.calState g = calApplying → s.tapPoint n.val = true →
      (∀ k v, C.nextTap n.val = some (k, v) → s.gradualMode g = true → (∀ x, listGet C.last n.val = some x → x + 2000000 ≤ s.time) →
        Completes (.gradualTap n) s fun t => SameMem s t ∧ t.tiles = s.tiles ∧ settled t ∧
          (t.calR g).trim k = (if C.trim k < v then C.trim k + 1 else C.trim k - 1) ∧ (∀ k', k' ≠ k → (t.calR g).trim k' = C.trim k') ∧
          listGet (t.calR g).last n.val = some s.time) ∧
      (s.gradualMode g = false → (∃ x ∈ C.targets, x.1 / 576 = n.val) → (C.targets.map fun x => x.1).Nodup →
        Completes (.stepModeTaps n) s fun t => SameMem s t ∧ t.tiles = s.tiles ∧ settled t ∧
          (∀ x ∈ C.targets, x.1 / 576 = n.val → (t.calR g).trim x.1 = x.2) ∧ (∀ k, k / 576 ≠ n.val → (t.calR g).trim k = C.trim k) ∧
          ∀ x ∈ (t.calR g).targets, x.1 / 576 ≠ n.val)) ∧
    (∀ g : RegionId,
      (s.calState g.val = calWait → 1000 ≤ (s.calR g.val).waitMs → Completes (.stepModeFallback g) s fun t => SameMem s t ∧
        t.calState g.val = calApplying ∧ t.gradualMode g.val = true ∧ (t.calR g.val).targets = (s.calR g.val).targets ∧ t.tiles = s.tiles) ∧
      (s.calState g.val = calIdle → s.rf (calReg g.val 0) 31 16 = 0 →
        (∀ r, s.lastCalRec g.val = some r → r.clock + 3600 ≤ s.jrn.jclock ∧ r.codes ≠ (s.calR g.val).allCodes g.val) →
        Completes (.inServiceRecord g) s fun t => t.store = s.store ∧ t.part.calIn.length ≤ 25 ∧ ∃ r, t.part.calIn.getLast? = some r ∧
          r.region = g.val ∧ r.clock = s.jrn.jclock ∧ r.tcal = s.tcal g.val ∧
          ∀ i < 589824, r.codes.getD i 0 = (s.calR g.val).trim (g.val * 589824 + i)))

/-- For every state in which firmware's next request is a query whose header, path, state and fields are good: the
response carries the values the spec lists, read from the state: device, version, serial and tier counts (GET_INFO);
clocks and boot count; tiers; jobs; a stopped job's cause; operations (a finished one is read once); notices (those
read are gone); configuration and digest; local parameters; a tensor's areas; calibration (a failing page: INTERNAL,
DETAIL 0x0641); power readings; journal records in order of SEQ (a page that returns no data gives none, each such
read raises 0x0641, each corrected one 0x0640); units' correctable counts; flag and cause; test and self-test results;
firmware slots; SPDM answers (a session opened is kept); enclave status; ports; recovery. No memory, no unit and no
register but the mailbox's status and MSI-X pending bits changes. Layouts, packed in the order of the spec's lists,
are DEDUCED (assumption 123), job state codes the model's choice (29). Completes: getInfo, getState, getTiers,
getJobs, opStatus, evtRead, cfgGet, localGet, resQuery, jobStatus, recStatus, calStatus, calRead, pwrGet, jrnRead,
jrnUnits, fltGet, testResult, postResult, fwInfo, spdmMsg, secStatus, fabNeighbours.
Cites: R464, R467, R468, R469, R470, R471, R472, R473, R474, R475, R51, R571. -/
def Obligations.CiandQueries : Prop :=
  ∀ (s : State) (m : MailboxId),
    let a := s.arg m.val
    let tells (c : Instr) (op : Nat) (P : List Byte → Prop) : Prop := Serving s m.val op → Tells c s m.val op P
    tells (.getInfo m) 0x0101 (fun d => d.length = 34 ∧ byteN d 0 2 = 0x7208 ∧ byteN d 2 1 = 0xB1 ∧ byteN d 3 1 = s.dev.code ∧
      byteN d 4 8 = Config.serial.toNat ∧ (∀ i < 3, byteN d (12 + 4 * i) 4 = s.version i % 2 ^ 32) ∧
      byteN d 24 4 + byteN d 28 4 = 131072 ∧ byteN d 28 4 = s.tiersIn stRetired ∧ byteN d 32 2 = s.rn 0x34000 % 65536) ∧
    tells (.getState m) 0x0102 (fun d => d.length = 24 ∧ byteN d 0 4 = s.fhState ∧ byteN d 4 4 = s.jrn.jclock % 2 ^ 32 ∧
      byteN d 8 8 = s.time % 2 ^ 64 ∧ byteN d 16 4 = s.jrn.boots % 2 ^ 32 ∧ byteN d 20 4 = s.fw.overruns % 2 ^ 32) ∧
    (a 0 4 < 16384 → 1 ≤ a 4 4 → a 4 4 ≤ 896 → a 0 4 + a 4 4 ≤ 16384 → tells (.getTiers m) 0x0103 fun d => d.length = 64 * a 4 4 ∧
      ∀ i < 8 * a 4 4, let u := 8 * a 0 4 + i
        byteN d (8 * i) 4 = s.rn (tierReg u) ∧ byteN d (8 * i + 4) 2 = (s.tier u).erases % 65536 ∧ byteN d (8 * i + 6) 1 = s.tierJob u) ∧
    tells (.getJobs m) 0x0104 (fun d => d.length = 1024 ∧ ∀ j < 64, byteN d (16 * j) 1 = (s.slot j).state.code ∧
      byteN d (16 * j + 1) 1 = (s.slot j).flags % 256 ∧ byteN d (16 * j + 4) 4 = (s.slot j).fjob % 2 ^ 32 ∧
      byteN d (16 * j + 8) 4 = (s.slot j).step % 2 ^ 32 ∧ byteN d (16 * j + 12) 4 = (s.slot j).epoch % 2 ^ 32) ∧
    (∀ o, (s.fw.ops.find? fun o => o.oph = a 0 4) = some o → Serving s m.val 0x0105 → Completes (.opStatus m) s fun t =>
      SameMem s t ∧ SameUnits s t ∧ t.fw.ops = (if o.done = true then s.fw.ops.filter (fun x => x.oph != o.oph) else s.fw.ops) ∧
      ∃ d, Answered s t m.val 0x0105 { status := 0, detail := 0, oph := o.oph, data := d } ∧
        byteN d 0 2 = (if o.done = true then o.status else stAccepted) % 65536 ∧ byteN d 2 2 = o.progress % 65536 ∧
        byteN d 4 4 = o.detail % 2 ^ 32 ∧ d.drop 8 = o.result) ∧
    (Serving s m.val 0x0106 → Completes (.evtRead m) s fun t => SameMem s t ∧ SameUnits s t ∧
      Answered s t m.val 0x0106 (good ((s.fw.notices.take (min (a 0 2) 256)).map Notice.bytes).flatten) ∧
      t.fw.notices = s.fw.notices.drop (min (a 0 2) 256)) ∧
    tells (.cfgGet m) 0x0201 (fun d => byteN d 0 4 = s.rn 0x34010 ∧ (∀ i < 12, byteN d (4 + 4 * i) 4 = s.rn (0x34020 + 4 * i)) ∧
      d.drop 52 = s.cfgFields) ∧
    (∀ lo hi dflt, localParam (a 0 2) = some (lo, hi, dflt) → tells (.localGet m) 0x0205 fun d => d.length = 4 ∧
      byteN d 0 4 = (match s.fw.locals.find? fun x => x.1 == a 0 2 with | some (_, v) => v % 2 ^ 32 | none => dflt)) ∧
    (∀ x, s.tensor (a 0 4) = some x → tells (.resQuery m) 0x0303 fun d => d.length = 388 ∧ byteN d 0 4 = x.state % 2 ^ 32 ∧
      ∀ g < 16, match x.handles.find? fun h => h.1 = g with
        | some (_, h, h', n) => byteN d (4 + 24 * g) 8 = s.hdmOf g h % 2 ^ 64 ∧ byteN d (12 + 24 * g) 8 = s.hdmOf g h' % 2 ^ 64 ∧
            byteN d (20 + 24 * g) 4 = n % 2 ^ 32
        | none => byteN d (4 + 24 * g) 24 = 0) ∧
    (a 0 1 < 64 → s.admitted (a 0 1) = true → let sl := s.slot (a 0 1)
      tells (.jobStatus m) 0x0409 (fun d => byteN d 0 1 = sl.state.code ∧ byteN d 1 1 = sl.stopCause % 256 ∧ byteN d 2 2 = sl.stopEvt % 65536 ∧
        byteN d 4 4 = sl.step % 2 ^ 32 ∧ byteN d 8 4 = sl.epoch % 2 ^ 32 ∧ byteN d 12 4 = sl.failTask % 2 ^ 32 ∧
        byteN d 16 4 = sl.aborted.length % 2 ^ 32 ∧ ∀ i < sl.aborted.length, byteN d (20 + 4 * i) 4 = sl.aborted.getD i 0 % 2 ^ 32) ∧
      tells (.recStatus m) 0x0C05 (fun d => d.length = 12 ∧ byteN d 0 1 = sl.restKind % 256 ∧ byteN d 1 1 = sl.restOrd % 256 ∧
        byteN d 4 4 = sl.rests % 2 ^ 32 ∧ byteN d 8 4 = sl.restOp % 2 ^ 32)) ∧
    tells (.calStatus m) 0x0501 (fun d => d.length = 128 ∧ ∀ g < 16, byteN d (8 * g) 4 = s.calState g ∧
      byteN d (8 * g + 4) 2 = s.rf (calReg g 4) 15 0 ∧ byteN d (8 * g + 6) 2 = s.rf (calReg g 0) 31 16) ∧
    (a 0 1 ≤ 2 → a 1 3 = 0 → a 4 4 + a 8 4 ≤ 16777216 → a 8 4 ≤ 61408 → ∀ rd : PartReads,
      if rd.failed = 0 ∧ rd.lost = [] then tells (.calRead m rd) 0x0503 fun d => d.length = a 8 4 ∧
        (a 0 1 < 2 → ∀ i < a 8 4, d.getD i 0 = factoryCopy (a 4 4 + i)) ∧ (a 0 1 = 2 → d = s.inService (a 4 4) (a 8 4))
      else Serving s m.val 0x0503 → Completes (.calRead m rd) s fun t => SameMem s t ∧ SameUnits s t ∧
        Answered s t m.val 0x0503 { status := stInternal, detail := 0x0641, oph := 0, data := [] }) ∧
    tells (.pwrGet m) 0x0601 (fun d => d.length = 204 ∧ (∀ g < 16, byteN d (12 * g) 2 = s.rf (railReg g 4) 15 0 ∧
        byteN d (12 * g + 2) 4 = s.rn (railReg g 8) ∧ byteN d (12 * g + 6) 4 = s.rn (railReg g 12) ∧ byteN d (12 * g + 10) 2 = s.rf (railReg g 16) 15 0) ∧
      byteN d 192 2 = s.rf 0x300000 15 0 ∧ (let c := s.rf 0x300000 31 16
        byteN d 194 2 = c / 100 ∨ c % 100 ≠ 0 ∧ byteN d 194 2 = c / 100 + 1) ∧
      byteN d 196 2 = s.rf 0x300004 15 0 ∧ byteN d 198 4 = s.rn 0x340000 ∧ byteN d 202 2 = s.rf 0x340004 15 0) ∧
    (1 ≤ a 8 2 → a 8 2 ≤ 479 → ∀ rd : PartReads, let found := ((s.jrn.readable rd).map List.flatten).flatten
      (Serving s m.val 0x0701 → Completes (.jrnRead m rd) s fun t => t.fw.reports = s.fw.reports ++ partReports rd) ∧
      tells (.jrnRead m rd) 0x0701 fun d => ∃ l : List JRec, d = (l.map JRec.bytes).flatten ∧ l.length ≤ a 8 2 ∧
      (∀ r ∈ l, r ∈ found ∧ r.typ ≠ tyFiller ∧ a 0 8 ≤ r.seq) ∧ l.Pairwise (fun x y => x.seq ≤ y.seq) ∧
      (l.length < a 8 2 → ∀ r ∈ found, r.typ ≠ tyFiller → a 0 8 ≤ r.seq → r ∈ l)) ∧
    (a 0 1 ≤ 6 → a 1 3 = 0 → 1 ≤ a 8 4 → a 8 4 ≤ 7675 → a 4 4 + a 8 4 ≤ 2 ^ 32 → tells (.jrnUnits m) 0x0702 fun d => d.length = 8 * a 8 4 ∧
      ∀ i < a 8 4, byteN d (8 * i) 4 = a 4 4 + i ∧ byteN d (8 * i + 4) 2 = min 65535 (s.jrn.correctableCount (a 0 1) (a 4 4 + i)) ∧
        byteN d (8 * i + 6) 2 = b2n (s.jrn.isPermanent (a 0 1) (a 4 4 + i))) ∧
    tells (.fltGet m) 0x0704 (fun d => d.length = 12 ∧ byteN d 0 4 = s.fhState ∧ byteN d 4 8 = s.fw.causeSeq % 2 ^ 64) ∧
    (9 ≤ a 0 1 → a 0 1 ≤ 13 → let x := s.test (a 1 1) (a 0 1 - 9)
      tells (.testResult m) 0x0802 fun d => d.length = 9 ∧ byteN d 0 1 = x.result % 256 ∧ byteN d 1 4 = x.lastRun % 2 ^ 32 ∧
        byteN d 5 4 = (if x.due = true then 0 else x.dueS % 2 ^ 32)) ∧
    tells (.postResult m) 0x0803 (fun d => d.length = 40 ∧ byteN d 0 1 = s.fw.postTest % 256 ∧ byteN d 1 1 = s.fw.postKind % 256 ∧
      byteN d 4 4 = s.fw.postUnit % 2 ^ 32 ∧ (s.fw.postTest ≠ 255 → ∀ i < 32, byteN d (8 + i) 1 = s.fw.postDetail.getD i 0 % 256)) ∧
    tells (.fwInfo m) 0x0901 (fun d => d.length = 480 ∧ ∀ i < 8, let x := s.sec.slot (i / 2) (i % 2)
      byteN d (60 * i) 1 = b2n (x.shipped || x.verified) ∧ byteN d (60 * i + 1) 1 = b2n (s.sec.active.getD (i / 2) 0 == i % 2) ∧
      byteN d (60 * i + 2) 2 = i / 2 ∧ byteN d (60 * i + 8) 4 = x.svn % 2 ^ 32) ∧
    tells (.spdmMsg m none none) 0x0A01 (fun d => (s.sec.state ≠ .operational → d = spdmError (s.request m.val).p spdmBusy) ∧
      (s.sec.state = .operational → spdmCodes.contains ((s.request m.val).p.getD 1 0).toNat = false →
        d = spdmError (s.request m.val).p spdmUnsupported)) ∧
    (∀ i mu, s.sec.state = .operational → s.sec.sessions.length < 8 → (∀ y ∈ s.sec.sessions, y.id ≠ i) → Serving s m.val 0x0A01 →
      Completes (.spdmMsg m (some (i, mu)) none) s fun t => (∃ d, Answered s t m.val 0x0A01 (good d)) ∧ SameMem s t ∧
        t.sec.sessions = s.sec.sessions ++ [{ id := i, hybrid := false, mutAuth := mu }]) ∧
    tells (.secStatus m) 0x0A02 (fun d => d.length = 32 ∧ byteN d 1 1 = s.sec.failed % 256 ∧ byteN d 2 1 = s.sec.sessions.length % 256 ∧
      byteN d 3 1 = s.sec.revoked % 256 ∧ (∀ i < 4, byteN d (4 + i) 1 = s.sec.minSvn.getD i 0 % 256) ∧
      byteN d 8 4 = Config.romVersion.toNat % 2 ^ 32 ∧ byteN d 12 4 = s.sec.reseeds % 2 ^ 32 ∧ byteN d 20 4 = s.sec.hybrids % 2 ^ 32 ∧
      (s.sec.state = .operational ↔ byteN d 0 1 = 1)) ∧
    tells (.fabNeighbours m) 0x0B03 (fun d => d.length = 1024 ∧ ∀ p < 32, ∀ i < 6,
      byteN d (32 * p + 4 * i) 4 = s.rn (lportReg p ([0, 4, 8, 12, 16, 0x1C].getD i 0)))

/-- Staging keeps its bytes; CFG_COMMIT of good fields and the present epoch applies them, with the next epoch, in the
other copy of the record, and clears the staged block; LOCAL_SET keeps its parameter. RES_DEFINE and RES_PIECES build
a definition, whose areas are reserved when it is complete; RES_LOAD and RES_ADOPT start an operation that erases and
writes what is not held; RES_RELEASE and RES_DISCARD free tiers and no cell changes. JOB_ADMIT takes the lowest free
slot, assigns lines and counters, sets the contexts (ACTIVE unless RESTART), and a READY device runs; JOB_TENSORS
names tensors; JOB_WINDOW takes the lowest free window; a graph is staged and its load started; JOB_START runs a
loaded, resident job, JOB_STOP stops it with cause 1, JOB_RESUME resumes a trapped one, JOB_END frees slot, lines and
norms. No other slot changes. Completes: cfgStage, cfgCommit, localSet, resDefine, resPieces, resLoad, resAdopt,
resRelease, resDiscard, jobAdmit, jobTensors, jobWindow, jobGraphStage, jobGraphLoad, jobStart, jobStop, jobResume,
jobEnd.
Cites: R11, R240, R303, R322, R338, R381, R382, R474, R475, R476, R477, R479. -/
def Obligations.CiandConfigurationResidencyAndJobs : Prop :=
  ∀ (s : State) (m : MailboxId),
    let a := s.arg m.val
    let p := (s.request m.val).p
    let j := a 0 1
    let sl := s.slot j
    let n := a 0 4
    let mine (op : Nat) : Prop := Serving s m.val op ∧ j < 64 ∧ s.admitted j = true
    let alone (t : State) : Prop := ∀ i, i ≠ j → t.slot i = s.slot i
    let loads (t : State) (v : Nat) : Prop := ∃ q ∈ (t.tile (v / 8)).procs, q.kind = .load ∧ q.tier = v % 8 ∧
      (q.stage = .erasing ∨ q.stage = .writing ∧ t.tierState v = stLoading)
    (a 0 4 + a 4 4 ≤ 65536 → Serving s m.val 0x0202 → Does (.cfgStage m) s m.val 0x0202 fun t => SameMem s t ∧ SameUnits s t ∧
      ∀ k, SMap.get (fun _ => 0#8) t.fw.cfgStage k = if a 0 4 ≤ k ∧ k < a 0 4 + a 4 4 then p.getD (8 + (k - a 0 4)) 0
        else SMap.get (fun _ => 0#8) s.fw.cfgStage k) ∧
    (Serving s m.val 0x0203 → a 8 1 ≤ 1 → 1 ≤ a 9 1 → a 9 1 ≤ 50 → 2 ≤ a 10 1 → a 10 1 ≤ 15 → a 11 1 ≤ 15 → a 12 1 ≤ 3 → a 13 1 ≠ 0 →
      a 14 2 = 0 → 1 ≤ a 16 4 % 65536 → a 16 4 % 65536 ≤ 60000 → 1 ≤ a 16 4 / 65536 → a 16 4 / 65536 ≤ 60000 → a 68 4 ≤ 65536 →
      n = s.rn 0x34010 → s.multiJob = false → Completes (.cfgCommit m) s fun t => SameMem s t ∧
        (∃ d, Answered s t m.val 0x0203 (good d) ∧ byteN d 0 4 = (n + 1) % 2 ^ 32 ∧ d.drop 4 = t.cfgDigest) ∧ t.rn 0x34010 = (n + 1) % 2 ^ 32 ∧
        (t.part.cfgA = s.part.cfgA ∨ t.part.cfgB = s.part.cfgB) ∧ (n + 1 < 2 ^ 32 →
          (∀ e r, configOf (s.part.cfgA.readable 1 PartReads.none) = some (e, r) ∨ configOf (s.part.cfgB.readable 2 PartReads.none) = some (e, r) → e ≤ n) →
          ∃ r, t.part.config PartReads.none = some (n + 1, r) ∧ r.take 68 = p.drop 4 ∧ t.cfgDigest = sha384 r) ∧ t.fw.cfgStage = [] ∧ t.rn 0x34008 = a 16 4 ∧
        t.rf 0x34088 15 8 = a 13 1 ∧ t.rn 0x34004 = a 9 1 + a 10 1 * 256 + a 11 1 * 4096 + a 12 1 * 65536) ∧
    (∀ lo hi dflt, localParam (a 0 2) = some (lo, hi, dflt) → a 2 2 = 0 → lo ≤ a 4 4 → a 4 4 ≤ hi → Serving s m.val 0x0204 →
      Completes (.localSet m) s fun t => Answered s t m.val 0x0204 (good (leBytes 4 (s.localValue (a 0 2)))) ∧ SameMem s t ∧
        ∀ k, t.localValue k = if k = a 0 2 then a 4 4 else s.localValue k) ∧
    (s.tensor n = none → 1 ≤ a 4 4 → a 4 4 ≤ 131072 → a 8 1 ≤ 1 → a 9 1 = 0 → a 10 2 = 0 → Serving s m.val 0x0301 →
      Does (.resDefine m) s m.val 0x0301 fun t => SameMem s t ∧ SameUnits s t ∧ (∀ k, k ≠ n → t.tensor k = s.tensor k) ∧
        t.tensor n = some { state := 1, layout := a 8 1, count := a 4 4, pieces := [], handles := [] }) ∧
    (∀ x, s.tensor n = some x → x.state = 1 → a 4 4 < x.count → 1 ≤ a 8 4 → a 8 4 ≤ 5116 → a 4 4 + a 8 4 ≤ x.count →
      (∀ k < a 8 4, let y := (s.request m.val).piece k
        y.1 < 131072 ∧ (x.layout = 1 → y.1 / 8 % 2 = 0) ∧ 1 ≤ y.2.1 ∧ y.2.1 ≤ 1024 ∧ 1 ≤ y.2.2.1 ∧ y.2.2.1 ≤ 1024 ∧ a (21 + 12 * k) 3 = 0) →
      s.badPiece n (x.layout == 1) ((List.range (a 8 4)).map fun k => (a 4 4 + k, ((s.request m.val).piece k).1)) [] = none →
      Serving s m.val 0x0302 →
      let ps := (List.range (a 8 4)).foldl (fun l k => SMap.set (fun _ => (0, 0, 0, 0)) l (a 4 4 + k) ((s.request m.val).piece k)) x.pieces
      (ps.length ≠ x.count → Does (.resPieces m) s m.val 0x0302 fun t => SameMem s t ∧ SameUnits s t ∧ t.tensor n = some { x with pieces := ps }) ∧
      (∀ z, ps.length = x.count → s.badPiece n (x.layout == 1) (ps.map fun (i, u, _) => (i, u)) [] = none →
        ((s.begun m.val).place n { x with pieces := ps } (List.range 16)).1 = some z → Does (.resPieces m) s m.val 0x0302 fun t =>
          (∀ k, t.cell k = s.cell k) ∧ t.tensor n = some { z with state := 2 })) ∧
    (∀ x, s.tensor n = some x → x.state = 2 ∨ x.state = 6 → (∀ y ∈ x.pieces, y.2.1 < 131072 ∧ ∀ v ∈ pieceUnits (x.layout == 1) y.2.1,
        v < 131072 ∧ (s.takes n y.1 (x.layout == 1) v = true ∨ s.holdsPiece n v = true)) → s.opRoom = true →
      (Serving s m.val 0x0304 → Starts (.resLoad m) s m.val 0x0304 n fun t => (∀ k, t.cell k = s.cell k) ∧
        (t.tensor n).map (fun y => y.state) = some 3 ∧ ∀ v ∈ x.units, s.holdsPiece n v = false → loads t v) ∧
      (Serving s m.val 0x0305 → Starts (.resAdopt m) s m.val 0x0305 n fun t => (∀ k, t.cell k = s.cell k) ∧
        (t.tensor n).map (fun y => y.state) = some 4 ∧
        ((∀ v ∈ x.units, s.tierState v ≠ stDormant) → ∀ v ∈ x.units, s.holdsPiece n v = false → loads t v))) ∧
    (∀ x, s.tensor n = some x → x.state ≠ 3 → x.state ≠ 4 → Serving s m.val 0x0306 → Does (.resRelease m) s m.val 0x0306 fun t =>
      (∀ k, t.cell k = s.cell k) ∧ t.tensor n = none ∧ (∀ k, k ≠ n → t.tensor k = s.tensor k) ∧
      ∀ u ∈ x.units, x.state ≠ 1 → (s.tier u).tensor = some n → (t.tier u).tensor = none) ∧
    (n < 131072 → 1 ≤ a 4 4 → n + a 4 4 ≤ 131072 → Serving s m.val 0x0307 → Completes (.resDiscard m) s fun t => (∀ k, t.cell k = s.cell k) ∧
      let us := ((List.range (a 4 4)).map fun i => n + i).filter fun u => s.tierState u == stDormant && !s.underway u
      Answered s t m.val 0x0307 (good (leBytes 4 us.length)) ∧ ∀ u < 131072,
        t.tierState u = if u ∈ us then (if 10000 ≤ (s.tier u).erases then stRetired else stFree) else s.tierState u) ∧
    (∀ i, firstBad (admitBad (s.request m.val)) = none → s.sec.state = .operational → ((List.range 64).find? fun k => !s.admitted k) = some i →
      s.taken (a 0x3C 4) (a 0x44 8) (bitsOf 256 (a 0x4C 32)) = false → Serving s m.val 0x0401 → Completes (.jobAdmit m) s fun t =>
        SameMem s t ∧ (∃ d, Answered s t m.val 0x0401 (good d) ∧ byteN d 0 1 = i ∧ byteN d 4 4 = t.rn (tsReg i 0) ∧ byteN d 8 4 = t.rn (tsReg i 4)) ∧
        (a 0x18 8 ≠ 0 → t.rn (tsReg i 0) = a 0x18 4 ∧ t.rn (tsReg i 4) = a 0x1C 4) ∧ (∀ k, k ≠ i → t.slot k = s.slot k) ∧
        (t.slot i).state = .admitted ∧ (t.slot i).fjob = n ∧ (t.slot i).flags = a 4 4 ∧ t.rbit (numReg i 4) 16 = !bit (a 4 4) 2 ∧ t.rn (numReg i 0) = a 8 4 ∧
        (∀ l ∈ bitsOf 32 (a 0x3C 4), t.rbit (clReg l 0) 6 = true ∧ t.rf (clReg l 0) 5 0 = i) ∧
        (∀ b ∈ bitsOf 256 (a 0x4C 32), ∀ c ∈ bitsOf 64 (a 0x44 8), t.rbit (ccCtl b c) 22 = true ∧ t.rf (ccCtl b c) 28 23 = i) ∧
        t.dev = if s.dev = .ready then .running else s.dev) ∧
    (mine 0x0402 → sl.state.started = false → a 1 3 = 0 →
      let es := (List.range (a 4 4)).map fun k => (a (8 + 8 * k) 4, a (12 + 8 * k) 4)
      (es.map fun e => e.1).Nodup → (∀ e ∈ es, e.2 ≤ 1 ∧ s.tensor e.1 ≠ none ∧ (e.2 = 1 → ∀ i, s.writerOf e.1 = some i → i = j)) →
      (bit sl.flags 1 = true → ∀ x y, (x ∈ es.map (fun e => e.1) ∨ ∃ w, (x, w) ∈ sl.tensors) → s.tensor x = some y → y.state ≠ 5) →
      Does (.jobTensors m) s m.val 0x0402 fun t => SameMem s t ∧ alone t ∧ (∀ e ∈ es, (e.1, e.2 == 1) ∈ (t.slot j).tensors) ∧
        ∀ x ∈ sl.tensors, x.1 ∉ es.map (fun e => e.1) → x ∈ (t.slot j).tensors) ∧
    (∀ w, mine 0x0403 → a 1 1 ≤ 2 → a 2 2 = 0 → a 4 8 % 2097152 = 0 → 1 ≤ a 12 4 → a 12 4 ≤ 262144 → (a 1 1 = 0 → a 12 4 % 16 = 0) →
      a 4 8 + a 12 4 * 2097152 ≤ 2 ^ 64 → (s.windows j (a 1 1)).length < (if a 1 1 = 2 then 2 else 1) → (a 1 1 = 0 → s.actTotal + a 12 4 ≤ 262144) →
      ((List.range 16).find? fun w => !s.rbit (hwinReg w 0xC) 0 && !s.rbit (hwinReg w 0xC) 16) = some w → Completes (.jobWindow m) s fun t =>
        Answered s t m.val 0x0403 (good [BitVec.ofNat 8 w]) ∧ SameMem s t ∧ SameUnits s t ∧ t.rn (hwinReg w 0) = a 4 4 ∧ t.rn (hwinReg w 4) = a 8 4 ∧
        t.rn (hwinReg w 8) = a 12 4 ∧ t.rn (hwinReg w 0xC) = 1 + a 1 1 * 2 + j * 8 ∧
        SameRegs s t [mbReg m.val 4, 0x78000, hwinReg w 0, hwinReg w 4, hwinReg w 8, hwinReg w 0xC]) ∧
    (mine 0x0404 → a 1 1 ≤ 15 → a 2 2 = 0 → a 4 4 + a 8 4 ≤ 2 ^ 30 → Does (.jobGraphStage m) s m.val 0x0404 fun t => SameMem s t ∧ alone t ∧
      ((t.slot j).list (a 1 1)).len = max (sl.list (a 1 1)).len (a 4 4 + a 8 4) ∧ (∀ g, g ≠ a 1 1 → (t.slot j).list g = sl.list g) ∧
      ∀ k, SMap.get (fun _ => 0#8) ((t.slot j).list (a 1 1)).bytes k = if a 4 4 ≤ k ∧ k < a 4 4 + a 8 4 then p.getD (12 + (k - a 4 4)) 0
        else SMap.get (fun _ => 0#8) (sl.list (a 1 1)).bytes k) ∧
    (mine 0x0405 → s.opRoom = true → (sl.state = .admitted ∨ sl.state = .loaded → Starts (.jobGraphLoad m) s m.val 0x0405 j fun t =>
        SameMem s t ∧ alone t ∧ (t.slot j).state = .loading) ∧
      (sl.state = .stopped → (s.opsOf [0x0405] fun i => i == j) = [] → Starts (.jobGraphLoad m) s m.val 0x0405 j fun t =>
        SameMem s t ∧ alone t ∧ t.slot j = sl)) ∧
    (mine 0x0406 → sl.graph = true → sl.state = .loaded ∨ sl.state = .stopped → s.jobResident j = true → Does (.jobStart m) s m.val 0x0406 fun t =>
      SameMem s t ∧ alone t ∧ (t.slot j).state = .running ∧ (t.slot j).step = sl.step ∧ t.rbit (numReg j 4) 16 = true ∧
      ∀ g l, (g, l) ∈ (t.slot j).lists → l.pos = List.range l.records.length ∧ l.pass = sl.step) ∧
    (mine 0x0407 → sl.state.active = true → Does (.jobStop m) s m.val 0x0407 fun t => (∀ k, t.cell k = s.cell k) ∧
      (t.slot j).state = .stopped ∧ (t.slot j).stopCause = 1 ∧ ∀ g l, (g, l) ∈ (t.slot j).lists → l.pos = []) ∧
    (mine 0x0408 → sl.state = .trapStopped → Does (.jobResume m) s m.val 0x0408 fun t => SameMem s t ∧ alone t ∧
      t.slot j = { sl with state := .running, stopCause := 0 }) ∧
    (mine 0x040A → Does (.jobEnd m) s m.val 0x040A fun t => (∀ k, t.cell k = s.cell k) ∧ t.slot j = Slot.init ∧ t.rbit (numReg j 4) 16 = false ∧
      (∀ l ∈ bitsOf 32 sl.lines, t.rf (clReg l 0) 9 0 = 0) ∧ (∀ k, k / 4096 % 64 = j → t.norm k = 0) ∧
      (s.dev = .running → (∀ i < 64, i ≠ j → s.admitted i = false) → t.dev = .ready))

/-- CAL_RUN, TEST_RUN, FW_VERIFY, FAB_FORWARD and REC_BEGIN start an operation: regions measure or hold the request, tests
fall due, the restart reaches order 4 or ends with 0x0433. PWR_LIMIT answers the old caps and sets the new, with every
region's allotment; PWR_CLEAR_MIN resets minima. EVT_SUBSCRIBE keeps the path's classes. FW_STAGE writes the idle
slot, FW_ACTIVATE of a verified one selects it. SEC_ZEROISE ends the enclave's operation and its sessions, encrypted
ports go to FAULT, 0x0806; an enclave that serves status only refuses it (log 176). FAB_SET_ID, FAB_ROUTE, FAB_PORTS,
FAB_TIME and FAB_GROUP store their fields. REC_IMAGE_DONE drops segments up to the image (0x0430), REC_RESTART sets
the restart step of the fabric job's slots (0x0431), REC_RESTORE_JOB the job record and ACTIVE, REC_CLEAR_FLAG closes
the replacement flag in the journal's records. No cell changes but by a restart's work. Completes: calRun, pwrLimit,
pwrClearMin, evtSubscribe, testRun, fwStage, fwVerify, fwActivate, secZeroise, fabSetId, fabRoute, fabPorts, fabTime,
fabGroup, fabForward, recImageDone, recRestart, recRestoreJob, recBegin, recClearFlag.
Cites: R351, R352, R360, R388, R428, R434, R436, R480, R481, R486, R534, R549. -/
def Obligations.CiandManagementFabricAndRecovery : Prop :=
  ∀ (s : State) (m : MailboxId),
    let a := s.arg m.val
    let p := (s.request m.val).p
    let j := a 0 1
    let sl := s.slot j
    let room := s.opRoom = true ∧ ∀ o ∈ s.fw.ops, o.oph ≠ s.fw.nextOph
    let mine (op : Nat) : Prop := Serving s m.val op ∧ j < 64 ∧ s.admitted j = true
    let fwOk (op : Nat) : Prop := Serving s m.val op ∧ a 0 1 ≤ 3 ∧ (s.dev = .glade → a 0 1 = 3)
    (room → Serving s m.val 0x0502 → Starts (.calRun m) s m.val 0x0502 (a 0 2) fun t => SameMem s t ∧ ∀ g ∈ bitsOf 16 (a 0 2),
      (s.calState g = calOff → t.calState g = calOff) ∧ (s.calState g = calMeasuring → (t.calR g).held = true) ∧
      (s.calState g ≠ calOff → t.calState g = calMeasuring)) ∧
    (Serving s m.val 0x0602 → 1000 ≤ a 0 2 → a 0 2 ≤ 3300 → 100 ≤ a 2 2 → a 2 2 ≤ 640 → Completes (.pwrLimit m) s fun t => SameMem s t ∧
      SameUnits s { t with toks := s.toks } ∧ (∀ g, ∃ x y, t.tok g = { s.tok g with overTok := x, overTile := y }) ∧
      Answered s t m.val 0x0602 (good (leBytes 4 (s.rn 0x300008))) ∧ t.rn 0x300008 = a 0 4 ∧
      ∀ g < 16, t.rf (regionReg g 0x4000) 31 16 = a 2 2 * 25 / 4) ∧
    (Serving s m.val 0x0603 → Does (.pwrClearMin m) s m.val 0x0603 fun t => SameMem s t ∧ ∀ g ∈ bitsOf 16 (a 0 2),
      t.rn (railReg g 4) = 0xFFFF ∧ t.rn (railReg g 8) = 0 ∧ t.rn (railReg g 12) = 0 ∧ (t.supply g).warned = false) ∧
    (Serving s m.val 0x0703 → a 0 2 % 2 = 0 → a 0 2 < 1024 → (boxPath m.val = 2 → a 2 2 ≤ 8191) → Does (.evtSubscribe m) s m.val 0x0703 fun t =>
      SameMem s t ∧ SameUnits s t ∧ t.fw.subs = setAt s.fw.subs (boxPath m.val) (a 0 2) ∧
      t.fw.manager = if boxPath m.val = 2 then a 2 2 else s.fw.manager) ∧
    (room → Serving s m.val 0x0801 → 9 ≤ a 0 1 → a 0 1 ≤ 13 → a 1 3 = 0 → Starts (.testRun m) s m.val 0x0801 (a 4 32 * 8 + (a 0 1 - 9)) fun t =>
      SameMem s t ∧ ∀ b ∈ bitsOf 256 (a 4 32), (t.test b (a 0 1 - 9)).due = true) ∧
    (fwOk 0x0902 → a 1 3 = 0 → a 4 4 + a 8 4 ≤ slotSize (a 0 1) → Does (.fwStage m) s m.val 0x0902 fun t => SameMem s t ∧
      let x := t.sec.slot (a 0 1) (s.sec.idle (a 0 1))
      x.verified = false ∧ x.shipped = false ∧ ∀ i < a 8 4, SMap.get (fun _ => 0#8) x.data (a 4 4 + i) = p.getD (12 + i) 0) ∧
    (room → fwOk 0x0903 → a 1 3 = 0 → 8192 ≤ a 4 4 → a 4 4 ≤ slotSize (a 0 1) → Starts (.fwVerify m) s m.val 0x0903 (a 0 1 + 4 * a 4 4) fun t =>
      SameMem s t ∧ SameUnits s t) ∧
    (fwOk 0x0904 → (s.sec.slot (a 0 1) (s.sec.idle (a 0 1))).verified = true → Does (.fwActivate m) s m.val 0x0904 fun t => SameMem s t ∧
      t.sec.next = setAt s.sec.next (a 0 1) (s.sec.idle (a 0 1)) ∧ t.sec.active = s.sec.active) ∧
    (Serving s m.val 0x0A03 → s.sec.state ≠ .operational → Completes (.secZeroise m) s fun t => SameMem s t ∧ t.sec = s.sec ∧
      Answered s t m.val 0x0A03 { status := if a 0 8 = Config.serial.toNat then stInternal else stBadField, detail := 0, oph := 0, data := [] }) ∧
    (Serving s m.val 0x0A03 → s.sec.state = .operational → a 0 8 = Config.serial.toNat → Does (.secZeroise m) s m.val 0x0A03 fun t => SameMem s t ∧
      t.sec.state = .zeroised ∧ t.sec.sessions = [] ∧ t.Heard 0x0806 0 0 ∧ ∀ p < 32, s.rf (linkReg (p / 2) 0) 4 3 = 1 → t.lpState p = lpFault) ∧
    (Serving s m.val 0x0B01 → a 0 2 < 0x4000 → Does (.fabSetId m) s m.val 0x0B01 fun t => SameMem s t ∧ t.rn 0x34000 = a 0 2 ∧
      t.part.settings PartReads.none = (a 0 2, s.fw.locals)) ∧
    (Serving s m.val 0x0B02 → a 0 2 < 8192 → 1 ≤ a 2 2 → a 0 2 + a 2 2 ≤ 8192 → (∀ i < a 2 2, a (4 + 2 * i) 2 < 0x1000) →
      Does (.fabRoute m) s m.val 0x0B02 fun t => SameMem s t ∧ SameUnits s t ∧ ∀ d < 8192,
        t.routeEntry d = if a 0 2 ≤ d ∧ d < a 0 2 + a 2 2 then a (4 + 2 * (d - a 0 2)) 2 else s.routeEntry d) ∧
    (Serving s m.val 0x0B04 → (∀ p < 16, encOk .linkCfg (a (4 * p) 4) = true ∧ bits (a (4 * p) 4) 7 5 = 0 ∧ a (4 * p) 4 < 0x100000 ∧
        (s.rf (linkReg p 0) 1 0 ≠ 0 → bits (a (4 * p) 4) 2 2 = s.rf (linkReg p 0) 2 2)) → Does (.fabPorts m) s m.val 0x0B04 fun t =>
      SameMem s t ∧ ∀ p < 16, t.rn (linkReg p 0) = a (4 * p) 4) ∧
    (Serving s m.val 0x0B05 → encOk .timeCfg (a 0 4) = true → bits (a 0 4) 7 7 = 0 → a 0 4 < 0x10000 → Does (.fabTime m) s m.val 0x0B05 fun t =>
      SameMem s t ∧ SameUnits s t ∧ t.rn 0x34088 = a 0 4 ∧ SameRegs s t [mbReg m.val 4, 0x78000, 0x34088]) ∧
    (mine 0x0B06 → a 1 1 ≤ 15 → a 2 1 < a 3 1 → 1 ≤ a 3 1 → a 3 1 ≤ 4 → a 4 4 = sl.fjob → a 8 2 ≠ 0 → a 10 1 ≤ 31 → a 11 1 = 0 →
      (∀ i < a 8 2, a (12 + 2 * i) 2 ≤ 8191) → Does (.fabGroup m) s m.val 0x0B06 fun t => SameMem s t ∧ SameUnits s t ∧
        SMap.get (fun _ => ({ members := [], port := 0, total := 0 } : Rail)) t.fab.groups (groupKey j (a 1 1) (a 2 1)) =
          { members := (List.range (a 8 2)).map fun i => a (12 + 2 * i) 2, port := a 10 1, total := a 3 1 }) ∧
    (room → Serving s m.val 0x0B07 → a 0 2 ≤ 8191 → 12 ≤ a 2 1 → a 2 1 ≤ 15 → a 3 1 = 0 →
      Starts (.fabForward m) s m.val 0x0B07 (a 0 2 + 8192 * a 2 1) fun t => SameMem s t ∧ SameUnits s t) ∧
    (mine 0x0C01 → a 1 3 = 0 → Does (.recImageDone m) s m.val 0x0C01 fun t => SameMem s t ∧ (t.slot j).imgStep = max sl.imgStep (a 4 4) ∧
      (∀ x, x ∈ (t.slot j).segs ↔ x ∈ sl.segs ∧ max sl.imgStep (a 4 4) < x.1) ∧ t.Heard 0x0430 0 0 ∧ ∀ i, i ≠ j → t.slot i = s.slot i) ∧
    (Serving s m.val 0x0C02 → (∃ i < 64, s.admitted i = true ∧ (s.slot i).fjob = a 0 4) → Does (.recRestart m) s m.val 0x0C02 fun t => SameMem s t ∧
      t.Heard 0x0431 0 0 ∧ ∀ i < 64, t.slot i = if s.admitted i = true ∧ (s.slot i).fjob = a 0 4 then
        { s.slot i with rests := a 4 4, restOrd := 0, restored := false } else s.slot i) ∧
    (mine 0x0C03 → a 1 3 = 0 → a 4 4 = sl.rests → encOk .numLscale (a 12 4) = true → bits (a 12 4) 15 6 = 0 → sl.state.idle = true →
      Does (.recRestoreJob m) s m.val 0x0C03 fun t => SameMem s t ∧ t.slot j = { sl with epoch := a 8 4, restored := true } ∧ t.rbit (numReg j 4) 16 = true ∧
        t.rn (numReg j 8) = a 12 4 ∧ t.rn (tsReg j 0) = a 16 4 ∧ t.rn (tsReg j 4) = a 20 4 ∧ t.rn (tsReg j 8) = (a 4 4 + 1) % 2 ^ 32) ∧
    (∀ x, room → mine 0x0C04 → a 1 1 ≤ 2 → sl.state.idle = true → ((s.opsOf [0x0C04] fun i => i == j) = [] ∨ sl.restKind ≠ 0) →
      Starts (.recBegin m x) s m.val 0x0C04 j fun t => (∀ k, t.cell k = s.cell k) ∧ (t.slot j).restKind = a 1 1 ∧ (t.slot j).restOp = s.fw.nextOph ∧
        ((t.slot j).restOrd = 4 ∨ t.Ended s.fw.nextOph stInternal 0x0433 ∧ t.Heard 0x0433 0 0) ∧
        ((s.opsOf [0x0C04] fun i => i == j) ≠ [] → t.Heard 0x0432 0 0)) ∧
    (Serving s m.val 0x0C06 → a 0 8 = Config.serial.toNat → (∀ r, r.typ = tyState → s.jrn.room r = true) → Does (.recClearFlag m) s m.val 0x0C06 fun t =>
      SameMem s t ∧ SameRegs s t [mbReg m.val 4, 0x78000] ∧ t.jrn.hidden = s.jrn.hidden ∧
      ({ t.jrn with hidden := [] } : Journal).flagOpen = false)

end
end

