-- ==== Sys2Proof/Laws/Store.lean ====
section
/-!
SUPPORT. Sys2Proof/Laws/Store.lean: what a sparse store does: a read after a write, and the canonical form, which every
write keeps.
-/
namespace Sys2Proof.Machine

section
variable {α : Type} (d : Nat → α)

@[simp] theorem SMap.get_nil (k : Nat) : SMap.get d [] k = d k := rfl

theorem SMap.get_filter_ne (m : SMap α) (k b : Nat) (h : b ≠ k) :
    SMap.get d (m.filter fun e => e.1 != k) b = SMap.get d m b := by
  induction m with
  | nil => rfl
  | cons e r ih =>
    obtain ⟨k', v⟩ := e
    by_cases hk : k' = k
    · subst hk
      have hb : ¬ k' = b := fun c => h c.symm
      simp [SMap.get, hb, ih]
    · have hk2 : (k' != k) = true := by simpa using hk
      simp only [List.filter_cons, hk2, if_true, SMap.get]
      rw [ih]

theorem SMap.get_filter_eq (m : SMap α) (k : Nat) : SMap.get d (m.filter fun e => e.1 != k) k = d k := by
  induction m with
  | nil => rfl
  | cons e r ih =>
    obtain ⟨k', v⟩ := e
    by_cases hk : k' = k
    · subst hk; simpa using ih
    · have hk2 : (k' != k) = true := by simpa using hk
      simp only [List.filter_cons, hk2, if_true, SMap.get, hk, if_false]
      exact ih

variable [DecidableEq α]

/-- A read after a write: the value written at its key, the old value at every other. -/
@[simp] theorem SMap.get_set (m : SMap α) (k b : Nat) (v : α) :
    SMap.get d (SMap.set d m k v) b = if b = k then v else SMap.get d m b := by
  induction m with
  | nil =>
    simp only [SMap.set]
    split
    · rename_i h; split
      · rename_i h2; subst h2; exact h.symm
      · rfl
    · simp only [SMap.get]
      by_cases hb : k = b
      · subst hb; simp
      · have : ¬ b = k := fun c => hb c.symm
        simp [hb, this]
  | cons e r ih =>
    obtain ⟨k', v'⟩ := e
    simp only [SMap.set]
    split
    · rename_i hlt
      simp only [SMap.get, ih]
      by_cases h1 : k' = b
      · have h2 : ¬ b = k := by omega
        simp [h1, h2]
      · simp [h1]
    · split
      · rename_i hv
        by_cases hb : b = k
        · subst hb
          rw [SMap.get_filter_eq]
          simp [hv]
        · rw [SMap.get_filter_ne d _ _ _ hb, if_neg hb]
      · by_cases hb : b = k
        · subst hb; simp [SMap.get]
        · have : ¬ k = b := fun c => hb c.symm
          rw [SMap.get, if_neg this, SMap.get_filter_ne d _ _ _ hb, if_neg hb]

theorem SMap.wfFrom_mono (m : SMap α) {lo lo' : Nat} (h : lo' ≤ lo) (hw : SMap.wfFrom d lo m = true) :
    SMap.wfFrom d lo' m = true := by
  cases m with
  | nil => rfl
  | cons e r =>
    obtain ⟨k, v⟩ := e
    simp only [SMap.wfFrom, Bool.and_eq_true, decide_eq_true_eq] at hw ⊢
    exact ⟨⟨by omega, hw.1.2⟩, hw.2⟩

/-- Leaving entries out keeps the canonical form. -/
theorem SMap.wfFrom_filter (p : Nat × α → Bool) (m : SMap α) (lo : Nat) (hw : SMap.wfFrom d lo m = true) :
    SMap.wfFrom d lo (m.filter p) = true := by
  induction m generalizing lo with
  | nil => rfl
  | cons e r ih =>
    obtain ⟨k, v⟩ := e
    simp only [SMap.wfFrom, Bool.and_eq_true, decide_eq_true_eq] at hw
    by_cases hp : p (k, v) = true
    · simp only [List.filter_cons, hp, if_true, SMap.wfFrom, Bool.and_eq_true, decide_eq_true_eq]
      exact ⟨hw.1, ih _ hw.2⟩
    · simp only [List.filter_cons, hp]
      exact SMap.wfFrom_mono d _ (by omega) (ih _ hw.2)

theorem SMap.wfFrom_set (m : SMap α) (lo k : Nat) (v : α) (hk : lo ≤ k) (hw : SMap.wfFrom d lo m = true) :
    SMap.wfFrom d lo (SMap.set d m k v) = true := by
  induction m generalizing lo with
  | nil =>
    simp only [SMap.set]
    split
    · rfl
    · rename_i hv; simp [SMap.wfFrom, hk, hv]
  | cons e r ih =>
    obtain ⟨k', v'⟩ := e
    have hw0 := hw
    simp only [SMap.wfFrom, Bool.and_eq_true, decide_eq_true_eq] at hw
    simp only [SMap.set]
    split
    · rename_i hlt
      simp only [SMap.wfFrom, Bool.and_eq_true, decide_eq_true_eq]
      exact ⟨hw.1, ih _ (by omega) hw.2⟩
    · rename_i hge
      split
      · exact SMap.wfFrom_filter d _ _ _ hw0
      · rename_i hv
        simp only [SMap.wfFrom, Bool.and_eq_true, decide_eq_true_eq]
        refine ⟨⟨hk, by simpa using hv⟩, ?_⟩
        have h1 : SMap.wfFrom d (k' + 1) (r.filter fun e => e.1 != k) = true := SMap.wfFrom_filter d _ _ _ hw.2
        by_cases he : k' = k
        · subst he; simpa using h1
        · have hk2 : (k' != k) = true := by simpa using he
          simp only [List.filter_cons, hk2, if_true, SMap.wfFrom, Bool.and_eq_true, decide_eq_true_eq]
          exact ⟨⟨by omega, hw.1.2⟩, h1⟩

/-- A write keeps the canonical form. -/
theorem SMap.wf_set (m : SMap α) (k : Nat) (v : α) (hw : SMap.wf d m = true) : SMap.wf d (SMap.set d m k v) = true :=
  SMap.wfFrom_set d m 0 k v (Nat.zero_le _) hw

theorem SMap.wf_filter (p : Nat × α → Bool) (m : SMap α) (hw : SMap.wf d m = true) : SMap.wf d (m.filter p) = true :=
  SMap.wfFrom_filter d p m 0 hw

@[simp] theorem SMap.wf_nil : SMap.wf d ([] : SMap α) = true := rfl

end

end Sys2Proof.Machine
end

