-- ==== Sys2Proof/Laws/State.lean ====
section
/-!
SUPPORT. Sys2Proof/Laws/State.lean: what each update of the state leaves as it was, field by field, and what each
accessor reads after it. All hold by unfolding, so that no proof need unfold a record update.
-/
namespace Sys2Proof.Machine

/-! ### setReg -/
section
variable (s : State) (a : Nat) (v : Word)
@[simp] theorem State.setReg_pending : (s.setReg a v).pending = s.pending := rfl
@[simp] theorem State.setReg_draws : (s.setReg a v).draws = s.draws := rfl
@[simp] theorem State.setReg_dev : (s.setReg a v).dev = s.dev := rfl
@[simp] theorem State.setReg_resetN : (s.setReg a v).resetN = s.resetN := rfl
@[simp] theorem State.setReg_monitor : (s.setReg a v).monitor = s.monitor := rfl
@[simp] theorem State.setReg_mpUp : (s.setReg a v).mpUp = s.mpUp := rfl
@[simp] theorem State.setReg_hostUp : (s.setReg a v).hostUp = s.hostUp := rfl
@[simp] theorem State.setReg_time : (s.setReg a v).time = s.time := rfl
@[simp] theorem State.setReg_store_cells : (s.setReg a v).store.cells = s.store.cells := rfl
@[simp] theorem State.setReg_store_bstore : (s.setReg a v).store.bstore = s.store.bstore := rfl
@[simp] theorem State.setReg_store_hbm : (s.setReg a v).store.hbm = s.store.hbm := rfl
@[simp] theorem State.setReg_store_host : (s.setReg a v).store.host = s.store.host := rfl
@[simp] theorem State.setReg_store_norms : (s.setReg a v).store.norms = s.store.norms := rfl
@[simp] theorem State.setReg_capHi : (s.setReg a v).capHi = s.capHi := rfl
@[simp] theorem State.setReg_lowHalf : (s.setReg a v).lowHalf = s.lowHalf := rfl
@[simp] theorem State.setReg_hostLock : (s.setReg a v).hostLock = s.hostLock := rfl
@[simp] theorem State.setReg_mpLock : (s.setReg a v).mpLock = s.mpLock := rfl
@[simp] theorem State.setReg_mpBcast : (s.setReg a v).mpBcast = s.mpBcast := rfl
@[simp] theorem State.setReg_tiles : (s.setReg a v).tiles = s.tiles := rfl
@[simp] theorem State.setReg_tiers : (s.setReg a v).tiers = s.tiers := rfl
@[simp] theorem State.setReg_blocks : (s.setReg a v).blocks = s.blocks := rfl
@[simp] theorem State.setReg_hbmPoison : (s.setReg a v).hbmPoison = s.hbmPoison := rfl
@[simp] theorem State.setReg_bsPoison : (s.setReg a v).bsPoison = s.bsPoison := rfl
@[simp] theorem State.setReg_allocs : (s.setReg a v).allocs = s.allocs := rfl
@[simp] theorem State.setReg_arb : (s.setReg a v).arb = s.arb := rfl
@[simp] theorem State.setReg_scrub : (s.setReg a v).scrub = s.scrub := rfl
@[simp] theorem State.setReg_toks : (s.setReg a v).toks = s.toks := rfl
@[simp] theorem State.setReg_schedPtr : (s.setReg a v).schedPtr = s.schedPtr := rfl
@[simp] theorem State.setReg_sigs : (s.setReg a v).sigs = s.sigs := rfl
@[simp] theorem State.setReg_aggs : (s.setReg a v).aggs = s.aggs := rfl
@[simp] theorem State.setReg_slots : (s.setReg a v).slots = s.slots := rfl
@[simp] theorem State.setReg_fab : (s.setReg a v).fab = s.fab := rfl
@[simp] theorem State.setReg_jrn : (s.setReg a v).jrn = s.jrn := rfl
@[simp] theorem State.setReg_part : (s.setReg a v).part = s.part := rfl
@[simp] theorem State.setReg_fw : (s.setReg a v).fw = s.fw := rfl
@[simp] theorem State.setReg_sec : (s.setReg a v).sec = s.sec := rfl
@[simp] theorem State.setReg_pwr : (s.setReg a v).pwr = s.pwr := rfl
@[simp] theorem State.setReg_cal : (s.setReg a v).cal = s.cal := rfl
@[simp] theorem State.setReg_cell (b : Nat) : (s.setReg a v).cell b = s.cell b := rfl
@[simp] theorem State.setReg_norm (b : Nat) : (s.setReg a v).norm b = s.norm b := rfl
@[simp] theorem State.setReg_tile (b : Nat) : (s.setReg a v).tile b = s.tile b := rfl
@[simp] theorem State.setReg_tier (b : Nat) : (s.setReg a v).tier b = s.tier b := rfl
@[simp] theorem State.setReg_block (b : Nat) : (s.setReg a v).block b = s.block b := rfl
@[simp] theorem State.setReg_slot (b : Nat) : (s.setReg a v).slot b = s.slot b := rfl
@[simp] theorem State.setReg_port (b : Nat) : (s.setReg a v).port b = s.port b := rfl
@[simp] theorem State.setReg_alloc (b : Nat) : (s.setReg a v).alloc b = s.alloc b := rfl
@[simp] theorem State.setReg_tensor (b : Nat) : (s.setReg a v).tensor b = s.tensor b := rfl
@[simp] theorem State.setReg_box (b : Nat) : (s.setReg a v).box b = s.box b := rfl
@[simp] theorem State.setReg_tok (b : Nat) : (s.setReg a v).tok b = s.tok b := rfl
@[simp] theorem State.setReg_supply (b : Nat) : (s.setReg a v).supply b = s.supply b := rfl
@[simp] theorem State.setReg_scrubber (b : Nat) : (s.setReg a v).scrubber b = s.scrubber b := rfl
@[simp] theorem State.setReg_calR (b : Nat) : (s.setReg a v).calR b = s.calR b := rfl
@[simp] theorem State.setReg_rdByte (sp : Space) (b : Nat) : (s.setReg a v).rdByte sp b = s.rdByte sp b := by cases sp <;> rfl
@[simp] theorem State.setReg_get (b : Nat) : (s.setReg a v).reg b = if b = a then v else s.reg b := by
  simp [State.setReg, State.reg]
end

/-! ### setRn -/
section
variable (s : State) (a n : Nat)
@[simp] theorem State.setRn_pending : (s.setRn a n).pending = s.pending := rfl
@[simp] theorem State.setRn_draws : (s.setRn a n).draws = s.draws := rfl
@[simp] theorem State.setRn_dev : (s.setRn a n).dev = s.dev := rfl
@[simp] theorem State.setRn_resetN : (s.setRn a n).resetN = s.resetN := rfl
@[simp] theorem State.setRn_monitor : (s.setRn a n).monitor = s.monitor := rfl
@[simp] theorem State.setRn_mpUp : (s.setRn a n).mpUp = s.mpUp := rfl
@[simp] theorem State.setRn_hostUp : (s.setRn a n).hostUp = s.hostUp := rfl
@[simp] theorem State.setRn_time : (s.setRn a n).time = s.time := rfl
@[simp] theorem State.setRn_store_cells : (s.setRn a n).store.cells = s.store.cells := rfl
@[simp] theorem State.setRn_store_bstore : (s.setRn a n).store.bstore = s.store.bstore := rfl
@[simp] theorem State.setRn_store_hbm : (s.setRn a n).store.hbm = s.store.hbm := rfl
@[simp] theorem State.setRn_store_host : (s.setRn a n).store.host = s.store.host := rfl
@[simp] theorem State.setRn_store_norms : (s.setRn a n).store.norms = s.store.norms := rfl
@[simp] theorem State.setRn_capHi : (s.setRn a n).capHi = s.capHi := rfl
@[simp] theorem State.setRn_lowHalf : (s.setRn a n).lowHalf = s.lowHalf := rfl
@[simp] theorem State.setRn_hostLock : (s.setRn a n).hostLock = s.hostLock := rfl
@[simp] theorem State.setRn_mpLock : (s.setRn a n).mpLock = s.mpLock := rfl
@[simp] theorem State.setRn_mpBcast : (s.setRn a n).mpBcast = s.mpBcast := rfl
@[simp] theorem State.setRn_tiles : (s.setRn a n).tiles = s.tiles := rfl
@[simp] theorem State.setRn_tiers : (s.setRn a n).tiers = s.tiers := rfl
@[simp] theorem State.setRn_blocks : (s.setRn a n).blocks = s.blocks := rfl
@[simp] theorem State.setRn_hbmPoison : (s.setRn a n).hbmPoison = s.hbmPoison := rfl
@[simp] theorem State.setRn_bsPoison : (s.setRn a n).bsPoison = s.bsPoison := rfl
@[simp] theorem State.setRn_allocs : (s.setRn a n).allocs = s.allocs := rfl
@[simp] theorem State.setRn_arb : (s.setRn a n).arb = s.arb := rfl
@[simp] theorem State.setRn_scrub : (s.setRn a n).scrub = s.scrub := rfl
@[simp] theorem State.setRn_toks : (s.setRn a n).toks = s.toks := rfl
@[simp] theorem State.setRn_schedPtr : (s.setRn a n).schedPtr = s.schedPtr := rfl
@[simp] theorem State.setRn_sigs : (s.setRn a n).sigs = s.sigs := rfl
@[simp] theorem State.setRn_aggs : (s.setRn a n).aggs = s.aggs := rfl
@[simp] theorem State.setRn_slots : (s.setRn a n).slots = s.slots := rfl
@[simp] theorem State.setRn_fab : (s.setRn a n).fab = s.fab := rfl
@[simp] theorem State.setRn_jrn : (s.setRn a n).jrn = s.jrn := rfl
@[simp] theorem State.setRn_part : (s.setRn a n).part = s.part := rfl
@[simp] theorem State.setRn_fw : (s.setRn a n).fw = s.fw := rfl
@[simp] theorem State.setRn_sec : (s.setRn a n).sec = s.sec := rfl
@[simp] theorem State.setRn_pwr : (s.setRn a n).pwr = s.pwr := rfl
@[simp] theorem State.setRn_cal : (s.setRn a n).cal = s.cal := rfl
@[simp] theorem State.setRn_cell (b : Nat) : (s.setRn a n).cell b = s.cell b := rfl
@[simp] theorem State.setRn_norm (b : Nat) : (s.setRn a n).norm b = s.norm b := rfl
@[simp] theorem State.setRn_tile (b : Nat) : (s.setRn a n).tile b = s.tile b := rfl
@[simp] theorem State.setRn_tier (b : Nat) : (s.setRn a n).tier b = s.tier b := rfl
@[simp] theorem State.setRn_block (b : Nat) : (s.setRn a n).block b = s.block b := rfl
@[simp] theorem State.setRn_slot (b : Nat) : (s.setRn a n).slot b = s.slot b := rfl
@[simp] theorem State.setRn_port (b : Nat) : (s.setRn a n).port b = s.port b := rfl
@[simp] theorem State.setRn_alloc (b : Nat) : (s.setRn a n).alloc b = s.alloc b := rfl
@[simp] theorem State.setRn_tensor (b : Nat) : (s.setRn a n).tensor b = s.tensor b := rfl
@[simp] theorem State.setRn_box (b : Nat) : (s.setRn a n).box b = s.box b := rfl
@[simp] theorem State.setRn_tok (b : Nat) : (s.setRn a n).tok b = s.tok b := rfl
@[simp] theorem State.setRn_supply (b : Nat) : (s.setRn a n).supply b = s.supply b := rfl
@[simp] theorem State.setRn_scrubber (b : Nat) : (s.setRn a n).scrubber b = s.scrubber b := rfl
@[simp] theorem State.setRn_calR (b : Nat) : (s.setRn a n).calR b = s.calR b := rfl
@[simp] theorem State.setRn_rdByte (sp : Space) (b : Nat) : (s.setRn a n).rdByte sp b = s.rdByte sp b := by cases sp <;> rfl
end

/-! ### setRf -/
section
variable (s : State) (a hi lo v : Nat)
@[simp] theorem State.setRf_pending : (s.setRf a hi lo v).pending = s.pending := rfl
@[simp] theorem State.setRf_draws : (s.setRf a hi lo v).draws = s.draws := rfl
@[simp] theorem State.setRf_dev : (s.setRf a hi lo v).dev = s.dev := rfl
@[simp] theorem State.setRf_resetN : (s.setRf a hi lo v).resetN = s.resetN := rfl
@[simp] theorem State.setRf_monitor : (s.setRf a hi lo v).monitor = s.monitor := rfl
@[simp] theorem State.setRf_mpUp : (s.setRf a hi lo v).mpUp = s.mpUp := rfl
@[simp] theorem State.setRf_hostUp : (s.setRf a hi lo v).hostUp = s.hostUp := rfl
@[simp] theorem State.setRf_time : (s.setRf a hi lo v).time = s.time := rfl
@[simp] theorem State.setRf_store_cells : (s.setRf a hi lo v).store.cells = s.store.cells := rfl
@[simp] theorem State.setRf_store_bstore : (s.setRf a hi lo v).store.bstore = s.store.bstore := rfl
@[simp] theorem State.setRf_store_hbm : (s.setRf a hi lo v).store.hbm = s.store.hbm := rfl
@[simp] theorem State.setRf_store_host : (s.setRf a hi lo v).store.host = s.store.host := rfl
@[simp] theorem State.setRf_store_norms : (s.setRf a hi lo v).store.norms = s.store.norms := rfl
@[simp] theorem State.setRf_capHi : (s.setRf a hi lo v).capHi = s.capHi := rfl
@[simp] theorem State.setRf_lowHalf : (s.setRf a hi lo v).lowHalf = s.lowHalf := rfl
@[simp] theorem State.setRf_hostLock : (s.setRf a hi lo v).hostLock = s.hostLock := rfl
@[simp] theorem State.setRf_mpLock : (s.setRf a hi lo v).mpLock = s.mpLock := rfl
@[simp] theorem State.setRf_mpBcast : (s.setRf a hi lo v).mpBcast = s.mpBcast := rfl
@[simp] theorem State.setRf_tiles : (s.setRf a hi lo v).tiles = s.tiles := rfl
@[simp] theorem State.setRf_tiers : (s.setRf a hi lo v).tiers = s.tiers := rfl
@[simp] theorem State.setRf_blocks : (s.setRf a hi lo v).blocks = s.blocks := rfl
@[simp] theorem State.setRf_hbmPoison : (s.setRf a hi lo v).hbmPoison = s.hbmPoison := rfl
@[simp] theorem State.setRf_bsPoison : (s.setRf a hi lo v).bsPoison = s.bsPoison := rfl
@[simp] theorem State.setRf_allocs : (s.setRf a hi lo v).allocs = s.allocs := rfl
@[simp] theorem State.setRf_arb : (s.setRf a hi lo v).arb = s.arb := rfl
@[simp] theorem State.setRf_scrub : (s.setRf a hi lo v).scrub = s.scrub := rfl
@[simp] theorem State.setRf_toks : (s.setRf a hi lo v).toks = s.toks := rfl
@[simp] theorem State.setRf_schedPtr : (s.setRf a hi lo v).schedPtr = s.schedPtr := rfl
@[simp] theorem State.setRf_sigs : (s.setRf a hi lo v).sigs = s.sigs := rfl
@[simp] theorem State.setRf_aggs : (s.setRf a hi lo v).aggs = s.aggs := rfl
@[simp] theorem State.setRf_slots : (s.setRf a hi lo v).slots = s.slots := rfl
@[simp] theorem State.setRf_fab : (s.setRf a hi lo v).fab = s.fab := rfl
@[simp] theorem State.setRf_jrn : (s.setRf a hi lo v).jrn = s.jrn := rfl
@[simp] theorem State.setRf_part : (s.setRf a hi lo v).part = s.part := rfl
@[simp] theorem State.setRf_fw : (s.setRf a hi lo v).fw = s.fw := rfl
@[simp] theorem State.setRf_sec : (s.setRf a hi lo v).sec = s.sec := rfl
@[simp] theorem State.setRf_pwr : (s.setRf a hi lo v).pwr = s.pwr := rfl
@[simp] theorem State.setRf_cal : (s.setRf a hi lo v).cal = s.cal := rfl
@[simp] theorem State.setRf_cell (b : Nat) : (s.setRf a hi lo v).cell b = s.cell b := rfl
@[simp] theorem State.setRf_norm (b : Nat) : (s.setRf a hi lo v).norm b = s.norm b := rfl
@[simp] theorem State.setRf_tile (b : Nat) : (s.setRf a hi lo v).tile b = s.tile b := rfl
@[simp] theorem State.setRf_tier (b : Nat) : (s.setRf a hi lo v).tier b = s.tier b := rfl
@[simp] theorem State.setRf_block (b : Nat) : (s.setRf a hi lo v).block b = s.block b := rfl
@[simp] theorem State.setRf_slot (b : Nat) : (s.setRf a hi lo v).slot b = s.slot b := rfl
@[simp] theorem State.setRf_port (b : Nat) : (s.setRf a hi lo v).port b = s.port b := rfl
@[simp] theorem State.setRf_alloc (b : Nat) : (s.setRf a hi lo v).alloc b = s.alloc b := rfl
@[simp] theorem State.setRf_tensor (b : Nat) : (s.setRf a hi lo v).tensor b = s.tensor b := rfl
@[simp] theorem State.setRf_box (b : Nat) : (s.setRf a hi lo v).box b = s.box b := rfl
@[simp] theorem State.setRf_tok (b : Nat) : (s.setRf a hi lo v).tok b = s.tok b := rfl
@[simp] theorem State.setRf_supply (b : Nat) : (s.setRf a hi lo v).supply b = s.supply b := rfl
@[simp] theorem State.setRf_scrubber (b : Nat) : (s.setRf a hi lo v).scrubber b = s.scrubber b := rfl
@[simp] theorem State.setRf_calR (b : Nat) : (s.setRf a hi lo v).calR b = s.calR b := rfl
@[simp] theorem State.setRf_rdByte (sp : Space) (b : Nat) : (s.setRf a hi lo v).rdByte sp b = s.rdByte sp b := by cases sp <;> rfl
end

/-! ### setBit -/
section
variable (s : State) (a i : Nat)
@[simp] theorem State.setBit_pending : (s.setBit a i).pending = s.pending := rfl
@[simp] theorem State.setBit_draws : (s.setBit a i).draws = s.draws := rfl
@[simp] theorem State.setBit_dev : (s.setBit a i).dev = s.dev := rfl
@[simp] theorem State.setBit_resetN : (s.setBit a i).resetN = s.resetN := rfl
@[simp] theorem State.setBit_monitor : (s.setBit a i).monitor = s.monitor := rfl
@[simp] theorem State.setBit_mpUp : (s.setBit a i).mpUp = s.mpUp := rfl
@[simp] theorem State.setBit_hostUp : (s.setBit a i).hostUp = s.hostUp := rfl
@[simp] theorem State.setBit_time : (s.setBit a i).time = s.time := rfl
@[simp] theorem State.setBit_store_cells : (s.setBit a i).store.cells = s.store.cells := rfl
@[simp] theorem State.setBit_store_bstore : (s.setBit a i).store.bstore = s.store.bstore := rfl
@[simp] theorem State.setBit_store_hbm : (s.setBit a i).store.hbm = s.store.hbm := rfl
@[simp] theorem State.setBit_store_host : (s.setBit a i).store.host = s.store.host := rfl
@[simp] theorem State.setBit_store_norms : (s.setBit a i).store.norms = s.store.norms := rfl
@[simp] theorem State.setBit_capHi : (s.setBit a i).capHi = s.capHi := rfl
@[simp] theorem State.setBit_lowHalf : (s.setBit a i).lowHalf = s.lowHalf := rfl
@[simp] theorem State.setBit_hostLock : (s.setBit a i).hostLock = s.hostLock := rfl
@[simp] theorem State.setBit_mpLock : (s.setBit a i).mpLock = s.mpLock := rfl
@[simp] theorem State.setBit_mpBcast : (s.setBit a i).mpBcast = s.mpBcast := rfl
@[simp] theorem State.setBit_tiles : (s.setBit a i).tiles = s.tiles := rfl
@[simp] theorem State.setBit_tiers : (s.setBit a i).tiers = s.tiers := rfl
@[simp] theorem State.setBit_blocks : (s.setBit a i).blocks = s.blocks := rfl
@[simp] theorem State.setBit_hbmPoison : (s.setBit a i).hbmPoison = s.hbmPoison := rfl
@[simp] theorem State.setBit_bsPoison : (s.setBit a i).bsPoison = s.bsPoison := rfl
@[simp] theorem State.setBit_allocs : (s.setBit a i).allocs = s.allocs := rfl
@[simp] theorem State.setBit_arb : (s.setBit a i).arb = s.arb := rfl
@[simp] theorem State.setBit_scrub : (s.setBit a i).scrub = s.scrub := rfl
@[simp] theorem State.setBit_toks : (s.setBit a i).toks = s.toks := rfl
@[simp] theorem State.setBit_schedPtr : (s.setBit a i).schedPtr = s.schedPtr := rfl
@[simp] theorem State.setBit_sigs : (s.setBit a i).sigs = s.sigs := rfl
@[simp] theorem State.setBit_aggs : (s.setBit a i).aggs = s.aggs := rfl
@[simp] theorem State.setBit_slots : (s.setBit a i).slots = s.slots := rfl
@[simp] theorem State.setBit_fab : (s.setBit a i).fab = s.fab := rfl
@[simp] theorem State.setBit_jrn : (s.setBit a i).jrn = s.jrn := rfl
@[simp] theorem State.setBit_part : (s.setBit a i).part = s.part := rfl
@[simp] theorem State.setBit_fw : (s.setBit a i).fw = s.fw := rfl
@[simp] theorem State.setBit_sec : (s.setBit a i).sec = s.sec := rfl
@[simp] theorem State.setBit_pwr : (s.setBit a i).pwr = s.pwr := rfl
@[simp] theorem State.setBit_cal : (s.setBit a i).cal = s.cal := rfl
@[simp] theorem State.setBit_cell (b : Nat) : (s.setBit a i).cell b = s.cell b := rfl
@[simp] theorem State.setBit_norm (b : Nat) : (s.setBit a i).norm b = s.norm b := rfl
@[simp] theorem State.setBit_tile (b : Nat) : (s.setBit a i).tile b = s.tile b := rfl
@[simp] theorem State.setBit_tier (b : Nat) : (s.setBit a i).tier b = s.tier b := rfl
@[simp] theorem State.setBit_block (b : Nat) : (s.setBit a i).block b = s.block b := rfl
@[simp] theorem State.setBit_slot (b : Nat) : (s.setBit a i).slot b = s.slot b := rfl
@[simp] theorem State.setBit_port (b : Nat) : (s.setBit a i).port b = s.port b := rfl
@[simp] theorem State.setBit_alloc (b : Nat) : (s.setBit a i).alloc b = s.alloc b := rfl
@[simp] theorem State.setBit_tensor (b : Nat) : (s.setBit a i).tensor b = s.tensor b := rfl
@[simp] theorem State.setBit_box (b : Nat) : (s.setBit a i).box b = s.box b := rfl
@[simp] theorem State.setBit_tok (b : Nat) : (s.setBit a i).tok b = s.tok b := rfl
@[simp] theorem State.setBit_supply (b : Nat) : (s.setBit a i).supply b = s.supply b := rfl
@[simp] theorem State.setBit_scrubber (b : Nat) : (s.setBit a i).scrubber b = s.scrubber b := rfl
@[simp] theorem State.setBit_calR (b : Nat) : (s.setBit a i).calR b = s.calR b := rfl
@[simp] theorem State.setBit_rdByte (sp : Space) (b : Nat) : (s.setBit a i).rdByte sp b = s.rdByte sp b := by cases sp <;> rfl
end

/-! ### bump -/
section
variable (s : State) (a hi lo k : Nat)
@[simp] theorem State.bump_pending : (s.bump a hi lo k).pending = s.pending := rfl
@[simp] theorem State.bump_draws : (s.bump a hi lo k).draws = s.draws := rfl
@[simp] theorem State.bump_dev : (s.bump a hi lo k).dev = s.dev := rfl
@[simp] theorem State.bump_resetN : (s.bump a hi lo k).resetN = s.resetN := rfl
@[simp] theorem State.bump_monitor : (s.bump a hi lo k).monitor = s.monitor := rfl
@[simp] theorem State.bump_mpUp : (s.bump a hi lo k).mpUp = s.mpUp := rfl
@[simp] theorem State.bump_hostUp : (s.bump a hi lo k).hostUp = s.hostUp := rfl
@[simp] theorem State.bump_time : (s.bump a hi lo k).time = s.time := rfl
@[simp] theorem State.bump_store_cells : (s.bump a hi lo k).store.cells = s.store.cells := rfl
@[simp] theorem State.bump_store_bstore : (s.bump a hi lo k).store.bstore = s.store.bstore := rfl
@[simp] theorem State.bump_store_hbm : (s.bump a hi lo k).store.hbm = s.store.hbm := rfl
@[simp] theorem State.bump_store_host : (s.bump a hi lo k).store.host = s.store.host := rfl
@[simp] theorem State.bump_store_norms : (s.bump a hi lo k).store.norms = s.store.norms := rfl
@[simp] theorem State.bump_capHi : (s.bump a hi lo k).capHi = s.capHi := rfl
@[simp] theorem State.bump_lowHalf : (s.bump a hi lo k).lowHalf = s.lowHalf := rfl
@[simp] theorem State.bump_hostLock : (s.bump a hi lo k).hostLock = s.hostLock := rfl
@[simp] theorem State.bump_mpLock : (s.bump a hi lo k).mpLock = s.mpLock := rfl
@[simp] theorem State.bump_mpBcast : (s.bump a hi lo k).mpBcast = s.mpBcast := rfl
@[simp] theorem State.bump_tiles : (s.bump a hi lo k).tiles = s.tiles := rfl
@[simp] theorem State.bump_tiers : (s.bump a hi lo k).tiers = s.tiers := rfl
@[simp] theorem State.bump_blocks : (s.bump a hi lo k).blocks = s.blocks := rfl
@[simp] theorem State.bump_hbmPoison : (s.bump a hi lo k).hbmPoison = s.hbmPoison := rfl
@[simp] theorem State.bump_bsPoison : (s.bump a hi lo k).bsPoison = s.bsPoison := rfl
@[simp] theorem State.bump_allocs : (s.bump a hi lo k).allocs = s.allocs := rfl
@[simp] theorem State.bump_arb : (s.bump a hi lo k).arb = s.arb := rfl
@[simp] theorem State.bump_scrub : (s.bump a hi lo k).scrub = s.scrub := rfl
@[simp] theorem State.bump_toks : (s.bump a hi lo k).toks = s.toks := rfl
@[simp] theorem State.bump_schedPtr : (s.bump a hi lo k).schedPtr = s.schedPtr := rfl
@[simp] theorem State.bump_sigs : (s.bump a hi lo k).sigs = s.sigs := rfl
@[simp] theorem State.bump_aggs : (s.bump a hi lo k).aggs = s.aggs := rfl
@[simp] theorem State.bump_slots : (s.bump a hi lo k).slots = s.slots := rfl
@[simp] theorem State.bump_fab : (s.bump a hi lo k).fab = s.fab := rfl
@[simp] theorem State.bump_jrn : (s.bump a hi lo k).jrn = s.jrn := rfl
@[simp] theorem State.bump_part : (s.bump a hi lo k).part = s.part := rfl
@[simp] theorem State.bump_fw : (s.bump a hi lo k).fw = s.fw := rfl
@[simp] theorem State.bump_sec : (s.bump a hi lo k).sec = s.sec := rfl
@[simp] theorem State.bump_pwr : (s.bump a hi lo k).pwr = s.pwr := rfl
@[simp] theorem State.bump_cal : (s.bump a hi lo k).cal = s.cal := rfl
@[simp] theorem State.bump_cell (b : Nat) : (s.bump a hi lo k).cell b = s.cell b := rfl
@[simp] theorem State.bump_norm (b : Nat) : (s.bump a hi lo k).norm b = s.norm b := rfl
@[simp] theorem State.bump_tile (b : Nat) : (s.bump a hi lo k).tile b = s.tile b := rfl
@[simp] theorem State.bump_tier (b : Nat) : (s.bump a hi lo k).tier b = s.tier b := rfl
@[simp] theorem State.bump_block (b : Nat) : (s.bump a hi lo k).block b = s.block b := rfl
@[simp] theorem State.bump_slot (b : Nat) : (s.bump a hi lo k).slot b = s.slot b := rfl
@[simp] theorem State.bump_port (b : Nat) : (s.bump a hi lo k).port b = s.port b := rfl
@[simp] theorem State.bump_alloc (b : Nat) : (s.bump a hi lo k).alloc b = s.alloc b := rfl
@[simp] theorem State.bump_tensor (b : Nat) : (s.bump a hi lo k).tensor b = s.tensor b := rfl
@[simp] theorem State.bump_box (b : Nat) : (s.bump a hi lo k).box b = s.box b := rfl
@[simp] theorem State.bump_tok (b : Nat) : (s.bump a hi lo k).tok b = s.tok b := rfl
@[simp] theorem State.bump_supply (b : Nat) : (s.bump a hi lo k).supply b = s.supply b := rfl
@[simp] theorem State.bump_scrubber (b : Nat) : (s.bump a hi lo k).scrubber b = s.scrubber b := rfl
@[simp] theorem State.bump_calR (b : Nat) : (s.bump a hi lo k).calR b = s.calR b := rfl
@[simp] theorem State.bump_rdByte (sp : Space) (b : Nat) : (s.bump a hi lo k).rdByte sp b = s.rdByte sp b := by cases sp <;> rfl
end

/-! ### bump64 -/
section
variable (s : State) (a k : Nat)
@[simp] theorem State.bump64_pending : (s.bump64 a k).pending = s.pending := rfl
@[simp] theorem State.bump64_draws : (s.bump64 a k).draws = s.draws := rfl
@[simp] theorem State.bump64_dev : (s.bump64 a k).dev = s.dev := rfl
@[simp] theorem State.bump64_resetN : (s.bump64 a k).resetN = s.resetN := rfl
@[simp] theorem State.bump64_monitor : (s.bump64 a k).monitor = s.monitor := rfl
@[simp] theorem State.bump64_mpUp : (s.bump64 a k).mpUp = s.mpUp := rfl
@[simp] theorem State.bump64_hostUp : (s.bump64 a k).hostUp = s.hostUp := rfl
@[simp] theorem State.bump64_time : (s.bump64 a k).time = s.time := rfl
@[simp] theorem State.bump64_store_cells : (s.bump64 a k).store.cells = s.store.cells := rfl
@[simp] theorem State.bump64_store_bstore : (s.bump64 a k).store.bstore = s.store.bstore := rfl
@[simp] theorem State.bump64_store_hbm : (s.bump64 a k).store.hbm = s.store.hbm := rfl
@[simp] theorem State.bump64_store_host : (s.bump64 a k).store.host = s.store.host := rfl
@[simp] theorem State.bump64_store_norms : (s.bump64 a k).store.norms = s.store.norms := rfl
@[simp] theorem State.bump64_capHi : (s.bump64 a k).capHi = s.capHi := rfl
@[simp] theorem State.bump64_lowHalf : (s.bump64 a k).lowHalf = s.lowHalf := rfl
@[simp] theorem State.bump64_hostLock : (s.bump64 a k).hostLock = s.hostLock := rfl
@[simp] theorem State.bump64_mpLock : (s.bump64 a k).mpLock = s.mpLock := rfl
@[simp] theorem State.bump64_mpBcast : (s.bump64 a k).mpBcast = s.mpBcast := rfl
@[simp] theorem State.bump64_tiles : (s.bump64 a k).tiles = s.tiles := rfl
@[simp] theorem State.bump64_tiers : (s.bump64 a k).tiers = s.tiers := rfl
@[simp] theorem State.bump64_blocks : (s.bump64 a k).blocks = s.blocks := rfl
@[simp] theorem State.bump64_hbmPoison : (s.bump64 a k).hbmPoison = s.hbmPoison := rfl
@[simp] theorem State.bump64_bsPoison : (s.bump64 a k).bsPoison = s.bsPoison := rfl
@[simp] theorem State.bump64_allocs : (s.bump64 a k).allocs = s.allocs := rfl
@[simp] theorem State.bump64_arb : (s.bump64 a k).arb = s.arb := rfl
@[simp] theorem State.bump64_scrub : (s.bump64 a k).scrub = s.scrub := rfl
@[simp] theorem State.bump64_toks : (s.bump64 a k).toks = s.toks := rfl
@[simp] theorem State.bump64_schedPtr : (s.bump64 a k).schedPtr = s.schedPtr := rfl
@[simp] theorem State.bump64_sigs : (s.bump64 a k).sigs = s.sigs := rfl
@[simp] theorem State.bump64_aggs : (s.bump64 a k).aggs = s.aggs := rfl
@[simp] theorem State.bump64_slots : (s.bump64 a k).slots = s.slots := rfl
@[simp] theorem State.bump64_fab : (s.bump64 a k).fab = s.fab := rfl
@[simp] theorem State.bump64_jrn : (s.bump64 a k).jrn = s.jrn := rfl
@[simp] theorem State.bump64_part : (s.bump64 a k).part = s.part := rfl
@[simp] theorem State.bump64_fw : (s.bump64 a k).fw = s.fw := rfl
@[simp] theorem State.bump64_sec : (s.bump64 a k).sec = s.sec := rfl
@[simp] theorem State.bump64_pwr : (s.bump64 a k).pwr = s.pwr := rfl
@[simp] theorem State.bump64_cal : (s.bump64 a k).cal = s.cal := rfl
@[simp] theorem State.bump64_cell (b : Nat) : (s.bump64 a k).cell b = s.cell b := rfl
@[simp] theorem State.bump64_norm (b : Nat) : (s.bump64 a k).norm b = s.norm b := rfl
@[simp] theorem State.bump64_tile (b : Nat) : (s.bump64 a k).tile b = s.tile b := rfl
@[simp] theorem State.bump64_tier (b : Nat) : (s.bump64 a k).tier b = s.tier b := rfl
@[simp] theorem State.bump64_block (b : Nat) : (s.bump64 a k).block b = s.block b := rfl
@[simp] theorem State.bump64_slot (b : Nat) : (s.bump64 a k).slot b = s.slot b := rfl
@[simp] theorem State.bump64_port (b : Nat) : (s.bump64 a k).port b = s.port b := rfl
@[simp] theorem State.bump64_alloc (b : Nat) : (s.bump64 a k).alloc b = s.alloc b := rfl
@[simp] theorem State.bump64_tensor (b : Nat) : (s.bump64 a k).tensor b = s.tensor b := rfl
@[simp] theorem State.bump64_box (b : Nat) : (s.bump64 a k).box b = s.box b := rfl
@[simp] theorem State.bump64_tok (b : Nat) : (s.bump64 a k).tok b = s.tok b := rfl
@[simp] theorem State.bump64_supply (b : Nat) : (s.bump64 a k).supply b = s.supply b := rfl
@[simp] theorem State.bump64_scrubber (b : Nat) : (s.bump64 a k).scrubber b = s.scrubber b := rfl
@[simp] theorem State.bump64_calR (b : Nat) : (s.bump64 a k).calR b = s.calR b := rfl
@[simp] theorem State.bump64_rdByte (sp : Space) (b : Nat) : (s.bump64 a k).rdByte sp b = s.rdByte sp b := by cases sp <;> rfl
end

/-! ### setCell -/
section
variable (s : State) (k v : Nat)
@[simp] theorem State.setCell_pending : (s.setCell k v).pending = s.pending := rfl
@[simp] theorem State.setCell_draws : (s.setCell k v).draws = s.draws := rfl
@[simp] theorem State.setCell_dev : (s.setCell k v).dev = s.dev := rfl
@[simp] theorem State.setCell_resetN : (s.setCell k v).resetN = s.resetN := rfl
@[simp] theorem State.setCell_monitor : (s.setCell k v).monitor = s.monitor := rfl
@[simp] theorem State.setCell_mpUp : (s.setCell k v).mpUp = s.mpUp := rfl
@[simp] theorem State.setCell_hostUp : (s.setCell k v).hostUp = s.hostUp := rfl
@[simp] theorem State.setCell_time : (s.setCell k v).time = s.time := rfl
@[simp] theorem State.setCell_store_regs : (s.setCell k v).store.regs = s.store.regs := rfl
@[simp] theorem State.setCell_store_bstore : (s.setCell k v).store.bstore = s.store.bstore := rfl
@[simp] theorem State.setCell_store_hbm : (s.setCell k v).store.hbm = s.store.hbm := rfl
@[simp] theorem State.setCell_store_host : (s.setCell k v).store.host = s.store.host := rfl
@[simp] theorem State.setCell_store_norms : (s.setCell k v).store.norms = s.store.norms := rfl
@[simp] theorem State.setCell_capHi : (s.setCell k v).capHi = s.capHi := rfl
@[simp] theorem State.setCell_lowHalf : (s.setCell k v).lowHalf = s.lowHalf := rfl
@[simp] theorem State.setCell_hostLock : (s.setCell k v).hostLock = s.hostLock := rfl
@[simp] theorem State.setCell_mpLock : (s.setCell k v).mpLock = s.mpLock := rfl
@[simp] theorem State.setCell_mpBcast : (s.setCell k v).mpBcast = s.mpBcast := rfl
@[simp] theorem State.setCell_tiles : (s.setCell k v).tiles = s.tiles := rfl
@[simp] theorem State.setCell_tiers : (s.setCell k v).tiers = s.tiers := rfl
@[simp] theorem State.setCell_blocks : (s.setCell k v).blocks = s.blocks := rfl
@[simp] theorem State.setCell_hbmPoison : (s.setCell k v).hbmPoison = s.hbmPoison := rfl
@[simp] theorem State.setCell_bsPoison : (s.setCell k v).bsPoison = s.bsPoison := rfl
@[simp] theorem State.setCell_allocs : (s.setCell k v).allocs = s.allocs := rfl
@[simp] theorem State.setCell_arb : (s.setCell k v).arb = s.arb := rfl
@[simp] theorem State.setCell_scrub : (s.setCell k v).scrub = s.scrub := rfl
@[simp] theorem State.setCell_toks : (s.setCell k v).toks = s.toks := rfl
@[simp] theorem State.setCell_schedPtr : (s.setCell k v).schedPtr = s.schedPtr := rfl
@[simp] theorem State.setCell_sigs : (s.setCell k v).sigs = s.sigs := rfl
@[simp] theorem State.setCell_aggs : (s.setCell k v).aggs = s.aggs := rfl
@[simp] theorem State.setCell_slots : (s.setCell k v).slots = s.slots := rfl
@[simp] theorem State.setCell_fab : (s.setCell k v).fab = s.fab := rfl
@[simp] theorem State.setCell_jrn : (s.setCell k v).jrn = s.jrn := rfl
@[simp] theorem State.setCell_part : (s.setCell k v).part = s.part := rfl
@[simp] theorem State.setCell_fw : (s.setCell k v).fw = s.fw := rfl
@[simp] theorem State.setCell_sec : (s.setCell k v).sec = s.sec := rfl
@[simp] theorem State.setCell_pwr : (s.setCell k v).pwr = s.pwr := rfl
@[simp] theorem State.setCell_cal : (s.setCell k v).cal = s.cal := rfl
@[simp] theorem State.setCell_reg (b : Nat) : (s.setCell k v).reg b = s.reg b := rfl
@[simp] theorem State.setCell_norm (b : Nat) : (s.setCell k v).norm b = s.norm b := rfl
@[simp] theorem State.setCell_tile (b : Nat) : (s.setCell k v).tile b = s.tile b := rfl
@[simp] theorem State.setCell_tier (b : Nat) : (s.setCell k v).tier b = s.tier b := rfl
@[simp] theorem State.setCell_block (b : Nat) : (s.setCell k v).block b = s.block b := rfl
@[simp] theorem State.setCell_slot (b : Nat) : (s.setCell k v).slot b = s.slot b := rfl
@[simp] theorem State.setCell_port (b : Nat) : (s.setCell k v).port b = s.port b := rfl
@[simp] theorem State.setCell_alloc (b : Nat) : (s.setCell k v).alloc b = s.alloc b := rfl
@[simp] theorem State.setCell_tensor (b : Nat) : (s.setCell k v).tensor b = s.tensor b := rfl
@[simp] theorem State.setCell_box (b : Nat) : (s.setCell k v).box b = s.box b := rfl
@[simp] theorem State.setCell_tok (b : Nat) : (s.setCell k v).tok b = s.tok b := rfl
@[simp] theorem State.setCell_supply (b : Nat) : (s.setCell k v).supply b = s.supply b := rfl
@[simp] theorem State.setCell_scrubber (b : Nat) : (s.setCell k v).scrubber b = s.scrubber b := rfl
@[simp] theorem State.setCell_calR (b : Nat) : (s.setCell k v).calR b = s.calR b := rfl
@[simp] theorem State.setCell_rdByte (sp : Space) (b : Nat) : (s.setCell k v).rdByte sp b = s.rdByte sp b := by cases sp <;> rfl
@[simp] theorem State.setCell_get (b : Nat) : (s.setCell k v).cell b = if b = k then v else s.cell b := by
  simp [State.setCell, State.cell]
end

/-! ### setNorm -/
section
variable (s : State) (k v : Nat)
@[simp] theorem State.setNorm_pending : (s.setNorm k v).pending = s.pending := rfl
@[simp] theorem State.setNorm_draws : (s.setNorm k v).draws = s.draws := rfl
@[simp] theorem State.setNorm_dev : (s.setNorm k v).dev = s.dev := rfl
@[simp] theorem State.setNorm_resetN : (s.setNorm k v).resetN = s.resetN := rfl
@[simp] theorem State.setNorm_monitor : (s.setNorm k v).monitor = s.monitor := rfl
@[simp] theorem State.setNorm_mpUp : (s.setNorm k v).mpUp = s.mpUp := rfl
@[simp] theorem State.setNorm_hostUp : (s.setNorm k v).hostUp = s.hostUp := rfl
@[simp] theorem State.setNorm_time : (s.setNorm k v).time = s.time := rfl
@[simp] theorem State.setNorm_store_regs : (s.setNorm k v).store.regs = s.store.regs := rfl
@[simp] theorem State.setNorm_store_cells : (s.setNorm k v).store.cells = s.store.cells := rfl
@[simp] theorem State.setNorm_store_bstore : (s.setNorm k v).store.bstore = s.store.bstore := rfl
@[simp] theorem State.setNorm_store_hbm : (s.setNorm k v).store.hbm = s.store.hbm := rfl
@[simp] theorem State.setNorm_store_host : (s.setNorm k v).store.host = s.store.host := rfl
@[simp] theorem State.setNorm_capHi : (s.setNorm k v).capHi = s.capHi := rfl
@[simp] theorem State.setNorm_lowHalf : (s.setNorm k v).lowHalf = s.lowHalf := rfl
@[simp] theorem State.setNorm_hostLock : (s.setNorm k v).hostLock = s.hostLock := rfl
@[simp] theorem State.setNorm_mpLock : (s.setNorm k v).mpLock = s.mpLock := rfl
@[simp] theorem State.setNorm_mpBcast : (s.setNorm k v).mpBcast = s.mpBcast := rfl
@[simp] theorem State.setNorm_tiles : (s.setNorm k v).tiles = s.tiles := rfl
@[simp] theorem State.setNorm_tiers : (s.setNorm k v).tiers = s.tiers := rfl
@[simp] theorem State.setNorm_blocks : (s.setNorm k v).blocks = s.blocks := rfl
@[simp] theorem State.setNorm_hbmPoison : (s.setNorm k v).hbmPoison = s.hbmPoison := rfl
@[simp] theorem State.setNorm_bsPoison : (s.setNorm k v).bsPoison = s.bsPoison := rfl
@[simp] theorem State.setNorm_allocs : (s.setNorm k v).allocs = s.allocs := rfl
@[simp] theorem State.setNorm_arb : (s.setNorm k v).arb = s.arb := rfl
@[simp] theorem State.setNorm_scrub : (s.setNorm k v).scrub = s.scrub := rfl
@[simp] theorem State.setNorm_toks : (s.setNorm k v).toks = s.toks := rfl
@[simp] theorem State.setNorm_schedPtr : (s.setNorm k v).schedPtr = s.schedPtr := rfl
@[simp] theorem State.setNorm_sigs : (s.setNorm k v).sigs = s.sigs := rfl
@[simp] theorem State.setNorm_aggs : (s.setNorm k v).aggs = s.aggs := rfl
@[simp] theorem State.setNorm_slots : (s.setNorm k v).slots = s.slots := rfl
@[simp] theorem State.setNorm_fab : (s.setNorm k v).fab = s.fab := rfl
@[simp] theorem State.setNorm_jrn : (s.setNorm k v).jrn = s.jrn := rfl
@[simp] theorem State.setNorm_part : (s.setNorm k v).part = s.part := rfl
@[simp] theorem State.setNorm_fw : (s.setNorm k v).fw = s.fw := rfl
@[simp] theorem State.setNorm_sec : (s.setNorm k v).sec = s.sec := rfl
@[simp] theorem State.setNorm_pwr : (s.setNorm k v).pwr = s.pwr := rfl
@[simp] theorem State.setNorm_cal : (s.setNorm k v).cal = s.cal := rfl
@[simp] theorem State.setNorm_reg (b : Nat) : (s.setNorm k v).reg b = s.reg b := rfl
@[simp] theorem State.setNorm_cell (b : Nat) : (s.setNorm k v).cell b = s.cell b := rfl
@[simp] theorem State.setNorm_tile (b : Nat) : (s.setNorm k v).tile b = s.tile b := rfl
@[simp] theorem State.setNorm_tier (b : Nat) : (s.setNorm k v).tier b = s.tier b := rfl
@[simp] theorem State.setNorm_block (b : Nat) : (s.setNorm k v).block b = s.block b := rfl
@[simp] theorem State.setNorm_slot (b : Nat) : (s.setNorm k v).slot b = s.slot b := rfl
@[simp] theorem State.setNorm_port (b : Nat) : (s.setNorm k v).port b = s.port b := rfl
@[simp] theorem State.setNorm_alloc (b : Nat) : (s.setNorm k v).alloc b = s.alloc b := rfl
@[simp] theorem State.setNorm_tensor (b : Nat) : (s.setNorm k v).tensor b = s.tensor b := rfl
@[simp] theorem State.setNorm_box (b : Nat) : (s.setNorm k v).box b = s.box b := rfl
@[simp] theorem State.setNorm_tok (b : Nat) : (s.setNorm k v).tok b = s.tok b := rfl
@[simp] theorem State.setNorm_supply (b : Nat) : (s.setNorm k v).supply b = s.supply b := rfl
@[simp] theorem State.setNorm_scrubber (b : Nat) : (s.setNorm k v).scrubber b = s.scrubber b := rfl
@[simp] theorem State.setNorm_calR (b : Nat) : (s.setNorm k v).calR b = s.calR b := rfl
@[simp] theorem State.setNorm_rdByte (sp : Space) (b : Nat) : (s.setNorm k v).rdByte sp b = s.rdByte sp b := by cases sp <;> rfl
@[simp] theorem State.setNorm_get (b : Nat) : (s.setNorm k v).norm b = if b = k then v else s.norm b := by
  simp [State.setNorm, State.norm]
end

/-! ### setTile -/
section
variable (s : State) (t : Nat) (x : Tile)
@[simp] theorem State.setTile_pending : (s.setTile t x).pending = s.pending := rfl
@[simp] theorem State.setTile_draws : (s.setTile t x).draws = s.draws := rfl
@[simp] theorem State.setTile_dev : (s.setTile t x).dev = s.dev := rfl
@[simp] theorem State.setTile_resetN : (s.setTile t x).resetN = s.resetN := rfl
@[simp] theorem State.setTile_monitor : (s.setTile t x).monitor = s.monitor := rfl
@[simp] theorem State.setTile_mpUp : (s.setTile t x).mpUp = s.mpUp := rfl
@[simp] theorem State.setTile_hostUp : (s.setTile t x).hostUp = s.hostUp := rfl
@[simp] theorem State.setTile_time : (s.setTile t x).time = s.time := rfl
@[simp] theorem State.setTile_store : (s.setTile t x).store = s.store := rfl
@[simp] theorem State.setTile_capHi : (s.setTile t x).capHi = s.capHi := rfl
@[simp] theorem State.setTile_lowHalf : (s.setTile t x).lowHalf = s.lowHalf := rfl
@[simp] theorem State.setTile_hostLock : (s.setTile t x).hostLock = s.hostLock := rfl
@[simp] theorem State.setTile_mpLock : (s.setTile t x).mpLock = s.mpLock := rfl
@[simp] theorem State.setTile_mpBcast : (s.setTile t x).mpBcast = s.mpBcast := rfl
@[simp] theorem State.setTile_tiers : (s.setTile t x).tiers = s.tiers := rfl
@[simp] theorem State.setTile_blocks : (s.setTile t x).blocks = s.blocks := rfl
@[simp] theorem State.setTile_hbmPoison : (s.setTile t x).hbmPoison = s.hbmPoison := rfl
@[simp] theorem State.setTile_bsPoison : (s.setTile t x).bsPoison = s.bsPoison := rfl
@[simp] theorem State.setTile_allocs : (s.setTile t x).allocs = s.allocs := rfl
@[simp] theorem State.setTile_arb : (s.setTile t x).arb = s.arb := rfl
@[simp] theorem State.setTile_scrub : (s.setTile t x).scrub = s.scrub := rfl
@[simp] theorem State.setTile_toks : (s.setTile t x).toks = s.toks := rfl
@[simp] theorem State.setTile_schedPtr : (s.setTile t x).schedPtr = s.schedPtr := rfl
@[simp] theorem State.setTile_sigs : (s.setTile t x).sigs = s.sigs := rfl
@[simp] theorem State.setTile_aggs : (s.setTile t x).aggs = s.aggs := rfl
@[simp] theorem State.setTile_slots : (s.setTile t x).slots = s.slots := rfl
@[simp] theorem State.setTile_fab : (s.setTile t x).fab = s.fab := rfl
@[simp] theorem State.setTile_jrn : (s.setTile t x).jrn = s.jrn := rfl
@[simp] theorem State.setTile_part : (s.setTile t x).part = s.part := rfl
@[simp] theorem State.setTile_fw : (s.setTile t x).fw = s.fw := rfl
@[simp] theorem State.setTile_sec : (s.setTile t x).sec = s.sec := rfl
@[simp] theorem State.setTile_pwr : (s.setTile t x).pwr = s.pwr := rfl
@[simp] theorem State.setTile_cal : (s.setTile t x).cal = s.cal := rfl
@[simp] theorem State.setTile_reg (b : Nat) : (s.setTile t x).reg b = s.reg b := rfl
@[simp] theorem State.setTile_cell (b : Nat) : (s.setTile t x).cell b = s.cell b := rfl
@[simp] theorem State.setTile_norm (b : Nat) : (s.setTile t x).norm b = s.norm b := rfl
@[simp] theorem State.setTile_tier (b : Nat) : (s.setTile t x).tier b = s.tier b := rfl
@[simp] theorem State.setTile_block (b : Nat) : (s.setTile t x).block b = s.block b := rfl
@[simp] theorem State.setTile_slot (b : Nat) : (s.setTile t x).slot b = s.slot b := rfl
@[simp] theorem State.setTile_port (b : Nat) : (s.setTile t x).port b = s.port b := rfl
@[simp] theorem State.setTile_alloc (b : Nat) : (s.setTile t x).alloc b = s.alloc b := rfl
@[simp] theorem State.setTile_tensor (b : Nat) : (s.setTile t x).tensor b = s.tensor b := rfl
@[simp] theorem State.setTile_box (b : Nat) : (s.setTile t x).box b = s.box b := rfl
@[simp] theorem State.setTile_tok (b : Nat) : (s.setTile t x).tok b = s.tok b := rfl
@[simp] theorem State.setTile_supply (b : Nat) : (s.setTile t x).supply b = s.supply b := rfl
@[simp] theorem State.setTile_scrubber (b : Nat) : (s.setTile t x).scrubber b = s.scrubber b := rfl
@[simp] theorem State.setTile_calR (b : Nat) : (s.setTile t x).calR b = s.calR b := rfl
@[simp] theorem State.setTile_rdByte (sp : Space) (b : Nat) : (s.setTile t x).rdByte sp b = s.rdByte sp b := by cases sp <;> rfl
@[simp] theorem State.setTile_get (b : Nat) : (s.setTile t x).tile b = if b = t then x else s.tile b := by
  simp [State.setTile, State.tile]
end

/-! ### setTier -/
section
variable (s : State) (u : Nat) (x : TierInfo)
@[simp] theorem State.setTier_pending : (s.setTier u x).pending = s.pending := rfl
@[simp] theorem State.setTier_draws : (s.setTier u x).draws = s.draws := rfl
@[simp] theorem State.setTier_dev : (s.setTier u x).dev = s.dev := rfl
@[simp] theorem State.setTier_resetN : (s.setTier u x).resetN = s.resetN := rfl
@[simp] theorem State.setTier_monitor : (s.setTier u x).monitor = s.monitor := rfl
@[simp] theorem State.setTier_mpUp : (s.setTier u x).mpUp = s.mpUp := rfl
@[simp] theorem State.setTier_hostUp : (s.setTier u x).hostUp = s.hostUp := rfl
@[simp] theorem State.setTier_time : (s.setTier u x).time = s.time := rfl
@[simp] theorem State.setTier_store : (s.setTier u x).store = s.store := rfl
@[simp] theorem State.setTier_capHi : (s.setTier u x).capHi = s.capHi := rfl
@[simp] theorem State.setTier_lowHalf : (s.setTier u x).lowHalf = s.lowHalf := rfl
@[simp] theorem State.setTier_hostLock : (s.setTier u x).hostLock = s.hostLock := rfl
@[simp] theorem State.setTier_mpLock : (s.setTier u x).mpLock = s.mpLock := rfl
@[simp] theorem State.setTier_mpBcast : (s.setTier u x).mpBcast = s.mpBcast := rfl
@[simp] theorem State.setTier_tiles : (s.setTier u x).tiles = s.tiles := rfl
@[simp] theorem State.setTier_blocks : (s.setTier u x).blocks = s.blocks := rfl
@[simp] theorem State.setTier_hbmPoison : (s.setTier u x).hbmPoison = s.hbmPoison := rfl
@[simp] theorem State.setTier_bsPoison : (s.setTier u x).bsPoison = s.bsPoison := rfl
@[simp] theorem State.setTier_allocs : (s.setTier u x).allocs = s.allocs := rfl
@[simp] theorem State.setTier_arb : (s.setTier u x).arb = s.arb := rfl
@[simp] theorem State.setTier_scrub : (s.setTier u x).scrub = s.scrub := rfl
@[simp] theorem State.setTier_toks : (s.setTier u x).toks = s.toks := rfl
@[simp] theorem State.setTier_schedPtr : (s.setTier u x).schedPtr = s.schedPtr := rfl
@[simp] theorem State.setTier_sigs : (s.setTier u x).sigs = s.sigs := rfl
@[simp] theorem State.setTier_aggs : (s.setTier u x).aggs = s.aggs := rfl
@[simp] theorem State.setTier_slots : (s.setTier u x).slots = s.slots := rfl
@[simp] theorem State.setTier_fab : (s.setTier u x).fab = s.fab := rfl
@[simp] theorem State.setTier_jrn : (s.setTier u x).jrn = s.jrn := rfl
@[simp] theorem State.setTier_part : (s.setTier u x).part = s.part := rfl
@[simp] theorem State.setTier_fw : (s.setTier u x).fw = s.fw := rfl
@[simp] theorem State.setTier_sec : (s.setTier u x).sec = s.sec := rfl
@[simp] theorem State.setTier_pwr : (s.setTier u x).pwr = s.pwr := rfl
@[simp] theorem State.setTier_cal : (s.setTier u x).cal = s.cal := rfl
@[simp] theorem State.setTier_reg (b : Nat) : (s.setTier u x).reg b = s.reg b := rfl
@[simp] theorem State.setTier_cell (b : Nat) : (s.setTier u x).cell b = s.cell b := rfl
@[simp] theorem State.setTier_norm (b : Nat) : (s.setTier u x).norm b = s.norm b := rfl
@[simp] theorem State.setTier_tile (b : Nat) : (s.setTier u x).tile b = s.tile b := rfl
@[simp] theorem State.setTier_block (b : Nat) : (s.setTier u x).block b = s.block b := rfl
@[simp] theorem State.setTier_slot (b : Nat) : (s.setTier u x).slot b = s.slot b := rfl
@[simp] theorem State.setTier_port (b : Nat) : (s.setTier u x).port b = s.port b := rfl
@[simp] theorem State.setTier_alloc (b : Nat) : (s.setTier u x).alloc b = s.alloc b := rfl
@[simp] theorem State.setTier_tensor (b : Nat) : (s.setTier u x).tensor b = s.tensor b := rfl
@[simp] theorem State.setTier_box (b : Nat) : (s.setTier u x).box b = s.box b := rfl
@[simp] theorem State.setTier_tok (b : Nat) : (s.setTier u x).tok b = s.tok b := rfl
@[simp] theorem State.setTier_supply (b : Nat) : (s.setTier u x).supply b = s.supply b := rfl
@[simp] theorem State.setTier_scrubber (b : Nat) : (s.setTier u x).scrubber b = s.scrubber b := rfl
@[simp] theorem State.setTier_calR (b : Nat) : (s.setTier u x).calR b = s.calR b := rfl
@[simp] theorem State.setTier_rdByte (sp : Space) (b : Nat) : (s.setTier u x).rdByte sp b = s.rdByte sp b := by cases sp <;> rfl
@[simp] theorem State.setTier_get (b : Nat) : (s.setTier u x).tier b = if b = u then x else s.tier b := by
  simp [State.setTier, State.tier]
end

/-! ### setBlock -/
section
variable (s : State) (b : Nat) (x : Block)
@[simp] theorem State.setBlock_pending : (s.setBlock b x).pending = s.pending := rfl
@[simp] theorem State.setBlock_draws : (s.setBlock b x).draws = s.draws := rfl
@[simp] theorem State.setBlock_dev : (s.setBlock b x).dev = s.dev := rfl
@[simp] theorem State.setBlock_resetN : (s.setBlock b x).resetN = s.resetN := rfl
@[simp] theorem State.setBlock_monitor : (s.setBlock b x).monitor = s.monitor := rfl
@[simp] theorem State.setBlock_mpUp : (s.setBlock b x).mpUp = s.mpUp := rfl
@[simp] theorem State.setBlock_hostUp : (s.setBlock b x).hostUp = s.hostUp := rfl
@[simp] theorem State.setBlock_time : (s.setBlock b x).time = s.time := rfl
@[simp] theorem State.setBlock_store : (s.setBlock b x).store = s.store := rfl
@[simp] theorem State.setBlock_capHi : (s.setBlock b x).capHi = s.capHi := rfl
@[simp] theorem State.setBlock_lowHalf : (s.setBlock b x).lowHalf = s.lowHalf := rfl
@[simp] theorem State.setBlock_hostLock : (s.setBlock b x).hostLock = s.hostLock := rfl
@[simp] theorem State.setBlock_mpLock : (s.setBlock b x).mpLock = s.mpLock := rfl
@[simp] theorem State.setBlock_mpBcast : (s.setBlock b x).mpBcast = s.mpBcast := rfl
@[simp] theorem State.setBlock_tiles : (s.setBlock b x).tiles = s.tiles := rfl
@[simp] theorem State.setBlock_tiers : (s.setBlock b x).tiers = s.tiers := rfl
@[simp] theorem State.setBlock_hbmPoison : (s.setBlock b x).hbmPoison = s.hbmPoison := rfl
@[simp] theorem State.setBlock_bsPoison : (s.setBlock b x).bsPoison = s.bsPoison := rfl
@[simp] theorem State.setBlock_allocs : (s.setBlock b x).allocs = s.allocs := rfl
@[simp] theorem State.setBlock_arb : (s.setBlock b x).arb = s.arb := rfl
@[simp] theorem State.setBlock_scrub : (s.setBlock b x).scrub = s.scrub := rfl
@[simp] theorem State.setBlock_toks : (s.setBlock b x).toks = s.toks := rfl
@[simp] theorem State.setBlock_schedPtr : (s.setBlock b x).schedPtr = s.schedPtr := rfl
@[simp] theorem State.setBlock_sigs : (s.setBlock b x).sigs = s.sigs := rfl
@[simp] theorem State.setBlock_aggs : (s.setBlock b x).aggs = s.aggs := rfl
@[simp] theorem State.setBlock_slots : (s.setBlock b x).slots = s.slots := rfl
@[simp] theorem State.setBlock_fab : (s.setBlock b x).fab = s.fab := rfl
@[simp] theorem State.setBlock_jrn : (s.setBlock b x).jrn = s.jrn := rfl
@[simp] theorem State.setBlock_part : (s.setBlock b x).part = s.part := rfl
@[simp] theorem State.setBlock_fw : (s.setBlock b x).fw = s.fw := rfl
@[simp] theorem State.setBlock_sec : (s.setBlock b x).sec = s.sec := rfl
@[simp] theorem State.setBlock_pwr : (s.setBlock b x).pwr = s.pwr := rfl
@[simp] theorem State.setBlock_cal : (s.setBlock b x).cal = s.cal := rfl
@[simp] theorem State.setBlock_reg (b : Nat) : (s.setBlock b x).reg b = s.reg b := rfl
@[simp] theorem State.setBlock_cell (b : Nat) : (s.setBlock b x).cell b = s.cell b := rfl
@[simp] theorem State.setBlock_norm (b : Nat) : (s.setBlock b x).norm b = s.norm b := rfl
@[simp] theorem State.setBlock_tile (b : Nat) : (s.setBlock b x).tile b = s.tile b := rfl
@[simp] theorem State.setBlock_tier (b : Nat) : (s.setBlock b x).tier b = s.tier b := rfl
@[simp] theorem State.setBlock_slot (b : Nat) : (s.setBlock b x).slot b = s.slot b := rfl
@[simp] theorem State.setBlock_port (b : Nat) : (s.setBlock b x).port b = s.port b := rfl
@[simp] theorem State.setBlock_alloc (b : Nat) : (s.setBlock b x).alloc b = s.alloc b := rfl
@[simp] theorem State.setBlock_tensor (b : Nat) : (s.setBlock b x).tensor b = s.tensor b := rfl
@[simp] theorem State.setBlock_box (b : Nat) : (s.setBlock b x).box b = s.box b := rfl
@[simp] theorem State.setBlock_tok (b : Nat) : (s.setBlock b x).tok b = s.tok b := rfl
@[simp] theorem State.setBlock_supply (b : Nat) : (s.setBlock b x).supply b = s.supply b := rfl
@[simp] theorem State.setBlock_scrubber (b : Nat) : (s.setBlock b x).scrubber b = s.scrubber b := rfl
@[simp] theorem State.setBlock_calR (b : Nat) : (s.setBlock b x).calR b = s.calR b := rfl
@[simp] theorem State.setBlock_rdByte (sp : Space) (b : Nat) : (s.setBlock b x).rdByte sp b = s.rdByte sp b := by cases sp <;> rfl
@[simp] theorem State.setBlock_get (b : Nat) : (s.setBlock b x).block b = if b = b then x else s.block b := by
  simp [State.setBlock, State.block]
end

/-! ### setSlot -/
section
variable (s : State) (j : Nat) (x : Slot)
@[simp] theorem State.setSlot_pending : (s.setSlot j x).pending = s.pending := rfl
@[simp] theorem State.setSlot_draws : (s.setSlot j x).draws = s.draws := rfl
@[simp] theorem State.setSlot_dev : (s.setSlot j x).dev = s.dev := rfl
@[simp] theorem State.setSlot_resetN : (s.setSlot j x).resetN = s.resetN := rfl
@[simp] theorem State.setSlot_monitor : (s.setSlot j x).monitor = s.monitor := rfl
@[simp] theorem State.setSlot_mpUp : (s.setSlot j x).mpUp = s.mpUp := rfl
@[simp] theorem State.setSlot_hostUp : (s.setSlot j x).hostUp = s.hostUp := rfl
@[simp] theorem State.setSlot_time : (s.setSlot j x).time = s.time := rfl
@[simp] theorem State.setSlot_store : (s.setSlot j x).store = s.store := rfl
@[simp] theorem State.setSlot_capHi : (s.setSlot j x).capHi = s.capHi := rfl
@[simp] theorem State.setSlot_lowHalf : (s.setSlot j x).lowHalf = s.lowHalf := rfl
@[simp] theorem State.setSlot_hostLock : (s.setSlot j x).hostLock = s.hostLock := rfl
@[simp] theorem State.setSlot_mpLock : (s.setSlot j x).mpLock = s.mpLock := rfl
@[simp] theorem State.setSlot_mpBcast : (s.setSlot j x).mpBcast = s.mpBcast := rfl
@[simp] theorem State.setSlot_tiles : (s.setSlot j x).tiles = s.tiles := rfl
@[simp] theorem State.setSlot_tiers : (s.setSlot j x).tiers = s.tiers := rfl
@[simp] theorem State.setSlot_blocks : (s.setSlot j x).blocks = s.blocks := rfl
@[simp] theorem State.setSlot_hbmPoison : (s.setSlot j x).hbmPoison = s.hbmPoison := rfl
@[simp] theorem State.setSlot_bsPoison : (s.setSlot j x).bsPoison = s.bsPoison := rfl
@[simp] theorem State.setSlot_allocs : (s.setSlot j x).allocs = s.allocs := rfl
@[simp] theorem State.setSlot_arb : (s.setSlot j x).arb = s.arb := rfl
@[simp] theorem State.setSlot_scrub : (s.setSlot j x).scrub = s.scrub := rfl
@[simp] theorem State.setSlot_toks : (s.setSlot j x).toks = s.toks := rfl
@[simp] theorem State.setSlot_schedPtr : (s.setSlot j x).schedPtr = s.schedPtr := rfl
@[simp] theorem State.setSlot_sigs : (s.setSlot j x).sigs = s.sigs := rfl
@[simp] theorem State.setSlot_aggs : (s.setSlot j x).aggs = s.aggs := rfl
@[simp] theorem State.setSlot_fab : (s.setSlot j x).fab = s.fab := rfl
@[simp] theorem State.setSlot_jrn : (s.setSlot j x).jrn = s.jrn := rfl
@[simp] theorem State.setSlot_part : (s.setSlot j x).part = s.part := rfl
@[simp] theorem State.setSlot_fw : (s.setSlot j x).fw = s.fw := rfl
@[simp] theorem State.setSlot_sec : (s.setSlot j x).sec = s.sec := rfl
@[simp] theorem State.setSlot_pwr : (s.setSlot j x).pwr = s.pwr := rfl
@[simp] theorem State.setSlot_cal : (s.setSlot j x).cal = s.cal := rfl
@[simp] theorem State.setSlot_reg (b : Nat) : (s.setSlot j x).reg b = s.reg b := rfl
@[simp] theorem State.setSlot_cell (b : Nat) : (s.setSlot j x).cell b = s.cell b := rfl
@[simp] theorem State.setSlot_norm (b : Nat) : (s.setSlot j x).norm b = s.norm b := rfl
@[simp] theorem State.setSlot_tile (b : Nat) : (s.setSlot j x).tile b = s.tile b := rfl
@[simp] theorem State.setSlot_tier (b : Nat) : (s.setSlot j x).tier b = s.tier b := rfl
@[simp] theorem State.setSlot_block (b : Nat) : (s.setSlot j x).block b = s.block b := rfl
@[simp] theorem State.setSlot_port (b : Nat) : (s.setSlot j x).port b = s.port b := rfl
@[simp] theorem State.setSlot_alloc (b : Nat) : (s.setSlot j x).alloc b = s.alloc b := rfl
@[simp] theorem State.setSlot_tensor (b : Nat) : (s.setSlot j x).tensor b = s.tensor b := rfl
@[simp] theorem State.setSlot_box (b : Nat) : (s.setSlot j x).box b = s.box b := rfl
@[simp] theorem State.setSlot_tok (b : Nat) : (s.setSlot j x).tok b = s.tok b := rfl
@[simp] theorem State.setSlot_supply (b : Nat) : (s.setSlot j x).supply b = s.supply b := rfl
@[simp] theorem State.setSlot_scrubber (b : Nat) : (s.setSlot j x).scrubber b = s.scrubber b := rfl
@[simp] theorem State.setSlot_calR (b : Nat) : (s.setSlot j x).calR b = s.calR b := rfl
@[simp] theorem State.setSlot_rdByte (sp : Space) (b : Nat) : (s.setSlot j x).rdByte sp b = s.rdByte sp b := by cases sp <;> rfl
@[simp] theorem State.setSlot_get (b : Nat) : (s.setSlot j x).slot b = if b = j then x else s.slot b := by
  simp [State.setSlot, State.slot]
end

/-! ### setPort -/
section
variable (s : State) (p : Nat) (x : Port)
@[simp] theorem State.setPort_pending : (s.setPort p x).pending = s.pending := rfl
@[simp] theorem State.setPort_draws : (s.setPort p x).draws = s.draws := rfl
@[simp] theorem State.setPort_dev : (s.setPort p x).dev = s.dev := rfl
@[simp] theorem State.setPort_resetN : (s.setPort p x).resetN = s.resetN := rfl
@[simp] theorem State.setPort_monitor : (s.setPort p x).monitor = s.monitor := rfl
@[simp] theorem State.setPort_mpUp : (s.setPort p x).mpUp = s.mpUp := rfl
@[simp] theorem State.setPort_hostUp : (s.setPort p x).hostUp = s.hostUp := rfl
@[simp] theorem State.setPort_time : (s.setPort p x).time = s.time := rfl
@[simp] theorem State.setPort_store : (s.setPort p x).store = s.store := rfl
@[simp] theorem State.setPort_capHi : (s.setPort p x).capHi = s.capHi := rfl
@[simp] theorem State.setPort_lowHalf : (s.setPort p x).lowHalf = s.lowHalf := rfl
@[simp] theorem State.setPort_hostLock : (s.setPort p x).hostLock = s.hostLock := rfl
@[simp] theorem State.setPort_mpLock : (s.setPort p x).mpLock = s.mpLock := rfl
@[simp] theorem State.setPort_mpBcast : (s.setPort p x).mpBcast = s.mpBcast := rfl
@[simp] theorem State.setPort_tiles : (s.setPort p x).tiles = s.tiles := rfl
@[simp] theorem State.setPort_tiers : (s.setPort p x).tiers = s.tiers := rfl
@[simp] theorem State.setPort_blocks : (s.setPort p x).blocks = s.blocks := rfl
@[simp] theorem State.setPort_hbmPoison : (s.setPort p x).hbmPoison = s.hbmPoison := rfl
@[simp] theorem State.setPort_bsPoison : (s.setPort p x).bsPoison = s.bsPoison := rfl
@[simp] theorem State.setPort_allocs : (s.setPort p x).allocs = s.allocs := rfl
@[simp] theorem State.setPort_arb : (s.setPort p x).arb = s.arb := rfl
@[simp] theorem State.setPort_scrub : (s.setPort p x).scrub = s.scrub := rfl
@[simp] theorem State.setPort_toks : (s.setPort p x).toks = s.toks := rfl
@[simp] theorem State.setPort_schedPtr : (s.setPort p x).schedPtr = s.schedPtr := rfl
@[simp] theorem State.setPort_sigs : (s.setPort p x).sigs = s.sigs := rfl
@[simp] theorem State.setPort_aggs : (s.setPort p x).aggs = s.aggs := rfl
@[simp] theorem State.setPort_slots : (s.setPort p x).slots = s.slots := rfl
@[simp] theorem State.setPort_fab_groups : (s.setPort p x).fab.groups = s.fab.groups := rfl
@[simp] theorem State.setPort_fab_rounds : (s.setPort p x).fab.rounds = s.fab.rounds := rfl
@[simp] theorem State.setPort_fab_early : (s.setPort p x).fab.early = s.fab.early := rfl
@[simp] theorem State.setPort_fab_offset : (s.setPort p x).fab.offset = s.fab.offset := rfl
@[simp] theorem State.setPort_fab_locked : (s.setPort p x).fab.locked = s.fab.locked := rfl
@[simp] theorem State.setPort_fab_syncUs : (s.setPort p x).fab.syncUs = s.fab.syncUs := rfl
@[simp] theorem State.setPort_fab_seqs : (s.setPort p x).fab.seqs = s.fab.seqs := rfl
@[simp] theorem State.setPort_fab_out : (s.setPort p x).fab.out = s.fab.out := rfl
@[simp] theorem State.setPort_jrn : (s.setPort p x).jrn = s.jrn := rfl
@[simp] theorem State.setPort_part : (s.setPort p x).part = s.part := rfl
@[simp] theorem State.setPort_fw : (s.setPort p x).fw = s.fw := rfl
@[simp] theorem State.setPort_sec : (s.setPort p x).sec = s.sec := rfl
@[simp] theorem State.setPort_pwr : (s.setPort p x).pwr = s.pwr := rfl
@[simp] theorem State.setPort_cal : (s.setPort p x).cal = s.cal := rfl
@[simp] theorem State.setPort_reg (b : Nat) : (s.setPort p x).reg b = s.reg b := rfl
@[simp] theorem State.setPort_cell (b : Nat) : (s.setPort p x).cell b = s.cell b := rfl
@[simp] theorem State.setPort_norm (b : Nat) : (s.setPort p x).norm b = s.norm b := rfl
@[simp] theorem State.setPort_tile (b : Nat) : (s.setPort p x).tile b = s.tile b := rfl
@[simp] theorem State.setPort_tier (b : Nat) : (s.setPort p x).tier b = s.tier b := rfl
@[simp] theorem State.setPort_block (b : Nat) : (s.setPort p x).block b = s.block b := rfl
@[simp] theorem State.setPort_slot (b : Nat) : (s.setPort p x).slot b = s.slot b := rfl
@[simp] theorem State.setPort_alloc (b : Nat) : (s.setPort p x).alloc b = s.alloc b := rfl
@[simp] theorem State.setPort_tensor (b : Nat) : (s.setPort p x).tensor b = s.tensor b := rfl
@[simp] theorem State.setPort_box (b : Nat) : (s.setPort p x).box b = s.box b := rfl
@[simp] theorem State.setPort_tok (b : Nat) : (s.setPort p x).tok b = s.tok b := rfl
@[simp] theorem State.setPort_supply (b : Nat) : (s.setPort p x).supply b = s.supply b := rfl
@[simp] theorem State.setPort_scrubber (b : Nat) : (s.setPort p x).scrubber b = s.scrubber b := rfl
@[simp] theorem State.setPort_calR (b : Nat) : (s.setPort p x).calR b = s.calR b := rfl
@[simp] theorem State.setPort_rdByte (sp : Space) (b : Nat) : (s.setPort p x).rdByte sp b = s.rdByte sp b := by cases sp <;> rfl
@[simp] theorem State.setPort_get (b : Nat) : (s.setPort p x).port b = if b = p then x else s.port b := by
  simp [State.setPort, State.port]
end

/-! ### setAlloc -/
section
variable (s : State) (i : Nat) (x : Allocator)
@[simp] theorem State.setAlloc_pending : (s.setAlloc i x).pending = s.pending := rfl
@[simp] theorem State.setAlloc_draws : (s.setAlloc i x).draws = s.draws := rfl
@[simp] theorem State.setAlloc_dev : (s.setAlloc i x).dev = s.dev := rfl
@[simp] theorem State.setAlloc_resetN : (s.setAlloc i x).resetN = s.resetN := rfl
@[simp] theorem State.setAlloc_monitor : (s.setAlloc i x).monitor = s.monitor := rfl
@[simp] theorem State.setAlloc_mpUp : (s.setAlloc i x).mpUp = s.mpUp := rfl
@[simp] theorem State.setAlloc_hostUp : (s.setAlloc i x).hostUp = s.hostUp := rfl
@[simp] theorem State.setAlloc_time : (s.setAlloc i x).time = s.time := rfl
@[simp] theorem State.setAlloc_store : (s.setAlloc i x).store = s.store := rfl
@[simp] theorem State.setAlloc_capHi : (s.setAlloc i x).capHi = s.capHi := rfl
@[simp] theorem State.setAlloc_lowHalf : (s.setAlloc i x).lowHalf = s.lowHalf := rfl
@[simp] theorem State.setAlloc_hostLock : (s.setAlloc i x).hostLock = s.hostLock := rfl
@[simp] theorem State.setAlloc_mpLock : (s.setAlloc i x).mpLock = s.mpLock := rfl
@[simp] theorem State.setAlloc_mpBcast : (s.setAlloc i x).mpBcast = s.mpBcast := rfl
@[simp] theorem State.setAlloc_tiles : (s.setAlloc i x).tiles = s.tiles := rfl
@[simp] theorem State.setAlloc_tiers : (s.setAlloc i x).tiers = s.tiers := rfl
@[simp] theorem State.setAlloc_blocks : (s.setAlloc i x).blocks = s.blocks := rfl
@[simp] theorem State.setAlloc_hbmPoison : (s.setAlloc i x).hbmPoison = s.hbmPoison := rfl
@[simp] theorem State.setAlloc_bsPoison : (s.setAlloc i x).bsPoison = s.bsPoison := rfl
@[simp] theorem State.setAlloc_arb : (s.setAlloc i x).arb = s.arb := rfl
@[simp] theorem State.setAlloc_scrub : (s.setAlloc i x).scrub = s.scrub := rfl
@[simp] theorem State.setAlloc_toks : (s.setAlloc i x).toks = s.toks := rfl
@[simp] theorem State.setAlloc_schedPtr : (s.setAlloc i x).schedPtr = s.schedPtr := rfl
@[simp] theorem State.setAlloc_sigs : (s.setAlloc i x).sigs = s.sigs := rfl
@[simp] theorem State.setAlloc_aggs : (s.setAlloc i x).aggs = s.aggs := rfl
@[simp] theorem State.setAlloc_slots : (s.setAlloc i x).slots = s.slots := rfl
@[simp] theorem State.setAlloc_fab : (s.setAlloc i x).fab = s.fab := rfl
@[simp] theorem State.setAlloc_jrn : (s.setAlloc i x).jrn = s.jrn := rfl
@[simp] theorem State.setAlloc_part : (s.setAlloc i x).part = s.part := rfl
@[simp] theorem State.setAlloc_fw : (s.setAlloc i x).fw = s.fw := rfl
@[simp] theorem State.setAlloc_sec : (s.setAlloc i x).sec = s.sec := rfl
@[simp] theorem State.setAlloc_pwr : (s.setAlloc i x).pwr = s.pwr := rfl
@[simp] theorem State.setAlloc_cal : (s.setAlloc i x).cal = s.cal := rfl
@[simp] theorem State.setAlloc_reg (b : Nat) : (s.setAlloc i x).reg b = s.reg b := rfl
@[simp] theorem State.setAlloc_cell (b : Nat) : (s.setAlloc i x).cell b = s.cell b := rfl
@[simp] theorem State.setAlloc_norm (b : Nat) : (s.setAlloc i x).norm b = s.norm b := rfl
@[simp] theorem State.setAlloc_tile (b : Nat) : (s.setAlloc i x).tile b = s.tile b := rfl
@[simp] theorem State.setAlloc_tier (b : Nat) : (s.setAlloc i x).tier b = s.tier b := rfl
@[simp] theorem State.setAlloc_block (b : Nat) : (s.setAlloc i x).block b = s.block b := rfl
@[simp] theorem State.setAlloc_slot (b : Nat) : (s.setAlloc i x).slot b = s.slot b := rfl
@[simp] theorem State.setAlloc_port (b : Nat) : (s.setAlloc i x).port b = s.port b := rfl
@[simp] theorem State.setAlloc_tensor (b : Nat) : (s.setAlloc i x).tensor b = s.tensor b := rfl
@[simp] theorem State.setAlloc_box (b : Nat) : (s.setAlloc i x).box b = s.box b := rfl
@[simp] theorem State.setAlloc_tok (b : Nat) : (s.setAlloc i x).tok b = s.tok b := rfl
@[simp] theorem State.setAlloc_supply (b : Nat) : (s.setAlloc i x).supply b = s.supply b := rfl
@[simp] theorem State.setAlloc_scrubber (b : Nat) : (s.setAlloc i x).scrubber b = s.scrubber b := rfl
@[simp] theorem State.setAlloc_calR (b : Nat) : (s.setAlloc i x).calR b = s.calR b := rfl
@[simp] theorem State.setAlloc_rdByte (sp : Space) (b : Nat) : (s.setAlloc i x).rdByte sp b = s.rdByte sp b := by cases sp <;> rfl
@[simp] theorem State.setAlloc_get (b : Nat) : (s.setAlloc i x).alloc b = if b = i then x else s.alloc b := by
  simp [State.setAlloc, State.alloc]
end

/-! ### setTensor -/
section
variable (s : State) (n : Nat) (x : Option Tensor)
@[simp] theorem State.setTensor_pending : (s.setTensor n x).pending = s.pending := rfl
@[simp] theorem State.setTensor_draws : (s.setTensor n x).draws = s.draws := rfl
@[simp] theorem State.setTensor_dev : (s.setTensor n x).dev = s.dev := rfl
@[simp] theorem State.setTensor_resetN : (s.setTensor n x).resetN = s.resetN := rfl
@[simp] theorem State.setTensor_monitor : (s.setTensor n x).monitor = s.monitor := rfl
@[simp] theorem State.setTensor_mpUp : (s.setTensor n x).mpUp = s.mpUp := rfl
@[simp] theorem State.setTensor_hostUp : (s.setTensor n x).hostUp = s.hostUp := rfl
@[simp] theorem State.setTensor_time : (s.setTensor n x).time = s.time := rfl
@[simp] theorem State.setTensor_store : (s.setTensor n x).store = s.store := rfl
@[simp] theorem State.setTensor_capHi : (s.setTensor n x).capHi = s.capHi := rfl
@[simp] theorem State.setTensor_lowHalf : (s.setTensor n x).lowHalf = s.lowHalf := rfl
@[simp] theorem State.setTensor_hostLock : (s.setTensor n x).hostLock = s.hostLock := rfl
@[simp] theorem State.setTensor_mpLock : (s.setTensor n x).mpLock = s.mpLock := rfl
@[simp] theorem State.setTensor_mpBcast : (s.setTensor n x).mpBcast = s.mpBcast := rfl
@[simp] theorem State.setTensor_tiles : (s.setTensor n x).tiles = s.tiles := rfl
@[simp] theorem State.setTensor_tiers : (s.setTensor n x).tiers = s.tiers := rfl
@[simp] theorem State.setTensor_blocks : (s.setTensor n x).blocks = s.blocks := rfl
@[simp] theorem State.setTensor_hbmPoison : (s.setTensor n x).hbmPoison = s.hbmPoison := rfl
@[simp] theorem State.setTensor_bsPoison : (s.setTensor n x).bsPoison = s.bsPoison := rfl
@[simp] theorem State.setTensor_allocs : (s.setTensor n x).allocs = s.allocs := rfl
@[simp] theorem State.setTensor_arb : (s.setTensor n x).arb = s.arb := rfl
@[simp] theorem State.setTensor_scrub : (s.setTensor n x).scrub = s.scrub := rfl
@[simp] theorem State.setTensor_toks : (s.setTensor n x).toks = s.toks := rfl
@[simp] theorem State.setTensor_schedPtr : (s.setTensor n x).schedPtr = s.schedPtr := rfl
@[simp] theorem State.setTensor_sigs : (s.setTensor n x).sigs = s.sigs := rfl
@[simp] theorem State.setTensor_aggs : (s.setTensor n x).aggs = s.aggs := rfl
@[simp] theorem State.setTensor_slots : (s.setTensor n x).slots = s.slots := rfl
@[simp] theorem State.setTensor_fab : (s.setTensor n x).fab = s.fab := rfl
@[simp] theorem State.setTensor_jrn : (s.setTensor n x).jrn = s.jrn := rfl
@[simp] theorem State.setTensor_part : (s.setTensor n x).part = s.part := rfl
@[simp] theorem State.setTensor_fw_boxes : (s.setTensor n x).fw.boxes = s.fw.boxes := rfl
@[simp] theorem State.setTensor_fw_ptr : (s.setTensor n x).fw.ptr = s.fw.ptr := rfl
@[simp] theorem State.setTensor_fw_ops : (s.setTensor n x).fw.ops = s.fw.ops := rfl
@[simp] theorem State.setTensor_fw_nextOph : (s.setTensor n x).fw.nextOph = s.fw.nextOph := rfl
@[simp] theorem State.setTensor_fw_notices : (s.setTensor n x).fw.notices = s.fw.notices := rfl
@[simp] theorem State.setTensor_fw_subs : (s.setTensor n x).fw.subs = s.fw.subs := rfl
@[simp] theorem State.setTensor_fw_manager : (s.setTensor n x).fw.manager = s.fw.manager := rfl
@[simp] theorem State.setTensor_fw_reports : (s.setTensor n x).fw.reports = s.fw.reports := rfl
@[simp] theorem State.setTensor_fw_overruns : (s.setTensor n x).fw.overruns = s.fw.overruns := rfl
@[simp] theorem State.setTensor_fw_cfgStage : (s.setTensor n x).fw.cfgStage = s.fw.cfgStage := rfl
@[simp] theorem State.setTensor_fw_cfg : (s.setTensor n x).fw.cfg = s.fw.cfg := rfl
@[simp] theorem State.setTensor_fw_locals : (s.setTensor n x).fw.locals = s.fw.locals := rfl
@[simp] theorem State.setTensor_fw_commitLog : (s.setTensor n x).fw.commitLog = s.fw.commitLog := rfl
@[simp] theorem State.setTensor_fw_commitMs : (s.setTensor n x).fw.commitMs = s.fw.commitMs := rfl
@[simp] theorem State.setTensor_fw_tests : (s.setTensor n x).fw.tests = s.fw.tests := rfl
@[simp] theorem State.setTensor_fw_drainMs : (s.setTensor n x).fw.drainMs = s.fw.drainMs := rfl
@[simp] theorem State.setTensor_fw_causeSeq : (s.setTensor n x).fw.causeSeq = s.fw.causeSeq := rfl
@[simp] theorem State.setTensor_fw_postTest : (s.setTensor n x).fw.postTest = s.fw.postTest := rfl
@[simp] theorem State.setTensor_fw_postKind : (s.setTensor n x).fw.postKind = s.fw.postKind := rfl
@[simp] theorem State.setTensor_fw_postUnit : (s.setTensor n x).fw.postUnit = s.fw.postUnit := rfl
@[simp] theorem State.setTensor_fw_postDetail : (s.setTensor n x).fw.postDetail = s.fw.postDetail := rfl
@[simp] theorem State.setTensor_fw_reasm : (s.setTensor n x).fw.reasm = s.fw.reasm := rfl
@[simp] theorem State.setTensor_fw_mctpAddr : (s.setTensor n x).fw.mctpAddr = s.fw.mctpAddr := rfl
@[simp] theorem State.setTensor_sec : (s.setTensor n x).sec = s.sec := rfl
@[simp] theorem State.setTensor_pwr : (s.setTensor n x).pwr = s.pwr := rfl
@[simp] theorem State.setTensor_cal : (s.setTensor n x).cal = s.cal := rfl
@[simp] theorem State.setTensor_reg (b : Nat) : (s.setTensor n x).reg b = s.reg b := rfl
@[simp] theorem State.setTensor_cell (b : Nat) : (s.setTensor n x).cell b = s.cell b := rfl
@[simp] theorem State.setTensor_norm (b : Nat) : (s.setTensor n x).norm b = s.norm b := rfl
@[simp] theorem State.setTensor_tile (b : Nat) : (s.setTensor n x).tile b = s.tile b := rfl
@[simp] theorem State.setTensor_tier (b : Nat) : (s.setTensor n x).tier b = s.tier b := rfl
@[simp] theorem State.setTensor_block (b : Nat) : (s.setTensor n x).block b = s.block b := rfl
@[simp] theorem State.setTensor_slot (b : Nat) : (s.setTensor n x).slot b = s.slot b := rfl
@[simp] theorem State.setTensor_port (b : Nat) : (s.setTensor n x).port b = s.port b := rfl
@[simp] theorem State.setTensor_alloc (b : Nat) : (s.setTensor n x).alloc b = s.alloc b := rfl
@[simp] theorem State.setTensor_box (b : Nat) : (s.setTensor n x).box b = s.box b := rfl
@[simp] theorem State.setTensor_tok (b : Nat) : (s.setTensor n x).tok b = s.tok b := rfl
@[simp] theorem State.setTensor_supply (b : Nat) : (s.setTensor n x).supply b = s.supply b := rfl
@[simp] theorem State.setTensor_scrubber (b : Nat) : (s.setTensor n x).scrubber b = s.scrubber b := rfl
@[simp] theorem State.setTensor_calR (b : Nat) : (s.setTensor n x).calR b = s.calR b := rfl
@[simp] theorem State.setTensor_rdByte (sp : Space) (b : Nat) : (s.setTensor n x).rdByte sp b = s.rdByte sp b := by cases sp <;> rfl
@[simp] theorem State.setTensor_get (b : Nat) : (s.setTensor n x).tensor b = if b = n then x else s.tensor b := by
  simp [State.setTensor, State.tensor]
end

/-! ### setBox -/
section
variable (s : State) (m : Nat) (x : Mailbox)
@[simp] theorem State.setBox_pending : (s.setBox m x).pending = s.pending := rfl
@[simp] theorem State.setBox_draws : (s.setBox m x).draws = s.draws := rfl
@[simp] theorem State.setBox_dev : (s.setBox m x).dev = s.dev := rfl
@[simp] theorem State.setBox_resetN : (s.setBox m x).resetN = s.resetN := rfl
@[simp] theorem State.setBox_monitor : (s.setBox m x).monitor = s.monitor := rfl
@[simp] theorem State.setBox_mpUp : (s.setBox m x).mpUp = s.mpUp := rfl
@[simp] theorem State.setBox_hostUp : (s.setBox m x).hostUp = s.hostUp := rfl
@[simp] theorem State.setBox_time : (s.setBox m x).time = s.time := rfl
@[simp] theorem State.setBox_store : (s.setBox m x).store = s.store := rfl
@[simp] theorem State.setBox_capHi : (s.setBox m x).capHi = s.capHi := rfl
@[simp] theorem State.setBox_lowHalf : (s.setBox m x).lowHalf = s.lowHalf := rfl
@[simp] theorem State.setBox_hostLock : (s.setBox m x).hostLock = s.hostLock := rfl
@[simp] theorem State.setBox_mpLock : (s.setBox m x).mpLock = s.mpLock := rfl
@[simp] theorem State.setBox_mpBcast : (s.setBox m x).mpBcast = s.mpBcast := rfl
@[simp] theorem State.setBox_tiles : (s.setBox m x).tiles = s.tiles := rfl
@[simp] theorem State.setBox_tiers : (s.setBox m x).tiers = s.tiers := rfl
@[simp] theorem State.setBox_blocks : (s.setBox m x).blocks = s.blocks := rfl
@[simp] theorem State.setBox_hbmPoison : (s.setBox m x).hbmPoison = s.hbmPoison := rfl
@[simp] theorem State.setBox_bsPoison : (s.setBox m x).bsPoison = s.bsPoison := rfl
@[simp] theorem State.setBox_allocs : (s.setBox m x).allocs = s.allocs := rfl
@[simp] theorem State.setBox_arb : (s.setBox m x).arb = s.arb := rfl
@[simp] theorem State.setBox_scrub : (s.setBox m x).scrub = s.scrub := rfl
@[simp] theorem State.setBox_toks : (s.setBox m x).toks = s.toks := rfl
@[simp] theorem State.setBox_schedPtr : (s.setBox m x).schedPtr = s.schedPtr := rfl
@[simp] theorem State.setBox_sigs : (s.setBox m x).sigs = s.sigs := rfl
@[simp] theorem State.setBox_aggs : (s.setBox m x).aggs = s.aggs := rfl
@[simp] theorem State.setBox_slots : (s.setBox m x).slots = s.slots := rfl
@[simp] theorem State.setBox_fab : (s.setBox m x).fab = s.fab := rfl
@[simp] theorem State.setBox_jrn : (s.setBox m x).jrn = s.jrn := rfl
@[simp] theorem State.setBox_part : (s.setBox m x).part = s.part := rfl
@[simp] theorem State.setBox_fw_ptr : (s.setBox m x).fw.ptr = s.fw.ptr := rfl
@[simp] theorem State.setBox_fw_ops : (s.setBox m x).fw.ops = s.fw.ops := rfl
@[simp] theorem State.setBox_fw_nextOph : (s.setBox m x).fw.nextOph = s.fw.nextOph := rfl
@[simp] theorem State.setBox_fw_notices : (s.setBox m x).fw.notices = s.fw.notices := rfl
@[simp] theorem State.setBox_fw_subs : (s.setBox m x).fw.subs = s.fw.subs := rfl
@[simp] theorem State.setBox_fw_manager : (s.setBox m x).fw.manager = s.fw.manager := rfl
@[simp] theorem State.setBox_fw_reports : (s.setBox m x).fw.reports = s.fw.reports := rfl
@[simp] theorem State.setBox_fw_overruns : (s.setBox m x).fw.overruns = s.fw.overruns := rfl
@[simp] theorem State.setBox_fw_tensors : (s.setBox m x).fw.tensors = s.fw.tensors := rfl
@[simp] theorem State.setBox_fw_cfgStage : (s.setBox m x).fw.cfgStage = s.fw.cfgStage := rfl
@[simp] theorem State.setBox_fw_cfg : (s.setBox m x).fw.cfg = s.fw.cfg := rfl
@[simp] theorem State.setBox_fw_locals : (s.setBox m x).fw.locals = s.fw.locals := rfl
@[simp] theorem State.setBox_fw_commitLog : (s.setBox m x).fw.commitLog = s.fw.commitLog := rfl
@[simp] theorem State.setBox_fw_commitMs : (s.setBox m x).fw.commitMs = s.fw.commitMs := rfl
@[simp] theorem State.setBox_fw_tests : (s.setBox m x).fw.tests = s.fw.tests := rfl
@[simp] theorem State.setBox_fw_drainMs : (s.setBox m x).fw.drainMs = s.fw.drainMs := rfl
@[simp] theorem State.setBox_fw_causeSeq : (s.setBox m x).fw.causeSeq = s.fw.causeSeq := rfl
@[simp] theorem State.setBox_fw_postTest : (s.setBox m x).fw.postTest = s.fw.postTest := rfl
@[simp] theorem State.setBox_fw_postKind : (s.setBox m x).fw.postKind = s.fw.postKind := rfl
@[simp] theorem State.setBox_fw_postUnit : (s.setBox m x).fw.postUnit = s.fw.postUnit := rfl
@[simp] theorem State.setBox_fw_postDetail : (s.setBox m x).fw.postDetail = s.fw.postDetail := rfl
@[simp] theorem State.setBox_fw_reasm : (s.setBox m x).fw.reasm = s.fw.reasm := rfl
@[simp] theorem State.setBox_fw_mctpAddr : (s.setBox m x).fw.mctpAddr = s.fw.mctpAddr := rfl
@[simp] theorem State.setBox_sec : (s.setBox m x).sec = s.sec := rfl
@[simp] theorem State.setBox_pwr : (s.setBox m x).pwr = s.pwr := rfl
@[simp] theorem State.setBox_cal : (s.setBox m x).cal = s.cal := rfl
@[simp] theorem State.setBox_reg (b : Nat) : (s.setBox m x).reg b = s.reg b := rfl
@[simp] theorem State.setBox_cell (b : Nat) : (s.setBox m x).cell b = s.cell b := rfl
@[simp] theorem State.setBox_norm (b : Nat) : (s.setBox m x).norm b = s.norm b := rfl
@[simp] theorem State.setBox_tile (b : Nat) : (s.setBox m x).tile b = s.tile b := rfl
@[simp] theorem State.setBox_tier (b : Nat) : (s.setBox m x).tier b = s.tier b := rfl
@[simp] theorem State.setBox_block (b : Nat) : (s.setBox m x).block b = s.block b := rfl
@[simp] theorem State.setBox_slot (b : Nat) : (s.setBox m x).slot b = s.slot b := rfl
@[simp] theorem State.setBox_port (b : Nat) : (s.setBox m x).port b = s.port b := rfl
@[simp] theorem State.setBox_alloc (b : Nat) : (s.setBox m x).alloc b = s.alloc b := rfl
@[simp] theorem State.setBox_tensor (b : Nat) : (s.setBox m x).tensor b = s.tensor b := rfl
@[simp] theorem State.setBox_tok (b : Nat) : (s.setBox m x).tok b = s.tok b := rfl
@[simp] theorem State.setBox_supply (b : Nat) : (s.setBox m x).supply b = s.supply b := rfl
@[simp] theorem State.setBox_scrubber (b : Nat) : (s.setBox m x).scrubber b = s.scrubber b := rfl
@[simp] theorem State.setBox_calR (b : Nat) : (s.setBox m x).calR b = s.calR b := rfl
@[simp] theorem State.setBox_rdByte (sp : Space) (b : Nat) : (s.setBox m x).rdByte sp b = s.rdByte sp b := by cases sp <;> rfl
@[simp] theorem State.setBox_get (b : Nat) : (s.setBox m x).box b = if b = m then x else s.box b := by
  simp [State.setBox, State.box]
end

/-! ### setTok -/
section
variable (s : State) (g : Nat) (x : Tokens)
@[simp] theorem State.setTok_pending : (s.setTok g x).pending = s.pending := rfl
@[simp] theorem State.setTok_draws : (s.setTok g x).draws = s.draws := rfl
@[simp] theorem State.setTok_dev : (s.setTok g x).dev = s.dev := rfl
@[simp] theorem State.setTok_resetN : (s.setTok g x).resetN = s.resetN := rfl
@[simp] theorem State.setTok_monitor : (s.setTok g x).monitor = s.monitor := rfl
@[simp] theorem State.setTok_mpUp : (s.setTok g x).mpUp = s.mpUp := rfl
@[simp] theorem State.setTok_hostUp : (s.setTok g x).hostUp = s.hostUp := rfl
@[simp] theorem State.setTok_time : (s.setTok g x).time = s.time := rfl
@[simp] theorem State.setTok_store : (s.setTok g x).store = s.store := rfl
@[simp] theorem State.setTok_capHi : (s.setTok g x).capHi = s.capHi := rfl
@[simp] theorem State.setTok_lowHalf : (s.setTok g x).lowHalf = s.lowHalf := rfl
@[simp] theorem State.setTok_hostLock : (s.setTok g x).hostLock = s.hostLock := rfl
@[simp] theorem State.setTok_mpLock : (s.setTok g x).mpLock = s.mpLock := rfl
@[simp] theorem State.setTok_mpBcast : (s.setTok g x).mpBcast = s.mpBcast := rfl
@[simp] theorem State.setTok_tiles : (s.setTok g x).tiles = s.tiles := rfl
@[simp] theorem State.setTok_tiers : (s.setTok g x).tiers = s.tiers := rfl
@[simp] theorem State.setTok_blocks : (s.setTok g x).blocks = s.blocks := rfl
@[simp] theorem State.setTok_hbmPoison : (s.setTok g x).hbmPoison = s.hbmPoison := rfl
@[simp] theorem State.setTok_bsPoison : (s.setTok g x).bsPoison = s.bsPoison := rfl
@[simp] theorem State.setTok_allocs : (s.setTok g x).allocs = s.allocs := rfl
@[simp] theorem State.setTok_arb : (s.setTok g x).arb = s.arb := rfl
@[simp] theorem State.setTok_scrub : (s.setTok g x).scrub = s.scrub := rfl
@[simp] theorem State.setTok_schedPtr : (s.setTok g x).schedPtr = s.schedPtr := rfl
@[simp] theorem State.setTok_sigs : (s.setTok g x).sigs = s.sigs := rfl
@[simp] theorem State.setTok_aggs : (s.setTok g x).aggs = s.aggs := rfl
@[simp] theorem State.setTok_slots : (s.setTok g x).slots = s.slots := rfl
@[simp] theorem State.setTok_fab : (s.setTok g x).fab = s.fab := rfl
@[simp] theorem State.setTok_jrn : (s.setTok g x).jrn = s.jrn := rfl
@[simp] theorem State.setTok_part : (s.setTok g x).part = s.part := rfl
@[simp] theorem State.setTok_fw : (s.setTok g x).fw = s.fw := rfl
@[simp] theorem State.setTok_sec : (s.setTok g x).sec = s.sec := rfl
@[simp] theorem State.setTok_pwr : (s.setTok g x).pwr = s.pwr := rfl
@[simp] theorem State.setTok_cal : (s.setTok g x).cal = s.cal := rfl
@[simp] theorem State.setTok_reg (b : Nat) : (s.setTok g x).reg b = s.reg b := rfl
@[simp] theorem State.setTok_cell (b : Nat) : (s.setTok g x).cell b = s.cell b := rfl
@[simp] theorem State.setTok_norm (b : Nat) : (s.setTok g x).norm b = s.norm b := rfl
@[simp] theorem State.setTok_tile (b : Nat) : (s.setTok g x).tile b = s.tile b := rfl
@[simp] theorem State.setTok_tier (b : Nat) : (s.setTok g x).tier b = s.tier b := rfl
@[simp] theorem State.setTok_block (b : Nat) : (s.setTok g x).block b = s.block b := rfl
@[simp] theorem State.setTok_slot (b : Nat) : (s.setTok g x).slot b = s.slot b := rfl
@[simp] theorem State.setTok_port (b : Nat) : (s.setTok g x).port b = s.port b := rfl
@[simp] theorem State.setTok_alloc (b : Nat) : (s.setTok g x).alloc b = s.alloc b := rfl
@[simp] theorem State.setTok_tensor (b : Nat) : (s.setTok g x).tensor b = s.tensor b := rfl
@[simp] theorem State.setTok_box (b : Nat) : (s.setTok g x).box b = s.box b := rfl
@[simp] theorem State.setTok_supply (b : Nat) : (s.setTok g x).supply b = s.supply b := rfl
@[simp] theorem State.setTok_scrubber (b : Nat) : (s.setTok g x).scrubber b = s.scrubber b := rfl
@[simp] theorem State.setTok_calR (b : Nat) : (s.setTok g x).calR b = s.calR b := rfl
@[simp] theorem State.setTok_rdByte (sp : Space) (b : Nat) : (s.setTok g x).rdByte sp b = s.rdByte sp b := by cases sp <;> rfl
@[simp] theorem State.setTok_get (b : Nat) : (s.setTok g x).tok b = if b = g then x else s.tok b := by
  simp [State.setTok, State.tok]
end

/-! ### setSupply -/
section
variable (s : State) (g : Nat) (x : Supply)
@[simp] theorem State.setSupply_pending : (s.setSupply g x).pending = s.pending := rfl
@[simp] theorem State.setSupply_draws : (s.setSupply g x).draws = s.draws := rfl
@[simp] theorem State.setSupply_dev : (s.setSupply g x).dev = s.dev := rfl
@[simp] theorem State.setSupply_resetN : (s.setSupply g x).resetN = s.resetN := rfl
@[simp] theorem State.setSupply_monitor : (s.setSupply g x).monitor = s.monitor := rfl
@[simp] theorem State.setSupply_mpUp : (s.setSupply g x).mpUp = s.mpUp := rfl
@[simp] theorem State.setSupply_hostUp : (s.setSupply g x).hostUp = s.hostUp := rfl
@[simp] theorem State.setSupply_time : (s.setSupply g x).time = s.time := rfl
@[simp] theorem State.setSupply_store : (s.setSupply g x).store = s.store := rfl
@[simp] theorem State.setSupply_capHi : (s.setSupply g x).capHi = s.capHi := rfl
@[simp] theorem State.setSupply_lowHalf : (s.setSupply g x).lowHalf = s.lowHalf := rfl
@[simp] theorem State.setSupply_hostLock : (s.setSupply g x).hostLock = s.hostLock := rfl
@[simp] theorem State.setSupply_mpLock : (s.setSupply g x).mpLock = s.mpLock := rfl
@[simp] theorem State.setSupply_mpBcast : (s.setSupply g x).mpBcast = s.mpBcast := rfl
@[simp] theorem State.setSupply_tiles : (s.setSupply g x).tiles = s.tiles := rfl
@[simp] theorem State.setSupply_tiers : (s.setSupply g x).tiers = s.tiers := rfl
@[simp] theorem State.setSupply_blocks : (s.setSupply g x).blocks = s.blocks := rfl
@[simp] theorem State.setSupply_hbmPoison : (s.setSupply g x).hbmPoison = s.hbmPoison := rfl
@[simp] theorem State.setSupply_bsPoison : (s.setSupply g x).bsPoison = s.bsPoison := rfl
@[simp] theorem State.setSupply_allocs : (s.setSupply g x).allocs = s.allocs := rfl
@[simp] theorem State.setSupply_arb : (s.setSupply g x).arb = s.arb := rfl
@[simp] theorem State.setSupply_scrub : (s.setSupply g x).scrub = s.scrub := rfl
@[simp] theorem State.setSupply_toks : (s.setSupply g x).toks = s.toks := rfl
@[simp] theorem State.setSupply_schedPtr : (s.setSupply g x).schedPtr = s.schedPtr := rfl
@[simp] theorem State.setSupply_sigs : (s.setSupply g x).sigs = s.sigs := rfl
@[simp] theorem State.setSupply_aggs : (s.setSupply g x).aggs = s.aggs := rfl
@[simp] theorem State.setSupply_slots : (s.setSupply g x).slots = s.slots := rfl
@[simp] theorem State.setSupply_fab : (s.setSupply g x).fab = s.fab := rfl
@[simp] theorem State.setSupply_jrn : (s.setSupply g x).jrn = s.jrn := rfl
@[simp] theorem State.setSupply_part : (s.setSupply g x).part = s.part := rfl
@[simp] theorem State.setSupply_fw : (s.setSupply g x).fw = s.fw := rfl
@[simp] theorem State.setSupply_sec : (s.setSupply g x).sec = s.sec := rfl
@[simp] theorem State.setSupply_pwr_droop : (s.setSupply g x).pwr.droop = s.pwr.droop := rfl
@[simp] theorem State.setSupply_pwr_belowUs : (s.setSupply g x).pwr.belowUs = s.pwr.belowUs := rfl
@[simp] theorem State.setSupply_pwr_vinTold : (s.setSupply g x).pwr.vinTold = s.pwr.vinTold := rfl
@[simp] theorem State.setSupply_pwr_flowTold : (s.setSupply g x).pwr.flowTold = s.pwr.flowTold := rfl
@[simp] theorem State.setSupply_pwr_inletTold : (s.setSupply g x).pwr.inletTold = s.pwr.inletTold := rfl
@[simp] theorem State.setSupply_pwr_cause : (s.setSupply g x).pwr.cause = s.pwr.cause := rfl
@[simp] theorem State.setSupply_pwr_shut : (s.setSupply g x).pwr.shut = s.pwr.shut := rfl
@[simp] theorem State.setSupply_pwr_vin : (s.setSupply g x).pwr.vin = s.pwr.vin := rfl
@[simp] theorem State.setSupply_pwr_pwrgood : (s.setSupply g x).pwr.pwrgood = s.pwr.pwrgood := rfl
@[simp] theorem State.setSupply_cal : (s.setSupply g x).cal = s.cal := rfl
@[simp] theorem State.setSupply_reg (b : Nat) : (s.setSupply g x).reg b = s.reg b := rfl
@[simp] theorem State.setSupply_cell (b : Nat) : (s.setSupply g x).cell b = s.cell b := rfl
@[simp] theorem State.setSupply_norm (b : Nat) : (s.setSupply g x).norm b = s.norm b := rfl
@[simp] theorem State.setSupply_tile (b : Nat) : (s.setSupply g x).tile b = s.tile b := rfl
@[simp] theorem State.setSupply_tier (b : Nat) : (s.setSupply g x).tier b = s.tier b := rfl
@[simp] theorem State.setSupply_block (b : Nat) : (s.setSupply g x).block b = s.block b := rfl
@[simp] theorem State.setSupply_slot (b : Nat) : (s.setSupply g x).slot b = s.slot b := rfl
@[simp] theorem State.setSupply_port (b : Nat) : (s.setSupply g x).port b = s.port b := rfl
@[simp] theorem State.setSupply_alloc (b : Nat) : (s.setSupply g x).alloc b = s.alloc b := rfl
@[simp] theorem State.setSupply_tensor (b : Nat) : (s.setSupply g x).tensor b = s.tensor b := rfl
@[simp] theorem State.setSupply_box (b : Nat) : (s.setSupply g x).box b = s.box b := rfl
@[simp] theorem State.setSupply_tok (b : Nat) : (s.setSupply g x).tok b = s.tok b := rfl
@[simp] theorem State.setSupply_scrubber (b : Nat) : (s.setSupply g x).scrubber b = s.scrubber b := rfl
@[simp] theorem State.setSupply_calR (b : Nat) : (s.setSupply g x).calR b = s.calR b := rfl
@[simp] theorem State.setSupply_rdByte (sp : Space) (b : Nat) : (s.setSupply g x).rdByte sp b = s.rdByte sp b := by cases sp <;> rfl
@[simp] theorem State.setSupply_get (b : Nat) : (s.setSupply g x).supply b = if b = g then x else s.supply b := by
  simp [State.setSupply, State.supply]
end

/-! ### setCal -/
section
variable (s : State) (g : Nat) (x : CalRegion)
@[simp] theorem State.setCal_pending : (s.setCal g x).pending = s.pending := rfl
@[simp] theorem State.setCal_draws : (s.setCal g x).draws = s.draws := rfl
@[simp] theorem State.setCal_dev : (s.setCal g x).dev = s.dev := rfl
@[simp] theorem State.setCal_resetN : (s.setCal g x).resetN = s.resetN := rfl
@[simp] theorem State.setCal_monitor : (s.setCal g x).monitor = s.monitor := rfl
@[simp] theorem State.setCal_mpUp : (s.setCal g x).mpUp = s.mpUp := rfl
@[simp] theorem State.setCal_hostUp : (s.setCal g x).hostUp = s.hostUp := rfl
@[simp] theorem State.setCal_time : (s.setCal g x).time = s.time := rfl
@[simp] theorem State.setCal_store : (s.setCal g x).store = s.store := rfl
@[simp] theorem State.setCal_capHi : (s.setCal g x).capHi = s.capHi := rfl
@[simp] theorem State.setCal_lowHalf : (s.setCal g x).lowHalf = s.lowHalf := rfl
@[simp] theorem State.setCal_hostLock : (s.setCal g x).hostLock = s.hostLock := rfl
@[simp] theorem State.setCal_mpLock : (s.setCal g x).mpLock = s.mpLock := rfl
@[simp] theorem State.setCal_mpBcast : (s.setCal g x).mpBcast = s.mpBcast := rfl
@[simp] theorem State.setCal_tiles : (s.setCal g x).tiles = s.tiles := rfl
@[simp] theorem State.setCal_tiers : (s.setCal g x).tiers = s.tiers := rfl
@[simp] theorem State.setCal_blocks : (s.setCal g x).blocks = s.blocks := rfl
@[simp] theorem State.setCal_hbmPoison : (s.setCal g x).hbmPoison = s.hbmPoison := rfl
@[simp] theorem State.setCal_bsPoison : (s.setCal g x).bsPoison = s.bsPoison := rfl
@[simp] theorem State.setCal_allocs : (s.setCal g x).allocs = s.allocs := rfl
@[simp] theorem State.setCal_arb : (s.setCal g x).arb = s.arb := rfl
@[simp] theorem State.setCal_scrub : (s.setCal g x).scrub = s.scrub := rfl
@[simp] theorem State.setCal_toks : (s.setCal g x).toks = s.toks := rfl
@[simp] theorem State.setCal_schedPtr : (s.setCal g x).schedPtr = s.schedPtr := rfl
@[simp] theorem State.setCal_sigs : (s.setCal g x).sigs = s.sigs := rfl
@[simp] theorem State.setCal_aggs : (s.setCal g x).aggs = s.aggs := rfl
@[simp] theorem State.setCal_slots : (s.setCal g x).slots = s.slots := rfl
@[simp] theorem State.setCal_fab : (s.setCal g x).fab = s.fab := rfl
@[simp] theorem State.setCal_jrn : (s.setCal g x).jrn = s.jrn := rfl
@[simp] theorem State.setCal_part : (s.setCal g x).part = s.part := rfl
@[simp] theorem State.setCal_fw : (s.setCal g x).fw = s.fw := rfl
@[simp] theorem State.setCal_sec : (s.setCal g x).sec = s.sec := rfl
@[simp] theorem State.setCal_pwr : (s.setCal g x).pwr = s.pwr := rfl
@[simp] theorem State.setCal_reg (b : Nat) : (s.setCal g x).reg b = s.reg b := rfl
@[simp] theorem State.setCal_cell (b : Nat) : (s.setCal g x).cell b = s.cell b := rfl
@[simp] theorem State.setCal_norm (b : Nat) : (s.setCal g x).norm b = s.norm b := rfl
@[simp] theorem State.setCal_tile (b : Nat) : (s.setCal g x).tile b = s.tile b := rfl
@[simp] theorem State.setCal_tier (b : Nat) : (s.setCal g x).tier b = s.tier b := rfl
@[simp] theorem State.setCal_block (b : Nat) : (s.setCal g x).block b = s.block b := rfl
@[simp] theorem State.setCal_slot (b : Nat) : (s.setCal g x).slot b = s.slot b := rfl
@[simp] theorem State.setCal_port (b : Nat) : (s.setCal g x).port b = s.port b := rfl
@[simp] theorem State.setCal_alloc (b : Nat) : (s.setCal g x).alloc b = s.alloc b := rfl
@[simp] theorem State.setCal_tensor (b : Nat) : (s.setCal g x).tensor b = s.tensor b := rfl
@[simp] theorem State.setCal_box (b : Nat) : (s.setCal g x).box b = s.box b := rfl
@[simp] theorem State.setCal_tok (b : Nat) : (s.setCal g x).tok b = s.tok b := rfl
@[simp] theorem State.setCal_supply (b : Nat) : (s.setCal g x).supply b = s.supply b := rfl
@[simp] theorem State.setCal_scrubber (b : Nat) : (s.setCal g x).scrubber b = s.scrubber b := rfl
@[simp] theorem State.setCal_rdByte (sp : Space) (b : Nat) : (s.setCal g x).rdByte sp b = s.rdByte sp b := by cases sp <;> rfl
@[simp] theorem State.setCal_get (b : Nat) : (s.setCal g x).calR b = if b = g then x else s.calR b := by
  simp [State.setCal, State.calR]
end

/-! ### setScrubber -/
section
variable (s : State) (g : Nat) (x : Scrub)
@[simp] theorem State.setScrubber_pending : (s.setScrubber g x).pending = s.pending := rfl
@[simp] theorem State.setScrubber_draws : (s.setScrubber g x).draws = s.draws := rfl
@[simp] theorem State.setScrubber_dev : (s.setScrubber g x).dev = s.dev := rfl
@[simp] theorem State.setScrubber_resetN : (s.setScrubber g x).resetN = s.resetN := rfl
@[simp] theorem State.setScrubber_monitor : (s.setScrubber g x).monitor = s.monitor := rfl
@[simp] theorem State.setScrubber_mpUp : (s.setScrubber g x).mpUp = s.mpUp := rfl
@[simp] theorem State.setScrubber_hostUp : (s.setScrubber g x).hostUp = s.hostUp := rfl
@[simp] theorem State.setScrubber_time : (s.setScrubber g x).time = s.time := rfl
@[simp] theorem State.setScrubber_store : (s.setScrubber g x).store = s.store := rfl
@[simp] theorem State.setScrubber_capHi : (s.setScrubber g x).capHi = s.capHi := rfl
@[simp] theorem State.setScrubber_lowHalf : (s.setScrubber g x).lowHalf = s.lowHalf := rfl
@[simp] theorem State.setScrubber_hostLock : (s.setScrubber g x).hostLock = s.hostLock := rfl
@[simp] theorem State.setScrubber_mpLock : (s.setScrubber g x).mpLock = s.mpLock := rfl
@[simp] theorem State.setScrubber_mpBcast : (s.setScrubber g x).mpBcast = s.mpBcast := rfl
@[simp] theorem State.setScrubber_tiles : (s.setScrubber g x).tiles = s.tiles := rfl
@[simp] theorem State.setScrubber_tiers : (s.setScrubber g x).tiers = s.tiers := rfl
@[simp] theorem State.setScrubber_blocks : (s.setScrubber g x).blocks = s.blocks := rfl
@[simp] theorem State.setScrubber_hbmPoison : (s.setScrubber g x).hbmPoison = s.hbmPoison := rfl
@[simp] theorem State.setScrubber_bsPoison : (s.setScrubber g x).bsPoison = s.bsPoison := rfl
@[simp] theorem State.setScrubber_allocs : (s.setScrubber g x).allocs = s.allocs := rfl
@[simp] theorem State.setScrubber_arb : (s.setScrubber g x).arb = s.arb := rfl
@[simp] theorem State.setScrubber_toks : (s.setScrubber g x).toks = s.toks := rfl
@[simp] theorem State.setScrubber_schedPtr : (s.setScrubber g x).schedPtr = s.schedPtr := rfl
@[simp] theorem State.setScrubber_sigs : (s.setScrubber g x).sigs = s.sigs := rfl
@[simp] theorem State.setScrubber_aggs : (s.setScrubber g x).aggs = s.aggs := rfl
@[simp] theorem State.setScrubber_slots : (s.setScrubber g x).slots = s.slots := rfl
@[simp] theorem State.setScrubber_fab : (s.setScrubber g x).fab = s.fab := rfl
@[simp] theorem State.setScrubber_jrn : (s.setScrubber g x).jrn = s.jrn := rfl
@[simp] theorem State.setScrubber_part : (s.setScrubber g x).part = s.part := rfl
@[simp] theorem State.setScrubber_fw : (s.setScrubber g x).fw = s.fw := rfl
@[simp] theorem State.setScrubber_sec : (s.setScrubber g x).sec = s.sec := rfl
@[simp] theorem State.setScrubber_pwr : (s.setScrubber g x).pwr = s.pwr := rfl
@[simp] theorem State.setScrubber_cal : (s.setScrubber g x).cal = s.cal := rfl
@[simp] theorem State.setScrubber_reg (b : Nat) : (s.setScrubber g x).reg b = s.reg b := rfl
@[simp] theorem State.setScrubber_cell (b : Nat) : (s.setScrubber g x).cell b = s.cell b := rfl
@[simp] theorem State.setScrubber_norm (b : Nat) : (s.setScrubber g x).norm b = s.norm b := rfl
@[simp] theorem State.setScrubber_tile (b : Nat) : (s.setScrubber g x).tile b = s.tile b := rfl
@[simp] theorem State.setScrubber_tier (b : Nat) : (s.setScrubber g x).tier b = s.tier b := rfl
@[simp] theorem State.setScrubber_block (b : Nat) : (s.setScrubber g x).block b = s.block b := rfl
@[simp] theorem State.setScrubber_slot (b : Nat) : (s.setScrubber g x).slot b = s.slot b := rfl
@[simp] theorem State.setScrubber_port (b : Nat) : (s.setScrubber g x).port b = s.port b := rfl
@[simp] theorem State.setScrubber_alloc (b : Nat) : (s.setScrubber g x).alloc b = s.alloc b := rfl
@[simp] theorem State.setScrubber_tensor (b : Nat) : (s.setScrubber g x).tensor b = s.tensor b := rfl
@[simp] theorem State.setScrubber_box (b : Nat) : (s.setScrubber g x).box b = s.box b := rfl
@[simp] theorem State.setScrubber_tok (b : Nat) : (s.setScrubber g x).tok b = s.tok b := rfl
@[simp] theorem State.setScrubber_supply (b : Nat) : (s.setScrubber g x).supply b = s.supply b := rfl
@[simp] theorem State.setScrubber_calR (b : Nat) : (s.setScrubber g x).calR b = s.calR b := rfl
@[simp] theorem State.setScrubber_rdByte (sp : Space) (b : Nat) : (s.setScrubber g x).rdByte sp b = s.rdByte sp b := by cases sp <;> rfl
@[simp] theorem State.setScrubber_get (b : Nat) : (s.setScrubber g x).scrubber b = if b = g then x else s.scrubber b := by
  simp [State.setScrubber, State.scrubber]
end

/-! ### setJrn -/
section
variable (s : State) (j : Journal)
@[simp] theorem State.setJrn_pending : (s.setJrn j).pending = s.pending := rfl
@[simp] theorem State.setJrn_draws : (s.setJrn j).draws = s.draws := rfl
@[simp] theorem State.setJrn_dev : (s.setJrn j).dev = s.dev := rfl
@[simp] theorem State.setJrn_resetN : (s.setJrn j).resetN = s.resetN := rfl
@[simp] theorem State.setJrn_monitor : (s.setJrn j).monitor = s.monitor := rfl
@[simp] theorem State.setJrn_mpUp : (s.setJrn j).mpUp = s.mpUp := rfl
@[simp] theorem State.setJrn_hostUp : (s.setJrn j).hostUp = s.hostUp := rfl
@[simp] theorem State.setJrn_time : (s.setJrn j).time = s.time := rfl
@[simp] theorem State.setJrn_store : (s.setJrn j).store = s.store := rfl
@[simp] theorem State.setJrn_capHi : (s.setJrn j).capHi = s.capHi := rfl
@[simp] theorem State.setJrn_lowHalf : (s.setJrn j).lowHalf = s.lowHalf := rfl
@[simp] theorem State.setJrn_hostLock : (s.setJrn j).hostLock = s.hostLock := rfl
@[simp] theorem State.setJrn_mpLock : (s.setJrn j).mpLock = s.mpLock := rfl
@[simp] theorem State.setJrn_mpBcast : (s.setJrn j).mpBcast = s.mpBcast := rfl
@[simp] theorem State.setJrn_tiles : (s.setJrn j).tiles = s.tiles := rfl
@[simp] theorem State.setJrn_tiers : (s.setJrn j).tiers = s.tiers := rfl
@[simp] theorem State.setJrn_blocks : (s.setJrn j).blocks = s.blocks := rfl
@[simp] theorem State.setJrn_hbmPoison : (s.setJrn j).hbmPoison = s.hbmPoison := rfl
@[simp] theorem State.setJrn_bsPoison : (s.setJrn j).bsPoison = s.bsPoison := rfl
@[simp] theorem State.setJrn_allocs : (s.setJrn j).allocs = s.allocs := rfl
@[simp] theorem State.setJrn_arb : (s.setJrn j).arb = s.arb := rfl
@[simp] theorem State.setJrn_scrub : (s.setJrn j).scrub = s.scrub := rfl
@[simp] theorem State.setJrn_toks : (s.setJrn j).toks = s.toks := rfl
@[simp] theorem State.setJrn_schedPtr : (s.setJrn j).schedPtr = s.schedPtr := rfl
@[simp] theorem State.setJrn_sigs : (s.setJrn j).sigs = s.sigs := rfl
@[simp] theorem State.setJrn_aggs : (s.setJrn j).aggs = s.aggs := rfl
@[simp] theorem State.setJrn_slots : (s.setJrn j).slots = s.slots := rfl
@[simp] theorem State.setJrn_fab : (s.setJrn j).fab = s.fab := rfl
@[simp] theorem State.setJrn_part : (s.setJrn j).part = s.part := rfl
@[simp] theorem State.setJrn_fw : (s.setJrn j).fw = s.fw := rfl
@[simp] theorem State.setJrn_sec : (s.setJrn j).sec = s.sec := rfl
@[simp] theorem State.setJrn_pwr : (s.setJrn j).pwr = s.pwr := rfl
@[simp] theorem State.setJrn_cal : (s.setJrn j).cal = s.cal := rfl
@[simp] theorem State.setJrn_reg (b : Nat) : (s.setJrn j).reg b = s.reg b := rfl
@[simp] theorem State.setJrn_cell (b : Nat) : (s.setJrn j).cell b = s.cell b := rfl
@[simp] theorem State.setJrn_norm (b : Nat) : (s.setJrn j).norm b = s.norm b := rfl
@[simp] theorem State.setJrn_tile (b : Nat) : (s.setJrn j).tile b = s.tile b := rfl
@[simp] theorem State.setJrn_tier (b : Nat) : (s.setJrn j).tier b = s.tier b := rfl
@[simp] theorem State.setJrn_block (b : Nat) : (s.setJrn j).block b = s.block b := rfl
@[simp] theorem State.setJrn_slot (b : Nat) : (s.setJrn j).slot b = s.slot b := rfl
@[simp] theorem State.setJrn_port (b : Nat) : (s.setJrn j).port b = s.port b := rfl
@[simp] theorem State.setJrn_alloc (b : Nat) : (s.setJrn j).alloc b = s.alloc b := rfl
@[simp] theorem State.setJrn_tensor (b : Nat) : (s.setJrn j).tensor b = s.tensor b := rfl
@[simp] theorem State.setJrn_box (b : Nat) : (s.setJrn j).box b = s.box b := rfl
@[simp] theorem State.setJrn_tok (b : Nat) : (s.setJrn j).tok b = s.tok b := rfl
@[simp] theorem State.setJrn_supply (b : Nat) : (s.setJrn j).supply b = s.supply b := rfl
@[simp] theorem State.setJrn_scrubber (b : Nat) : (s.setJrn j).scrubber b = s.scrubber b := rfl
@[simp] theorem State.setJrn_calR (b : Nat) : (s.setJrn j).calR b = s.calR b := rfl
@[simp] theorem State.setJrn_rdByte (sp : Space) (b : Nat) : (s.setJrn j).rdByte sp b = s.rdByte sp b := by cases sp <;> rfl
@[simp] theorem State.setJrn_jrn : (s.setJrn j).jrn = j := rfl
end

/-! ### setSec -/
section
variable (s : State) (e : Enclave)
@[simp] theorem State.setSec_pending : (s.setSec e).pending = s.pending := rfl
@[simp] theorem State.setSec_draws : (s.setSec e).draws = s.draws := rfl
@[simp] theorem State.setSec_dev : (s.setSec e).dev = s.dev := rfl
@[simp] theorem State.setSec_resetN : (s.setSec e).resetN = s.resetN := rfl
@[simp] theorem State.setSec_monitor : (s.setSec e).monitor = s.monitor := rfl
@[simp] theorem State.setSec_mpUp : (s.setSec e).mpUp = s.mpUp := rfl
@[simp] theorem State.setSec_hostUp : (s.setSec e).hostUp = s.hostUp := rfl
@[simp] theorem State.setSec_time : (s.setSec e).time = s.time := rfl
@[simp] theorem State.setSec_store : (s.setSec e).store = s.store := rfl
@[simp] theorem State.setSec_capHi : (s.setSec e).capHi = s.capHi := rfl
@[simp] theorem State.setSec_lowHalf : (s.setSec e).lowHalf = s.lowHalf := rfl
@[simp] theorem State.setSec_hostLock : (s.setSec e).hostLock = s.hostLock := rfl
@[simp] theorem State.setSec_mpLock : (s.setSec e).mpLock = s.mpLock := rfl
@[simp] theorem State.setSec_mpBcast : (s.setSec e).mpBcast = s.mpBcast := rfl
@[simp] theorem State.setSec_tiles : (s.setSec e).tiles = s.tiles := rfl
@[simp] theorem State.setSec_tiers : (s.setSec e).tiers = s.tiers := rfl
@[simp] theorem State.setSec_blocks : (s.setSec e).blocks = s.blocks := rfl
@[simp] theorem State.setSec_hbmPoison : (s.setSec e).hbmPoison = s.hbmPoison := rfl
@[simp] theorem State.setSec_bsPoison : (s.setSec e).bsPoison = s.bsPoison := rfl
@[simp] theorem State.setSec_allocs : (s.setSec e).allocs = s.allocs := rfl
@[simp] theorem State.setSec_arb : (s.setSec e).arb = s.arb := rfl
@[simp] theorem State.setSec_scrub : (s.setSec e).scrub = s.scrub := rfl
@[simp] theorem State.setSec_toks : (s.setSec e).toks = s.toks := rfl
@[simp] theorem State.setSec_schedPtr : (s.setSec e).schedPtr = s.schedPtr := rfl
@[simp] theorem State.setSec_sigs : (s.setSec e).sigs = s.sigs := rfl
@[simp] theorem State.setSec_aggs : (s.setSec e).aggs = s.aggs := rfl
@[simp] theorem State.setSec_slots : (s.setSec e).slots = s.slots := rfl
@[simp] theorem State.setSec_fab : (s.setSec e).fab = s.fab := rfl
@[simp] theorem State.setSec_jrn : (s.setSec e).jrn = s.jrn := rfl
@[simp] theorem State.setSec_part : (s.setSec e).part = s.part := rfl
@[simp] theorem State.setSec_fw : (s.setSec e).fw = s.fw := rfl
@[simp] theorem State.setSec_pwr : (s.setSec e).pwr = s.pwr := rfl
@[simp] theorem State.setSec_cal : (s.setSec e).cal = s.cal := rfl
@[simp] theorem State.setSec_reg (b : Nat) : (s.setSec e).reg b = s.reg b := rfl
@[simp] theorem State.setSec_cell (b : Nat) : (s.setSec e).cell b = s.cell b := rfl
@[simp] theorem State.setSec_norm (b : Nat) : (s.setSec e).norm b = s.norm b := rfl
@[simp] theorem State.setSec_tile (b : Nat) : (s.setSec e).tile b = s.tile b := rfl
@[simp] theorem State.setSec_tier (b : Nat) : (s.setSec e).tier b = s.tier b := rfl
@[simp] theorem State.setSec_block (b : Nat) : (s.setSec e).block b = s.block b := rfl
@[simp] theorem State.setSec_slot (b : Nat) : (s.setSec e).slot b = s.slot b := rfl
@[simp] theorem State.setSec_port (b : Nat) : (s.setSec e).port b = s.port b := rfl
@[simp] theorem State.setSec_alloc (b : Nat) : (s.setSec e).alloc b = s.alloc b := rfl
@[simp] theorem State.setSec_tensor (b : Nat) : (s.setSec e).tensor b = s.tensor b := rfl
@[simp] theorem State.setSec_box (b : Nat) : (s.setSec e).box b = s.box b := rfl
@[simp] theorem State.setSec_tok (b : Nat) : (s.setSec e).tok b = s.tok b := rfl
@[simp] theorem State.setSec_supply (b : Nat) : (s.setSec e).supply b = s.supply b := rfl
@[simp] theorem State.setSec_scrubber (b : Nat) : (s.setSec e).scrubber b = s.scrubber b := rfl
@[simp] theorem State.setSec_calR (b : Nat) : (s.setSec e).calR b = s.calR b := rfl
@[simp] theorem State.setSec_rdByte (sp : Space) (b : Nat) : (s.setSec e).rdByte sp b = s.rdByte sp b := by cases sp <;> rfl
@[simp] theorem State.setSec_sec : (s.setSec e).sec = e := rfl
end

end Sys2Proof.Machine
end

