-- ==== Sys2Proof/Laws/Ops.lean ====
section
/-!
SUPPORT. Sys2Proof/Laws/Ops.lean: what the shared operations of Ops.lean and Journal.lean do: fields of registers,
memories, events, journal records; and what each leaves alone.
-/
namespace Sys2Proof.Machine

/-! ### Fields of numbers -/

/-- A field written is the field read. -/
theorem fld_putFld_same (n hi lo v : Nat) : fld (putFld n hi lo v) hi lo = v % 2 ^ (hi + 1 - lo) := by
  unfold putFld fld
  have hp : 0 < 2 ^ lo := Nat.two_pow_pos lo
  have hq : 0 < 2 ^ (hi + 1 - lo) := Nat.two_pow_pos _
  have e : n = n / 2 ^ lo / 2 ^ (hi + 1 - lo) * 2 ^ (hi + 1 - lo) * 2 ^ lo +
      n / 2 ^ lo % 2 ^ (hi + 1 - lo) * 2 ^ lo + n % 2 ^ lo := by
    have h1 := Nat.div_add_mod n (2 ^ lo)
    have h2 := Nat.div_add_mod (n / 2 ^ lo) (2 ^ (hi + 1 - lo))
    calc n = 2 ^ lo * (n / 2 ^ lo) + n % 2 ^ lo := h1.symm
      _ = 2 ^ lo * (2 ^ (hi + 1 - lo) * (n / 2 ^ lo / 2 ^ (hi + 1 - lo)) + n / 2 ^ lo % 2 ^ (hi + 1 - lo)) +
          n % 2 ^ lo := by rw [h2]
      _ = _ := by ring
  generalize n / 2 ^ lo / 2 ^ (hi + 1 - lo) = q at e
  generalize n / 2 ^ lo % 2 ^ (hi + 1 - lo) = f at e ⊢
  have hr : n % 2 ^ lo < 2 ^ lo := Nat.mod_lt _ hp
  generalize n % 2 ^ lo = r at e hr
  have e2 : n - f * 2 ^ lo + v % 2 ^ (hi + 1 - lo) * 2 ^ lo =
      (q * 2 ^ (hi + 1 - lo) + v % 2 ^ (hi + 1 - lo)) * 2 ^ lo + r := by
    have : n - f * 2 ^ lo = q * 2 ^ (hi + 1 - lo) * 2 ^ lo + r := by omega
    rw [this]; ring
  rw [e2, Nat.add_div_of_dvd_right (Dvd.intro_left _ rfl), Nat.mul_div_cancel _ hp, Nat.div_eq_of_lt hr,
    Nat.add_zero, Nat.mul_add_mod' , Nat.mod_mod]

/-- A number below 2^k stays below it when one of its fields within k bits is replaced. -/
theorem putFld_lt (n hi lo v k : Nat) (hn : n < 2 ^ k) (hk : hi < k) (hl : lo ≤ hi) : putFld n hi lo v < 2 ^ k := by
  unfold putFld fld
  have hp : 0 < 2 ^ lo := Nat.two_pow_pos lo
  obtain ⟨w, hw⟩ : ∃ w, w = 2 ^ (hi + 1 - lo) := ⟨_, rfl⟩
  obtain ⟨c, hc⟩ : ∃ c, c = 2 ^ (k - (hi + 1)) := ⟨_, rfl⟩
  have hk2 : 2 ^ k = c * w * 2 ^ lo := by
    rw [hw, hc, ← Nat.pow_add, ← Nat.pow_add]; congr 1; omega
  rw [← hw]
  have hwp : 0 < w := by rw [hw]; exact Nat.two_pow_pos _
  have h1 := Nat.div_add_mod n (2 ^ lo)
  have h2 := Nat.div_add_mod (n / 2 ^ lo) w
  have hr : n % 2 ^ lo < 2 ^ lo := Nat.mod_lt _ hp
  have hv : v % w < w := Nat.mod_lt _ hwp
  have hq : n / 2 ^ lo / w < c := by
    rw [Nat.div_div_eq_div_mul, Nat.div_lt_iff_lt_mul (by positivity)]
    rw [hk2] at hn; calc n < _ := hn
      _ = _ := by ring
  generalize hqq : n / 2 ^ lo / w = q at h2 hq
  generalize hff : n / 2 ^ lo % w = f at h2
  generalize hrr : n % 2 ^ lo = r at h1 hr
  generalize v % w = x at hv ⊢
  have e : n - f * 2 ^ lo = q * w * 2 ^ lo + r := by
    have : n = q * w * 2 ^ lo + f * 2 ^ lo + r := by
      rw [← h1, ← h2]; ring
    omega
  rw [e, hk2]
  have h5 : (q * w + x + 1) * 2 ^ lo ≤ c * w * 2 ^ lo := by
    apply Nat.mul_le_mul_right
    have : (q + 1) * w ≤ c * w := Nat.mul_le_mul_right _ hq
    have h6 : (q + 1) * w = q * w + w := by ring
    omega
  have h7 : (q * w + x + 1) * 2 ^ lo = q * w * 2 ^ lo + x * 2 ^ lo + 2 ^ lo := by ring
  omega

/-- A field is untouched by a write to one above it. -/
theorem fld_putFld_above (n hi lo v hi' lo' : Nat) (h : hi' < lo) (h' : lo' ≤ hi') :
    fld (putFld n hi lo v) hi' lo' = fld n hi' lo' := by
  unfold putFld fld
  have key : ∀ a b : Nat, a % 2 ^ lo = b % 2 ^ lo → a / 2 ^ lo' % 2 ^ (hi' + 1 - lo') = b / 2 ^ lo' % 2 ^ (hi' + 1 - lo') := by
    intro a b hab
    have hd : 2 ^ lo' * 2 ^ (hi' + 1 - lo') ∣ 2 ^ lo := by
      rw [← Nat.pow_add]; exact Nat.pow_dvd_pow 2 (by omega)
    have hab2 : a % (2 ^ lo' * 2 ^ (hi' + 1 - lo')) = b % (2 ^ lo' * 2 ^ (hi' + 1 - lo')) :=
      Nat.ModEq.of_dvd hd hab
    rw [← Nat.mod_mul_right_div_self, ← Nat.mod_mul_right_div_self, hab2]
  apply key
  have h1 : n / 2 ^ lo % 2 ^ (hi + 1 - lo) * 2 ^ lo ≤ n := by
    calc n / 2 ^ lo % 2 ^ (hi + 1 - lo) * 2 ^ lo ≤ n / 2 ^ lo * 2 ^ lo := Nat.mul_le_mul_right _ (Nat.mod_le _ _)
      _ ≤ n := Nat.div_mul_le_self _ _
  rw [Nat.add_mul_mod_self_right]
  obtain ⟨q, hq⟩ := Nat.exists_eq_add_of_le h1
  generalize n / 2 ^ lo % 2 ^ (hi + 1 - lo) = f at hq h1 ⊢
  rw [hq, Nat.add_sub_cancel_left, Nat.add_comm, Nat.add_mul_mod_self_right]

/-- A field is untouched by a write to one below it. -/
theorem fld_putFld_below (n hi lo v hi' lo' : Nat) (h : hi < lo') (hl : lo ≤ hi) :
    fld (putFld n hi lo v) hi' lo' = fld n hi' lo' := by
  unfold putFld fld
  have hp : 0 < 2 ^ lo := Nat.two_pow_pos lo
  have key : ∀ a b : Nat, a / 2 ^ (hi + 1) = b / 2 ^ (hi + 1) → a / 2 ^ lo' = b / 2 ^ lo' := by
    intro a b hab
    have e : 2 ^ lo' = 2 ^ (hi + 1) * 2 ^ (lo' - (hi + 1)) := by rw [← Nat.pow_add]; congr 1; omega
    rw [e, ← Nat.div_div_eq_div_mul, ← Nat.div_div_eq_div_mul, hab]
  congr 1
  apply key
  obtain ⟨w, hw⟩ : ∃ w, w = 2 ^ (hi + 1 - lo) := ⟨_, rfl⟩
  have hwp : 0 < w := by rw [hw]; exact Nat.two_pow_pos _
  have hk2 : 2 ^ (hi + 1) = 2 ^ lo * w := by rw [hw, ← Nat.pow_add]; congr 1; omega
  rw [← hw, hk2, ← Nat.div_div_eq_div_mul, ← Nat.div_div_eq_div_mul]
  have h1 := Nat.div_add_mod n (2 ^ lo)
  have h2 := Nat.div_add_mod (n / 2 ^ lo) w
  have hr : n % 2 ^ lo < 2 ^ lo := Nat.mod_lt _ hp
  have hv : v % w < w := Nat.mod_lt _ hwp
  generalize n / 2 ^ lo / w = q at h2 ⊢
  generalize n / 2 ^ lo % w = f at h2 ⊢
  generalize n % 2 ^ lo = r at h1 hr
  generalize v % w = x at hv ⊢
  have e : n - f * 2 ^ lo + x * 2 ^ lo = 2 ^ lo * (w * q + x) + r := by
    have : n = 2 ^ lo * (w * q) + f * 2 ^ lo + r := by
      rw [← h1, ← h2]; ring
    have h3 : n - f * 2 ^ lo = 2 ^ lo * (w * q) + r := by omega
    rw [h3]; ring
  rw [e, Nat.mul_add_div hp, Nat.div_eq_of_lt hr, Nat.add_zero, Nat.mul_add_div hwp, Nat.div_eq_of_lt hv, Nat.add_zero]

/-! ### Registers -/

theorem State.rn_lt (s : State) (a : Nat) : s.rn a < 2 ^ 32 := (s.reg a).isLt

@[simp] theorem State.setReg_rn (s : State) (a b : Nat) (v : Word) :
    (s.setReg a v).rn b = if b = a then v.toNat else s.rn b := by
  unfold State.rn; simp; split <;> rfl

@[simp] theorem State.setRn_reg (s : State) (a n b : Nat) :
    (s.setRn a n).reg b = if b = a then BitVec.ofNat 32 n else s.reg b := by simp [State.setRn]

@[simp] theorem State.setRn_rn (s : State) (a n b : Nat) :
    (s.setRn a n).rn b = if b = a then n % 2 ^ 32 else s.rn b := by
  unfold State.setRn; simp

theorem State.setRf_reg (s : State) (a hi lo v b : Nat) :
    (s.setRf a hi lo v).reg b = if b = a then BitVec.ofNat 32 (putFld (s.rn a) hi lo v) else s.reg b := by
  simp [State.setRf]

@[simp] theorem State.setRf_reg_ne (s : State) (a hi lo v b : Nat) (h : b ≠ a) : (s.setRf a hi lo v).reg b = s.reg b := by
  simp [State.setRf_reg, h]

@[simp] theorem State.setRf_rn_ne (s : State) (a hi lo v b : Nat) (h : b ≠ a) : (s.setRf a hi lo v).rn b = s.rn b := by
  simp [State.rn, h]

@[simp] theorem State.setRf_rf_ne (s : State) (a hi lo v b hi' lo' : Nat) (h : b ≠ a) :
    (s.setRf a hi lo v).rf b hi' lo' = s.rf b hi' lo' := by
  simp [State.rf, h]

theorem State.setRf_rn_eq (s : State) (a hi lo v : Nat) (hh : hi < 32) (hl : lo ≤ hi) :
    (s.setRf a hi lo v).rn a = putFld (s.rn a) hi lo v := by
  simp only [State.setRf, State.setRn_rn, if_true]
  exact Nat.mod_eq_of_lt (putFld_lt _ _ _ _ _ (s.rn_lt a) hh hl)

/-- The field written reads as its value. -/
theorem State.setRf_rf_same (s : State) (a hi lo v : Nat) (hh : hi < 32) (hl : lo ≤ hi) :
    (s.setRf a hi lo v).rf a hi lo = v % 2 ^ (hi + 1 - lo) := by
  rw [State.rf, State.setRf_rn_eq s a hi lo v hh hl, fld_putFld_same]

/-- The other fields of the register stay. -/
theorem State.setRf_rf_other (s : State) (a hi lo v hi' lo' : Nat) (hh : hi < 32) (hl : lo ≤ hi) (h' : lo' ≤ hi')
    (hd : hi' < lo ∨ hi < lo') : (s.setRf a hi lo v).rf a hi' lo' = s.rf a hi' lo' := by
  rw [State.rf, State.setRf_rn_eq s a hi lo v hh hl]
  rcases hd with h | h
  · exact fld_putFld_above _ _ _ _ _ _ h h'
  · exact fld_putFld_below _ _ _ _ _ _ h hl

@[simp] theorem State.setBit_reg_ne (s : State) (a i b : Nat) (h : b ≠ a) : (s.setBit a i).reg b = s.reg b := by
  simp [State.setBit, h]

@[simp] theorem State.setBit_rbit (s : State) (a i : Nat) (h : i < 32) : (s.setBit a i).rbit a i = true := by
  simp [State.setBit, State.rbit, State.setRf_rf_same _ _ _ _ _ h (Nat.le_refl i)]

@[simp] theorem State.bump_reg_ne (s : State) (a hi lo k b : Nat) (h : b ≠ a) : (s.bump a hi lo k).reg b = s.reg b := by
  simp [State.bump, h]

/-! ### Free values, and state changes in turn -/

@[simp] theorem State.each_nil {α : Type} (s : State) (f : State → α → State) : s.each f [] = s := rfl
@[simp] theorem State.each_cons {α : Type} (s : State) (f : State → α → State) (x : α) (r : List α) :
    s.each f (x :: r) = (f s x).each f r := rfl

/-- What every change keeps, all of them in turn keep. -/
theorem State.each_keeps {α β : Type} (g : State → β) (f : State → α → State) (h : ∀ s x, g (f s x) = g s) (l : List α)
    (s : State) : g (s.each f l) = g s := by
  induction l generalizing s with
  | nil => rfl
  | cons x r ih => rw [State.each_cons, ih, h]

/-- A predicate that every change keeps holds after all of them. -/
theorem State.each_pred {α : Type} (P : State → Prop) (f : State → α → State) (h : ∀ s x, P s → P (f s x)) (l : List α)
    (s : State) (hs : P s) : P (s.each f l) := by
  induction l generalizing s with
  | nil => exact hs
  | cons x r ih => exact ih _ (h _ _ hs)

/-- Everything `whenever` can do. -/
theorem whenever_next (b : Bool) (s t u : State) : whenever b s t = .next u ↔ u = if b then t else s := by
  simp only [whenever, Host.Outcome.next.injEq]; exact eq_comm
@[simp] theorem whenever_true (s t : State) : whenever true s t = .next t := rfl
@[simp] theorem whenever_false (s t : State) : whenever false s t = .next s := rfl

/-! ### wrByte -/
section
variable (s : State) (sp : Space) (a : Nat) (v : Byte)
@[simp] theorem State.wrByte_pending : (s.wrByte sp a v).pending = s.pending := by cases sp <;> rfl
@[simp] theorem State.wrByte_draws : (s.wrByte sp a v).draws = s.draws := by cases sp <;> rfl
@[simp] theorem State.wrByte_dev : (s.wrByte sp a v).dev = s.dev := by cases sp <;> rfl
@[simp] theorem State.wrByte_resetN : (s.wrByte sp a v).resetN = s.resetN := by cases sp <;> rfl
@[simp] theorem State.wrByte_monitor : (s.wrByte sp a v).monitor = s.monitor := by cases sp <;> rfl
@[simp] theorem State.wrByte_mpUp : (s.wrByte sp a v).mpUp = s.mpUp := by cases sp <;> rfl
@[simp] theorem State.wrByte_hostUp : (s.wrByte sp a v).hostUp = s.hostUp := by cases sp <;> rfl
@[simp] theorem State.wrByte_time : (s.wrByte sp a v).time = s.time := by cases sp <;> rfl
@[simp] theorem State.wrByte_store_regs : (s.wrByte sp a v).store.regs = s.store.regs := by cases sp <;> rfl
@[simp] theorem State.wrByte_store_cells : (s.wrByte sp a v).store.cells = s.store.cells := by cases sp <;> rfl
@[simp] theorem State.wrByte_store_norms : (s.wrByte sp a v).store.norms = s.store.norms := by cases sp <;> rfl
@[simp] theorem State.wrByte_capHi : (s.wrByte sp a v).capHi = s.capHi := by cases sp <;> rfl
@[simp] theorem State.wrByte_lowHalf : (s.wrByte sp a v).lowHalf = s.lowHalf := by cases sp <;> rfl
@[simp] theorem State.wrByte_hostLock : (s.wrByte sp a v).hostLock = s.hostLock := by cases sp <;> rfl
@[simp] theorem State.wrByte_mpLock : (s.wrByte sp a v).mpLock = s.mpLock := by cases sp <;> rfl
@[simp] theorem State.wrByte_mpBcast : (s.wrByte sp a v).mpBcast = s.mpBcast := by cases sp <;> rfl
@[simp] theorem State.wrByte_tiles : (s.wrByte sp a v).tiles = s.tiles := by cases sp <;> rfl
@[simp] theorem State.wrByte_tiers : (s.wrByte sp a v).tiers = s.tiers := by cases sp <;> rfl
@[simp] theorem State.wrByte_blocks : (s.wrByte sp a v).blocks = s.blocks := by cases sp <;> rfl
@[simp] theorem State.wrByte_hbmPoison : (s.wrByte sp a v).hbmPoison = s.hbmPoison := by cases sp <;> rfl
@[simp] theorem State.wrByte_bsPoison : (s.wrByte sp a v).bsPoison = s.bsPoison := by cases sp <;> rfl
@[simp] theorem State.wrByte_allocs : (s.wrByte sp a v).allocs = s.allocs := by cases sp <;> rfl
@[simp] theorem State.wrByte_arb : (s.wrByte sp a v).arb = s.arb := by cases sp <;> rfl
@[simp] theorem State.wrByte_scrub : (s.wrByte sp a v).scrub = s.scrub := by cases sp <;> rfl
@[simp] theorem State.wrByte_toks : (s.wrByte sp a v).toks = s.toks := by cases sp <;> rfl
@[simp] theorem State.wrByte_schedPtr : (s.wrByte sp a v).schedPtr = s.schedPtr := by cases sp <;> rfl
@[simp] theorem State.wrByte_sigs : (s.wrByte sp a v).sigs = s.sigs := by cases sp <;> rfl
@[simp] theorem State.wrByte_aggs : (s.wrByte sp a v).aggs = s.aggs := by cases sp <;> rfl
@[simp] theorem State.wrByte_slots : (s.wrByte sp a v).slots = s.slots := by cases sp <;> rfl
@[simp] theorem State.wrByte_fab : (s.wrByte sp a v).fab = s.fab := by cases sp <;> rfl
@[simp] theorem State.wrByte_jrn : (s.wrByte sp a v).jrn = s.jrn := by cases sp <;> rfl
@[simp] theorem State.wrByte_part : (s.wrByte sp a v).part = s.part := by cases sp <;> rfl
@[simp] theorem State.wrByte_fw : (s.wrByte sp a v).fw = s.fw := by cases sp <;> rfl
@[simp] theorem State.wrByte_sec : (s.wrByte sp a v).sec = s.sec := by cases sp <;> rfl
@[simp] theorem State.wrByte_pwr : (s.wrByte sp a v).pwr = s.pwr := by cases sp <;> rfl
@[simp] theorem State.wrByte_cal : (s.wrByte sp a v).cal = s.cal := by cases sp <;> rfl
@[simp] theorem State.wrByte_reg (b : Nat) : (s.wrByte sp a v).reg b = s.reg b := by simp [State.reg]
@[simp] theorem State.wrByte_cell (b : Nat) : (s.wrByte sp a v).cell b = s.cell b := by simp [State.cell]
@[simp] theorem State.wrByte_norm (b : Nat) : (s.wrByte sp a v).norm b = s.norm b := by simp [State.norm]
@[simp] theorem State.wrByte_tile (b : Nat) : (s.wrByte sp a v).tile b = s.tile b := by simp [State.tile]
@[simp] theorem State.wrByte_tier (b : Nat) : (s.wrByte sp a v).tier b = s.tier b := by simp [State.tier]
@[simp] theorem State.wrByte_block (b : Nat) : (s.wrByte sp a v).block b = s.block b := by simp [State.block]
@[simp] theorem State.wrByte_slot (b : Nat) : (s.wrByte sp a v).slot b = s.slot b := by simp [State.slot]
@[simp] theorem State.wrByte_port (b : Nat) : (s.wrByte sp a v).port b = s.port b := by simp [State.port]
@[simp] theorem State.wrByte_alloc (b : Nat) : (s.wrByte sp a v).alloc b = s.alloc b := by simp [State.alloc]
@[simp] theorem State.wrByte_tensor (b : Nat) : (s.wrByte sp a v).tensor b = s.tensor b := by simp [State.tensor]
@[simp] theorem State.wrByte_box (b : Nat) : (s.wrByte sp a v).box b = s.box b := by simp [State.box]
@[simp] theorem State.wrByte_tok (b : Nat) : (s.wrByte sp a v).tok b = s.tok b := by simp [State.tok]
@[simp] theorem State.wrByte_supply (b : Nat) : (s.wrByte sp a v).supply b = s.supply b := by simp [State.supply]
@[simp] theorem State.wrByte_scrubber (b : Nat) : (s.wrByte sp a v).scrubber b = s.scrubber b := by simp [State.scrubber]
@[simp] theorem State.wrByte_calR (b : Nat) : (s.wrByte sp a v).calR b = s.calR b := by simp [State.calR]
end

/-! ### wrBytes -/
section
variable (s : State) (sp : Space) (a : Nat) (l : List Byte)
@[simp] theorem State.wrBytes_pending : (s.wrBytes sp a l).pending = s.pending := by
  induction l generalizing s a with
  | nil => rfl
  | cons v r ih => simp [State.wrBytes, ih]
@[simp] theorem State.wrBytes_draws : (s.wrBytes sp a l).draws = s.draws := by
  induction l generalizing s a with
  | nil => rfl
  | cons v r ih => simp [State.wrBytes, ih]
@[simp] theorem State.wrBytes_dev : (s.wrBytes sp a l).dev = s.dev := by
  induction l generalizing s a with
  | nil => rfl
  | cons v r ih => simp [State.wrBytes, ih]
@[simp] theorem State.wrBytes_resetN : (s.wrBytes sp a l).resetN = s.resetN := by
  induction l generalizing s a with
  | nil => rfl
  | cons v r ih => simp [State.wrBytes, ih]
@[simp] theorem State.wrBytes_monitor : (s.wrBytes sp a l).monitor = s.monitor := by
  induction l generalizing s a with
  | nil => rfl
  | cons v r ih => simp [State.wrBytes, ih]
@[simp] theorem State.wrBytes_mpUp : (s.wrBytes sp a l).mpUp = s.mpUp := by
  induction l generalizing s a with
  | nil => rfl
  | cons v r ih => simp [State.wrBytes, ih]
@[simp] theorem State.wrBytes_hostUp : (s.wrBytes sp a l).hostUp = s.hostUp := by
  induction l generalizing s a with
  | nil => rfl
  | cons v r ih => simp [State.wrBytes, ih]
@[simp] theorem State.wrBytes_time : (s.wrBytes sp a l).time = s.time := by
  induction l generalizing s a with
  | nil => rfl
  | cons v r ih => simp [State.wrBytes, ih]
@[simp] theorem State.wrBytes_store_regs : (s.wrBytes sp a l).store.regs = s.store.regs := by
  induction l generalizing s a with
  | nil => rfl
  | cons v r ih => simp [State.wrBytes, ih]
@[simp] theorem State.wrBytes_store_cells : (s.wrBytes sp a l).store.cells = s.store.cells := by
  induction l generalizing s a with
  | nil => rfl
  | cons v r ih => simp [State.wrBytes, ih]
@[simp] theorem State.wrBytes_store_norms : (s.wrBytes sp a l).store.norms = s.store.norms := by
  induction l generalizing s a with
  | nil => rfl
  | cons v r ih => simp [State.wrBytes, ih]
@[simp] theorem State.wrBytes_capHi : (s.wrBytes sp a l).capHi = s.capHi := by
  induction l generalizing s a with
  | nil => rfl
  | cons v r ih => simp [State.wrBytes, ih]
@[simp] theorem State.wrBytes_lowHalf : (s.wrBytes sp a l).lowHalf = s.lowHalf := by
  induction l generalizing s a with
  | nil => rfl
  | cons v r ih => simp [State.wrBytes, ih]
@[simp] theorem State.wrBytes_hostLock : (s.wrBytes sp a l).hostLock = s.hostLock := by
  induction l generalizing s a with
  | nil => rfl
  | cons v r ih => simp [State.wrBytes, ih]
@[simp] theorem State.wrBytes_mpLock : (s.wrBytes sp a l).mpLock = s.mpLock := by
  induction l generalizing s a with
  | nil => rfl
  | cons v r ih => simp [State.wrBytes, ih]
@[simp] theorem State.wrBytes_mpBcast : (s.wrBytes sp a l).mpBcast = s.mpBcast := by
  induction l generalizing s a with
  | nil => rfl
  | cons v r ih => simp [State.wrBytes, ih]
@[simp] theorem State.wrBytes_tiles : (s.wrBytes sp a l).tiles = s.tiles := by
  induction l generalizing s a with
  | nil => rfl
  | cons v r ih => simp [State.wrBytes, ih]
@[simp] theorem State.wrBytes_tiers : (s.wrBytes sp a l).tiers = s.tiers := by
  induction l generalizing s a with
  | nil => rfl
  | cons v r ih => simp [State.wrBytes, ih]
@[simp] theorem State.wrBytes_blocks : (s.wrBytes sp a l).blocks = s.blocks := by
  induction l generalizing s a with
  | nil => rfl
  | cons v r ih => simp [State.wrBytes, ih]
@[simp] theorem State.wrBytes_hbmPoison : (s.wrBytes sp a l).hbmPoison = s.hbmPoison := by
  induction l generalizing s a with
  | nil => rfl
  | cons v r ih => simp [State.wrBytes, ih]
@[simp] theorem State.wrBytes_bsPoison : (s.wrBytes sp a l).bsPoison = s.bsPoison := by
  induction l generalizing s a with
  | nil => rfl
  | cons v r ih => simp [State.wrBytes, ih]
@[simp] theorem State.wrBytes_allocs : (s.wrBytes sp a l).allocs = s.allocs := by
  induction l generalizing s a with
  | nil => rfl
  | cons v r ih => simp [State.wrBytes, ih]
@[simp] theorem State.wrBytes_arb : (s.wrBytes sp a l).arb = s.arb := by
  induction l generalizing s a with
  | nil => rfl
  | cons v r ih => simp [State.wrBytes, ih]
@[simp] theorem State.wrBytes_scrub : (s.wrBytes sp a l).scrub = s.scrub := by
  induction l generalizing s a with
  | nil => rfl
  | cons v r ih => simp [State.wrBytes, ih]
@[simp] theorem State.wrBytes_toks : (s.wrBytes sp a l).toks = s.toks := by
  induction l generalizing s a with
  | nil => rfl
  | cons v r ih => simp [State.wrBytes, ih]
@[simp] theorem State.wrBytes_schedPtr : (s.wrBytes sp a l).schedPtr = s.schedPtr := by
  induction l generalizing s a with
  | nil => rfl
  | cons v r ih => simp [State.wrBytes, ih]
@[simp] theorem State.wrBytes_sigs : (s.wrBytes sp a l).sigs = s.sigs := by
  induction l generalizing s a with
  | nil => rfl
  | cons v r ih => simp [State.wrBytes, ih]
@[simp] theorem State.wrBytes_aggs : (s.wrBytes sp a l).aggs = s.aggs := by
  induction l generalizing s a with
  | nil => rfl
  | cons v r ih => simp [State.wrBytes, ih]
@[simp] theorem State.wrBytes_slots : (s.wrBytes sp a l).slots = s.slots := by
  induction l generalizing s a with
  | nil => rfl
  | cons v r ih => simp [State.wrBytes, ih]
@[simp] theorem State.wrBytes_fab : (s.wrBytes sp a l).fab = s.fab := by
  induction l generalizing s a with
  | nil => rfl
  | cons v r ih => simp [State.wrBytes, ih]
@[simp] theorem State.wrBytes_jrn : (s.wrBytes sp a l).jrn = s.jrn := by
  induction l generalizing s a with
  | nil => rfl
  | cons v r ih => simp [State.wrBytes, ih]
@[simp] theorem State.wrBytes_part : (s.wrBytes sp a l).part = s.part := by
  induction l generalizing s a with
  | nil => rfl
  | cons v r ih => simp [State.wrBytes, ih]
@[simp] theorem State.wrBytes_fw : (s.wrBytes sp a l).fw = s.fw := by
  induction l generalizing s a with
  | nil => rfl
  | cons v r ih => simp [State.wrBytes, ih]
@[simp] theorem State.wrBytes_sec : (s.wrBytes sp a l).sec = s.sec := by
  induction l generalizing s a with
  | nil => rfl
  | cons v r ih => simp [State.wrBytes, ih]
@[simp] theorem State.wrBytes_pwr : (s.wrBytes sp a l).pwr = s.pwr := by
  induction l generalizing s a with
  | nil => rfl
  | cons v r ih => simp [State.wrBytes, ih]
@[simp] theorem State.wrBytes_cal : (s.wrBytes sp a l).cal = s.cal := by
  induction l generalizing s a with
  | nil => rfl
  | cons v r ih => simp [State.wrBytes, ih]
@[simp] theorem State.wrBytes_reg (b : Nat) : (s.wrBytes sp a l).reg b = s.reg b := by simp [State.reg]
@[simp] theorem State.wrBytes_cell (b : Nat) : (s.wrBytes sp a l).cell b = s.cell b := by simp [State.cell]
@[simp] theorem State.wrBytes_norm (b : Nat) : (s.wrBytes sp a l).norm b = s.norm b := by simp [State.norm]
@[simp] theorem State.wrBytes_tile (b : Nat) : (s.wrBytes sp a l).tile b = s.tile b := by simp [State.tile]
@[simp] theorem State.wrBytes_tier (b : Nat) : (s.wrBytes sp a l).tier b = s.tier b := by simp [State.tier]
@[simp] theorem State.wrBytes_block (b : Nat) : (s.wrBytes sp a l).block b = s.block b := by simp [State.block]
@[simp] theorem State.wrBytes_slot (b : Nat) : (s.wrBytes sp a l).slot b = s.slot b := by simp [State.slot]
@[simp] theorem State.wrBytes_port (b : Nat) : (s.wrBytes sp a l).port b = s.port b := by simp [State.port]
@[simp] theorem State.wrBytes_alloc (b : Nat) : (s.wrBytes sp a l).alloc b = s.alloc b := by simp [State.alloc]
@[simp] theorem State.wrBytes_tensor (b : Nat) : (s.wrBytes sp a l).tensor b = s.tensor b := by simp [State.tensor]
@[simp] theorem State.wrBytes_box (b : Nat) : (s.wrBytes sp a l).box b = s.box b := by simp [State.box]
@[simp] theorem State.wrBytes_tok (b : Nat) : (s.wrBytes sp a l).tok b = s.tok b := by simp [State.tok]
@[simp] theorem State.wrBytes_supply (b : Nat) : (s.wrBytes sp a l).supply b = s.supply b := by simp [State.supply]
@[simp] theorem State.wrBytes_scrubber (b : Nat) : (s.wrBytes sp a l).scrubber b = s.scrubber b := by simp [State.scrubber]
@[simp] theorem State.wrBytes_calR (b : Nat) : (s.wrBytes sp a l).calR b = s.calR b := by simp [State.calR]
end

/-! ### setMarks -/
section
variable (s : State) (sp : Space) (l : List Nat)
@[simp] theorem State.setMarks_pending : (s.setMarks sp l).pending = s.pending := by cases sp <;> rfl
@[simp] theorem State.setMarks_draws : (s.setMarks sp l).draws = s.draws := by cases sp <;> rfl
@[simp] theorem State.setMarks_dev : (s.setMarks sp l).dev = s.dev := by cases sp <;> rfl
@[simp] theorem State.setMarks_resetN : (s.setMarks sp l).resetN = s.resetN := by cases sp <;> rfl
@[simp] theorem State.setMarks_monitor : (s.setMarks sp l).monitor = s.monitor := by cases sp <;> rfl
@[simp] theorem State.setMarks_mpUp : (s.setMarks sp l).mpUp = s.mpUp := by cases sp <;> rfl
@[simp] theorem State.setMarks_hostUp : (s.setMarks sp l).hostUp = s.hostUp := by cases sp <;> rfl
@[simp] theorem State.setMarks_time : (s.setMarks sp l).time = s.time := by cases sp <;> rfl
@[simp] theorem State.setMarks_store : (s.setMarks sp l).store = s.store := by cases sp <;> rfl
@[simp] theorem State.setMarks_capHi : (s.setMarks sp l).capHi = s.capHi := by cases sp <;> rfl
@[simp] theorem State.setMarks_lowHalf : (s.setMarks sp l).lowHalf = s.lowHalf := by cases sp <;> rfl
@[simp] theorem State.setMarks_hostLock : (s.setMarks sp l).hostLock = s.hostLock := by cases sp <;> rfl
@[simp] theorem State.setMarks_mpLock : (s.setMarks sp l).mpLock = s.mpLock := by cases sp <;> rfl
@[simp] theorem State.setMarks_mpBcast : (s.setMarks sp l).mpBcast = s.mpBcast := by cases sp <;> rfl
@[simp] theorem State.setMarks_tiles : (s.setMarks sp l).tiles = s.tiles := by cases sp <;> rfl
@[simp] theorem State.setMarks_tiers : (s.setMarks sp l).tiers = s.tiers := by cases sp <;> rfl
@[simp] theorem State.setMarks_blocks : (s.setMarks sp l).blocks = s.blocks := by cases sp <;> rfl
@[simp] theorem State.setMarks_allocs : (s.setMarks sp l).allocs = s.allocs := by cases sp <;> rfl
@[simp] theorem State.setMarks_arb : (s.setMarks sp l).arb = s.arb := by cases sp <;> rfl
@[simp] theorem State.setMarks_scrub : (s.setMarks sp l).scrub = s.scrub := by cases sp <;> rfl
@[simp] theorem State.setMarks_toks : (s.setMarks sp l).toks = s.toks := by cases sp <;> rfl
@[simp] theorem State.setMarks_schedPtr : (s.setMarks sp l).schedPtr = s.schedPtr := by cases sp <;> rfl
@[simp] theorem State.setMarks_sigs : (s.setMarks sp l).sigs = s.sigs := by cases sp <;> rfl
@[simp] theorem State.setMarks_aggs : (s.setMarks sp l).aggs = s.aggs := by cases sp <;> rfl
@[simp] theorem State.setMarks_slots : (s.setMarks sp l).slots = s.slots := by cases sp <;> rfl
@[simp] theorem State.setMarks_fab : (s.setMarks sp l).fab = s.fab := by cases sp <;> rfl
@[simp] theorem State.setMarks_jrn : (s.setMarks sp l).jrn = s.jrn := by cases sp <;> rfl
@[simp] theorem State.setMarks_part : (s.setMarks sp l).part = s.part := by cases sp <;> rfl
@[simp] theorem State.setMarks_fw : (s.setMarks sp l).fw = s.fw := by cases sp <;> rfl
@[simp] theorem State.setMarks_sec : (s.setMarks sp l).sec = s.sec := by cases sp <;> rfl
@[simp] theorem State.setMarks_pwr : (s.setMarks sp l).pwr = s.pwr := by cases sp <;> rfl
@[simp] theorem State.setMarks_cal : (s.setMarks sp l).cal = s.cal := by cases sp <;> rfl
@[simp] theorem State.setMarks_reg (b : Nat) : (s.setMarks sp l).reg b = s.reg b := by simp [State.reg]
@[simp] theorem State.setMarks_cell (b : Nat) : (s.setMarks sp l).cell b = s.cell b := by simp [State.cell]
@[simp] theorem State.setMarks_norm (b : Nat) : (s.setMarks sp l).norm b = s.norm b := by simp [State.norm]
@[simp] theorem State.setMarks_tile (b : Nat) : (s.setMarks sp l).tile b = s.tile b := by simp [State.tile]
@[simp] theorem State.setMarks_tier (b : Nat) : (s.setMarks sp l).tier b = s.tier b := by simp [State.tier]
@[simp] theorem State.setMarks_block (b : Nat) : (s.setMarks sp l).block b = s.block b := by simp [State.block]
@[simp] theorem State.setMarks_slot (b : Nat) : (s.setMarks sp l).slot b = s.slot b := by simp [State.slot]
@[simp] theorem State.setMarks_port (b : Nat) : (s.setMarks sp l).port b = s.port b := by simp [State.port]
@[simp] theorem State.setMarks_alloc (b : Nat) : (s.setMarks sp l).alloc b = s.alloc b := by simp [State.alloc]
@[simp] theorem State.setMarks_tensor (b : Nat) : (s.setMarks sp l).tensor b = s.tensor b := by simp [State.tensor]
@[simp] theorem State.setMarks_box (b : Nat) : (s.setMarks sp l).box b = s.box b := by simp [State.box]
@[simp] theorem State.setMarks_tok (b : Nat) : (s.setMarks sp l).tok b = s.tok b := by simp [State.tok]
@[simp] theorem State.setMarks_supply (b : Nat) : (s.setMarks sp l).supply b = s.supply b := by simp [State.supply]
@[simp] theorem State.setMarks_scrubber (b : Nat) : (s.setMarks sp l).scrubber b = s.scrubber b := by simp [State.scrubber]
@[simp] theorem State.setMarks_calR (b : Nat) : (s.setMarks sp l).calR b = s.calR b := by simp [State.calR]
@[simp] theorem State.setMarks_rdByte (sp' : Space) (b : Nat) : (s.setMarks sp l).rdByte sp' b = s.rdByte sp' b := by cases sp' <;> simp [State.rdByte]
end

/-! ### unpoison -/
section
variable (s : State) (sp : Space) (a n : Nat)
@[simp] theorem State.unpoison_pending : (s.unpoison sp a n).pending = s.pending := by simp [State.unpoison]
@[simp] theorem State.unpoison_draws : (s.unpoison sp a n).draws = s.draws := by simp [State.unpoison]
@[simp] theorem State.unpoison_dev : (s.unpoison sp a n).dev = s.dev := by simp [State.unpoison]
@[simp] theorem State.unpoison_resetN : (s.unpoison sp a n).resetN = s.resetN := by simp [State.unpoison]
@[simp] theorem State.unpoison_monitor : (s.unpoison sp a n).monitor = s.monitor := by simp [State.unpoison]
@[simp] theorem State.unpoison_mpUp : (s.unpoison sp a n).mpUp = s.mpUp := by simp [State.unpoison]
@[simp] theorem State.unpoison_hostUp : (s.unpoison sp a n).hostUp = s.hostUp := by simp [State.unpoison]
@[simp] theorem State.unpoison_time : (s.unpoison sp a n).time = s.time := by simp [State.unpoison]
@[simp] theorem State.unpoison_store : (s.unpoison sp a n).store = s.store := by simp [State.unpoison]
@[simp] theorem State.unpoison_capHi : (s.unpoison sp a n).capHi = s.capHi := by simp [State.unpoison]
@[simp] theorem State.unpoison_lowHalf : (s.unpoison sp a n).lowHalf = s.lowHalf := by simp [State.unpoison]
@[simp] theorem State.unpoison_hostLock : (s.unpoison sp a n).hostLock = s.hostLock := by simp [State.unpoison]
@[simp] theorem State.unpoison_mpLock : (s.unpoison sp a n).mpLock = s.mpLock := by simp [State.unpoison]
@[simp] theorem State.unpoison_mpBcast : (s.unpoison sp a n).mpBcast = s.mpBcast := by simp [State.unpoison]
@[simp] theorem State.unpoison_tiles : (s.unpoison sp a n).tiles = s.tiles := by simp [State.unpoison]
@[simp] theorem State.unpoison_tiers : (s.unpoison sp a n).tiers = s.tiers := by simp [State.unpoison]
@[simp] theorem State.unpoison_blocks : (s.unpoison sp a n).blocks = s.blocks := by simp [State.unpoison]
@[simp] theorem State.unpoison_allocs : (s.unpoison sp a n).allocs = s.allocs := by simp [State.unpoison]
@[simp] theorem State.unpoison_arb : (s.unpoison sp a n).arb = s.arb := by simp [State.unpoison]
@[simp] theorem State.unpoison_scrub : (s.unpoison sp a n).scrub = s.scrub := by simp [State.unpoison]
@[simp] theorem State.unpoison_toks : (s.unpoison sp a n).toks = s.toks := by simp [State.unpoison]
@[simp] theorem State.unpoison_schedPtr : (s.unpoison sp a n).schedPtr = s.schedPtr := by simp [State.unpoison]
@[simp] theorem State.unpoison_sigs : (s.unpoison sp a n).sigs = s.sigs := by simp [State.unpoison]
@[simp] theorem State.unpoison_aggs : (s.unpoison sp a n).aggs = s.aggs := by simp [State.unpoison]
@[simp] theorem State.unpoison_slots : (s.unpoison sp a n).slots = s.slots := by simp [State.unpoison]
@[simp] theorem State.unpoison_fab : (s.unpoison sp a n).fab = s.fab := by simp [State.unpoison]
@[simp] theorem State.unpoison_jrn : (s.unpoison sp a n).jrn = s.jrn := by simp [State.unpoison]
@[simp] theorem State.unpoison_part : (s.unpoison sp a n).part = s.part := by simp [State.unpoison]
@[simp] theorem State.unpoison_fw : (s.unpoison sp a n).fw = s.fw := by simp [State.unpoison]
@[simp] theorem State.unpoison_sec : (s.unpoison sp a n).sec = s.sec := by simp [State.unpoison]
@[simp] theorem State.unpoison_pwr : (s.unpoison sp a n).pwr = s.pwr := by simp [State.unpoison]
@[simp] theorem State.unpoison_cal : (s.unpoison sp a n).cal = s.cal := by simp [State.unpoison]
@[simp] theorem State.unpoison_reg (b : Nat) : (s.unpoison sp a n).reg b = s.reg b := by simp [State.reg]
@[simp] theorem State.unpoison_cell (b : Nat) : (s.unpoison sp a n).cell b = s.cell b := by simp [State.cell]
@[simp] theorem State.unpoison_norm (b : Nat) : (s.unpoison sp a n).norm b = s.norm b := by simp [State.norm]
@[simp] theorem State.unpoison_tile (b : Nat) : (s.unpoison sp a n).tile b = s.tile b := by simp [State.tile]
@[simp] theorem State.unpoison_tier (b : Nat) : (s.unpoison sp a n).tier b = s.tier b := by simp [State.tier]
@[simp] theorem State.unpoison_block (b : Nat) : (s.unpoison sp a n).block b = s.block b := by simp [State.block]
@[simp] theorem State.unpoison_slot (b : Nat) : (s.unpoison sp a n).slot b = s.slot b := by simp [State.slot]
@[simp] theorem State.unpoison_port (b : Nat) : (s.unpoison sp a n).port b = s.port b := by simp [State.port]
@[simp] theorem State.unpoison_alloc (b : Nat) : (s.unpoison sp a n).alloc b = s.alloc b := by simp [State.alloc]
@[simp] theorem State.unpoison_tensor (b : Nat) : (s.unpoison sp a n).tensor b = s.tensor b := by simp [State.tensor]
@[simp] theorem State.unpoison_box (b : Nat) : (s.unpoison sp a n).box b = s.box b := by simp [State.box]
@[simp] theorem State.unpoison_tok (b : Nat) : (s.unpoison sp a n).tok b = s.tok b := by simp [State.tok]
@[simp] theorem State.unpoison_supply (b : Nat) : (s.unpoison sp a n).supply b = s.supply b := by simp [State.supply]
@[simp] theorem State.unpoison_scrubber (b : Nat) : (s.unpoison sp a n).scrubber b = s.scrubber b := by simp [State.scrubber]
@[simp] theorem State.unpoison_calR (b : Nat) : (s.unpoison sp a n).calR b = s.calR b := by simp [State.calR]
@[simp] theorem State.unpoison_rdByte (sp' : Space) (b : Nat) : (s.unpoison sp a n).rdByte sp' b = s.rdByte sp' b := by cases sp' <;> simp [State.rdByte]
end

/-! ### poison -/
section
variable (s : State) (sp : Space) (a n : Nat)
@[simp] theorem State.poison_pending : (s.poison sp a n).pending = s.pending := by
  simp only [State.poison]; split <;> simp
@[simp] theorem State.poison_draws : (s.poison sp a n).draws = s.draws := by
  simp only [State.poison]; split <;> simp
@[simp] theorem State.poison_dev : (s.poison sp a n).dev = s.dev := by
  simp only [State.poison]; split <;> simp
@[simp] theorem State.poison_resetN : (s.poison sp a n).resetN = s.resetN := by
  simp only [State.poison]; split <;> simp
@[simp] theorem State.poison_monitor : (s.poison sp a n).monitor = s.monitor := by
  simp only [State.poison]; split <;> simp
@[simp] theorem State.poison_mpUp : (s.poison sp a n).mpUp = s.mpUp := by
  simp only [State.poison]; split <;> simp
@[simp] theorem State.poison_hostUp : (s.poison sp a n).hostUp = s.hostUp := by
  simp only [State.poison]; split <;> simp
@[simp] theorem State.poison_time : (s.poison sp a n).time = s.time := by
  simp only [State.poison]; split <;> simp
@[simp] theorem State.poison_store : (s.poison sp a n).store = s.store := by
  simp only [State.poison]; split <;> simp
@[simp] theorem State.poison_capHi : (s.poison sp a n).capHi = s.capHi := by
  simp only [State.poison]; split <;> simp
@[simp] theorem State.poison_lowHalf : (s.poison sp a n).lowHalf = s.lowHalf := by
  simp only [State.poison]; split <;> simp
@[simp] theorem State.poison_hostLock : (s.poison sp a n).hostLock = s.hostLock := by
  simp only [State.poison]; split <;> simp
@[simp] theorem State.poison_mpLock : (s.poison sp a n).mpLock = s.mpLock := by
  simp only [State.poison]; split <;> simp
@[simp] theorem State.poison_mpBcast : (s.poison sp a n).mpBcast = s.mpBcast := by
  simp only [State.poison]; split <;> simp
@[simp] theorem State.poison_tiles : (s.poison sp a n).tiles = s.tiles := by
  simp only [State.poison]; split <;> simp
@[simp] theorem State.poison_tiers : (s.poison sp a n).tiers = s.tiers := by
  simp only [State.poison]; split <;> simp
@[simp] theorem State.poison_blocks : (s.poison sp a n).blocks = s.blocks := by
  simp only [State.poison]; split <;> simp
@[simp] theorem State.poison_allocs : (s.poison sp a n).allocs = s.allocs := by
  simp only [State.poison]; split <;> simp
@[simp] theorem State.poison_arb : (s.poison sp a n).arb = s.arb := by
  simp only [State.poison]; split <;> simp
@[simp] theorem State.poison_scrub : (s.poison sp a n).scrub = s.scrub := by
  simp only [State.poison]; split <;> simp
@[simp] theorem State.poison_toks : (s.poison sp a n).toks = s.toks := by
  simp only [State.poison]; split <;> simp
@[simp] theorem State.poison_schedPtr : (s.poison sp a n).schedPtr = s.schedPtr := by
  simp only [State.poison]; split <;> simp
@[simp] theorem State.poison_sigs : (s.poison sp a n).sigs = s.sigs := by
  simp only [State.poison]; split <;> simp
@[simp] theorem State.poison_aggs : (s.poison sp a n).aggs = s.aggs := by
  simp only [State.poison]; split <;> simp
@[simp] theorem State.poison_slots : (s.poison sp a n).slots = s.slots := by
  simp only [State.poison]; split <;> simp
@[simp] theorem State.poison_fab : (s.poison sp a n).fab = s.fab := by
  simp only [State.poison]; split <;> simp
@[simp] theorem State.poison_jrn : (s.poison sp a n).jrn = s.jrn := by
  simp only [State.poison]; split <;> simp
@[simp] theorem State.poison_part : (s.poison sp a n).part = s.part := by
  simp only [State.poison]; split <;> simp
@[simp] theorem State.poison_fw : (s.poison sp a n).fw = s.fw := by
  simp only [State.poison]; split <;> simp
@[simp] theorem State.poison_sec : (s.poison sp a n).sec = s.sec := by
  simp only [State.poison]; split <;> simp
@[simp] theorem State.poison_pwr : (s.poison sp a n).pwr = s.pwr := by
  simp only [State.poison]; split <;> simp
@[simp] theorem State.poison_cal : (s.poison sp a n).cal = s.cal := by
  simp only [State.poison]; split <;> simp
@[simp] theorem State.poison_reg (b : Nat) : (s.poison sp a n).reg b = s.reg b := by simp [State.reg]
@[simp] theorem State.poison_cell (b : Nat) : (s.poison sp a n).cell b = s.cell b := by simp [State.cell]
@[simp] theorem State.poison_norm (b : Nat) : (s.poison sp a n).norm b = s.norm b := by simp [State.norm]
@[simp] theorem State.poison_tile (b : Nat) : (s.poison sp a n).tile b = s.tile b := by simp [State.tile]
@[simp] theorem State.poison_tier (b : Nat) : (s.poison sp a n).tier b = s.tier b := by simp [State.tier]
@[simp] theorem State.poison_block (b : Nat) : (s.poison sp a n).block b = s.block b := by simp [State.block]
@[simp] theorem State.poison_slot (b : Nat) : (s.poison sp a n).slot b = s.slot b := by simp [State.slot]
@[simp] theorem State.poison_port (b : Nat) : (s.poison sp a n).port b = s.port b := by simp [State.port]
@[simp] theorem State.poison_alloc (b : Nat) : (s.poison sp a n).alloc b = s.alloc b := by simp [State.alloc]
@[simp] theorem State.poison_tensor (b : Nat) : (s.poison sp a n).tensor b = s.tensor b := by simp [State.tensor]
@[simp] theorem State.poison_box (b : Nat) : (s.poison sp a n).box b = s.box b := by simp [State.box]
@[simp] theorem State.poison_tok (b : Nat) : (s.poison sp a n).tok b = s.tok b := by simp [State.tok]
@[simp] theorem State.poison_supply (b : Nat) : (s.poison sp a n).supply b = s.supply b := by simp [State.supply]
@[simp] theorem State.poison_scrubber (b : Nat) : (s.poison sp a n).scrubber b = s.scrubber b := by simp [State.scrubber]
@[simp] theorem State.poison_calR (b : Nat) : (s.poison sp a n).calR b = s.calR b := by simp [State.calR]
@[simp] theorem State.poison_rdByte (sp' : Space) (b : Nat) : (s.poison sp a n).rdByte sp' b = s.rdByte sp' b := by cases sp' <;> simp [State.rdByte]
end

/-! ### wr -/
section
variable (s : State) (sp : Space) (a : Nat) (l : List Byte)
@[simp] theorem State.wr_pending : (s.wr sp a l).pending = s.pending := by simp [State.wr]
@[simp] theorem State.wr_draws : (s.wr sp a l).draws = s.draws := by simp [State.wr]
@[simp] theorem State.wr_dev : (s.wr sp a l).dev = s.dev := by simp [State.wr]
@[simp] theorem State.wr_resetN : (s.wr sp a l).resetN = s.resetN := by simp [State.wr]
@[simp] theorem State.wr_monitor : (s.wr sp a l).monitor = s.monitor := by simp [State.wr]
@[simp] theorem State.wr_mpUp : (s.wr sp a l).mpUp = s.mpUp := by simp [State.wr]
@[simp] theorem State.wr_hostUp : (s.wr sp a l).hostUp = s.hostUp := by simp [State.wr]
@[simp] theorem State.wr_time : (s.wr sp a l).time = s.time := by simp [State.wr]
@[simp] theorem State.wr_store_regs : (s.wr sp a l).store.regs = s.store.regs := by simp [State.wr]
@[simp] theorem State.wr_store_cells : (s.wr sp a l).store.cells = s.store.cells := by simp [State.wr]
@[simp] theorem State.wr_store_norms : (s.wr sp a l).store.norms = s.store.norms := by simp [State.wr]
@[simp] theorem State.wr_capHi : (s.wr sp a l).capHi = s.capHi := by simp [State.wr]
@[simp] theorem State.wr_lowHalf : (s.wr sp a l).lowHalf = s.lowHalf := by simp [State.wr]
@[simp] theorem State.wr_hostLock : (s.wr sp a l).hostLock = s.hostLock := by simp [State.wr]
@[simp] theorem State.wr_mpLock : (s.wr sp a l).mpLock = s.mpLock := by simp [State.wr]
@[simp] theorem State.wr_mpBcast : (s.wr sp a l).mpBcast = s.mpBcast := by simp [State.wr]
@[simp] theorem State.wr_tiles : (s.wr sp a l).tiles = s.tiles := by simp [State.wr]
@[simp] theorem State.wr_tiers : (s.wr sp a l).tiers = s.tiers := by simp [State.wr]
@[simp] theorem State.wr_blocks : (s.wr sp a l).blocks = s.blocks := by simp [State.wr]
@[simp] theorem State.wr_allocs : (s.wr sp a l).allocs = s.allocs := by simp [State.wr]
@[simp] theorem State.wr_arb : (s.wr sp a l).arb = s.arb := by simp [State.wr]
@[simp] theorem State.wr_scrub : (s.wr sp a l).scrub = s.scrub := by simp [State.wr]
@[simp] theorem State.wr_toks : (s.wr sp a l).toks = s.toks := by simp [State.wr]
@[simp] theorem State.wr_schedPtr : (s.wr sp a l).schedPtr = s.schedPtr := by simp [State.wr]
@[simp] theorem State.wr_sigs : (s.wr sp a l).sigs = s.sigs := by simp [State.wr]
@[simp] theorem State.wr_aggs : (s.wr sp a l).aggs = s.aggs := by simp [State.wr]
@[simp] theorem State.wr_slots : (s.wr sp a l).slots = s.slots := by simp [State.wr]
@[simp] theorem State.wr_fab : (s.wr sp a l).fab = s.fab := by simp [State.wr]
@[simp] theorem State.wr_jrn : (s.wr sp a l).jrn = s.jrn := by simp [State.wr]
@[simp] theorem State.wr_part : (s.wr sp a l).part = s.part := by simp [State.wr]
@[simp] theorem State.wr_fw : (s.wr sp a l).fw = s.fw := by simp [State.wr]
@[simp] theorem State.wr_sec : (s.wr sp a l).sec = s.sec := by simp [State.wr]
@[simp] theorem State.wr_pwr : (s.wr sp a l).pwr = s.pwr := by simp [State.wr]
@[simp] theorem State.wr_cal : (s.wr sp a l).cal = s.cal := by simp [State.wr]
@[simp] theorem State.wr_reg (b : Nat) : (s.wr sp a l).reg b = s.reg b := by simp [State.reg]
@[simp] theorem State.wr_cell (b : Nat) : (s.wr sp a l).cell b = s.cell b := by simp [State.cell]
@[simp] theorem State.wr_norm (b : Nat) : (s.wr sp a l).norm b = s.norm b := by simp [State.norm]
@[simp] theorem State.wr_tile (b : Nat) : (s.wr sp a l).tile b = s.tile b := by simp [State.tile]
@[simp] theorem State.wr_tier (b : Nat) : (s.wr sp a l).tier b = s.tier b := by simp [State.tier]
@[simp] theorem State.wr_block (b : Nat) : (s.wr sp a l).block b = s.block b := by simp [State.block]
@[simp] theorem State.wr_slot (b : Nat) : (s.wr sp a l).slot b = s.slot b := by simp [State.slot]
@[simp] theorem State.wr_port (b : Nat) : (s.wr sp a l).port b = s.port b := by simp [State.port]
@[simp] theorem State.wr_alloc (b : Nat) : (s.wr sp a l).alloc b = s.alloc b := by simp [State.alloc]
@[simp] theorem State.wr_tensor (b : Nat) : (s.wr sp a l).tensor b = s.tensor b := by simp [State.tensor]
@[simp] theorem State.wr_box (b : Nat) : (s.wr sp a l).box b = s.box b := by simp [State.box]
@[simp] theorem State.wr_tok (b : Nat) : (s.wr sp a l).tok b = s.tok b := by simp [State.tok]
@[simp] theorem State.wr_supply (b : Nat) : (s.wr sp a l).supply b = s.supply b := by simp [State.supply]
@[simp] theorem State.wr_scrubber (b : Nat) : (s.wr sp a l).scrubber b = s.scrubber b := by simp [State.scrubber]
@[simp] theorem State.wr_calR (b : Nat) : (s.wr sp a l).calR b = s.calR b := by simp [State.calR]
end

/-! ### wrLe -/
section
variable (s : State) (sp : Space) (a n v : Nat)
@[simp] theorem State.wrLe_pending : (s.wrLe sp a n v).pending = s.pending := by simp [State.wrLe]
@[simp] theorem State.wrLe_draws : (s.wrLe sp a n v).draws = s.draws := by simp [State.wrLe]
@[simp] theorem State.wrLe_dev : (s.wrLe sp a n v).dev = s.dev := by simp [State.wrLe]
@[simp] theorem State.wrLe_resetN : (s.wrLe sp a n v).resetN = s.resetN := by simp [State.wrLe]
@[simp] theorem State.wrLe_monitor : (s.wrLe sp a n v).monitor = s.monitor := by simp [State.wrLe]
@[simp] theorem State.wrLe_mpUp : (s.wrLe sp a n v).mpUp = s.mpUp := by simp [State.wrLe]
@[simp] theorem State.wrLe_hostUp : (s.wrLe sp a n v).hostUp = s.hostUp := by simp [State.wrLe]
@[simp] theorem State.wrLe_time : (s.wrLe sp a n v).time = s.time := by simp [State.wrLe]
@[simp] theorem State.wrLe_store_regs : (s.wrLe sp a n v).store.regs = s.store.regs := by simp [State.wrLe]
@[simp] theorem State.wrLe_store_cells : (s.wrLe sp a n v).store.cells = s.store.cells := by simp [State.wrLe]
@[simp] theorem State.wrLe_store_norms : (s.wrLe sp a n v).store.norms = s.store.norms := by simp [State.wrLe]
@[simp] theorem State.wrLe_capHi : (s.wrLe sp a n v).capHi = s.capHi := by simp [State.wrLe]
@[simp] theorem State.wrLe_lowHalf : (s.wrLe sp a n v).lowHalf = s.lowHalf := by simp [State.wrLe]
@[simp] theorem State.wrLe_hostLock : (s.wrLe sp a n v).hostLock = s.hostLock := by simp [State.wrLe]
@[simp] theorem State.wrLe_mpLock : (s.wrLe sp a n v).mpLock = s.mpLock := by simp [State.wrLe]
@[simp] theorem State.wrLe_mpBcast : (s.wrLe sp a n v).mpBcast = s.mpBcast := by simp [State.wrLe]
@[simp] theorem State.wrLe_tiles : (s.wrLe sp a n v).tiles = s.tiles := by simp [State.wrLe]
@[simp] theorem State.wrLe_tiers : (s.wrLe sp a n v).tiers = s.tiers := by simp [State.wrLe]
@[simp] theorem State.wrLe_blocks : (s.wrLe sp a n v).blocks = s.blocks := by simp [State.wrLe]
@[simp] theorem State.wrLe_allocs : (s.wrLe sp a n v).allocs = s.allocs := by simp [State.wrLe]
@[simp] theorem State.wrLe_arb : (s.wrLe sp a n v).arb = s.arb := by simp [State.wrLe]
@[simp] theorem State.wrLe_scrub : (s.wrLe sp a n v).scrub = s.scrub := by simp [State.wrLe]
@[simp] theorem State.wrLe_toks : (s.wrLe sp a n v).toks = s.toks := by simp [State.wrLe]
@[simp] theorem State.wrLe_schedPtr : (s.wrLe sp a n v).schedPtr = s.schedPtr := by simp [State.wrLe]
@[simp] theorem State.wrLe_sigs : (s.wrLe sp a n v).sigs = s.sigs := by simp [State.wrLe]
@[simp] theorem State.wrLe_aggs : (s.wrLe sp a n v).aggs = s.aggs := by simp [State.wrLe]
@[simp] theorem State.wrLe_slots : (s.wrLe sp a n v).slots = s.slots := by simp [State.wrLe]
@[simp] theorem State.wrLe_fab : (s.wrLe sp a n v).fab = s.fab := by simp [State.wrLe]
@[simp] theorem State.wrLe_jrn : (s.wrLe sp a n v).jrn = s.jrn := by simp [State.wrLe]
@[simp] theorem State.wrLe_part : (s.wrLe sp a n v).part = s.part := by simp [State.wrLe]
@[simp] theorem State.wrLe_fw : (s.wrLe sp a n v).fw = s.fw := by simp [State.wrLe]
@[simp] theorem State.wrLe_sec : (s.wrLe sp a n v).sec = s.sec := by simp [State.wrLe]
@[simp] theorem State.wrLe_pwr : (s.wrLe sp a n v).pwr = s.pwr := by simp [State.wrLe]
@[simp] theorem State.wrLe_cal : (s.wrLe sp a n v).cal = s.cal := by simp [State.wrLe]
@[simp] theorem State.wrLe_reg (b : Nat) : (s.wrLe sp a n v).reg b = s.reg b := by simp [State.reg]
@[simp] theorem State.wrLe_cell (b : Nat) : (s.wrLe sp a n v).cell b = s.cell b := by simp [State.cell]
@[simp] theorem State.wrLe_norm (b : Nat) : (s.wrLe sp a n v).norm b = s.norm b := by simp [State.norm]
@[simp] theorem State.wrLe_tile (b : Nat) : (s.wrLe sp a n v).tile b = s.tile b := by simp [State.tile]
@[simp] theorem State.wrLe_tier (b : Nat) : (s.wrLe sp a n v).tier b = s.tier b := by simp [State.tier]
@[simp] theorem State.wrLe_block (b : Nat) : (s.wrLe sp a n v).block b = s.block b := by simp [State.block]
@[simp] theorem State.wrLe_slot (b : Nat) : (s.wrLe sp a n v).slot b = s.slot b := by simp [State.slot]
@[simp] theorem State.wrLe_port (b : Nat) : (s.wrLe sp a n v).port b = s.port b := by simp [State.port]
@[simp] theorem State.wrLe_alloc (b : Nat) : (s.wrLe sp a n v).alloc b = s.alloc b := by simp [State.alloc]
@[simp] theorem State.wrLe_tensor (b : Nat) : (s.wrLe sp a n v).tensor b = s.tensor b := by simp [State.tensor]
@[simp] theorem State.wrLe_box (b : Nat) : (s.wrLe sp a n v).box b = s.box b := by simp [State.box]
@[simp] theorem State.wrLe_tok (b : Nat) : (s.wrLe sp a n v).tok b = s.tok b := by simp [State.tok]
@[simp] theorem State.wrLe_supply (b : Nat) : (s.wrLe sp a n v).supply b = s.supply b := by simp [State.supply]
@[simp] theorem State.wrLe_scrubber (b : Nat) : (s.wrLe sp a n v).scrubber b = s.scrubber b := by simp [State.scrubber]
@[simp] theorem State.wrLe_calR (b : Nat) : (s.wrLe sp a n v).calR b = s.calR b := by simp [State.calR]
end

/-! ### report -/
section
variable (s : State) (r : Report)
@[simp] theorem State.report_pending : (s.report r).pending = s.pending := by
  simp only [State.report]; split
  · rfl
  · split
    · rfl
    · split
      · simp
      · rfl
@[simp] theorem State.report_draws : (s.report r).draws = s.draws := by
  simp only [State.report]; split
  · rfl
  · split
    · rfl
    · split
      · simp
      · rfl
@[simp] theorem State.report_dev : (s.report r).dev = s.dev := by
  simp only [State.report]; split
  · rfl
  · split
    · rfl
    · split
      · simp
      · rfl
@[simp] theorem State.report_resetN : (s.report r).resetN = s.resetN := by
  simp only [State.report]; split
  · rfl
  · split
    · rfl
    · split
      · simp
      · rfl
@[simp] theorem State.report_monitor : (s.report r).monitor = s.monitor := by
  simp only [State.report]; split
  · rfl
  · split
    · rfl
    · split
      · simp
      · rfl
@[simp] theorem State.report_mpUp : (s.report r).mpUp = s.mpUp := by
  simp only [State.report]; split
  · rfl
  · split
    · rfl
    · split
      · simp
      · rfl
@[simp] theorem State.report_hostUp : (s.report r).hostUp = s.hostUp := by
  simp only [State.report]; split
  · rfl
  · split
    · rfl
    · split
      · simp
      · rfl
@[simp] theorem State.report_time : (s.report r).time = s.time := by
  simp only [State.report]; split
  · rfl
  · split
    · rfl
    · split
      · simp
      · rfl
@[simp] theorem State.report_store_cells : (s.report r).store.cells = s.store.cells := by
  simp only [State.report]; split
  · rfl
  · split
    · rfl
    · split
      · simp
      · rfl
@[simp] theorem State.report_store_bstore : (s.report r).store.bstore = s.store.bstore := by
  simp only [State.report]; split
  · rfl
  · split
    · rfl
    · split
      · simp
      · rfl
@[simp] theorem State.report_store_hbm : (s.report r).store.hbm = s.store.hbm := by
  simp only [State.report]; split
  · rfl
  · split
    · rfl
    · split
      · simp
      · rfl
@[simp] theorem State.report_store_host : (s.report r).store.host = s.store.host := by
  simp only [State.report]; split
  · rfl
  · split
    · rfl
    · split
      · simp
      · rfl
@[simp] theorem State.report_store_norms : (s.report r).store.norms = s.store.norms := by
  simp only [State.report]; split
  · rfl
  · split
    · rfl
    · split
      · simp
      · rfl
@[simp] theorem State.report_capHi : (s.report r).capHi = s.capHi := by
  simp only [State.report]; split
  · rfl
  · split
    · rfl
    · split
      · simp
      · rfl
@[simp] theorem State.report_lowHalf : (s.report r).lowHalf = s.lowHalf := by
  simp only [State.report]; split
  · rfl
  · split
    · rfl
    · split
      · simp
      · rfl
@[simp] theorem State.report_hostLock : (s.report r).hostLock = s.hostLock := by
  simp only [State.report]; split
  · rfl
  · split
    · rfl
    · split
      · simp
      · rfl
@[simp] theorem State.report_mpLock : (s.report r).mpLock = s.mpLock := by
  simp only [State.report]; split
  · rfl
  · split
    · rfl
    · split
      · simp
      · rfl
@[simp] theorem State.report_mpBcast : (s.report r).mpBcast = s.mpBcast := by
  simp only [State.report]; split
  · rfl
  · split
    · rfl
    · split
      · simp
      · rfl
@[simp] theorem State.report_tiles : (s.report r).tiles = s.tiles := by
  simp only [State.report]; split
  · rfl
  · split
    · rfl
    · split
      · simp
      · rfl
@[simp] theorem State.report_tiers : (s.report r).tiers = s.tiers := by
  simp only [State.report]; split
  · rfl
  · split
    · rfl
    · split
      · simp
      · rfl
@[simp] theorem State.report_blocks : (s.report r).blocks = s.blocks := by
  simp only [State.report]; split
  · rfl
  · split
    · rfl
    · split
      · simp
      · rfl
@[simp] theorem State.report_hbmPoison : (s.report r).hbmPoison = s.hbmPoison := by
  simp only [State.report]; split
  · rfl
  · split
    · rfl
    · split
      · simp
      · rfl
@[simp] theorem State.report_bsPoison : (s.report r).bsPoison = s.bsPoison := by
  simp only [State.report]; split
  · rfl
  · split
    · rfl
    · split
      · simp
      · rfl
@[simp] theorem State.report_allocs : (s.report r).allocs = s.allocs := by
  simp only [State.report]; split
  · rfl
  · split
    · rfl
    · split
      · simp
      · rfl
@[simp] theorem State.report_arb : (s.report r).arb = s.arb := by
  simp only [State.report]; split
  · rfl
  · split
    · rfl
    · split
      · simp
      · rfl
@[simp] theorem State.report_scrub : (s.report r).scrub = s.scrub := by
  simp only [State.report]; split
  · rfl
  · split
    · rfl
    · split
      · simp
      · rfl
@[simp] theorem State.report_toks : (s.report r).toks = s.toks := by
  simp only [State.report]; split
  · rfl
  · split
    · rfl
    · split
      · simp
      · rfl
@[simp] theorem State.report_schedPtr : (s.report r).schedPtr = s.schedPtr := by
  simp only [State.report]; split
  · rfl
  · split
    · rfl
    · split
      · simp
      · rfl
@[simp] theorem State.report_sigs : (s.report r).sigs = s.sigs := by
  simp only [State.report]; split
  · rfl
  · split
    · rfl
    · split
      · simp
      · rfl
@[simp] theorem State.report_slots : (s.report r).slots = s.slots := by
  simp only [State.report]; split
  · rfl
  · split
    · rfl
    · split
      · simp
      · rfl
@[simp] theorem State.report_fab : (s.report r).fab = s.fab := by
  simp only [State.report]; split
  · rfl
  · split
    · rfl
    · split
      · simp
      · rfl
@[simp] theorem State.report_jrn : (s.report r).jrn = s.jrn := by
  simp only [State.report]; split
  · rfl
  · split
    · rfl
    · split
      · simp
      · rfl
@[simp] theorem State.report_part : (s.report r).part = s.part := by
  simp only [State.report]; split
  · rfl
  · split
    · rfl
    · split
      · simp
      · rfl
@[simp] theorem State.report_fw_boxes : (s.report r).fw.boxes = s.fw.boxes := by
  simp only [State.report]; split
  · rfl
  · split
    · rfl
    · split
      · simp
      · rfl
@[simp] theorem State.report_fw_ptr : (s.report r).fw.ptr = s.fw.ptr := by
  simp only [State.report]; split
  · rfl
  · split
    · rfl
    · split
      · simp
      · rfl
@[simp] theorem State.report_fw_ops : (s.report r).fw.ops = s.fw.ops := by
  simp only [State.report]; split
  · rfl
  · split
    · rfl
    · split
      · simp
      · rfl
@[simp] theorem State.report_fw_nextOph : (s.report r).fw.nextOph = s.fw.nextOph := by
  simp only [State.report]; split
  · rfl
  · split
    · rfl
    · split
      · simp
      · rfl
@[simp] theorem State.report_fw_notices : (s.report r).fw.notices = s.fw.notices := by
  simp only [State.report]; split
  · rfl
  · split
    · rfl
    · split
      · simp
      · rfl
@[simp] theorem State.report_fw_subs : (s.report r).fw.subs = s.fw.subs := by
  simp only [State.report]; split
  · rfl
  · split
    · rfl
    · split
      · simp
      · rfl
@[simp] theorem State.report_fw_manager : (s.report r).fw.manager = s.fw.manager := by
  simp only [State.report]; split
  · rfl
  · split
    · rfl
    · split
      · simp
      · rfl
@[simp] theorem State.report_fw_overruns : (s.report r).fw.overruns = s.fw.overruns := by
  simp only [State.report]; split
  · rfl
  · split
    · rfl
    · split
      · simp
      · rfl
@[simp] theorem State.report_fw_tensors : (s.report r).fw.tensors = s.fw.tensors := by
  simp only [State.report]; split
  · rfl
  · split
    · rfl
    · split
      · simp
      · rfl
@[simp] theorem State.report_fw_cfgStage : (s.report r).fw.cfgStage = s.fw.cfgStage := by
  simp only [State.report]; split
  · rfl
  · split
    · rfl
    · split
      · simp
      · rfl
@[simp] theorem State.report_fw_cfg : (s.report r).fw.cfg = s.fw.cfg := by
  simp only [State.report]; split
  · rfl
  · split
    · rfl
    · split
      · simp
      · rfl
@[simp] theorem State.report_fw_locals : (s.report r).fw.locals = s.fw.locals := by
  simp only [State.report]; split
  · rfl
  · split
    · rfl
    · split
      · simp
      · rfl
@[simp] theorem State.report_fw_commitLog : (s.report r).fw.commitLog = s.fw.commitLog := by
  simp only [State.report]; split
  · rfl
  · split
    · rfl
    · split
      · simp
      · rfl
@[simp] theorem State.report_fw_commitMs : (s.report r).fw.commitMs = s.fw.commitMs := by
  simp only [State.report]; split
  · rfl
  · split
    · rfl
    · split
      · simp
      · rfl
@[simp] theorem State.report_fw_tests : (s.report r).fw.tests = s.fw.tests := by
  simp only [State.report]; split
  · rfl
  · split
    · rfl
    · split
      · simp
      · rfl
@[simp] theorem State.report_fw_drainMs : (s.report r).fw.drainMs = s.fw.drainMs := by
  simp only [State.report]; split
  · rfl
  · split
    · rfl
    · split
      · simp
      · rfl
@[simp] theorem State.report_fw_causeSeq : (s.report r).fw.causeSeq = s.fw.causeSeq := by
  simp only [State.report]; split
  · rfl
  · split
    · rfl
    · split
      · simp
      · rfl
@[simp] theorem State.report_fw_postTest : (s.report r).fw.postTest = s.fw.postTest := by
  simp only [State.report]; split
  · rfl
  · split
    · rfl
    · split
      · simp
      · rfl
@[simp] theorem State.report_fw_postKind : (s.report r).fw.postKind = s.fw.postKind := by
  simp only [State.report]; split
  · rfl
  · split
    · rfl
    · split
      · simp
      · rfl
@[simp] theorem State.report_fw_postUnit : (s.report r).fw.postUnit = s.fw.postUnit := by
  simp only [State.report]; split
  · rfl
  · split
    · rfl
    · split
      · simp
      · rfl
@[simp] theorem State.report_fw_postDetail : (s.report r).fw.postDetail = s.fw.postDetail := by
  simp only [State.report]; split
  · rfl
  · split
    · rfl
    · split
      · simp
      · rfl
@[simp] theorem State.report_fw_reasm : (s.report r).fw.reasm = s.fw.reasm := by
  simp only [State.report]; split
  · rfl
  · split
    · rfl
    · split
      · simp
      · rfl
@[simp] theorem State.report_fw_mctpAddr : (s.report r).fw.mctpAddr = s.fw.mctpAddr := by
  simp only [State.report]; split
  · rfl
  · split
    · rfl
    · split
      · simp
      · rfl
@[simp] theorem State.report_sec : (s.report r).sec = s.sec := by
  simp only [State.report]; split
  · rfl
  · split
    · rfl
    · split
      · simp
      · rfl
@[simp] theorem State.report_pwr : (s.report r).pwr = s.pwr := by
  simp only [State.report]; split
  · rfl
  · split
    · rfl
    · split
      · simp
      · rfl
@[simp] theorem State.report_cal : (s.report r).cal = s.cal := by
  simp only [State.report]; split
  · rfl
  · split
    · rfl
    · split
      · simp
      · rfl
@[simp] theorem State.report_cell (b : Nat) : (s.report r).cell b = s.cell b := by simp [State.cell]
@[simp] theorem State.report_norm (b : Nat) : (s.report r).norm b = s.norm b := by simp [State.norm]
@[simp] theorem State.report_tile (b : Nat) : (s.report r).tile b = s.tile b := by simp [State.tile]
@[simp] theorem State.report_tier (b : Nat) : (s.report r).tier b = s.tier b := by simp [State.tier]
@[simp] theorem State.report_block (b : Nat) : (s.report r).block b = s.block b := by simp [State.block]
@[simp] theorem State.report_slot (b : Nat) : (s.report r).slot b = s.slot b := by simp [State.slot]
@[simp] theorem State.report_port (b : Nat) : (s.report r).port b = s.port b := by simp [State.port]
@[simp] theorem State.report_alloc (b : Nat) : (s.report r).alloc b = s.alloc b := by simp [State.alloc]
@[simp] theorem State.report_tensor (b : Nat) : (s.report r).tensor b = s.tensor b := by simp [State.tensor]
@[simp] theorem State.report_box (b : Nat) : (s.report r).box b = s.box b := by simp [State.box]
@[simp] theorem State.report_tok (b : Nat) : (s.report r).tok b = s.tok b := by simp [State.tok]
@[simp] theorem State.report_supply (b : Nat) : (s.report r).supply b = s.supply b := by simp [State.supply]
@[simp] theorem State.report_scrubber (b : Nat) : (s.report r).scrubber b = s.scrubber b := by simp [State.scrubber]
@[simp] theorem State.report_calR (b : Nat) : (s.report r).calR b = s.calR b := by simp [State.calR]
@[simp] theorem State.report_rdByte (sp' : Space) (b : Nat) : (s.report r).rdByte sp' b = s.rdByte sp' b := by cases sp' <;> simp [State.rdByte]
end

/-! ### raise -/
section
variable (s : State) (c k u : Nat)
@[simp] theorem State.raise_pending : (s.raise c k u).pending = s.pending := by simp [State.raise]
@[simp] theorem State.raise_draws : (s.raise c k u).draws = s.draws := by simp [State.raise]
@[simp] theorem State.raise_dev : (s.raise c k u).dev = s.dev := by simp [State.raise]
@[simp] theorem State.raise_resetN : (s.raise c k u).resetN = s.resetN := by simp [State.raise]
@[simp] theorem State.raise_monitor : (s.raise c k u).monitor = s.monitor := by simp [State.raise]
@[simp] theorem State.raise_mpUp : (s.raise c k u).mpUp = s.mpUp := by simp [State.raise]
@[simp] theorem State.raise_hostUp : (s.raise c k u).hostUp = s.hostUp := by simp [State.raise]
@[simp] theorem State.raise_time : (s.raise c k u).time = s.time := by simp [State.raise]
@[simp] theorem State.raise_store_cells : (s.raise c k u).store.cells = s.store.cells := by simp [State.raise]
@[simp] theorem State.raise_store_bstore : (s.raise c k u).store.bstore = s.store.bstore := by simp [State.raise]
@[simp] theorem State.raise_store_hbm : (s.raise c k u).store.hbm = s.store.hbm := by simp [State.raise]
@[simp] theorem State.raise_store_host : (s.raise c k u).store.host = s.store.host := by simp [State.raise]
@[simp] theorem State.raise_store_norms : (s.raise c k u).store.norms = s.store.norms := by simp [State.raise]
@[simp] theorem State.raise_capHi : (s.raise c k u).capHi = s.capHi := by simp [State.raise]
@[simp] theorem State.raise_lowHalf : (s.raise c k u).lowHalf = s.lowHalf := by simp [State.raise]
@[simp] theorem State.raise_hostLock : (s.raise c k u).hostLock = s.hostLock := by simp [State.raise]
@[simp] theorem State.raise_mpLock : (s.raise c k u).mpLock = s.mpLock := by simp [State.raise]
@[simp] theorem State.raise_mpBcast : (s.raise c k u).mpBcast = s.mpBcast := by simp [State.raise]
@[simp] theorem State.raise_tiles : (s.raise c k u).tiles = s.tiles := by simp [State.raise]
@[simp] theorem State.raise_tiers : (s.raise c k u).tiers = s.tiers := by simp [State.raise]
@[simp] theorem State.raise_blocks : (s.raise c k u).blocks = s.blocks := by simp [State.raise]
@[simp] theorem State.raise_hbmPoison : (s.raise c k u).hbmPoison = s.hbmPoison := by simp [State.raise]
@[simp] theorem State.raise_bsPoison : (s.raise c k u).bsPoison = s.bsPoison := by simp [State.raise]
@[simp] theorem State.raise_allocs : (s.raise c k u).allocs = s.allocs := by simp [State.raise]
@[simp] theorem State.raise_arb : (s.raise c k u).arb = s.arb := by simp [State.raise]
@[simp] theorem State.raise_scrub : (s.raise c k u).scrub = s.scrub := by simp [State.raise]
@[simp] theorem State.raise_toks : (s.raise c k u).toks = s.toks := by simp [State.raise]
@[simp] theorem State.raise_schedPtr : (s.raise c k u).schedPtr = s.schedPtr := by simp [State.raise]
@[simp] theorem State.raise_sigs : (s.raise c k u).sigs = s.sigs := by simp [State.raise]
@[simp] theorem State.raise_slots : (s.raise c k u).slots = s.slots := by simp [State.raise]
@[simp] theorem State.raise_fab : (s.raise c k u).fab = s.fab := by simp [State.raise]
@[simp] theorem State.raise_jrn : (s.raise c k u).jrn = s.jrn := by simp [State.raise]
@[simp] theorem State.raise_part : (s.raise c k u).part = s.part := by simp [State.raise]
@[simp] theorem State.raise_fw_boxes : (s.raise c k u).fw.boxes = s.fw.boxes := by simp [State.raise]
@[simp] theorem State.raise_fw_ptr : (s.raise c k u).fw.ptr = s.fw.ptr := by simp [State.raise]
@[simp] theorem State.raise_fw_ops : (s.raise c k u).fw.ops = s.fw.ops := by simp [State.raise]
@[simp] theorem State.raise_fw_nextOph : (s.raise c k u).fw.nextOph = s.fw.nextOph := by simp [State.raise]
@[simp] theorem State.raise_fw_notices : (s.raise c k u).fw.notices = s.fw.notices := by simp [State.raise]
@[simp] theorem State.raise_fw_subs : (s.raise c k u).fw.subs = s.fw.subs := by simp [State.raise]
@[simp] theorem State.raise_fw_manager : (s.raise c k u).fw.manager = s.fw.manager := by simp [State.raise]
@[simp] theorem State.raise_fw_overruns : (s.raise c k u).fw.overruns = s.fw.overruns := by simp [State.raise]
@[simp] theorem State.raise_fw_tensors : (s.raise c k u).fw.tensors = s.fw.tensors := by simp [State.raise]
@[simp] theorem State.raise_fw_cfgStage : (s.raise c k u).fw.cfgStage = s.fw.cfgStage := by simp [State.raise]
@[simp] theorem State.raise_fw_cfg : (s.raise c k u).fw.cfg = s.fw.cfg := by simp [State.raise]
@[simp] theorem State.raise_fw_locals : (s.raise c k u).fw.locals = s.fw.locals := by simp [State.raise]
@[simp] theorem State.raise_fw_commitLog : (s.raise c k u).fw.commitLog = s.fw.commitLog := by simp [State.raise]
@[simp] theorem State.raise_fw_commitMs : (s.raise c k u).fw.commitMs = s.fw.commitMs := by simp [State.raise]
@[simp] theorem State.raise_fw_tests : (s.raise c k u).fw.tests = s.fw.tests := by simp [State.raise]
@[simp] theorem State.raise_fw_drainMs : (s.raise c k u).fw.drainMs = s.fw.drainMs := by simp [State.raise]
@[simp] theorem State.raise_fw_causeSeq : (s.raise c k u).fw.causeSeq = s.fw.causeSeq := by simp [State.raise]
@[simp] theorem State.raise_fw_postTest : (s.raise c k u).fw.postTest = s.fw.postTest := by simp [State.raise]
@[simp] theorem State.raise_fw_postKind : (s.raise c k u).fw.postKind = s.fw.postKind := by simp [State.raise]
@[simp] theorem State.raise_fw_postUnit : (s.raise c k u).fw.postUnit = s.fw.postUnit := by simp [State.raise]
@[simp] theorem State.raise_fw_postDetail : (s.raise c k u).fw.postDetail = s.fw.postDetail := by simp [State.raise]
@[simp] theorem State.raise_fw_reasm : (s.raise c k u).fw.reasm = s.fw.reasm := by simp [State.raise]
@[simp] theorem State.raise_fw_mctpAddr : (s.raise c k u).fw.mctpAddr = s.fw.mctpAddr := by simp [State.raise]
@[simp] theorem State.raise_sec : (s.raise c k u).sec = s.sec := by simp [State.raise]
@[simp] theorem State.raise_pwr : (s.raise c k u).pwr = s.pwr := by simp [State.raise]
@[simp] theorem State.raise_cal : (s.raise c k u).cal = s.cal := by simp [State.raise]
@[simp] theorem State.raise_cell (b : Nat) : (s.raise c k u).cell b = s.cell b := by simp [State.cell]
@[simp] theorem State.raise_norm (b : Nat) : (s.raise c k u).norm b = s.norm b := by simp [State.norm]
@[simp] theorem State.raise_tile (b : Nat) : (s.raise c k u).tile b = s.tile b := by simp [State.tile]
@[simp] theorem State.raise_tier (b : Nat) : (s.raise c k u).tier b = s.tier b := by simp [State.tier]
@[simp] theorem State.raise_block (b : Nat) : (s.raise c k u).block b = s.block b := by simp [State.block]
@[simp] theorem State.raise_slot (b : Nat) : (s.raise c k u).slot b = s.slot b := by simp [State.slot]
@[simp] theorem State.raise_port (b : Nat) : (s.raise c k u).port b = s.port b := by simp [State.port]
@[simp] theorem State.raise_alloc (b : Nat) : (s.raise c k u).alloc b = s.alloc b := by simp [State.alloc]
@[simp] theorem State.raise_tensor (b : Nat) : (s.raise c k u).tensor b = s.tensor b := by simp [State.tensor]
@[simp] theorem State.raise_box (b : Nat) : (s.raise c k u).box b = s.box b := by simp [State.box]
@[simp] theorem State.raise_tok (b : Nat) : (s.raise c k u).tok b = s.tok b := by simp [State.tok]
@[simp] theorem State.raise_supply (b : Nat) : (s.raise c k u).supply b = s.supply b := by simp [State.supply]
@[simp] theorem State.raise_scrubber (b : Nat) : (s.raise c k u).scrubber b = s.scrubber b := by simp [State.scrubber]
@[simp] theorem State.raise_calR (b : Nat) : (s.raise c k u).calR b = s.calR b := by simp [State.calR]
@[simp] theorem State.raise_rdByte (sp' : Space) (b : Nat) : (s.raise c k u).rdByte sp' b = s.rdByte sp' b := by cases sp' <;> simp [State.rdByte]
end

/-! ### raiseJ -/
section
variable (s : State) (c k u j t : Nat)
@[simp] theorem State.raiseJ_pending : (s.raiseJ c k u j t).pending = s.pending := by simp [State.raiseJ]
@[simp] theorem State.raiseJ_draws : (s.raiseJ c k u j t).draws = s.draws := by simp [State.raiseJ]
@[simp] theorem State.raiseJ_dev : (s.raiseJ c k u j t).dev = s.dev := by simp [State.raiseJ]
@[simp] theorem State.raiseJ_resetN : (s.raiseJ c k u j t).resetN = s.resetN := by simp [State.raiseJ]
@[simp] theorem State.raiseJ_monitor : (s.raiseJ c k u j t).monitor = s.monitor := by simp [State.raiseJ]
@[simp] theorem State.raiseJ_mpUp : (s.raiseJ c k u j t).mpUp = s.mpUp := by simp [State.raiseJ]
@[simp] theorem State.raiseJ_hostUp : (s.raiseJ c k u j t).hostUp = s.hostUp := by simp [State.raiseJ]
@[simp] theorem State.raiseJ_time : (s.raiseJ c k u j t).time = s.time := by simp [State.raiseJ]
@[simp] theorem State.raiseJ_store_cells : (s.raiseJ c k u j t).store.cells = s.store.cells := by simp [State.raiseJ]
@[simp] theorem State.raiseJ_store_bstore : (s.raiseJ c k u j t).store.bstore = s.store.bstore := by simp [State.raiseJ]
@[simp] theorem State.raiseJ_store_hbm : (s.raiseJ c k u j t).store.hbm = s.store.hbm := by simp [State.raiseJ]
@[simp] theorem State.raiseJ_store_host : (s.raiseJ c k u j t).store.host = s.store.host := by simp [State.raiseJ]
@[simp] theorem State.raiseJ_store_norms : (s.raiseJ c k u j t).store.norms = s.store.norms := by simp [State.raiseJ]
@[simp] theorem State.raiseJ_capHi : (s.raiseJ c k u j t).capHi = s.capHi := by simp [State.raiseJ]
@[simp] theorem State.raiseJ_lowHalf : (s.raiseJ c k u j t).lowHalf = s.lowHalf := by simp [State.raiseJ]
@[simp] theorem State.raiseJ_hostLock : (s.raiseJ c k u j t).hostLock = s.hostLock := by simp [State.raiseJ]
@[simp] theorem State.raiseJ_mpLock : (s.raiseJ c k u j t).mpLock = s.mpLock := by simp [State.raiseJ]
@[simp] theorem State.raiseJ_mpBcast : (s.raiseJ c k u j t).mpBcast = s.mpBcast := by simp [State.raiseJ]
@[simp] theorem State.raiseJ_tiles : (s.raiseJ c k u j t).tiles = s.tiles := by simp [State.raiseJ]
@[simp] theorem State.raiseJ_tiers : (s.raiseJ c k u j t).tiers = s.tiers := by simp [State.raiseJ]
@[simp] theorem State.raiseJ_blocks : (s.raiseJ c k u j t).blocks = s.blocks := by simp [State.raiseJ]
@[simp] theorem State.raiseJ_hbmPoison : (s.raiseJ c k u j t).hbmPoison = s.hbmPoison := by simp [State.raiseJ]
@[simp] theorem State.raiseJ_bsPoison : (s.raiseJ c k u j t).bsPoison = s.bsPoison := by simp [State.raiseJ]
@[simp] theorem State.raiseJ_allocs : (s.raiseJ c k u j t).allocs = s.allocs := by simp [State.raiseJ]
@[simp] theorem State.raiseJ_arb : (s.raiseJ c k u j t).arb = s.arb := by simp [State.raiseJ]
@[simp] theorem State.raiseJ_scrub : (s.raiseJ c k u j t).scrub = s.scrub := by simp [State.raiseJ]
@[simp] theorem State.raiseJ_toks : (s.raiseJ c k u j t).toks = s.toks := by simp [State.raiseJ]
@[simp] theorem State.raiseJ_schedPtr : (s.raiseJ c k u j t).schedPtr = s.schedPtr := by simp [State.raiseJ]
@[simp] theorem State.raiseJ_sigs : (s.raiseJ c k u j t).sigs = s.sigs := by simp [State.raiseJ]
@[simp] theorem State.raiseJ_slots : (s.raiseJ c k u j t).slots = s.slots := by simp [State.raiseJ]
@[simp] theorem State.raiseJ_fab : (s.raiseJ c k u j t).fab = s.fab := by simp [State.raiseJ]
@[simp] theorem State.raiseJ_jrn : (s.raiseJ c k u j t).jrn = s.jrn := by simp [State.raiseJ]
@[simp] theorem State.raiseJ_part : (s.raiseJ c k u j t).part = s.part := by simp [State.raiseJ]
@[simp] theorem State.raiseJ_fw_boxes : (s.raiseJ c k u j t).fw.boxes = s.fw.boxes := by simp [State.raiseJ]
@[simp] theorem State.raiseJ_fw_ptr : (s.raiseJ c k u j t).fw.ptr = s.fw.ptr := by simp [State.raiseJ]
@[simp] theorem State.raiseJ_fw_ops : (s.raiseJ c k u j t).fw.ops = s.fw.ops := by simp [State.raiseJ]
@[simp] theorem State.raiseJ_fw_nextOph : (s.raiseJ c k u j t).fw.nextOph = s.fw.nextOph := by simp [State.raiseJ]
@[simp] theorem State.raiseJ_fw_notices : (s.raiseJ c k u j t).fw.notices = s.fw.notices := by simp [State.raiseJ]
@[simp] theorem State.raiseJ_fw_subs : (s.raiseJ c k u j t).fw.subs = s.fw.subs := by simp [State.raiseJ]
@[simp] theorem State.raiseJ_fw_manager : (s.raiseJ c k u j t).fw.manager = s.fw.manager := by simp [State.raiseJ]
@[simp] theorem State.raiseJ_fw_overruns : (s.raiseJ c k u j t).fw.overruns = s.fw.overruns := by simp [State.raiseJ]
@[simp] theorem State.raiseJ_fw_tensors : (s.raiseJ c k u j t).fw.tensors = s.fw.tensors := by simp [State.raiseJ]
@[simp] theorem State.raiseJ_fw_cfgStage : (s.raiseJ c k u j t).fw.cfgStage = s.fw.cfgStage := by simp [State.raiseJ]
@[simp] theorem State.raiseJ_fw_cfg : (s.raiseJ c k u j t).fw.cfg = s.fw.cfg := by simp [State.raiseJ]
@[simp] theorem State.raiseJ_fw_locals : (s.raiseJ c k u j t).fw.locals = s.fw.locals := by simp [State.raiseJ]
@[simp] theorem State.raiseJ_fw_commitLog : (s.raiseJ c k u j t).fw.commitLog = s.fw.commitLog := by simp [State.raiseJ]
@[simp] theorem State.raiseJ_fw_commitMs : (s.raiseJ c k u j t).fw.commitMs = s.fw.commitMs := by simp [State.raiseJ]
@[simp] theorem State.raiseJ_fw_tests : (s.raiseJ c k u j t).fw.tests = s.fw.tests := by simp [State.raiseJ]
@[simp] theorem State.raiseJ_fw_drainMs : (s.raiseJ c k u j t).fw.drainMs = s.fw.drainMs := by simp [State.raiseJ]
@[simp] theorem State.raiseJ_fw_causeSeq : (s.raiseJ c k u j t).fw.causeSeq = s.fw.causeSeq := by simp [State.raiseJ]
@[simp] theorem State.raiseJ_fw_postTest : (s.raiseJ c k u j t).fw.postTest = s.fw.postTest := by simp [State.raiseJ]
@[simp] theorem State.raiseJ_fw_postKind : (s.raiseJ c k u j t).fw.postKind = s.fw.postKind := by simp [State.raiseJ]
@[simp] theorem State.raiseJ_fw_postUnit : (s.raiseJ c k u j t).fw.postUnit = s.fw.postUnit := by simp [State.raiseJ]
@[simp] theorem State.raiseJ_fw_postDetail : (s.raiseJ c k u j t).fw.postDetail = s.fw.postDetail := by simp [State.raiseJ]
@[simp] theorem State.raiseJ_fw_reasm : (s.raiseJ c k u j t).fw.reasm = s.fw.reasm := by simp [State.raiseJ]
@[simp] theorem State.raiseJ_fw_mctpAddr : (s.raiseJ c k u j t).fw.mctpAddr = s.fw.mctpAddr := by simp [State.raiseJ]
@[simp] theorem State.raiseJ_sec : (s.raiseJ c k u j t).sec = s.sec := by simp [State.raiseJ]
@[simp] theorem State.raiseJ_pwr : (s.raiseJ c k u j t).pwr = s.pwr := by simp [State.raiseJ]
@[simp] theorem State.raiseJ_cal : (s.raiseJ c k u j t).cal = s.cal := by simp [State.raiseJ]
@[simp] theorem State.raiseJ_cell (b : Nat) : (s.raiseJ c k u j t).cell b = s.cell b := by simp [State.cell]
@[simp] theorem State.raiseJ_norm (b : Nat) : (s.raiseJ c k u j t).norm b = s.norm b := by simp [State.norm]
@[simp] theorem State.raiseJ_tile (b : Nat) : (s.raiseJ c k u j t).tile b = s.tile b := by simp [State.tile]
@[simp] theorem State.raiseJ_tier (b : Nat) : (s.raiseJ c k u j t).tier b = s.tier b := by simp [State.tier]
@[simp] theorem State.raiseJ_block (b : Nat) : (s.raiseJ c k u j t).block b = s.block b := by simp [State.block]
@[simp] theorem State.raiseJ_slot (b : Nat) : (s.raiseJ c k u j t).slot b = s.slot b := by simp [State.slot]
@[simp] theorem State.raiseJ_port (b : Nat) : (s.raiseJ c k u j t).port b = s.port b := by simp [State.port]
@[simp] theorem State.raiseJ_alloc (b : Nat) : (s.raiseJ c k u j t).alloc b = s.alloc b := by simp [State.alloc]
@[simp] theorem State.raiseJ_tensor (b : Nat) : (s.raiseJ c k u j t).tensor b = s.tensor b := by simp [State.tensor]
@[simp] theorem State.raiseJ_box (b : Nat) : (s.raiseJ c k u j t).box b = s.box b := by simp [State.box]
@[simp] theorem State.raiseJ_tok (b : Nat) : (s.raiseJ c k u j t).tok b = s.tok b := by simp [State.tok]
@[simp] theorem State.raiseJ_supply (b : Nat) : (s.raiseJ c k u j t).supply b = s.supply b := by simp [State.supply]
@[simp] theorem State.raiseJ_scrubber (b : Nat) : (s.raiseJ c k u j t).scrubber b = s.scrubber b := by simp [State.scrubber]
@[simp] theorem State.raiseJ_calR (b : Nat) : (s.raiseJ c k u j t).calR b = s.calR b := by simp [State.calR]
@[simp] theorem State.raiseJ_rdByte (sp' : Space) (b : Nat) : (s.raiseJ c k u j t).rdByte sp' b = s.rdByte sp' b := by cases sp' <;> simp [State.rdByte]
end

/-! ### memFault -/
section
variable (s : State) (sp : Space) (a : Nat) (d : Bool)
@[simp] theorem State.memFault_pending : (s.memFault sp a d).pending = s.pending := by
  cases sp <;> simp only [State.memFault] <;> split <;> simp
@[simp] theorem State.memFault_draws : (s.memFault sp a d).draws = s.draws := by
  cases sp <;> simp only [State.memFault] <;> split <;> simp
@[simp] theorem State.memFault_dev : (s.memFault sp a d).dev = s.dev := by
  cases sp <;> simp only [State.memFault] <;> split <;> simp
@[simp] theorem State.memFault_resetN : (s.memFault sp a d).resetN = s.resetN := by
  cases sp <;> simp only [State.memFault] <;> split <;> simp
@[simp] theorem State.memFault_monitor : (s.memFault sp a d).monitor = s.monitor := by
  cases sp <;> simp only [State.memFault] <;> split <;> simp
@[simp] theorem State.memFault_mpUp : (s.memFault sp a d).mpUp = s.mpUp := by
  cases sp <;> simp only [State.memFault] <;> split <;> simp
@[simp] theorem State.memFault_hostUp : (s.memFault sp a d).hostUp = s.hostUp := by
  cases sp <;> simp only [State.memFault] <;> split <;> simp
@[simp] theorem State.memFault_time : (s.memFault sp a d).time = s.time := by
  cases sp <;> simp only [State.memFault] <;> split <;> simp
@[simp] theorem State.memFault_store_cells : (s.memFault sp a d).store.cells = s.store.cells := by
  cases sp <;> simp only [State.memFault] <;> split <;> simp
@[simp] theorem State.memFault_store_bstore : (s.memFault sp a d).store.bstore = s.store.bstore := by
  cases sp <;> simp only [State.memFault] <;> split <;> simp
@[simp] theorem State.memFault_store_hbm : (s.memFault sp a d).store.hbm = s.store.hbm := by
  cases sp <;> simp only [State.memFault] <;> split <;> simp
@[simp] theorem State.memFault_store_host : (s.memFault sp a d).store.host = s.store.host := by
  cases sp <;> simp only [State.memFault] <;> split <;> simp
@[simp] theorem State.memFault_store_norms : (s.memFault sp a d).store.norms = s.store.norms := by
  cases sp <;> simp only [State.memFault] <;> split <;> simp
@[simp] theorem State.memFault_capHi : (s.memFault sp a d).capHi = s.capHi := by
  cases sp <;> simp only [State.memFault] <;> split <;> simp
@[simp] theorem State.memFault_lowHalf : (s.memFault sp a d).lowHalf = s.lowHalf := by
  cases sp <;> simp only [State.memFault] <;> split <;> simp
@[simp] theorem State.memFault_hostLock : (s.memFault sp a d).hostLock = s.hostLock := by
  cases sp <;> simp only [State.memFault] <;> split <;> simp
@[simp] theorem State.memFault_mpLock : (s.memFault sp a d).mpLock = s.mpLock := by
  cases sp <;> simp only [State.memFault] <;> split <;> simp
@[simp] theorem State.memFault_mpBcast : (s.memFault sp a d).mpBcast = s.mpBcast := by
  cases sp <;> simp only [State.memFault] <;> split <;> simp
@[simp] theorem State.memFault_tiles : (s.memFault sp a d).tiles = s.tiles := by
  cases sp <;> simp only [State.memFault] <;> split <;> simp
@[simp] theorem State.memFault_tiers : (s.memFault sp a d).tiers = s.tiers := by
  cases sp <;> simp only [State.memFault] <;> split <;> simp
@[simp] theorem State.memFault_blocks : (s.memFault sp a d).blocks = s.blocks := by
  cases sp <;> simp only [State.memFault] <;> split <;> simp
@[simp] theorem State.memFault_allocs : (s.memFault sp a d).allocs = s.allocs := by
  cases sp <;> simp only [State.memFault] <;> split <;> simp
@[simp] theorem State.memFault_arb : (s.memFault sp a d).arb = s.arb := by
  cases sp <;> simp only [State.memFault] <;> split <;> simp
@[simp] theorem State.memFault_scrub : (s.memFault sp a d).scrub = s.scrub := by
  cases sp <;> simp only [State.memFault] <;> split <;> simp
@[simp] theorem State.memFault_toks : (s.memFault sp a d).toks = s.toks := by
  cases sp <;> simp only [State.memFault] <;> split <;> simp
@[simp] theorem State.memFault_schedPtr : (s.memFault sp a d).schedPtr = s.schedPtr := by
  cases sp <;> simp only [State.memFault] <;> split <;> simp
@[simp] theorem State.memFault_sigs : (s.memFault sp a d).sigs = s.sigs := by
  cases sp <;> simp only [State.memFault] <;> split <;> simp
@[simp] theorem State.memFault_slots : (s.memFault sp a d).slots = s.slots := by
  cases sp <;> simp only [State.memFault] <;> split <;> simp
@[simp] theorem State.memFault_fab : (s.memFault sp a d).fab = s.fab := by
  cases sp <;> simp only [State.memFault] <;> split <;> simp
@[simp] theorem State.memFault_jrn : (s.memFault sp a d).jrn = s.jrn := by
  cases sp <;> simp only [State.memFault] <;> split <;> simp
@[simp] theorem State.memFault_part : (s.memFault sp a d).part = s.part := by
  cases sp <;> simp only [State.memFault] <;> split <;> simp
@[simp] theorem State.memFault_fw_boxes : (s.memFault sp a d).fw.boxes = s.fw.boxes := by
  cases sp <;> simp only [State.memFault] <;> split <;> simp
@[simp] theorem State.memFault_fw_ptr : (s.memFault sp a d).fw.ptr = s.fw.ptr := by
  cases sp <;> simp only [State.memFault] <;> split <;> simp
@[simp] theorem State.memFault_fw_ops : (s.memFault sp a d).fw.ops = s.fw.ops := by
  cases sp <;> simp only [State.memFault] <;> split <;> simp
@[simp] theorem State.memFault_fw_nextOph : (s.memFault sp a d).fw.nextOph = s.fw.nextOph := by
  cases sp <;> simp only [State.memFault] <;> split <;> simp
@[simp] theorem State.memFault_fw_notices : (s.memFault sp a d).fw.notices = s.fw.notices := by
  cases sp <;> simp only [State.memFault] <;> split <;> simp
@[simp] theorem State.memFault_fw_subs : (s.memFault sp a d).fw.subs = s.fw.subs := by
  cases sp <;> simp only [State.memFault] <;> split <;> simp
@[simp] theorem State.memFault_fw_manager : (s.memFault sp a d).fw.manager = s.fw.manager := by
  cases sp <;> simp only [State.memFault] <;> split <;> simp
@[simp] theorem State.memFault_fw_overruns : (s.memFault sp a d).fw.overruns = s.fw.overruns := by
  cases sp <;> simp only [State.memFault] <;> split <;> simp
@[simp] theorem State.memFault_fw_tensors : (s.memFault sp a d).fw.tensors = s.fw.tensors := by
  cases sp <;> simp only [State.memFault] <;> split <;> simp
@[simp] theorem State.memFault_fw_cfgStage : (s.memFault sp a d).fw.cfgStage = s.fw.cfgStage := by
  cases sp <;> simp only [State.memFault] <;> split <;> simp
@[simp] theorem State.memFault_fw_cfg : (s.memFault sp a d).fw.cfg = s.fw.cfg := by
  cases sp <;> simp only [State.memFault] <;> split <;> simp
@[simp] theorem State.memFault_fw_locals : (s.memFault sp a d).fw.locals = s.fw.locals := by
  cases sp <;> simp only [State.memFault] <;> split <;> simp
@[simp] theorem State.memFault_fw_commitLog : (s.memFault sp a d).fw.commitLog = s.fw.commitLog := by
  cases sp <;> simp only [State.memFault] <;> split <;> simp
@[simp] theorem State.memFault_fw_commitMs : (s.memFault sp a d).fw.commitMs = s.fw.commitMs := by
  cases sp <;> simp only [State.memFault] <;> split <;> simp
@[simp] theorem State.memFault_fw_tests : (s.memFault sp a d).fw.tests = s.fw.tests := by
  cases sp <;> simp only [State.memFault] <;> split <;> simp
@[simp] theorem State.memFault_fw_drainMs : (s.memFault sp a d).fw.drainMs = s.fw.drainMs := by
  cases sp <;> simp only [State.memFault] <;> split <;> simp
@[simp] theorem State.memFault_fw_causeSeq : (s.memFault sp a d).fw.causeSeq = s.fw.causeSeq := by
  cases sp <;> simp only [State.memFault] <;> split <;> simp
@[simp] theorem State.memFault_fw_postTest : (s.memFault sp a d).fw.postTest = s.fw.postTest := by
  cases sp <;> simp only [State.memFault] <;> split <;> simp
@[simp] theorem State.memFault_fw_postKind : (s.memFault sp a d).fw.postKind = s.fw.postKind := by
  cases sp <;> simp only [State.memFault] <;> split <;> simp
@[simp] theorem State.memFault_fw_postUnit : (s.memFault sp a d).fw.postUnit = s.fw.postUnit := by
  cases sp <;> simp only [State.memFault] <;> split <;> simp
@[simp] theorem State.memFault_fw_postDetail : (s.memFault sp a d).fw.postDetail = s.fw.postDetail := by
  cases sp <;> simp only [State.memFault] <;> split <;> simp
@[simp] theorem State.memFault_fw_reasm : (s.memFault sp a d).fw.reasm = s.fw.reasm := by
  cases sp <;> simp only [State.memFault] <;> split <;> simp
@[simp] theorem State.memFault_fw_mctpAddr : (s.memFault sp a d).fw.mctpAddr = s.fw.mctpAddr := by
  cases sp <;> simp only [State.memFault] <;> split <;> simp
@[simp] theorem State.memFault_sec : (s.memFault sp a d).sec = s.sec := by
  cases sp <;> simp only [State.memFault] <;> split <;> simp
@[simp] theorem State.memFault_pwr : (s.memFault sp a d).pwr = s.pwr := by
  cases sp <;> simp only [State.memFault] <;> split <;> simp
@[simp] theorem State.memFault_cal : (s.memFault sp a d).cal = s.cal := by
  cases sp <;> simp only [State.memFault] <;> split <;> simp
@[simp] theorem State.memFault_cell (b : Nat) : (s.memFault sp a d).cell b = s.cell b := by simp [State.cell]
@[simp] theorem State.memFault_norm (b : Nat) : (s.memFault sp a d).norm b = s.norm b := by simp [State.norm]
@[simp] theorem State.memFault_tile (b : Nat) : (s.memFault sp a d).tile b = s.tile b := by simp [State.tile]
@[simp] theorem State.memFault_tier (b : Nat) : (s.memFault sp a d).tier b = s.tier b := by simp [State.tier]
@[simp] theorem State.memFault_block (b : Nat) : (s.memFault sp a d).block b = s.block b := by simp [State.block]
@[simp] theorem State.memFault_slot (b : Nat) : (s.memFault sp a d).slot b = s.slot b := by simp [State.slot]
@[simp] theorem State.memFault_port (b : Nat) : (s.memFault sp a d).port b = s.port b := by simp [State.port]
@[simp] theorem State.memFault_alloc (b : Nat) : (s.memFault sp a d).alloc b = s.alloc b := by simp [State.alloc]
@[simp] theorem State.memFault_tensor (b : Nat) : (s.memFault sp a d).tensor b = s.tensor b := by simp [State.tensor]
@[simp] theorem State.memFault_box (b : Nat) : (s.memFault sp a d).box b = s.box b := by simp [State.box]
@[simp] theorem State.memFault_tok (b : Nat) : (s.memFault sp a d).tok b = s.tok b := by simp [State.tok]
@[simp] theorem State.memFault_supply (b : Nat) : (s.memFault sp a d).supply b = s.supply b := by simp [State.supply]
@[simp] theorem State.memFault_scrubber (b : Nat) : (s.memFault sp a d).scrubber b = s.scrubber b := by simp [State.scrubber]
@[simp] theorem State.memFault_calR (b : Nat) : (s.memFault sp a d).calR b = s.calR b := by simp [State.calR]
@[simp] theorem State.memFault_rdByte (sp' : Space) (b : Nat) : (s.memFault sp a d).rdByte sp' b = s.rdByte sp' b := by cases sp' <;> simp [State.rdByte]
end

/-! ### jWithheld -/
section
variable (s : State) 
@[simp] theorem State.jWithheld_pending : (s.jWithheld).pending = s.pending := by
  simp only [State.jWithheld]; split <;> simp
@[simp] theorem State.jWithheld_draws : (s.jWithheld).draws = s.draws := by
  simp only [State.jWithheld]; split <;> simp
@[simp] theorem State.jWithheld_dev : (s.jWithheld).dev = s.dev := by
  simp only [State.jWithheld]; split <;> simp
@[simp] theorem State.jWithheld_resetN : (s.jWithheld).resetN = s.resetN := by
  simp only [State.jWithheld]; split <;> simp
@[simp] theorem State.jWithheld_monitor : (s.jWithheld).monitor = s.monitor := by
  simp only [State.jWithheld]; split <;> simp
@[simp] theorem State.jWithheld_mpUp : (s.jWithheld).mpUp = s.mpUp := by
  simp only [State.jWithheld]; split <;> simp
@[simp] theorem State.jWithheld_hostUp : (s.jWithheld).hostUp = s.hostUp := by
  simp only [State.jWithheld]; split <;> simp
@[simp] theorem State.jWithheld_time : (s.jWithheld).time = s.time := by
  simp only [State.jWithheld]; split <;> simp
@[simp] theorem State.jWithheld_store_cells : (s.jWithheld).store.cells = s.store.cells := by
  simp only [State.jWithheld]; split <;> simp
@[simp] theorem State.jWithheld_store_bstore : (s.jWithheld).store.bstore = s.store.bstore := by
  simp only [State.jWithheld]; split <;> simp
@[simp] theorem State.jWithheld_store_hbm : (s.jWithheld).store.hbm = s.store.hbm := by
  simp only [State.jWithheld]; split <;> simp
@[simp] theorem State.jWithheld_store_host : (s.jWithheld).store.host = s.store.host := by
  simp only [State.jWithheld]; split <;> simp
@[simp] theorem State.jWithheld_store_norms : (s.jWithheld).store.norms = s.store.norms := by
  simp only [State.jWithheld]; split <;> simp
@[simp] theorem State.jWithheld_capHi : (s.jWithheld).capHi = s.capHi := by
  simp only [State.jWithheld]; split <;> simp
@[simp] theorem State.jWithheld_lowHalf : (s.jWithheld).lowHalf = s.lowHalf := by
  simp only [State.jWithheld]; split <;> simp
@[simp] theorem State.jWithheld_hostLock : (s.jWithheld).hostLock = s.hostLock := by
  simp only [State.jWithheld]; split <;> simp
@[simp] theorem State.jWithheld_mpLock : (s.jWithheld).mpLock = s.mpLock := by
  simp only [State.jWithheld]; split <;> simp
@[simp] theorem State.jWithheld_mpBcast : (s.jWithheld).mpBcast = s.mpBcast := by
  simp only [State.jWithheld]; split <;> simp
@[simp] theorem State.jWithheld_tiles : (s.jWithheld).tiles = s.tiles := by
  simp only [State.jWithheld]; split <;> simp
@[simp] theorem State.jWithheld_tiers : (s.jWithheld).tiers = s.tiers := by
  simp only [State.jWithheld]; split <;> simp
@[simp] theorem State.jWithheld_blocks : (s.jWithheld).blocks = s.blocks := by
  simp only [State.jWithheld]; split <;> simp
@[simp] theorem State.jWithheld_hbmPoison : (s.jWithheld).hbmPoison = s.hbmPoison := by
  simp only [State.jWithheld]; split <;> simp
@[simp] theorem State.jWithheld_bsPoison : (s.jWithheld).bsPoison = s.bsPoison := by
  simp only [State.jWithheld]; split <;> simp
@[simp] theorem State.jWithheld_allocs : (s.jWithheld).allocs = s.allocs := by
  simp only [State.jWithheld]; split <;> simp
@[simp] theorem State.jWithheld_arb : (s.jWithheld).arb = s.arb := by
  simp only [State.jWithheld]; split <;> simp
@[simp] theorem State.jWithheld_scrub : (s.jWithheld).scrub = s.scrub := by
  simp only [State.jWithheld]; split <;> simp
@[simp] theorem State.jWithheld_toks : (s.jWithheld).toks = s.toks := by
  simp only [State.jWithheld]; split <;> simp
@[simp] theorem State.jWithheld_schedPtr : (s.jWithheld).schedPtr = s.schedPtr := by
  simp only [State.jWithheld]; split <;> simp
@[simp] theorem State.jWithheld_sigs : (s.jWithheld).sigs = s.sigs := by
  simp only [State.jWithheld]; split <;> simp
@[simp] theorem State.jWithheld_slots : (s.jWithheld).slots = s.slots := by
  simp only [State.jWithheld]; split <;> simp
@[simp] theorem State.jWithheld_fab : (s.jWithheld).fab = s.fab := by
  simp only [State.jWithheld]; split <;> simp
@[simp] theorem State.jWithheld_part : (s.jWithheld).part = s.part := by
  simp only [State.jWithheld]; split <;> simp
@[simp] theorem State.jWithheld_fw_boxes : (s.jWithheld).fw.boxes = s.fw.boxes := by
  simp only [State.jWithheld]; split <;> simp
@[simp] theorem State.jWithheld_fw_ptr : (s.jWithheld).fw.ptr = s.fw.ptr := by
  simp only [State.jWithheld]; split <;> simp
@[simp] theorem State.jWithheld_fw_ops : (s.jWithheld).fw.ops = s.fw.ops := by
  simp only [State.jWithheld]; split <;> simp
@[simp] theorem State.jWithheld_fw_nextOph : (s.jWithheld).fw.nextOph = s.fw.nextOph := by
  simp only [State.jWithheld]; split <;> simp
@[simp] theorem State.jWithheld_fw_notices : (s.jWithheld).fw.notices = s.fw.notices := by
  simp only [State.jWithheld]; split <;> simp
@[simp] theorem State.jWithheld_fw_subs : (s.jWithheld).fw.subs = s.fw.subs := by
  simp only [State.jWithheld]; split <;> simp
@[simp] theorem State.jWithheld_fw_manager : (s.jWithheld).fw.manager = s.fw.manager := by
  simp only [State.jWithheld]; split <;> simp
@[simp] theorem State.jWithheld_fw_overruns : (s.jWithheld).fw.overruns = s.fw.overruns := by
  simp only [State.jWithheld]; split <;> simp
@[simp] theorem State.jWithheld_fw_tensors : (s.jWithheld).fw.tensors = s.fw.tensors := by
  simp only [State.jWithheld]; split <;> simp
@[simp] theorem State.jWithheld_fw_cfgStage : (s.jWithheld).fw.cfgStage = s.fw.cfgStage := by
  simp only [State.jWithheld]; split <;> simp
@[simp] theorem State.jWithheld_fw_cfg : (s.jWithheld).fw.cfg = s.fw.cfg := by
  simp only [State.jWithheld]; split <;> simp
@[simp] theorem State.jWithheld_fw_locals : (s.jWithheld).fw.locals = s.fw.locals := by
  simp only [State.jWithheld]; split <;> simp
@[simp] theorem State.jWithheld_fw_commitLog : (s.jWithheld).fw.commitLog = s.fw.commitLog := by
  simp only [State.jWithheld]; split <;> simp
@[simp] theorem State.jWithheld_fw_commitMs : (s.jWithheld).fw.commitMs = s.fw.commitMs := by
  simp only [State.jWithheld]; split <;> simp
@[simp] theorem State.jWithheld_fw_tests : (s.jWithheld).fw.tests = s.fw.tests := by
  simp only [State.jWithheld]; split <;> simp
@[simp] theorem State.jWithheld_fw_drainMs : (s.jWithheld).fw.drainMs = s.fw.drainMs := by
  simp only [State.jWithheld]; split <;> simp
@[simp] theorem State.jWithheld_fw_causeSeq : (s.jWithheld).fw.causeSeq = s.fw.causeSeq := by
  simp only [State.jWithheld]; split <;> simp
@[simp] theorem State.jWithheld_fw_postTest : (s.jWithheld).fw.postTest = s.fw.postTest := by
  simp only [State.jWithheld]; split <;> simp
@[simp] theorem State.jWithheld_fw_postKind : (s.jWithheld).fw.postKind = s.fw.postKind := by
  simp only [State.jWithheld]; split <;> simp
@[simp] theorem State.jWithheld_fw_postUnit : (s.jWithheld).fw.postUnit = s.fw.postUnit := by
  simp only [State.jWithheld]; split <;> simp
@[simp] theorem State.jWithheld_fw_postDetail : (s.jWithheld).fw.postDetail = s.fw.postDetail := by
  simp only [State.jWithheld]; split <;> simp
@[simp] theorem State.jWithheld_fw_reasm : (s.jWithheld).fw.reasm = s.fw.reasm := by
  simp only [State.jWithheld]; split <;> simp
@[simp] theorem State.jWithheld_fw_mctpAddr : (s.jWithheld).fw.mctpAddr = s.fw.mctpAddr := by
  simp only [State.jWithheld]; split <;> simp
@[simp] theorem State.jWithheld_sec : (s.jWithheld).sec = s.sec := by
  simp only [State.jWithheld]; split <;> simp
@[simp] theorem State.jWithheld_pwr : (s.jWithheld).pwr = s.pwr := by
  simp only [State.jWithheld]; split <;> simp
@[simp] theorem State.jWithheld_cal : (s.jWithheld).cal = s.cal := by
  simp only [State.jWithheld]; split <;> simp
@[simp] theorem State.jWithheld_cell (b : Nat) : (s.jWithheld).cell b = s.cell b := by simp [State.cell]
@[simp] theorem State.jWithheld_norm (b : Nat) : (s.jWithheld).norm b = s.norm b := by simp [State.norm]
@[simp] theorem State.jWithheld_tile (b : Nat) : (s.jWithheld).tile b = s.tile b := by simp [State.tile]
@[simp] theorem State.jWithheld_tier (b : Nat) : (s.jWithheld).tier b = s.tier b := by simp [State.tier]
@[simp] theorem State.jWithheld_block (b : Nat) : (s.jWithheld).block b = s.block b := by simp [State.block]
@[simp] theorem State.jWithheld_slot (b : Nat) : (s.jWithheld).slot b = s.slot b := by simp [State.slot]
@[simp] theorem State.jWithheld_port (b : Nat) : (s.jWithheld).port b = s.port b := by simp [State.port]
@[simp] theorem State.jWithheld_alloc (b : Nat) : (s.jWithheld).alloc b = s.alloc b := by simp [State.alloc]
@[simp] theorem State.jWithheld_tensor (b : Nat) : (s.jWithheld).tensor b = s.tensor b := by simp [State.tensor]
@[simp] theorem State.jWithheld_box (b : Nat) : (s.jWithheld).box b = s.box b := by simp [State.box]
@[simp] theorem State.jWithheld_tok (b : Nat) : (s.jWithheld).tok b = s.tok b := by simp [State.tok]
@[simp] theorem State.jWithheld_supply (b : Nat) : (s.jWithheld).supply b = s.supply b := by simp [State.supply]
@[simp] theorem State.jWithheld_scrubber (b : Nat) : (s.jWithheld).scrubber b = s.scrubber b := by simp [State.scrubber]
@[simp] theorem State.jWithheld_calR (b : Nat) : (s.jWithheld).calR b = s.calR b := by simp [State.calR]
@[simp] theorem State.jWithheld_rdByte (sp' : Space) (b : Nat) : (s.jWithheld).rdByte sp' b = s.rdByte sp' b := by cases sp' <;> simp [State.rdByte]
end

/-! ### jWrite -/
section
variable (s : State) (r : JRec)
@[simp] theorem State.jWrite_pending : (s.jWrite r).pending = s.pending := by
  simp only [State.jWrite]; split <;> simp
@[simp] theorem State.jWrite_draws : (s.jWrite r).draws = s.draws := by
  simp only [State.jWrite]; split <;> simp
@[simp] theorem State.jWrite_dev : (s.jWrite r).dev = s.dev := by
  simp only [State.jWrite]; split <;> simp
@[simp] theorem State.jWrite_resetN : (s.jWrite r).resetN = s.resetN := by
  simp only [State.jWrite]; split <;> simp
@[simp] theorem State.jWrite_monitor : (s.jWrite r).monitor = s.monitor := by
  simp only [State.jWrite]; split <;> simp
@[simp] theorem State.jWrite_mpUp : (s.jWrite r).mpUp = s.mpUp := by
  simp only [State.jWrite]; split <;> simp
@[simp] theorem State.jWrite_hostUp : (s.jWrite r).hostUp = s.hostUp := by
  simp only [State.jWrite]; split <;> simp
@[simp] theorem State.jWrite_time : (s.jWrite r).time = s.time := by
  simp only [State.jWrite]; split <;> simp
@[simp] theorem State.jWrite_store_cells : (s.jWrite r).store.cells = s.store.cells := by
  simp only [State.jWrite]; split <;> simp
@[simp] theorem State.jWrite_store_bstore : (s.jWrite r).store.bstore = s.store.bstore := by
  simp only [State.jWrite]; split <;> simp
@[simp] theorem State.jWrite_store_hbm : (s.jWrite r).store.hbm = s.store.hbm := by
  simp only [State.jWrite]; split <;> simp
@[simp] theorem State.jWrite_store_host : (s.jWrite r).store.host = s.store.host := by
  simp only [State.jWrite]; split <;> simp
@[simp] theorem State.jWrite_store_norms : (s.jWrite r).store.norms = s.store.norms := by
  simp only [State.jWrite]; split <;> simp
@[simp] theorem State.jWrite_capHi : (s.jWrite r).capHi = s.capHi := by
  simp only [State.jWrite]; split <;> simp
@[simp] theorem State.jWrite_lowHalf : (s.jWrite r).lowHalf = s.lowHalf := by
  simp only [State.jWrite]; split <;> simp
@[simp] theorem State.jWrite_hostLock : (s.jWrite r).hostLock = s.hostLock := by
  simp only [State.jWrite]; split <;> simp
@[simp] theorem State.jWrite_mpLock : (s.jWrite r).mpLock = s.mpLock := by
  simp only [State.jWrite]; split <;> simp
@[simp] theorem State.jWrite_mpBcast : (s.jWrite r).mpBcast = s.mpBcast := by
  simp only [State.jWrite]; split <;> simp
@[simp] theorem State.jWrite_tiles : (s.jWrite r).tiles = s.tiles := by
  simp only [State.jWrite]; split <;> simp
@[simp] theorem State.jWrite_tiers : (s.jWrite r).tiers = s.tiers := by
  simp only [State.jWrite]; split <;> simp
@[simp] theorem State.jWrite_blocks : (s.jWrite r).blocks = s.blocks := by
  simp only [State.jWrite]; split <;> simp
@[simp] theorem State.jWrite_hbmPoison : (s.jWrite r).hbmPoison = s.hbmPoison := by
  simp only [State.jWrite]; split <;> simp
@[simp] theorem State.jWrite_bsPoison : (s.jWrite r).bsPoison = s.bsPoison := by
  simp only [State.jWrite]; split <;> simp
@[simp] theorem State.jWrite_allocs : (s.jWrite r).allocs = s.allocs := by
  simp only [State.jWrite]; split <;> simp
@[simp] theorem State.jWrite_arb : (s.jWrite r).arb = s.arb := by
  simp only [State.jWrite]; split <;> simp
@[simp] theorem State.jWrite_scrub : (s.jWrite r).scrub = s.scrub := by
  simp only [State.jWrite]; split <;> simp
@[simp] theorem State.jWrite_toks : (s.jWrite r).toks = s.toks := by
  simp only [State.jWrite]; split <;> simp
@[simp] theorem State.jWrite_schedPtr : (s.jWrite r).schedPtr = s.schedPtr := by
  simp only [State.jWrite]; split <;> simp
@[simp] theorem State.jWrite_sigs : (s.jWrite r).sigs = s.sigs := by
  simp only [State.jWrite]; split <;> simp
@[simp] theorem State.jWrite_slots : (s.jWrite r).slots = s.slots := by
  simp only [State.jWrite]; split <;> simp
@[simp] theorem State.jWrite_fab : (s.jWrite r).fab = s.fab := by
  simp only [State.jWrite]; split <;> simp
@[simp] theorem State.jWrite_part : (s.jWrite r).part = s.part := by
  simp only [State.jWrite]; split <;> simp
@[simp] theorem State.jWrite_fw_boxes : (s.jWrite r).fw.boxes = s.fw.boxes := by
  simp only [State.jWrite]; split <;> simp
@[simp] theorem State.jWrite_fw_ptr : (s.jWrite r).fw.ptr = s.fw.ptr := by
  simp only [State.jWrite]; split <;> simp
@[simp] theorem State.jWrite_fw_ops : (s.jWrite r).fw.ops = s.fw.ops := by
  simp only [State.jWrite]; split <;> simp
@[simp] theorem State.jWrite_fw_nextOph : (s.jWrite r).fw.nextOph = s.fw.nextOph := by
  simp only [State.jWrite]; split <;> simp
@[simp] theorem State.jWrite_fw_notices : (s.jWrite r).fw.notices = s.fw.notices := by
  simp only [State.jWrite]; split <;> simp
@[simp] theorem State.jWrite_fw_subs : (s.jWrite r).fw.subs = s.fw.subs := by
  simp only [State.jWrite]; split <;> simp
@[simp] theorem State.jWrite_fw_manager : (s.jWrite r).fw.manager = s.fw.manager := by
  simp only [State.jWrite]; split <;> simp
@[simp] theorem State.jWrite_fw_overruns : (s.jWrite r).fw.overruns = s.fw.overruns := by
  simp only [State.jWrite]; split <;> simp
@[simp] theorem State.jWrite_fw_tensors : (s.jWrite r).fw.tensors = s.fw.tensors := by
  simp only [State.jWrite]; split <;> simp
@[simp] theorem State.jWrite_fw_cfgStage : (s.jWrite r).fw.cfgStage = s.fw.cfgStage := by
  simp only [State.jWrite]; split <;> simp
@[simp] theorem State.jWrite_fw_cfg : (s.jWrite r).fw.cfg = s.fw.cfg := by
  simp only [State.jWrite]; split <;> simp
@[simp] theorem State.jWrite_fw_locals : (s.jWrite r).fw.locals = s.fw.locals := by
  simp only [State.jWrite]; split <;> simp
@[simp] theorem State.jWrite_fw_commitLog : (s.jWrite r).fw.commitLog = s.fw.commitLog := by
  simp only [State.jWrite]; split <;> simp
@[simp] theorem State.jWrite_fw_commitMs : (s.jWrite r).fw.commitMs = s.fw.commitMs := by
  simp only [State.jWrite]; split <;> simp
@[simp] theorem State.jWrite_fw_tests : (s.jWrite r).fw.tests = s.fw.tests := by
  simp only [State.jWrite]; split <;> simp
@[simp] theorem State.jWrite_fw_drainMs : (s.jWrite r).fw.drainMs = s.fw.drainMs := by
  simp only [State.jWrite]; split <;> simp
@[simp] theorem State.jWrite_fw_causeSeq : (s.jWrite r).fw.causeSeq = s.fw.causeSeq := by
  simp only [State.jWrite]; split <;> simp
@[simp] theorem State.jWrite_fw_postTest : (s.jWrite r).fw.postTest = s.fw.postTest := by
  simp only [State.jWrite]; split <;> simp
@[simp] theorem State.jWrite_fw_postKind : (s.jWrite r).fw.postKind = s.fw.postKind := by
  simp only [State.jWrite]; split <;> simp
@[simp] theorem State.jWrite_fw_postUnit : (s.jWrite r).fw.postUnit = s.fw.postUnit := by
  simp only [State.jWrite]; split <;> simp
@[simp] theorem State.jWrite_fw_postDetail : (s.jWrite r).fw.postDetail = s.fw.postDetail := by
  simp only [State.jWrite]; split <;> simp
@[simp] theorem State.jWrite_fw_reasm : (s.jWrite r).fw.reasm = s.fw.reasm := by
  simp only [State.jWrite]; split <;> simp
@[simp] theorem State.jWrite_fw_mctpAddr : (s.jWrite r).fw.mctpAddr = s.fw.mctpAddr := by
  simp only [State.jWrite]; split <;> simp
@[simp] theorem State.jWrite_sec : (s.jWrite r).sec = s.sec := by
  simp only [State.jWrite]; split <;> simp
@[simp] theorem State.jWrite_pwr : (s.jWrite r).pwr = s.pwr := by
  simp only [State.jWrite]; split <;> simp
@[simp] theorem State.jWrite_cal : (s.jWrite r).cal = s.cal := by
  simp only [State.jWrite]; split <;> simp
@[simp] theorem State.jWrite_cell (b : Nat) : (s.jWrite r).cell b = s.cell b := by simp [State.cell]
@[simp] theorem State.jWrite_norm (b : Nat) : (s.jWrite r).norm b = s.norm b := by simp [State.norm]
@[simp] theorem State.jWrite_tile (b : Nat) : (s.jWrite r).tile b = s.tile b := by simp [State.tile]
@[simp] theorem State.jWrite_tier (b : Nat) : (s.jWrite r).tier b = s.tier b := by simp [State.tier]
@[simp] theorem State.jWrite_block (b : Nat) : (s.jWrite r).block b = s.block b := by simp [State.block]
@[simp] theorem State.jWrite_slot (b : Nat) : (s.jWrite r).slot b = s.slot b := by simp [State.slot]
@[simp] theorem State.jWrite_port (b : Nat) : (s.jWrite r).port b = s.port b := by simp [State.port]
@[simp] theorem State.jWrite_alloc (b : Nat) : (s.jWrite r).alloc b = s.alloc b := by simp [State.alloc]
@[simp] theorem State.jWrite_tensor (b : Nat) : (s.jWrite r).tensor b = s.tensor b := by simp [State.tensor]
@[simp] theorem State.jWrite_box (b : Nat) : (s.jWrite r).box b = s.box b := by simp [State.box]
@[simp] theorem State.jWrite_tok (b : Nat) : (s.jWrite r).tok b = s.tok b := by simp [State.tok]
@[simp] theorem State.jWrite_supply (b : Nat) : (s.jWrite r).supply b = s.supply b := by simp [State.supply]
@[simp] theorem State.jWrite_scrubber (b : Nat) : (s.jWrite r).scrubber b = s.scrubber b := by simp [State.scrubber]
@[simp] theorem State.jWrite_calR (b : Nat) : (s.jWrite r).calR b = s.calR b := by simp [State.calR]
@[simp] theorem State.jWrite_rdByte (sp' : Space) (b : Nat) : (s.jWrite r).rdByte sp' b = s.rdByte sp' b := by cases sp' <;> simp [State.rdByte]
end

/-! ### jState -/
section
variable (s : State) (d : DevState) (f c : Nat)
@[simp] theorem State.jState_pending : (s.jState d f c).pending = s.pending := by simp [State.jState]
@[simp] theorem State.jState_draws : (s.jState d f c).draws = s.draws := by simp [State.jState]
@[simp] theorem State.jState_dev : (s.jState d f c).dev = s.dev := by simp [State.jState]
@[simp] theorem State.jState_resetN : (s.jState d f c).resetN = s.resetN := by simp [State.jState]
@[simp] theorem State.jState_monitor : (s.jState d f c).monitor = s.monitor := by simp [State.jState]
@[simp] theorem State.jState_mpUp : (s.jState d f c).mpUp = s.mpUp := by simp [State.jState]
@[simp] theorem State.jState_hostUp : (s.jState d f c).hostUp = s.hostUp := by simp [State.jState]
@[simp] theorem State.jState_time : (s.jState d f c).time = s.time := by simp [State.jState]
@[simp] theorem State.jState_store_cells : (s.jState d f c).store.cells = s.store.cells := by simp [State.jState]
@[simp] theorem State.jState_store_bstore : (s.jState d f c).store.bstore = s.store.bstore := by simp [State.jState]
@[simp] theorem State.jState_store_hbm : (s.jState d f c).store.hbm = s.store.hbm := by simp [State.jState]
@[simp] theorem State.jState_store_host : (s.jState d f c).store.host = s.store.host := by simp [State.jState]
@[simp] theorem State.jState_store_norms : (s.jState d f c).store.norms = s.store.norms := by simp [State.jState]
@[simp] theorem State.jState_capHi : (s.jState d f c).capHi = s.capHi := by simp [State.jState]
@[simp] theorem State.jState_lowHalf : (s.jState d f c).lowHalf = s.lowHalf := by simp [State.jState]
@[simp] theorem State.jState_hostLock : (s.jState d f c).hostLock = s.hostLock := by simp [State.jState]
@[simp] theorem State.jState_mpLock : (s.jState d f c).mpLock = s.mpLock := by simp [State.jState]
@[simp] theorem State.jState_mpBcast : (s.jState d f c).mpBcast = s.mpBcast := by simp [State.jState]
@[simp] theorem State.jState_tiles : (s.jState d f c).tiles = s.tiles := by simp [State.jState]
@[simp] theorem State.jState_tiers : (s.jState d f c).tiers = s.tiers := by simp [State.jState]
@[simp] theorem State.jState_blocks : (s.jState d f c).blocks = s.blocks := by simp [State.jState]
@[simp] theorem State.jState_hbmPoison : (s.jState d f c).hbmPoison = s.hbmPoison := by simp [State.jState]
@[simp] theorem State.jState_bsPoison : (s.jState d f c).bsPoison = s.bsPoison := by simp [State.jState]
@[simp] theorem State.jState_allocs : (s.jState d f c).allocs = s.allocs := by simp [State.jState]
@[simp] theorem State.jState_arb : (s.jState d f c).arb = s.arb := by simp [State.jState]
@[simp] theorem State.jState_scrub : (s.jState d f c).scrub = s.scrub := by simp [State.jState]
@[simp] theorem State.jState_toks : (s.jState d f c).toks = s.toks := by simp [State.jState]
@[simp] theorem State.jState_schedPtr : (s.jState d f c).schedPtr = s.schedPtr := by simp [State.jState]
@[simp] theorem State.jState_sigs : (s.jState d f c).sigs = s.sigs := by simp [State.jState]
@[simp] theorem State.jState_slots : (s.jState d f c).slots = s.slots := by simp [State.jState]
@[simp] theorem State.jState_fab : (s.jState d f c).fab = s.fab := by simp [State.jState]
@[simp] theorem State.jState_part : (s.jState d f c).part = s.part := by simp [State.jState]
@[simp] theorem State.jState_fw_boxes : (s.jState d f c).fw.boxes = s.fw.boxes := by simp [State.jState]
@[simp] theorem State.jState_fw_ptr : (s.jState d f c).fw.ptr = s.fw.ptr := by simp [State.jState]
@[simp] theorem State.jState_fw_ops : (s.jState d f c).fw.ops = s.fw.ops := by simp [State.jState]
@[simp] theorem State.jState_fw_nextOph : (s.jState d f c).fw.nextOph = s.fw.nextOph := by simp [State.jState]
@[simp] theorem State.jState_fw_notices : (s.jState d f c).fw.notices = s.fw.notices := by simp [State.jState]
@[simp] theorem State.jState_fw_subs : (s.jState d f c).fw.subs = s.fw.subs := by simp [State.jState]
@[simp] theorem State.jState_fw_manager : (s.jState d f c).fw.manager = s.fw.manager := by simp [State.jState]
@[simp] theorem State.jState_fw_overruns : (s.jState d f c).fw.overruns = s.fw.overruns := by simp [State.jState]
@[simp] theorem State.jState_fw_tensors : (s.jState d f c).fw.tensors = s.fw.tensors := by simp [State.jState]
@[simp] theorem State.jState_fw_cfgStage : (s.jState d f c).fw.cfgStage = s.fw.cfgStage := by simp [State.jState]
@[simp] theorem State.jState_fw_cfg : (s.jState d f c).fw.cfg = s.fw.cfg := by simp [State.jState]
@[simp] theorem State.jState_fw_locals : (s.jState d f c).fw.locals = s.fw.locals := by simp [State.jState]
@[simp] theorem State.jState_fw_commitLog : (s.jState d f c).fw.commitLog = s.fw.commitLog := by simp [State.jState]
@[simp] theorem State.jState_fw_commitMs : (s.jState d f c).fw.commitMs = s.fw.commitMs := by simp [State.jState]
@[simp] theorem State.jState_fw_tests : (s.jState d f c).fw.tests = s.fw.tests := by simp [State.jState]
@[simp] theorem State.jState_fw_drainMs : (s.jState d f c).fw.drainMs = s.fw.drainMs := by simp [State.jState]
@[simp] theorem State.jState_fw_causeSeq : (s.jState d f c).fw.causeSeq = s.fw.causeSeq := by simp [State.jState]
@[simp] theorem State.jState_fw_postTest : (s.jState d f c).fw.postTest = s.fw.postTest := by simp [State.jState]
@[simp] theorem State.jState_fw_postKind : (s.jState d f c).fw.postKind = s.fw.postKind := by simp [State.jState]
@[simp] theorem State.jState_fw_postUnit : (s.jState d f c).fw.postUnit = s.fw.postUnit := by simp [State.jState]
@[simp] theorem State.jState_fw_postDetail : (s.jState d f c).fw.postDetail = s.fw.postDetail := by simp [State.jState]
@[simp] theorem State.jState_fw_reasm : (s.jState d f c).fw.reasm = s.fw.reasm := by simp [State.jState]
@[simp] theorem State.jState_fw_mctpAddr : (s.jState d f c).fw.mctpAddr = s.fw.mctpAddr := by simp [State.jState]
@[simp] theorem State.jState_sec : (s.jState d f c).sec = s.sec := by simp [State.jState]
@[simp] theorem State.jState_pwr : (s.jState d f c).pwr = s.pwr := by simp [State.jState]
@[simp] theorem State.jState_cal : (s.jState d f c).cal = s.cal := by simp [State.jState]
@[simp] theorem State.jState_cell (b : Nat) : (s.jState d f c).cell b = s.cell b := by simp [State.cell]
@[simp] theorem State.jState_norm (b : Nat) : (s.jState d f c).norm b = s.norm b := by simp [State.norm]
@[simp] theorem State.jState_tile (b : Nat) : (s.jState d f c).tile b = s.tile b := by simp [State.tile]
@[simp] theorem State.jState_tier (b : Nat) : (s.jState d f c).tier b = s.tier b := by simp [State.tier]
@[simp] theorem State.jState_block (b : Nat) : (s.jState d f c).block b = s.block b := by simp [State.block]
@[simp] theorem State.jState_slot (b : Nat) : (s.jState d f c).slot b = s.slot b := by simp [State.slot]
@[simp] theorem State.jState_port (b : Nat) : (s.jState d f c).port b = s.port b := by simp [State.port]
@[simp] theorem State.jState_alloc (b : Nat) : (s.jState d f c).alloc b = s.alloc b := by simp [State.alloc]
@[simp] theorem State.jState_tensor (b : Nat) : (s.jState d f c).tensor b = s.tensor b := by simp [State.tensor]
@[simp] theorem State.jState_box (b : Nat) : (s.jState d f c).box b = s.box b := by simp [State.box]
@[simp] theorem State.jState_tok (b : Nat) : (s.jState d f c).tok b = s.tok b := by simp [State.tok]
@[simp] theorem State.jState_supply (b : Nat) : (s.jState d f c).supply b = s.supply b := by simp [State.supply]
@[simp] theorem State.jState_scrubber (b : Nat) : (s.jState d f c).scrubber b = s.scrubber b := by simp [State.scrubber]
@[simp] theorem State.jState_calR (b : Nat) : (s.jState d f c).calR b = s.calR b := by simp [State.calR]
@[simp] theorem State.jState_rdByte (sp' : Space) (b : Nat) : (s.jState d f c).rdByte sp' b = s.rdByte sp' b := by cases sp' <;> simp [State.rdByte]
end

/-! ### jErase -/
section
variable (s : State) (u c : Nat) (d : Bool)
@[simp] theorem State.jErase_pending : (s.jErase u c d).pending = s.pending := by simp [State.jErase]
@[simp] theorem State.jErase_draws : (s.jErase u c d).draws = s.draws := by simp [State.jErase]
@[simp] theorem State.jErase_dev : (s.jErase u c d).dev = s.dev := by simp [State.jErase]
@[simp] theorem State.jErase_resetN : (s.jErase u c d).resetN = s.resetN := by simp [State.jErase]
@[simp] theorem State.jErase_monitor : (s.jErase u c d).monitor = s.monitor := by simp [State.jErase]
@[simp] theorem State.jErase_mpUp : (s.jErase u c d).mpUp = s.mpUp := by simp [State.jErase]
@[simp] theorem State.jErase_hostUp : (s.jErase u c d).hostUp = s.hostUp := by simp [State.jErase]
@[simp] theorem State.jErase_time : (s.jErase u c d).time = s.time := by simp [State.jErase]
@[simp] theorem State.jErase_store_cells : (s.jErase u c d).store.cells = s.store.cells := by simp [State.jErase]
@[simp] theorem State.jErase_store_bstore : (s.jErase u c d).store.bstore = s.store.bstore := by simp [State.jErase]
@[simp] theorem State.jErase_store_hbm : (s.jErase u c d).store.hbm = s.store.hbm := by simp [State.jErase]
@[simp] theorem State.jErase_store_host : (s.jErase u c d).store.host = s.store.host := by simp [State.jErase]
@[simp] theorem State.jErase_store_norms : (s.jErase u c d).store.norms = s.store.norms := by simp [State.jErase]
@[simp] theorem State.jErase_capHi : (s.jErase u c d).capHi = s.capHi := by simp [State.jErase]
@[simp] theorem State.jErase_lowHalf : (s.jErase u c d).lowHalf = s.lowHalf := by simp [State.jErase]
@[simp] theorem State.jErase_hostLock : (s.jErase u c d).hostLock = s.hostLock := by simp [State.jErase]
@[simp] theorem State.jErase_mpLock : (s.jErase u c d).mpLock = s.mpLock := by simp [State.jErase]
@[simp] theorem State.jErase_mpBcast : (s.jErase u c d).mpBcast = s.mpBcast := by simp [State.jErase]
@[simp] theorem State.jErase_tiles : (s.jErase u c d).tiles = s.tiles := by simp [State.jErase]
@[simp] theorem State.jErase_tiers : (s.jErase u c d).tiers = s.tiers := by simp [State.jErase]
@[simp] theorem State.jErase_blocks : (s.jErase u c d).blocks = s.blocks := by simp [State.jErase]
@[simp] theorem State.jErase_hbmPoison : (s.jErase u c d).hbmPoison = s.hbmPoison := by simp [State.jErase]
@[simp] theorem State.jErase_bsPoison : (s.jErase u c d).bsPoison = s.bsPoison := by simp [State.jErase]
@[simp] theorem State.jErase_allocs : (s.jErase u c d).allocs = s.allocs := by simp [State.jErase]
@[simp] theorem State.jErase_arb : (s.jErase u c d).arb = s.arb := by simp [State.jErase]
@[simp] theorem State.jErase_scrub : (s.jErase u c d).scrub = s.scrub := by simp [State.jErase]
@[simp] theorem State.jErase_toks : (s.jErase u c d).toks = s.toks := by simp [State.jErase]
@[simp] theorem State.jErase_schedPtr : (s.jErase u c d).schedPtr = s.schedPtr := by simp [State.jErase]
@[simp] theorem State.jErase_sigs : (s.jErase u c d).sigs = s.sigs := by simp [State.jErase]
@[simp] theorem State.jErase_slots : (s.jErase u c d).slots = s.slots := by simp [State.jErase]
@[simp] theorem State.jErase_fab : (s.jErase u c d).fab = s.fab := by simp [State.jErase]
@[simp] theorem State.jErase_part : (s.jErase u c d).part = s.part := by simp [State.jErase]
@[simp] theorem State.jErase_fw_boxes : (s.jErase u c d).fw.boxes = s.fw.boxes := by simp [State.jErase]
@[simp] theorem State.jErase_fw_ptr : (s.jErase u c d).fw.ptr = s.fw.ptr := by simp [State.jErase]
@[simp] theorem State.jErase_fw_ops : (s.jErase u c d).fw.ops = s.fw.ops := by simp [State.jErase]
@[simp] theorem State.jErase_fw_nextOph : (s.jErase u c d).fw.nextOph = s.fw.nextOph := by simp [State.jErase]
@[simp] theorem State.jErase_fw_notices : (s.jErase u c d).fw.notices = s.fw.notices := by simp [State.jErase]
@[simp] theorem State.jErase_fw_subs : (s.jErase u c d).fw.subs = s.fw.subs := by simp [State.jErase]
@[simp] theorem State.jErase_fw_manager : (s.jErase u c d).fw.manager = s.fw.manager := by simp [State.jErase]
@[simp] theorem State.jErase_fw_overruns : (s.jErase u c d).fw.overruns = s.fw.overruns := by simp [State.jErase]
@[simp] theorem State.jErase_fw_tensors : (s.jErase u c d).fw.tensors = s.fw.tensors := by simp [State.jErase]
@[simp] theorem State.jErase_fw_cfgStage : (s.jErase u c d).fw.cfgStage = s.fw.cfgStage := by simp [State.jErase]
@[simp] theorem State.jErase_fw_cfg : (s.jErase u c d).fw.cfg = s.fw.cfg := by simp [State.jErase]
@[simp] theorem State.jErase_fw_locals : (s.jErase u c d).fw.locals = s.fw.locals := by simp [State.jErase]
@[simp] theorem State.jErase_fw_commitLog : (s.jErase u c d).fw.commitLog = s.fw.commitLog := by simp [State.jErase]
@[simp] theorem State.jErase_fw_commitMs : (s.jErase u c d).fw.commitMs = s.fw.commitMs := by simp [State.jErase]
@[simp] theorem State.jErase_fw_tests : (s.jErase u c d).fw.tests = s.fw.tests := by simp [State.jErase]
@[simp] theorem State.jErase_fw_drainMs : (s.jErase u c d).fw.drainMs = s.fw.drainMs := by simp [State.jErase]
@[simp] theorem State.jErase_fw_causeSeq : (s.jErase u c d).fw.causeSeq = s.fw.causeSeq := by simp [State.jErase]
@[simp] theorem State.jErase_fw_postTest : (s.jErase u c d).fw.postTest = s.fw.postTest := by simp [State.jErase]
@[simp] theorem State.jErase_fw_postKind : (s.jErase u c d).fw.postKind = s.fw.postKind := by simp [State.jErase]
@[simp] theorem State.jErase_fw_postUnit : (s.jErase u c d).fw.postUnit = s.fw.postUnit := by simp [State.jErase]
@[simp] theorem State.jErase_fw_postDetail : (s.jErase u c d).fw.postDetail = s.fw.postDetail := by simp [State.jErase]
@[simp] theorem State.jErase_fw_reasm : (s.jErase u c d).fw.reasm = s.fw.reasm := by simp [State.jErase]
@[simp] theorem State.jErase_fw_mctpAddr : (s.jErase u c d).fw.mctpAddr = s.fw.mctpAddr := by simp [State.jErase]
@[simp] theorem State.jErase_sec : (s.jErase u c d).sec = s.sec := by simp [State.jErase]
@[simp] theorem State.jErase_pwr : (s.jErase u c d).pwr = s.pwr := by simp [State.jErase]
@[simp] theorem State.jErase_cal : (s.jErase u c d).cal = s.cal := by simp [State.jErase]
@[simp] theorem State.jErase_cell (b : Nat) : (s.jErase u c d).cell b = s.cell b := by simp [State.cell]
@[simp] theorem State.jErase_norm (b : Nat) : (s.jErase u c d).norm b = s.norm b := by simp [State.norm]
@[simp] theorem State.jErase_tile (b : Nat) : (s.jErase u c d).tile b = s.tile b := by simp [State.tile]
@[simp] theorem State.jErase_tier (b : Nat) : (s.jErase u c d).tier b = s.tier b := by simp [State.tier]
@[simp] theorem State.jErase_block (b : Nat) : (s.jErase u c d).block b = s.block b := by simp [State.block]
@[simp] theorem State.jErase_slot (b : Nat) : (s.jErase u c d).slot b = s.slot b := by simp [State.slot]
@[simp] theorem State.jErase_port (b : Nat) : (s.jErase u c d).port b = s.port b := by simp [State.port]
@[simp] theorem State.jErase_alloc (b : Nat) : (s.jErase u c d).alloc b = s.alloc b := by simp [State.alloc]
@[simp] theorem State.jErase_tensor (b : Nat) : (s.jErase u c d).tensor b = s.tensor b := by simp [State.tensor]
@[simp] theorem State.jErase_box (b : Nat) : (s.jErase u c d).box b = s.box b := by simp [State.box]
@[simp] theorem State.jErase_tok (b : Nat) : (s.jErase u c d).tok b = s.tok b := by simp [State.tok]
@[simp] theorem State.jErase_supply (b : Nat) : (s.jErase u c d).supply b = s.supply b := by simp [State.supply]
@[simp] theorem State.jErase_scrubber (b : Nat) : (s.jErase u c d).scrubber b = s.scrubber b := by simp [State.scrubber]
@[simp] theorem State.jErase_calR (b : Nat) : (s.jErase u c d).calR b = s.calR b := by simp [State.calR]
@[simp] theorem State.jErase_rdByte (sp' : Space) (b : Nat) : (s.jErase u c d).rdByte sp' b = s.rdByte sp' b := by cases sp' <;> simp [State.rdByte]
end

/-! ### raiseFw -/
section
variable (s : State) (c k u : Nat)
@[simp] theorem State.raiseFw_pending : (s.raiseFw c k u).pending = s.pending := rfl
@[simp] theorem State.raiseFw_draws : (s.raiseFw c k u).draws = s.draws := rfl
@[simp] theorem State.raiseFw_dev : (s.raiseFw c k u).dev = s.dev := rfl
@[simp] theorem State.raiseFw_resetN : (s.raiseFw c k u).resetN = s.resetN := rfl
@[simp] theorem State.raiseFw_monitor : (s.raiseFw c k u).monitor = s.monitor := rfl
@[simp] theorem State.raiseFw_mpUp : (s.raiseFw c k u).mpUp = s.mpUp := rfl
@[simp] theorem State.raiseFw_hostUp : (s.raiseFw c k u).hostUp = s.hostUp := rfl
@[simp] theorem State.raiseFw_time : (s.raiseFw c k u).time = s.time := rfl
@[simp] theorem State.raiseFw_store : (s.raiseFw c k u).store = s.store := rfl
@[simp] theorem State.raiseFw_capHi : (s.raiseFw c k u).capHi = s.capHi := rfl
@[simp] theorem State.raiseFw_lowHalf : (s.raiseFw c k u).lowHalf = s.lowHalf := rfl
@[simp] theorem State.raiseFw_hostLock : (s.raiseFw c k u).hostLock = s.hostLock := rfl
@[simp] theorem State.raiseFw_mpLock : (s.raiseFw c k u).mpLock = s.mpLock := rfl
@[simp] theorem State.raiseFw_mpBcast : (s.raiseFw c k u).mpBcast = s.mpBcast := rfl
@[simp] theorem State.raiseFw_tiles : (s.raiseFw c k u).tiles = s.tiles := rfl
@[simp] theorem State.raiseFw_tiers : (s.raiseFw c k u).tiers = s.tiers := rfl
@[simp] theorem State.raiseFw_blocks : (s.raiseFw c k u).blocks = s.blocks := rfl
@[simp] theorem State.raiseFw_hbmPoison : (s.raiseFw c k u).hbmPoison = s.hbmPoison := rfl
@[simp] theorem State.raiseFw_bsPoison : (s.raiseFw c k u).bsPoison = s.bsPoison := rfl
@[simp] theorem State.raiseFw_allocs : (s.raiseFw c k u).allocs = s.allocs := rfl
@[simp] theorem State.raiseFw_arb : (s.raiseFw c k u).arb = s.arb := rfl
@[simp] theorem State.raiseFw_scrub : (s.raiseFw c k u).scrub = s.scrub := rfl
@[simp] theorem State.raiseFw_toks : (s.raiseFw c k u).toks = s.toks := rfl
@[simp] theorem State.raiseFw_schedPtr : (s.raiseFw c k u).schedPtr = s.schedPtr := rfl
@[simp] theorem State.raiseFw_sigs : (s.raiseFw c k u).sigs = s.sigs := rfl
@[simp] theorem State.raiseFw_aggs : (s.raiseFw c k u).aggs = s.aggs := rfl
@[simp] theorem State.raiseFw_slots : (s.raiseFw c k u).slots = s.slots := rfl
@[simp] theorem State.raiseFw_fab : (s.raiseFw c k u).fab = s.fab := rfl
@[simp] theorem State.raiseFw_jrn : (s.raiseFw c k u).jrn = s.jrn := rfl
@[simp] theorem State.raiseFw_part : (s.raiseFw c k u).part = s.part := rfl
@[simp] theorem State.raiseFw_fw_boxes : (s.raiseFw c k u).fw.boxes = s.fw.boxes := rfl
@[simp] theorem State.raiseFw_fw_ptr : (s.raiseFw c k u).fw.ptr = s.fw.ptr := rfl
@[simp] theorem State.raiseFw_fw_ops : (s.raiseFw c k u).fw.ops = s.fw.ops := rfl
@[simp] theorem State.raiseFw_fw_nextOph : (s.raiseFw c k u).fw.nextOph = s.fw.nextOph := rfl
@[simp] theorem State.raiseFw_fw_notices : (s.raiseFw c k u).fw.notices = s.fw.notices := rfl
@[simp] theorem State.raiseFw_fw_subs : (s.raiseFw c k u).fw.subs = s.fw.subs := rfl
@[simp] theorem State.raiseFw_fw_manager : (s.raiseFw c k u).fw.manager = s.fw.manager := rfl
@[simp] theorem State.raiseFw_fw_overruns : (s.raiseFw c k u).fw.overruns = s.fw.overruns := rfl
@[simp] theorem State.raiseFw_fw_tensors : (s.raiseFw c k u).fw.tensors = s.fw.tensors := rfl
@[simp] theorem State.raiseFw_fw_cfgStage : (s.raiseFw c k u).fw.cfgStage = s.fw.cfgStage := rfl
@[simp] theorem State.raiseFw_fw_cfg : (s.raiseFw c k u).fw.cfg = s.fw.cfg := rfl
@[simp] theorem State.raiseFw_fw_locals : (s.raiseFw c k u).fw.locals = s.fw.locals := rfl
@[simp] theorem State.raiseFw_fw_commitLog : (s.raiseFw c k u).fw.commitLog = s.fw.commitLog := rfl
@[simp] theorem State.raiseFw_fw_commitMs : (s.raiseFw c k u).fw.commitMs = s.fw.commitMs := rfl
@[simp] theorem State.raiseFw_fw_tests : (s.raiseFw c k u).fw.tests = s.fw.tests := rfl
@[simp] theorem State.raiseFw_fw_drainMs : (s.raiseFw c k u).fw.drainMs = s.fw.drainMs := rfl
@[simp] theorem State.raiseFw_fw_causeSeq : (s.raiseFw c k u).fw.causeSeq = s.fw.causeSeq := rfl
@[simp] theorem State.raiseFw_fw_postTest : (s.raiseFw c k u).fw.postTest = s.fw.postTest := rfl
@[simp] theorem State.raiseFw_fw_postKind : (s.raiseFw c k u).fw.postKind = s.fw.postKind := rfl
@[simp] theorem State.raiseFw_fw_postUnit : (s.raiseFw c k u).fw.postUnit = s.fw.postUnit := rfl
@[simp] theorem State.raiseFw_fw_postDetail : (s.raiseFw c k u).fw.postDetail = s.fw.postDetail := rfl
@[simp] theorem State.raiseFw_fw_reasm : (s.raiseFw c k u).fw.reasm = s.fw.reasm := rfl
@[simp] theorem State.raiseFw_fw_mctpAddr : (s.raiseFw c k u).fw.mctpAddr = s.fw.mctpAddr := rfl
@[simp] theorem State.raiseFw_sec : (s.raiseFw c k u).sec = s.sec := rfl
@[simp] theorem State.raiseFw_pwr : (s.raiseFw c k u).pwr = s.pwr := rfl
@[simp] theorem State.raiseFw_cal : (s.raiseFw c k u).cal = s.cal := rfl
@[simp] theorem State.raiseFw_reg (b : Nat) : (s.raiseFw c k u).reg b = s.reg b := by simp [State.reg]
@[simp] theorem State.raiseFw_cell (b : Nat) : (s.raiseFw c k u).cell b = s.cell b := by simp [State.cell]
@[simp] theorem State.raiseFw_norm (b : Nat) : (s.raiseFw c k u).norm b = s.norm b := by simp [State.norm]
@[simp] theorem State.raiseFw_tile (b : Nat) : (s.raiseFw c k u).tile b = s.tile b := by simp [State.tile]
@[simp] theorem State.raiseFw_tier (b : Nat) : (s.raiseFw c k u).tier b = s.tier b := by simp [State.tier]
@[simp] theorem State.raiseFw_block (b : Nat) : (s.raiseFw c k u).block b = s.block b := by simp [State.block]
@[simp] theorem State.raiseFw_slot (b : Nat) : (s.raiseFw c k u).slot b = s.slot b := by simp [State.slot]
@[simp] theorem State.raiseFw_port (b : Nat) : (s.raiseFw c k u).port b = s.port b := by simp [State.port]
@[simp] theorem State.raiseFw_alloc (b : Nat) : (s.raiseFw c k u).alloc b = s.alloc b := by simp [State.alloc]
@[simp] theorem State.raiseFw_tensor (b : Nat) : (s.raiseFw c k u).tensor b = s.tensor b := by simp [State.tensor]
@[simp] theorem State.raiseFw_box (b : Nat) : (s.raiseFw c k u).box b = s.box b := by simp [State.box]
@[simp] theorem State.raiseFw_tok (b : Nat) : (s.raiseFw c k u).tok b = s.tok b := by simp [State.tok]
@[simp] theorem State.raiseFw_supply (b : Nat) : (s.raiseFw c k u).supply b = s.supply b := by simp [State.supply]
@[simp] theorem State.raiseFw_scrubber (b : Nat) : (s.raiseFw c k u).scrubber b = s.scrubber b := by simp [State.scrubber]
@[simp] theorem State.raiseFw_calR (b : Nat) : (s.raiseFw c k u).calR b = s.calR b := by simp [State.calR]
@[simp] theorem State.raiseFw_rdByte (sp' : Space) (b : Nat) : (s.raiseFw c k u).rdByte sp' b = s.rdByte sp' b := by cases sp' <;> simp [State.rdByte]
end

/-! ### What a memory reads after a store -/

theorem State.wrByte_rdByte_same (s : State) (sp : Space) (a : Nat) (v : Byte) : (s.wrByte sp a v).rdByte sp a = v := by
  cases sp <;> simp [State.wrByte, State.rdByte]

theorem State.wrByte_rdByte_ne (s : State) (sp : Space) (a b : Nat) (v : Byte) (h : b ≠ a) :
    (s.wrByte sp a v).rdByte sp b = s.rdByte sp b := by
  cases sp <;> simp [State.wrByte, State.rdByte, h]

/-- A byte outside those stored reads as before. -/
theorem State.wrBytes_rdByte_out (s : State) (sp : Space) (a b : Nat) (l : List Byte) (h : b < a ∨ a + l.length ≤ b) :
    (s.wrBytes sp a l).rdByte sp b = s.rdByte sp b := by
  induction l generalizing s a with
  | nil => rfl
  | cons v r ih =>
    simp only [List.length_cons] at h
    rw [State.wrBytes, ih _ _ (by omega), State.wrByte_rdByte_ne _ _ _ _ _ (by omega)]

/-- The bytes stored read back. -/
theorem State.wrBytes_rdByte_in (s : State) (sp : Space) (a i : Nat) (l : List Byte) (h : i < l.length) :
    (s.wrBytes sp a l).rdByte sp (a + i) = l.getD i 0 := by
  induction l generalizing s a i with
  | nil => simp at h
  | cons v r ih =>
    cases i with
    | zero => rw [State.wrBytes, State.wrBytes_rdByte_out _ _ _ _ _ (by omega)]; simp [State.wrByte_rdByte_same]
    | succ k =>
      have e : a + (k + 1) = (a + 1) + k := by omega
      rw [State.wrBytes, e, ih _ _ _ (by simpa using h)]; simp

/-! ### Canonical form -/

/-- One update of the store that keeps its canonical form. -/
theorem State.setReg_wf (s : State) (a : Nat) (v : Word) (h : s.store.wf = true) : (s.setReg a v).store.wf = true := by
  simp only [Store.wf, Bool.and_eq_true] at h ⊢
  exact ⟨⟨⟨⟨⟨SMap.wf_set _ _ _ _ h.1.1.1.1.1, h.1.1.1.1.2⟩, h.1.1.1.2⟩, h.1.1.2⟩, h.1.2⟩, h.2⟩

theorem State.setRn_wf (s : State) (a n : Nat) (h : s.store.wf = true) : (s.setRn a n).store.wf = true := s.setReg_wf a _ h
theorem State.setRf_wf (s : State) (a hi lo v : Nat) (h : s.store.wf = true) : (s.setRf a hi lo v).store.wf = true :=
  s.setRn_wf a _ h
theorem State.setBit_wf (s : State) (a i : Nat) (h : s.store.wf = true) : (s.setBit a i).store.wf = true := s.setRf_wf _ _ _ _ h
theorem State.bump_wf (s : State) (a hi lo k : Nat) (h : s.store.wf = true) : (s.bump a hi lo k).store.wf = true :=
  s.setRf_wf _ _ _ _ h
theorem State.bump64_wf (s : State) (a k : Nat) (h : s.store.wf = true) : (s.bump64 a k).store.wf = true :=
  State.setRn_wf _ _ _ (s.setRn_wf _ _ h)

theorem State.setCell_wf (s : State) (k v : Nat) (h : s.store.wf = true) : (s.setCell k v).store.wf = true := by
  simp only [Store.wf, Bool.and_eq_true] at h ⊢
  exact ⟨⟨⟨⟨⟨h.1.1.1.1.1, SMap.wf_set _ _ _ _ h.1.1.1.1.2⟩, h.1.1.1.2⟩, h.1.1.2⟩, h.1.2⟩, h.2⟩

theorem State.setNorm_wf (s : State) (k v : Nat) (h : s.store.wf = true) : (s.setNorm k v).store.wf = true := by
  simp only [Store.wf, Bool.and_eq_true] at h ⊢
  exact ⟨⟨⟨⟨⟨h.1.1.1.1.1, h.1.1.1.1.2⟩, h.1.1.1.2⟩, h.1.1.2⟩, h.1.2⟩, SMap.wf_set _ _ _ _ h.2⟩

theorem State.wrByte_wf (s : State) (sp : Space) (a : Nat) (v : Byte) (h : s.store.wf = true) :
    (s.wrByte sp a v).store.wf = true := by
  simp only [Store.wf, Bool.and_eq_true] at h
  cases sp <;> simp only [State.wrByte, Store.wf, Bool.and_eq_true]
  · exact ⟨⟨⟨⟨⟨h.1.1.1.1.1, h.1.1.1.1.2⟩, SMap.wf_set _ _ _ _ h.1.1.1.2⟩, h.1.1.2⟩, h.1.2⟩, h.2⟩
  · exact ⟨⟨⟨⟨⟨h.1.1.1.1.1, h.1.1.1.1.2⟩, h.1.1.1.2⟩, SMap.wf_set _ _ _ _ h.1.1.2⟩, h.1.2⟩, h.2⟩
  · exact ⟨⟨⟨⟨⟨h.1.1.1.1.1, h.1.1.1.1.2⟩, h.1.1.1.2⟩, h.1.1.2⟩, SMap.wf_set _ _ _ _ h.1.2⟩, h.2⟩

theorem State.wrBytes_wf (s : State) (sp : Space) (a : Nat) (l : List Byte) (h : s.store.wf = true) :
    (s.wrBytes sp a l).store.wf = true := by
  induction l generalizing s a with
  | nil => exact h
  | cons v r ih => exact ih _ _ (s.wrByte_wf sp a v h)

theorem State.unpoison_wf (s : State) (sp : Space) (a n : Nat) (h : s.store.wf = true) : (s.unpoison sp a n).store.wf = true := by
  simpa [State.unpoison] using h

theorem State.poison_wf (s : State) (sp : Space) (a n : Nat) (h : s.store.wf = true) : (s.poison sp a n).store.wf = true := by
  simpa using h

theorem State.wr_wf (s : State) (sp : Space) (a : Nat) (l : List Byte) (h : s.store.wf = true) : (s.wr sp a l).store.wf = true :=
  State.unpoison_wf _ _ _ _ (s.wrBytes_wf sp a l h)

theorem State.wrLe_wf (s : State) (sp : Space) (a n v : Nat) (h : s.store.wf = true) : (s.wrLe sp a n v).store.wf = true :=
  s.wr_wf sp a _ h

theorem State.report_wf (s : State) (r : Report) (h : s.store.wf = true) : (s.report r).store.wf = true := by
  simp only [State.report]
  split
  · exact h
  · split
    · exact h
    · split
      · exact State.bump_wf _ _ _ _ _ h
      · exact h

theorem State.raise_wf (s : State) (c k u : Nat) (h : s.store.wf = true) : (s.raise c k u).store.wf = true := s.report_wf _ h
theorem State.raiseJ_wf (s : State) (c k u j t : Nat) (h : s.store.wf = true) : (s.raiseJ c k u j t).store.wf = true :=
  s.report_wf _ h

theorem State.memFault_wf (s : State) (sp : Space) (a : Nat) (d : Bool) (h : s.store.wf = true) :
    (s.memFault sp a d).store.wf = true := by
  cases sp <;> simp only [State.memFault]
  · split
    · exact State.raise_wf _ _ _ _ (State.bump_wf _ _ _ _ _ (State.setBit_wf _ _ _ (s.poison_wf _ _ _ h)))
    · exact State.raise_wf _ _ _ _ (State.bump_wf _ _ _ _ _ (State.setBit_wf _ _ _ h))
  · split
    · exact State.raise_wf _ _ _ _ (State.bump_wf _ _ _ _ _ (State.setBit_wf _ _ _ (s.poison_wf _ _ _ h)))
    · exact State.raise_wf _ _ _ _ (State.bump_wf _ _ _ _ _ (State.setBit_wf _ _ _ h))
  · exact h

theorem State.jWrite_wf (s : State) (r : JRec) (h : s.store.wf = true) : (s.jWrite r).store.wf = true := by
  simp only [State.jWrite]
  split
  · simp only [State.jWithheld]
    split
    · exact State.bump_wf _ _ _ _ _ h
    · exact State.raise_wf _ _ _ _ (by simpa using State.bump_wf _ _ _ _ _ h)
  · simpa using h

theorem State.each_wf {α : Type} (f : State → α → State) (hf : ∀ s x, s.store.wf = true → (f s x).store.wf = true) (l : List α)
    (s : State) (h : s.store.wf = true) : (s.each f l).store.wf = true :=
  State.each_pred (fun s => s.store.wf = true) f hf l s h

end Sys2Proof.Machine
end

