-- ==== Sys2Proof/Tests/Slice0.lean ====
section
/-!
SUPPORT. Sys2Proof/Tests/Slice0.lean: for each statement, a state and operands that meet its hypotheses and in which the
command completes; ill-formed terms that the well-formedness checks refuse; a few results worked out from the spec.
-/
namespace Sys2Proof.Tests
open Sys2Proof Sys2Proof.Machine

set_option Elab.async false

/-! ### Small states -/

/-- The device runs: MP and host die up, RESET_N released. -/
def up : State := { State.reset with dev := .running, mpUp := true, hostUp := true, resetN := false }

/-- The command has a next state. -/
def runs (c : Instr) (s : State) : Bool := match exec c s with | .next _ => true | .fault _ => false | .refused _ => false

/-- The command has an effect: a next state other than s. -/
def acts (c : Instr) (s : State) : Bool := match exec c s with | .next t => decide (t ≠ s) | .fault _ => false | .refused _ => false

/-- The command has a next state, and P holds there. -/
def gives (c : Instr) (s : State) (P : State → Bool) : Bool :=
  match exec c s with | .next t => P t | .fault _ => false | .refused _ => false

def at_ (d : DevState) : State := { up with dev := d }

/-- A number with the fields (high bit, low bit, value). -/
def word (l : List (Nat × Nat × Nat)) : Nat := l.foldl (fun n x => putFld n x.1 x.2.1 x.2.2) 0

/-- A task record with the fields (byte offset, high bit, low bit, value) (R313). -/
def record (l : List (Nat × Nat × Nat × Nat)) : Nat :=
  l.foldl (fun n x => putFld n (x.1 * 8 + x.2.1) (x.1 * 8 + x.2.2.1) x.2.2.2) 0

def qtask (rec' : Nat) : QTask := { record := rec', job := 0, step := 0, epoch := 0, stalled := false, waitMs := 0 }

def task (e : Engine) (rec' : Nat) : RTask :=
  { task := qtask rec', num := 1, engine := e, left := 1, sent := 0, poisoned := false, handles := [], addrs := [],
    writes := [], sumDi := 0, stream := 0, rng := 0, redundant := false, odd := false, reran := false, first := false,
    passed := false, arrived := false }

/-- Block 0 runs the task. -/
def runningT (s : State) (r : RTask) : State :=
  let B := s.block 0
  s.setBlock 0 { B with running := [r] }

def slot0 (s : State) (f : Slot → Slot) : State := s.setSlot 0 (f (s.slot 0))
def ref : TaskRef := { job := 0, id := 0, step := 0, num := 1 }

/-! ### The block, power, resets (O1 to O10) -/

theorem witness_CanonKept : ({ up with pending := [.protectiveShutdown 0] } : State).store.wf = true ∧
    (match step { up with pending := [.protectiveShutdown 0] } with | .next _ => true | _ => false) = true := by decide +kernel

/-- An event that the state does not let come about changes nothing (assumption 5). -/
theorem test_no_cause_no_effect : acts .powerRemoved { up with dev := .off } = false ∧
    acts .drainComplete up = false := by decide +kernel

theorem witness_QueueKept : (match step { up with pending := [.resetNAssert, .powerRemoved] } with
    | .next t => decide (t.pending = [.powerRemoved]) | _ => false) = true := by decide +kernel

theorem witness_PowerLossKeepsNonvolatile :
    (up.unpowered = false ∧ runs .powerRemoved up = true) ∧
    (up.resetN = false ∧ up.dev ≠ .off ∧ runs .resetNAssert up = true) ∧
    ((at_ .off).resetN = false ∧ (at_ .off).dev = .off ∧ runs .resetNAssert (at_ .off) = true) ∧
    (4 < 5 ∧ runs (.protectiveShutdown 0) up = true ∧ runs (.protectiveShutdown 4) up = true) ∧
    (runs (.inputVoltageSample 37999 100) up = true ∧ runs (.inputVoltageSample 62001 10) up = true) ∧
    (runs (.inputVoltageSample 40000 0) up = true ∧ runs (.inputVoltageSample 60000 1000) up = true) ∧
    (runs (.inputVoltageSample 39999 1000) up = true ∧ runs (.inputVoltageSample 37999 99) up = true ∧
      runs (.inputVoltageSample 60001 0) up = true ∧ runs (.inputVoltageSample 62001 9) up = true) := by decide +kernel

/-- A page of the journal returns no data, and another page read is corrected. -/
def lostPage : PartReads := { fixed := 1, failed := 0, lost := [(0, 0)], other := [(0, 1, 2)] }

theorem witness_StartUpKeepsNonvolatile :
    ((at_ .off).unpowered = true ∧ runs (.powerApplied 38000 none PartReads.none) (at_ .off) = true ∧
      runs (.powerApplied 62000 (some 1) lostPage) (at_ .off) = true) ∧
    (State.reset.resetN = true ∧ runs (.resetNRelease none lostPage) State.reset = true) ∧
    (up.mpUp = true ∧ up.resetN = false ∧ runs (.lockstepMiscompare none PartReads.none) up = true ∧
      runs (.watchdogExpiry (some 3) PartReads.none) up = true ∧ runs (.pldmActivateFirmware none lostPage) up = true) := by decide +kernel

def failed (t : Nat) (again : Bool) : TestOutcome := { test := t, kind := 0, unit := 0, again := again }

/-- Every rail is on, every block switch on, every region calibrated. -/
def plane (s : State) : State :=
  { s with store := { s.store with
      regs := (List.range 16).map (fun g => (railReg g 0, BitVec.ofNat 32 6)) ++
              (List.range 256).map (fun b => (clkReg b 4, BitVec.ofNat 32 (3 * 256))) ++
              (List.range 16).map fun g => (calReg g 0, BitVec.ofNat 32 1) } }

theorem witness_BootAndSelfTestEnd :
    ((at_ .boot).monitor = false ∧ (∀ o ∈ [failed 6 true, failed 1 false], bootTests.contains o.test = true) ∧
      runs (.bootComplete [failed 6 true, failed 1 false]) (at_ .boot) = true) ∧
    runs (.bootComplete []) (at_ .boot) = true ∧
    ((∀ o ∈ [failed 9 false, failed 5 true], selfTests.contains o.test = true) ∧
      [failed 9 false, failed 5 true].find? (fun o => o.again) = some (failed 5 true) ∧
      runs (.selfTestComplete [failed 9 false, failed 5 true]) (at_ .selftest) = true) ∧
    ((at_ .selftest).dev = .selftest ∧ (plane (at_ .selftest)).planeUp = true ∧ (plane (at_ .selftest)).sec.minSvn.length = 4 ∧
      [failed 9 false].find? (fun o => o.again) = none) := by decide +kernel

def draining : State :=
  let s := slot0 (at_ .draining) fun x => { x with state := .running }
  { s with fw := { s.fw with drainMs := 10000 } }

theorem witness_HostDieResetAndDrainEnd :
    (up.hostUp = true ∧ up.mpUp = true ∧ runs .hostDieReset up = true) ∧
    ((draining.slot 0).state.active = true ∧ draining.rf 0x40004 7 0 * 1000 ≤ draining.fw.drainMs ∧
      runs (.drainTimeout 0) draining = true) ∧
    ((∀ j < 64, ((at_ .draining).slot j).state.active = false) ∧
      (∀ w < 16, (at_ .draining).rbit (hwinReg w 0xC) 16 = false) ∧ (at_ .draining).enginesIdle = true ∧
      runs .drainComplete (at_ .draining) = true) := by decide +kernel

/-! ### Tiles (O11 to O15) -/

/-- A read request of tier 0 for one BF16 element at byte 0, output at byte 4,096 (spec/03). -/
def rdReq (tier : Nat) : ReadReq := { req := word [(3, 1, tier), (18, 8, 1), (118, 96, 4096)], ds := false, task := ref }

/-- The tile holds its tokens. -/
def tile0 (s : State) (f : Tile → Tile) : State := s.setTile 0 (f { Tile.init with tokens := true })

def reading (todo : List Phase) (ds : Bool) : ReadRun :=
  { req := { rdReq 0 with ds := ds }, cfg := 0x300, budget := 0, exp := -7, todo := todo, sums := [], phases := 0, retries := 0, flags := 0, reruns := [],
    nextLin := 1, zero := false }

def phase (n : Nat) : Phase :=
  { high := false, neg := false, lines := (List.range n).map fun i => (i, 1), retry := false, lin := 0 }

def queuedRead (tier : Nat) : State := tile0 ((up.setReadEn 0 0 true).wrLe (.bs 0) 0 2 0x3F80) fun T => { T with readQ := [rdReq tier] }

theorem witness_TileReadStart :
    ((queuedRead 0).readGrant 0 = true ∧ ((queuedRead 0).tile 0).readQ = [rdReq 0] ∧ (rdReq 0).task.job < 64 ∧
      (queuedRead 0).readEn 0 (rqTier (rdReq 0).req) = true ∧ runs (.tileReadStart 0 []) (queuedRead 0) = true) ∧
    ((queuedRead 1).readGrant 0 = true ∧ (queuedRead 1).readEn 0 (rqTier (rdReq 1).req) = false ∧
      runs (.tileReadStart 0 []) (queuedRead 1) = true) := by decide +kernel

/-- R63 and R64: of the one element 1.0, E is -7 and the code magnitude 128; so the high slice drives line 0 with 8. -/
theorem test_read_plan : gives (.tileReadStart 0 []) (queuedRead 0) (fun t =>
    match (t.tile 0).read with
    | some R => R.exp == -7 && R.todo == [{ high := true, neg := false, lines := [(0, 8)], retry := false, lin := 0 }]
    | none => false) = true := by decide +kernel

def sensing (n : Nat) : State := tile0 up fun T => { T with read := some (reading [phase n] false) }

theorem witness_PhaseLatch :
    ((sensing 1).tile 0).read = some (reading [phase 1] false) ∧ runs (.phaseLatch 0 false) (sensing 1) = true ∧
    runs (.phaseLatch 0 true) (sensing 2) = true := by decide +kernel

theorem witness_TileReadComplete :
    rqOut (rdReq 0).req + 4160 ≤ bsSize ∧
    runs (.tileReadComplete 0) (tile0 up fun T => { T with read := some (reading [] false) }) = true ∧
    runs (.tileReadComplete 0) (tile0 up fun T => { T with read := some (reading [] true) }) = true := by decide +kernel

def half (t : Nat) (c : Int) : DHalf :=
  { tile := t, req := { rdReq 0 with ds := true }, exp := 0, flags := 0, phases := 1, retries := 0, sums := [(5, c)] }

def halves : State := up.setBlock 0 { Block.init with halves := [half 1 3, half 0 2] }

/-- R75: sum 5 of the combined record is 16 × 2 + 3. -/
theorem witness_DsliceCombine :
    pickFirst (fun h => h.tile == 0 && (halves.block 0).halves.any fun k =>
      k.tile == 0 + 1 && k.req.task.num == h.req.task.num && k.req.req == h.req.req) (halves.block 0).halves =
        some (half 0 2, [half 1 3]) ∧
    pickFirst (fun h => h.tile == 0 + 1 && h.req.task.num == (half 0 2).req.task.num && h.req.req == (half 0 2).req.req)
      [half 1 3] = some (half 1 3, []) ∧
    runs (.dsliceCombine 0) halves = true ∧
    SMap.get (fun _ => 0) (combineSums (half 0 2).sums (half 1 3).sums) 5 = 35 := by decide +kernel

def carry (c : Int) (tag : Option Nat) : RowCarry := { tier := 0, row := 3, tag := tag, job := none, changes := [(7, c)] }

def row (st : RowStage) : RowRun :=
  { carry := carry 1 none, fresh := false, src := 0, stage := st, rounds := 1, done := 0, trims := 0, blocked := [], bad := [],
    vals := [(7, 0, 31)] }

def rowAt (st : RowStage) : State := tile0 up fun T => { T with row := some (row st) }

def proc (k : ProcKind) (tier : Nat) (st : ProcStage) : TierProc := newProc k tier st

def procAt (t : Nat) (s : State) (l : List TierProc) : State := s.setTile t { Tile.init with tokens := true, procs := l }

theorem witness_ProgramPulse :
    (((rowAt .fullRounds).memErrs []).takeRow 0).pulseNext 0 = some (row .fullRounds) ∧ (rowAt .fullRounds).upkGrant 0 = true ∧
    ((rowAt .fullRounds).tile 0).tempHold = false ∧ (∀ x ∈ (row .fullRounds).carry.changes, x.1 < 1056) ∧
    (∀ x ∈ (row .fullRounds).vals, x.1 < 1056) ∧ runs (.programPulse ⟨0, []⟩) (rowAt .fullRounds) = true ∧
    (((rowAt .trimRound).memErrs []).takeRow 0).pulseNext 0 = some (row .trimRound) ∧ runs (.programPulse ⟨0, []⟩) (rowAt .trimRound) = true := by
  decide +kernel

theorem witness_VerifyRead :
    ((((rowAt .verify).memErrs []).takeRow 0).tile 0).row = some (row .verify) ∧ (rowAt .verify).upkGrant 0 = true ∧
    runs (.verifyRead ⟨0, []⟩) (rowAt .verify) = true := by decide +kernel

def procOf (p : TierProc) : State := procAt 0 up [p]

theorem witness_SweepRead :
    (procOf (proc .sweep 0 .sweeping)).otherGrant 0 = true ∧
    runs (.sweepRead ⟨0, []⟩) (procOf (proc .sweep 0 .sweeping)) = true := by decide +kernel

theorem witness_EraseSubPulse :
    (procOf (proc .load 0 .erasing)).otherGrant 0 = true ∧ ((procOf (proc .load 0 .erasing)).tile 0).tempHold = false ∧
    (proc .load 0 .erasing).verify = false ∧ runs (.eraseSubPulse 0) (procOf (proc .load 0 .erasing)) = true := by decide +kernel

theorem witness_EraseVerify :
    ((procOf { proc .load 0 .erasing with verify := true }).tile 0).read = none ∧
    runs (.eraseVerify 0) (procOf { proc .load 0 .erasing with verify := true }) = true := by decide +kernel

def tierAt (u : Nat) (s : State) (st : Nat) (f : TierInfo → TierInfo) : State := (s.setTierState u st).setTier u (f (s.tier u))

theorem witness_SweepDue :
    let s := tierAt 131071 up stResident fun I => { I with tensor := some 0, sweepS := 0 }
    let r := (tierAt 0 up stRetired fun I => { I with tensor := some 0, sweepS := 0 }).setReadEn 0 0 true
    s.tierState 131071 = stResident ∧ (s.tier 131071).sweepS = 0 ∧ s.rbit (tierReg 131071) 20 = false ∧
    runs (.sweepDue 131071) s = true ∧ r.tierState 0 = stRetired ∧ r.readEn 0 0 = true ∧ (r.tier 0).sweepS = 0 ∧ r.rbit (tierReg 0) 20 = false ∧ runs (.sweepDue 0) r = true := by decide +kernel

theorem witness_CoppiceSwap :
    let p := proc (.coppiceFree 7) 0 .swapping
    let s := procAt 0 up [p]
    let d := procAt 1 (tierAt 0 s stResident fun I => { I with tensor := some 0, dslice := true }) [p]
    (s.tile 0).procs = [p] ∧ (s.tile 0).read = none ∧ (s.tile 0).row = none ∧ runs (.coppiceSwap 0) s = true ∧
    (d.tier 0).dslice = true ∧ twinUnit (0 * 8) / 8 = 1 ∧ (d.tile 1).procs = [p] ∧ s.foldDue 0 = false ∧ d.foldDue 0 = false ∧ runs (.coppiceSwap 0) d = true := by
  decide +kernel

theorem witness_TierLoadDone :
    let s := procAt 16383 up [proc .load 7 .finished]
    pickFirst (fun p => p.kind == .load && p.tier == 131071 % 8 && p.stage == .finished) (s.tile (131071 / 8)).procs =
      some (proc .load 7 .finished, []) ∧ (s.tier 131071).dslice = false ∧ s.foldDue 131071 = false ∧
    runs (.tierLoadDone 131071) s = true ∧
    (let d := procAt 1 (procAt 0 (tierAt 0 up stLoading fun I => { I with dslice := true }) [proc .load 0 .finished]) [proc .load 0 .finished]
     (d.tier 0).dslice = true ∧ (d.tile (twinUnit 0 / 8)).writes 0 = false ∧ d.foldDue 0 = false ∧
     (pickFirst (fun p => p.kind == .load && p.tier == 0 && p.stage == .finished) (d.tile 0).procs).isSome = true) := by decide +kernel

theorem witness_AdoptionSweepDone :
    let s := procAt 0 up [proc .adopt 0 .finished]
    let d := procAt 1 (tierAt 0 s stLoading fun I => { I with dslice := true }) [proc .adopt 0 .finished]
    evenUnit (s.tier 0).dslice 0 = 0 ∧ (pickFirst (fun p => p.kind == .adopt && p.tier == 0 && p.stage == .finished)
      (s.tile 0).procs).isSome = true ∧ runs (.adoptionSweepDone 0) s = true ∧
    (pickFirst (fun p => p.kind == .adopt && p.tier == 0 && p.stage == .finished) (d.tile 1).procs).isSome = true ∧
    (s.tier 0).erases < 10000 ∧ (proc .adopt 0 .finished).exc ≤ s.rf (blockReg 0 0x2008) 31 16 ∧
    runs (.adoptionSweepDone 0) d = true := by decide +kernel

theorem witness_FenceTimeout :
    let s := tile0 up fun T => { T with carries := [carry 1 (some 2)], fence := [1, 0, 0, 0], fenceEp := [0, 0, 0, 0], fenceMs := 60000 }
    ((s.tile 0).carries.filter fun c => match c.tag with | some g => !(s.tile 0).fenceOk g | none => false) =
      [carry 1 (some 2)] ∧ s.rf (blockReg (tileBlock 0) 0x2008) 15 0 ≤ (s.tile 0).fenceMs ∧
    runs (.fenceTimeout 0) s = true := by decide +kernel

/-- Tier 0 holds a piece of one row and one column of tensor 0; job 0 runs an UPDATE of it in the carry engine. -/
def updating (tens : List (Nat × Bool)) (skip : Bool) : State :=
  let s := tierAt 0 up stResident fun I => { I with tensor := some 0, rows := 1, cols := 1 }
  let s := slot0 s fun x => { x with state := .running, tensors := tens, skipped := if skip then [0] else [] }
  runningT s { task .carry (record [(4, 3, 0, 6)]) with addrs := [{ pool := 0, unit := 0, base := 4096, off := 0 }] }

theorem witness_UpdateTask :
    let s := (updating [(0, true)] false).setBit (numReg 0 0) 1
    (s.working 0 engCarry 6 (fun _ => true)).isSome = true ∧ (s.tier 0).tensor = some 0 ∧ (s.tier 0).rows ≤ 1024 ∧
    (s.tier 0).cols ≤ 1024 ∧ (s.tier 0).shadow + 3145728 ≤ hbmSize ∧ ((fp32.input (s.denorm 0) (s.rdNAt { pool := 0, unit := 0, base := 4096, off := 0 } 4)).1).isFinite = true ∧ s.poisonedAt { pool := 0, unit := 0, base := 4096, off := 0 } 4 = false ∧
    s.recBad (s.tier 0) 0 0 0 = none ∧ runs (.updateTask 0 []) s = true ∧
    runs (.updateTask 0 []) (updating [(0, true)] true) = true ∧ runs (.updateTask 0 []) (updating [(0, false)] false) = true ∧
    runs (.updateTask 0 []) (updating [] false) = true := by decide +kernel

/-! ### Matrix core (O16, O17) -/

/-- One row, one column, one block of K, BF16 operands, strides of one line; output in line 64. -/
def mcReq (f : List (Nat × Nat × Nat)) : McReq :=
  { req := word ([(47, 32, 1), (59, 48, 1), (71, 60, 1), (83, 72, 1), (185, 169, 64)] ++ f), task := ref, slot := 0 }

def mcRun (st : McStage) (q : McReq) (rerun : Nat) : McRun :=
  { req := q, stage := st, cfg := 3, acc := [], csRow := [], csCol := [], muRow := [], muCol := [], rerun := rerun, nan := none,
    ovf := false }

def core (q : List McReq) (l : List McRun) : State :=
  up.setBlock 0 { Block.init with mc := { queue := q, runs := l, bank := false } }

theorem witness_MatmulStart :
    let q := mcReq []
    let s := core [q] []
    mqBad q.req = false ∧ (s.block 0).mc.canStart = true ∧ q.task.job < 64 ∧ mqGacc q.req = false ∧
    runs (.matmulStart 0 []) s = true := by decide +kernel

def noMatFault : MatFault := { kind := 0, m := 0, n := 0, blk := 0 }

theorem witness_MatmulCheckPass :
    let r := mcRun .checking (mcReq []) 0
    let r2 := mcRun .checking (mcReq []) 2
    splitRuns .checking ((core [] [r]).block 0).mc.runs = some ([], r, []) ∧ r.failure noMatFault = none ∧
    runs (.matmulCheckPass 0 noMatFault) (core [] [r]) = true ∧
    r.failure { noMatFault with kind := 2 } = some (2, 0, 0, 0) ∧
    runs (.matmulCheckPass 0 { noMatFault with kind := 2 }) (core [] [r]) = true ∧
    runs (.matmulCheckPass 0 noMatFault) (core [] [r2]) = true ∧
    runs (.matmulCheckPass 0 { noMatFault with kind := 3 }) (core [] [r2]) = true := by decide +kernel

def chained : McReq := mcReq [(15, 15, 1)]

theorem witness_MatmulWritePass :
    let s := core [] [mcRun .checked chained 0]
    let t := s.setRn (blockReg 0 0x5020) (2 ^ 31)
    mqChain (mcReq []).req = false ∧ runs (.matmulWritePass 0) (core [] [mcRun .checked (mcReq []) 0]) = true ∧
    mqChain chained.req = true ∧ (t.block 0).ve.run = none ∧ bit (t.rn (blockReg 0 0x5020)) 31 = true ∧
    veLegal true (t.veWord 0 0) = true ∧ runs (.matmulWritePass 0) t = true ∧
    bit (s.rn (blockReg 0 0x5020)) 31 = false ∧ runs (.matmulWritePass 0) s = true := by decide +kernel

theorem witness_MatmulWriteDone :
    let q := mcReq []
    mqBad q.req = false ∧ mqOutMx q.req = false ∧ mqCsum q.req = false ∧
    packed (mqOutFmt q.req) (mqN q.req) ≤ 64 * mqCStride q.req ∧
    runs (.matmulWriteDone ⟨0, []⟩) (core [] [mcRun .writing q 0]) = true := by decide +kernel

/-! ### Vector engine (O18 to O23) -/

def veRun0 (chain : Bool) : VeRun :=
  { task := ref, chain := chain, chunk := 0, entry := 0, len := 2, m := 128, n := 128, kernel := false, undo := [],
    denorm := false }

/-- The engine of block 0 runs at address 0 of its program store, which holds the word. -/
def veState (chain : Bool) (w : Nat) : State :=
  let s := runningT (up.setBlock 0 { Block.init with ve := { VecEngine.init with run := some (veRun0 chain) } }) (task .vector 0)
  (s.setRn (blockReg 0 0x6000) w).setRn (blockReg 0 0x6004) (w / 2 ^ 32)

def veAtB (s : State) (op : Nat) (R : VeRun) : Bool :=
  decide ((s.block 0).ve.run = some R) && decide (wOp (s.veWord 0 (s.block 0).ve.pc) = op) && s.veLegalHere 0 R &&
    (!R.chain || decide ((s.block 0).ve.pc + 1 < R.entry + R.len))

theorem veAt_of_veAtB {s : State} {op : Nat} {R : VeRun} (h : veAtB s op R = true) : VeAt s 0 op R := by
  simp only [veAtB, Bool.and_eq_true, decide_eq_true_eq, Bool.or_eq_true, Bool.not_eq_true'] at h
  exact ⟨h.1.1.1, h.1.1.2, h.1.2, fun hc => h.2.resolve_left (by simp [hc])⟩

/-- Opcode, the word's other fields, whether it runs in an element program, and the command. -/
def laneOps : List (Nat × List (Nat × Nat × Nat) × Bool × (VeFault → Instr)) :=
  [(0x10, [], false, .veFadd 0), (0x11, [], false, .veFsub 0), (0x12, [(36, 34, 4)], false, .veFmul 0), (0x13, [], false, .veFma 0),
   (0x14, [], false, .veFmax 0), (0x15, [], false, .veFmin 0), (0x16, [], false, .veFabs 0), (0x17, [], false, .veFneg 0),
   (0x18, [(47, 40, 0x80)], false, .veFscale 0), (0x1A, [], false, .veFrcp 0), (0x1B, [], false, .veFrsq 0),
   (0x1C, [], false, .veFexp2 0), (0x1D, [], false, .veFlog2 0), (0x1E, [], false, .veFtanh 0), (0x1F, [], false, .veFsigm 0),
   (0x20, [], false, .veFcmplt 0), (0x21, [], false, .veFcmple 0), (0x22, [], false, .veFcmpeq 0), (0x23, [], false, .veSel 0),
   (0x28, [], false, .veIadd 0), (0x29, [], false, .veIsub 0), (0x2A, [], false, .veImul 0), (0x2B, [], false, .veIand 0),
   (0x2C, [], false, .veIor 0), (0x2D, [], false, .veIxor 0), (0x2E, [], false, .veIshl 0), (0x2F, [], false, .veIshra 0),
   (0x30, [], false, .veIshrl 0), (0x31, [], false, .veIcmpltu 0), (0x38, [], false, .veCvtw 0), (0x39, [], false, .veCvtn 0),
   (0x39, [(42, 40, 2), (46, 46, 1), (22, 18, 1)], false, .veCvtn 0), (0x3A, [], false, .veCvti 0), (0x3B, [], false, .veCvtfi 0),
   (0x40, [], false, .veRsumr 0), (0x41, [], false, .veRsumc 0), (0x42, [], false, .veRmaxr 0), (0x43, [], false, .veRmaxc 0),
   (0x44, [], false, .veRamaxr 0), (0x45, [], false, .veRamaxc 0), (0x46, [], false, .veRsums 0),
   (0x48, [(37, 37, 1)], false, .veCmb 0), (0x4C, [(12, 8, 16)], true, .veFacc 0), (0x4D, [(12, 8, 23)], true, .veFmaxacc 0),
   (0x02, [(51, 40, 1)], false, .veSt 0 [])]

def wordOf (op : Nat) (f : List (Nat × Nat × Nat)) : Nat := word ((7, 0, op) :: f)

theorem witness_VectorLanes : (veRun0 false).task.job < 64 ∧
    (laneOps.all fun x => veAtB (veState x.2.2.1 (wordOf x.1 x.2.1)) x.1 (veRun0 x.2.2.1) &&
      runs (x.2.2.2 noFault) (veState x.2.2.1 (wordOf x.1 x.2.1))) = true := by decide +kernel

theorem witness_VectorChecksPoison :
    (laneOps.all fun x =>
      let s := veState x.2.2.1 (wordOf x.1 x.2.1)
      decide ((s.block 0).ve.cfg % 2 = 1) && runs (x.2.2.2 { res := 0, ecc := 2 }) s && runs (x.2.2.2 { res := 0, ecc := 1 }) s &&
        runs (x.2.2.2 { res := 2, ecc := 0 }) s) = true ∧ resChecked 0x10 = true := by decide +kernel

theorem witness_VectorOther :
    ([(0x00, [], .veNop 0), (0x01, [], .veLd 0 []), (0x03, [], .veLds 0 []), (0x04, [], .veSts 0 []), (0x08, [], .veSeta 0),
      (0x09, [], .veAdda 0), (0x0A, [], .veSets 0), (0x0B, [], .veSetsl 0), (0x50, [], .veSpr 0), (0x60, [(60, 56, 1)], .veLoop 0),
      (0x60, [(60, 56, 31), (55, 40, 65535)], .veLoop 0), (0x61, [], .veEnd ⟨0, []⟩), (0x62, [], .veSync 0)] :
      List (Nat × List (Nat × Nat × Nat) × Instr)).all (fun x =>
        veAtB (veState false (wordOf x.1 x.2.1)) x.1 (veRun0 false) && runs x.2.2 (veState false (wordOf x.1 x.2.1))) = true ∧
    ((veState false 0x0C).veLegalHere 0 (veRun0 false) = false ∧ ((veState false 0x0C).run 0 ref.num).isSome = true ∧
      runs (.illegalInstruction 0) (veState false 0x0C) = true) := by decide +kernel

/-- R177 to R179: rows inside the block store at A = 0, beyond it at A = 131,071. -/
theorem witness_VectorMemory :
    let far (w : Nat) : State := (veState false w).setVeA 0 0 131071
    let ld := wordOf 0x01 []
    let st := wordOf 0x02 [(51, 40, 1)]
    let lds := wordOf 0x03 []
    let sts := wordOf 0x04 []
    (∀ r < 32, (veState false ld).veRowAddr 0 ld (veRun0 false) (if wStride ld = 0 then 0 else r) + 64 ≤ bsSize) ∧
    (∀ r < 32, (veState false st).veRowAddr 0 st (veRun0 false) r + 64 ≤ bsSize) ∧
    ¬ ((far ld).veRowAddr 0 ld (veRun0 false) 0 + 64 ≤ bsSize) ∧ runs (.veLd 0 []) (far ld) = true ∧
    ¬ ((far st).veRowAddr 0 st (veRun0 false) 0 + 4 ≤ bsSize) ∧ runs (.veSt 0 [] noFault) (far st) = true ∧
    (veState false lds).veWordAddr 0 lds + 4 ≤ bsSize ∧ ¬ ((far lds).veWordAddr 0 lds + 4 ≤ bsSize) ∧
    runs (.veLds 0 []) (far lds) = true ∧ ¬ ((far sts).veWordAddr 0 sts + 4 ≤ bsSize) ∧ runs (.veSts 0 []) (far sts) = true := by
  decide +kernel


/-- IEEE 754: 1.0 + 2.0 = 3.0, 1.0 - 2.0 = -1.0. -/
theorem test_fadd : (addL .nearest false 0 0x3F800000 0x40000000).code = 0x40400000 ∧
    (fp2 (fun x y => FpNum.add .nearest x y.neg) .nearest false 0 0x3F800000 0x40000000).code = 0xBF800000 := by decide +kernel

/-- R188: CVTI of 5 with a scale of 2^-1 is 2.5. -/
theorem test_cvti : (cvtiL .nearest false 0 (-1) 5).code = 0x40200000 := by decide +kernel

/-! ### Register access (O24 to O29) -/

/-- Region 0 and block 0 have their clocks; the MP's lock is open. -/
def clocked (s : State) : State := { (s.setRf (railReg 0 0) 3 1 3).setRf (clkReg 0 4) 10 8 3 with mpLock := true }

def acc (off : Nat) : Access := { off := off, bytes := 4, be := 15 }

def acceptedB (s : State) (w : Writer) (a : Access) (v : Nat) (r : RegRef) : Bool :=
  s.reaches w && accessOk a && decide (locOf a.off = .reg r) && !s.stateRefuses w a.off &&
    (decide (r.desc.rwk = 0) || s.isOpen w || !s.changesRwk r.desc a.off v) && encOk r.desc.id v && !s.dead r.desc.dom a.off &&
    !s.ruleRefuses w r a.off v

theorem accepted_of_acceptedB {s : State} {w : Writer} {a : Access} {v : Nat} {r : RegRef}
    (h : acceptedB s w a v r = true) : Accepted s w a v r := by
  simp only [acceptedB, Bool.and_eq_true, decide_eq_true_eq, Bool.or_eq_true, Bool.not_eq_true'] at h
  exact ⟨h.1.1.1.1.1.1.1, h.1.1.1.1.1.1.2, h.1.1.1.1.1.2, h.1.1.1.1.2, by
    rcases h.1.1.1.2 with (h | h) | h
    · exact .inl h
    · exact .inr (.inl h)
    · exact .inr (.inr h), h.1.1.2, h.1.2, h.2⟩

/-- The MP's write of v at the offset passes every check at a register of kind `id`, and completes. -/
def writes (s : State) (off v : Nat) (id : RegId) (c : Writer → Access → Nat → Instr) : Bool :=
  match locOf off with
  | .reg r => decide (r.desc.id = id) && acceptedB s .mp (acc off) v r && runs (c .mp (acc off) v) s
  | _ => false

theorem witness_RegisterRulesRefuseWrites :
    let busy := (clocked (veState false 0)).setBit (numReg 63 4) 16
    busy.reaches .mp = true ∧ busy.rbit (numReg 63 4) 16 = true ∧
    runs (.numModeWrite .mp (acc (numReg 63 0)) 0) busy = true ∧ runs (.tsContextWrite .mp (acc (tsReg 63 0)) 0) busy = true ∧
    (busy.block 0).ve.run ≠ none ∧ runs (.vePstoreWrite .mp (acc (blockReg 0 0x6000)) 0) busy = true ∧
    bit 4 2 ≠ (up.setRn 0x200000 1).rbit 0x200000 2 ∧ (up.setRn 0x200000 1).rf 0x200000 1 0 ≠ 0 ∧
    runs (.linkCfgWrite .mp (acc 0x200000) 4) (up.setRn 0x200000 1) = true ∧
    locOf 0x101000 = .area 0 0 ∧ 2 ≤ (up.setMb 0 2).mbState 0 ∧
    runs (.mailboxAreaWrite .mp (acc 0x101000) 4) (up.setMb 0 2) = true := by decide +kernel

theorem witness_ZeroGradientWatchWrite :
    writes (clocked up) (zgwReg 0 0) 5 .zgwTensor .zgwWrite = true ∧
    writes (clocked up) (zgwReg 255 4) 0x10002 .zgwCfg .zgwWrite = true := by decide +kernel

theorem witness_MailboxOverrun : 2 ≤ (up.setMb 15 2).mbState 15 ∧ bit 1 0 = true ∧
    writes (up.setMb 15 2) (mbReg 15 0) 1 .mbDoorbell .mailboxRing = true ∧
    writes (up.setMb 0 4) (mbReg 0 0) 1 .mbDoorbell .mailboxRing = true := by decide +kernel

theorem witness_RegisterWrites :
    let s := clocked up
    let v := s.setRn (hwinReg 0 8) 1
    let act := s.setBit (numReg 0 4) 16
    writes s (numReg 0 0) 0x10000 .numMode .numModeWrite = true ∧ writes s (numReg 63 8) 0 .numLscale .numModeWrite = true ∧
    writes s (tsReg 0 0) 5 .tsSporeKey0 .tsContextWrite = true ∧ writes s (numReg 0 4) 8 .numStatus .nanTrapClear = true ∧
    writes s (blockReg 0 0x5004) 0x4000 .veStatus .veTrapClear = true ∧
    writes s (tierReg 0) 0x20005 .tierUpkeep .tierUpkeepWrite = true ∧ writes s 0x20010 3 .clMparrive .clMparriveWrite = true ∧
    (ownWrites.contains .bcastGrp = false ∧ writes s 0x44 7 .bcastGrp .registerWrite = true) ∧
    writes s (blockReg 0 0x6000) 1 .vePstore .vePstoreWrite = true ∧ writes s (blockReg 0 0x6004) 1 .vePstore .vePstoreWrite = true ∧
    writes s (hwinReg 0 0) 0x200000 .hwinBaseLo .hwinRegisterWrite = true ∧
    writes s (hwinReg 0 4) 1 .hwinBaseHi .hwinRegisterWrite = true ∧ writes s (hwinReg 15 8) 262144 .hwinSize .hwinRegisterWrite = true ∧
    (v.rbit (hwinReg 0 0xC) 0 = false ∧ writes v (hwinReg 0 0xC) 1 .hwinCtl .hwinRegisterWrite = true) ∧
    ((v.setBit (hwinReg 0 0xC) 0).rbit (hwinReg 0 0xC) 0 = true ∧
      writes (v.setBit (hwinReg 0 0xC) 0) (hwinReg 0 0xC) 0 .hwinCtl .hwinRegisterWrite = true) ∧
    (act.rbit (numReg 0 4) 16 = true ∧ writes act (xfReg 0 0) 9 .xfDbell .xfDbellWrite = true) ∧
    (s.rbit (numReg 0 4) 16 = false ∧ writes s (xfReg 0 0) 9 .xfDbell .xfDbellWrite = true) ∧
    writes up 0x10 0x6A3C .chipUnlock .chipUnlockWrite = true ∧ writes up 0x10 0x6A3D .chipUnlock .chipUnlockWrite = true ∧
    (locOf 0x1F1FFC = .area 15 0xFFC ∧ up.mbState 15 < 2 ∧ up.stateRefuses .mp 0x1F1FFC = false ∧
      runs (.mailboxAreaWrite .mp (acc 0x1F1FFC) 1) up = true) := by decide +kernel

/-- R503: the key 0x6A3C opens the lock. -/
theorem test_key : gives (.chipUnlockWrite .mp (acc 0x10) 0x6A3C) up (fun t => t.mpLock) = true ∧
    gives (.chipUnlockWrite .mp (acc 0x10) 0x6A3D) up (fun t => !t.mpLock && t.rbit 0x14 16) = true := by decide +kernel

theorem witness_RegisterReads :
    let s := clocked up
    (readRefusal .mp (acc 4) = some rkLocation ∧ s.reaches .mp = true ∧ runs (.registerReadRefused .mp (acc 4)) s = true) ∧
    (match s.readable .mp (acc 0x88) with | some r => decide (r.desc.rc ≠ 0) | none => false) = true ∧
    runs (.rcRegisterRead .mp (acc 0x88)) s = true ∧
    (match s.readable .mp (acc 0x34080) with | some r => captures.contains r.desc.id | none => false) = true ∧
    (regAt 0x34084).isSome = true ∧ runs (.lowWordCaptureRead .mp (acc 0x34080)) s = true ∧
    (match locOf (blockReg 0 0x2000) with | .reg r => up.dead r.desc.dom (blockReg 0 0x2000) | _ => false) = true ∧
    runs (.crossingTimeout .mp (acc (blockReg 0 0x2000)) none) up = true ∧
    runs (.crossingTimeout .mp (acc (blockReg 0 0x2000)) (some 0xA0608C)) up = true ∧
    s.isOpen .mp = true ∧ runs (.keyLockTimeout .mp) s = true := by decide +kernel

/-- Group 1 is region 0 and block 0, group 2 is empty. -/
def casting (sel : Nat) : State := { (clocked up).setRn 0x44 0x10001 with mpBcast := sel * 0x11 }

theorem witness_BroadcastWrites :
    (match locOf 0x402000 with
      | .regionWin x r => decide (r.desc.id = .raCfg) && decide ((casting 2).regionTargets .mp x = []) &&
          decide (((casting 1).regionTargets .mp x).length = 1) &&
          decide (((casting 1).checkWrite .mp r.desc 0x402000 1 (((casting 1).regionTargets .mp x).map fun y => y.2.2)).1 = none) &&
          ((casting 1).regionTargets .mp x).all fun y => !(casting 1).dead y.2.1.desc.dom y.2.2 &&
            !(casting 1).ruleRefuses .mp y.2.1 y.2.2 1 && !ownWrites.contains y.2.1.desc.id
      | _ => false) = true ∧
    runs (.regionBroadcastWrite .mp (acc 0x402000) 1) (casting 2) = true ∧
    runs (.regionBroadcastWrite .mp (acc 0x402000) 1) (casting 1) = true ∧
    (match locOf 0x602000 with
      | .blockWin x r => decide (r.desc.id = .ceCfg) && decide ((casting 2).blockTargets .mp x = []) &&
          decide (((casting 1).blockTargets .mp x).length = 1) &&
          decide (((casting 1).checkWrite .mp r.desc 0x602000 0xA0608C (((casting 1).blockTargets .mp x).map fun y => y.2.2)).1 = none) &&
          ((casting 1).blockTargets .mp x).all fun y => !(casting 1).dead y.2.1.desc.dom y.2.2 &&
            !(casting 1).ruleRefuses .mp y.2.1 y.2.2 1 && !ownWrites.contains y.2.1.desc.id
      | _ => false) = true ∧
    runs (.blockBroadcastWrite .mp (acc 0x602000) 0xA0608C) (casting 2) = true ∧
    runs (.blockBroadcastWrite .mp (acc 0x602000) 0xA0608C) (casting 1) = true := by decide +kernel

/-! ### Scheduling (O30 to O37) -/

/-- Job 0 runs; its list of region 0 holds the record. -/
def listed (rec' : Nat) : State :=
  slot0 up fun x => { x with
    state := .running, graph := true
    lists := [(0, { DList.init with records := [rec'], pos := [0] })] }

theorem witness_TaskDelivery : ((listed 0).nextRecord 0 0).isSome = true ∧ runs (.taskDeliver 0) (listed 0) = true := by
  decide +kernel

def queued (rec' : Nat) : State :=
  (slot0 up fun x => { x with state := .running }).setBlock 0 { Block.init with queue := [qtask rec'] }

/-- A NOP that waits on counter 3 for 1; then the same task with the counter assigned to job 0 and at 1. -/
def waiting : Nat := record [(4, 3, 0, 0), (12, 6, 0, 0x43), (12, 15, 8, 1)]
def ready1 : State := ((queued waiting).setRn (ccCtl 0 3) (2 ^ 22)).setRn (ccVal 0 3) 1

/-- A MOVE with a handle whose record is away (R270). -/
def away : State :=
  let s := queued (record [(4, 3, 0, 4), (28, 0, 0, 1), (32, 31, 0, 0x01000000)])
  s.setAlloc 0 { Allocator.init with table := [(0, { HEntry.init with state := .away, gen := 1, pager := true })] }

theorem witness_TaskIssue :
    let able (s : State) : List (Nat × QTask) := (heads (s.block 0).queue [] 0).filter fun x => s.ready 0 x.2 != .held
    (ready1.block 0).winWait = false ∧ ready1.markStalls 0 = ready1 ∧
    pickHead (ready1.block 0).rrEngine (able ready1) = some (0, qtask waiting) ∧ ready1.ready 0 (qtask waiting) = .yes ∧
    [0, 3, 4, 5, 6, 7, 8, 9].contains (recKind waiting) = true ∧ ready1.paired 0 = false ∧ recBwdFirst waiting = false ∧
    (ready1.slot 0).adapts 0 waiting = false ∧
    runs (.taskIssue 0) ready1 = true ∧
    (queued waiting).ready 0 (qtask waiting) = .fails 0 ∧ runs (.taskIssue 0) (queued waiting) = true ∧
    pickHead (away.block 0).rrEngine (able away) = none ∧ away.markStalls 0 ≠ away ∧ runs (.taskIssue 0) away = true := by
  decide +kernel

/-- R317: the counter falls by the N of the wait in the cycle of issue. -/
theorem test_wait : gives (.taskIssue 0) ready1 (fun t => t.rf (ccVal 0 3) 15 0 == 0 && (t.block 0).running.length == 1) = true := by
  decide +kernel

def control (op : Nat) (f : List (Nat × Nat × Nat × Nat)) : RTask := task .control (record ([(0x30, 3, 0, op)] ++ f))

theorem witness_TaskComplete :
    let d (f : List (Nat × Nat × Nat × Nat)) : RTask := { control 0 f with left := 0 }
    let s := runningT up (d [])
    let bad := runningT up (d [(16, 6, 6, 1)])
    let lt := d [(4, 3, 0, 1), (4, 17, 17, 1)]
    let l := slot0 (runningT up lt) fun x => { x with open_ := [{ mb := 0, step := 0, epoch := 0, tiles := [0] }] }
    s.run 0 1 = some (d []) ∧ (recSigs (d []).task.record).all (fun x => s.ccMine x.1 x.2.1 0) = true ∧
    recRecLast (d []).task.record = false ∧ recLastT (d []).task.record = false ∧ s.kernelOf 0 0 (recId (d []).task.record) = none ∧ (d []).odd = false ∧ (d []).redundant = false ∧ runs (.taskComplete 0 1) s = true ∧
    (recSigs (d [(16, 6, 6, 1)]).task.record).all (fun x => bad.ccMine x.1 x.2.1 0) = false ∧ runs (.taskComplete 0 1) bad = true ∧
    recLastT lt.task.record = true ∧ ((l.slot 0).openMb (recMb lt.task.record) 0).isSome = true ∧
    runs (.taskComplete 0 1) l = true := by decide +kernel

/-- R331, R333: two signals in one cycle are summed and added once; the counter saturates at 65,535. -/
theorem witness_CreditSignal :
    let s : State := { up with sigs := [(0, 63, 65535), (0, 63, 5), (1, 63, 1)] }
    2 ≤ (s.sigs.filter fun x => x.1 == 0 && x.2.1 == 63).length ∧
    gives (.creditSignal 0 63 2) s (fun t => t.rf (ccVal 0 63) 15 0 == 65535 && t.rbit (ccVal 0 63) 17 && t.sigs == [(1, 63, 1)]) =
      true := by decide +kernel

theorem witness_ControlTasks :
    let s (op : Nat) : State := slot0 (runningT up (control op [])) fun x => { x with
      tensors := [(0, true)], open_ := [{ mb := 0, step := 0, epoch := 0, tiles := [0] }] }
    let adm := (s 1).setTier 0 { TierInfo.init with tensor := some 0 }
    let line := ((s 3).setBit (blockReg 0 0xC300) 0).setRn (clReg 0 0) 64
    (s 0).run 0 1 = some (control 0 []) ∧ (s 0).control 0 0 = some (control 0 []) ∧ runs (.controlNop 0) (s 0) = true ∧
    adm.control 0 1 = some (control 1 []) ∧ adm.fenceSet 0 = [0] ∧ (adm.tile 0).admits 0 = true ∧ runs (.mbAdmit 0) adm = true ∧
    (s 2).control 0 2 = some (control 2 []) ∧ ((s 2).slot 0).openMb 0 0 ≠ none ∧ runs (.mbAbort 0) (s 2) = true ∧
    line.arrivals 0 = [control 3 []] ∧ line.strayArrival 0 (control 3 []) = false ∧
    (line.block 0).arrived.contains (control 3 []).line = false ∧ runs (.arrive 0) line = true ∧
    (s 3).arrivals 0 = [control 3 []] ∧ (s 3).strayArrival 0 (control 3 []) = true ∧ runs (.arrive 0) (s 3) = true := by
  decide +kernel

theorem witness_ClearingLines :
    let s := (up.setRn (clReg 31 0) 0x80).setRn 0x20010 (2 ^ 31)
    let j := slot0 ((up.setRn (clReg 0 0) 0x1C0).setRn 0x20010 1) fun x => { x with state := .running, stepLine := 0, committed := true }
    s.lineReady 31 = true ∧ (s.rbit (clReg 31 0) 8 && s.rbit (clReg 31 0) 6) = false ∧ runs (.clearingLineRelease 31) s = true ∧
    j.lineReady 0 = true ∧ (j.rbit (clReg 0 0) 8 && j.rbit (clReg 0 0) 6) = true ∧ (j.slot 0).stopAtLine = false ∧
    runs (.clearingLineRelease 0) j = true ∧
    writes (clocked up) (blockReg 0 0xC300) 1 .clEn .clEnWrite = true := by decide +kernel

theorem witness_TestsAndWindows :
    let job := slot0 up fun x => { x with state := .running, blocks := 1, stepLine := 31 }
    let wait := up.setBlock 0 { Block.init with winWait := true }
    let owed := (up.setRn (blockReg 0 0xC308) (2 + 20000 * 65536)).setTest 0 4 { BlockTest.init with due := true, overruns := 2 }
    let due := up.setTest 0 0 { BlockTest.init with dueS := 0 }
    let forced := job.setTest 0 0 { BlockTest.init with due := true, dueFor := 14400 }
    let field (again : Bool) : State := up.setTest 0 1 { BlockTest.init with due := true, failedOnce := again }
    ((wait.block 0).working = false ∧ wait.rbit (blockReg 0 0xC308) 1 = false ∧ runs (.testWindowOpen 0) wait = true) ∧
    (20000 ≤ owed.rf (blockReg 0 0xC308) 31 16 ∧ (List.range 5).find? (fun i => (owed.test 0 i).due) = some 4 ∧
      runs (.testWindowOverrun 0) owed = true) ∧
    writes ((clocked up).setRn (blockReg 0 0xC308) 3) (blockReg 0 0xC308) 0 .seqWin .seqWinWrite = true ∧
    ((due.test 0 0).dueS = 0 ∧ (due.test 0 0).due = false ∧ runs (.testDue 0 0) due = true) ∧
    (forced.blockJob 0 = some 0 ∧ (forced.slot 0).stepLine < 32 ∧ forced.rbit (clReg 31 0) 9 = false ∧
      runs (.testForced 0 0) forced = true) ∧
    ((field false).testable 0 = true ∧ runs (.inFieldTestDone 0 1 true 0) (field false) = true ∧
      runs (.inFieldTestDone 0 1 false 0) (field false) = true ∧ runs (.inFieldTestDone 0 1 true 0) (field true) = true ∧
      runs (.inFieldTestDone 0 1 false 0) (field true) = true) := by decide +kernel

theorem witness_PowerTokens :
    let s := up.setTile 1023 { Tile.init with readQ := [rdReq 0] }
    let low := s.setRn (regionReg 0 0x4000) 0
    let lent := up.setTok 0 { Tokens.init with lots := 1 }
    atPointer (s.tok 0).ptr (s.tokenRequests 0) = some (1023, 8) ∧
    s.overLimit 0 = (false, false) ∧ (s.regionTokens 0 + 8 - (s.rf (regionReg 0 0x4000) 15 0 + 128 * (s.tok 0).lots) + 127) / 128 = 0 ∧
    s.tileTokens 0 + 8 ≤ s.rf (regionReg 0 0x4000) 31 16 ∧ runs (.tokenGrant ⟨0, []⟩) s = true ∧
    atPointer (low.tok 0).ptr (low.tokenRequests 0) = some (1023, 8) ∧ ¬ (low.tileTokens 0 + 8 ≤ low.rf (regionReg 0 0x4000) 31 16) ∧
    runs (.tokenGrant ⟨0, []⟩) low = true ∧ (lent.tok 0).lots ≠ 0 ∧
    lent.regionTokens 0 + 128 ≤ lent.rf (regionReg 0 0x4000) 15 0 + 128 * (lent.tok 0).lots ∧ runs (.tokenLotReturn 0) lent = true := by
  decide +kernel

def nanRep (req : Nat) : NanRep := { req := req, unit := 1, op := 0, blk := 0, task := 9, step := 0, x := 3, y := 0, z := 0, w := 0 }

/-- R221: of two reports in one cycle the pointer picks the requester nearest from it on. -/
theorem witness_NanReports :
    let s := up.setSlot 63 { Slot.init with nanQ := [nanRep 2, nanRep 17], nanPtr := 3 }
    2 ≤ (s.slot 63).nanQ.length ∧ (∀ r ∈ (s.slot 63).nanQ.take 2, r.req < 18) ∧
    gives (.nanReport 63 2) s (fun t => (t.slot 63).nanPtr == 0 && t.rn (numReg 63 0x10) == 2) = true := by decide +kernel

/-! ### Movement and memory (O38 to O46) -/

/-- The UCIe link is active, and window 0 of job 0 of the kind maps 16 MiB of host memory from 0x80000000. -/
def hosted (s : State) (kind : Nat) : State :=
  (((s.setRn (hwinReg 0 0) 0x80000000).setRn (hwinReg 0 8) 8).setRn (hwinReg 0 0xC) (1 + 2 * kind)).setRn 0x51000 1

def bsAddr (base : Nat) : BAddr := { pool := 0, unit := 0, base := base, off := 0 }

/-- A MOVE of 8 bytes on mover 0 with the SRC and DST codes; host ends are in XFER window 0. -/
def move (src dst : Nat) (l : List BAddr) : RTask :=
  { task .mover0 (record [(4, 3, 0, 4), (0x30, 2, 0, src), (0x30, 6, 4, dst), (0x30, 9, 8, 1), (0x48, 31, 0, 8)]) with addrs := l }

def moving (src dst : Nat) (l : List BAddr) : State := hosted (runningT up (move src dst l)) kindXfer

def moveInB (x : BAddr ⊕ HostAcc) : Bool := match x with | .inr (.err _) => false | _ => true

theorem witness_MoveTask :
    let two := [bsAddr 4096, bsAddr 8192]
    let ok (a c : Nat) : Bool := decide ((moving a c two).working 0 engMover 4 (fun _ => true) = some (move a c two)) &&
      decide ((moving a c two).run 0 1 = some (move a c two)) &&
      endOk a ((moving a c two).moveEnd (move a c two) (a == 3) 0 0) && endOk c ((moving a c two).moveEnd (move a c two) (c == 3) 1 0) &&
      moveInB ((moving a c two).moveEnd (move a c two) (a == 3) 0 0) && moveInB ((moving a c two).moveEnd (move a c two) (c == 3) 1 0) &&
      runs (.moveTask 0 0 []) (moving a c two)
    let none' (a c : Nat) : State := (runningT up (move a c two)).setBit 0x51000 0
    ok 0 0 = true ∧ ok 0 3 = true ∧ ok 3 0 = true ∧ ok 3 3 = true ∧ 8192 + 8 ≤ bsSize ∧
    endOk 1 ((moving 1 0 two).moveEnd (move 1 0 two) false 0 0) = false ∧ runs (.moveTask 0 0 []) (moving 1 0 two) = true ∧
    (none' 3 0).moveEnd (move 3 0 two) true 0 0 = .inr (.err 0x0620) ∧ runs (.moveTask 0 0 []) (none' 3 0) = true ∧
    (none' 0 3).moveEnd (move 0 3 two) true 1 0 = .inr (.err 0x0620) ∧ runs (.moveTask 0 0 []) (none' 0 3) = true := by
  decide +kernel

/-- The 8 bytes arrive. -/
theorem test_move : gives (.moveTask 0 0 []) ((moving 0 0 [bsAddr 4096, bsAddr 8192]).wrLe (.bs 0) 4096 8 0x0123456789ABCDEF)
    (fun t => t.rdN (.bs 0) 8192 8 == 0x0123456789ABCDEF) = true := by decide +kernel

def memT (f : List (Nat × Nat × Nat × Nat)) : RTask := task .alloc (record ([(4, 3, 0, 5)] ++ f))

def quota (r : RTask) : State := slot0 (runningT up r) fun x => { x with bsQuota := 4, hregs := [(0, 0x01000000)] }

theorem witness_AllocTask :
    let r := memT [(0x34, 19, 0, 4)]
    let z := memT [(0x34, 19, 0, 4), (0x30, 9, 9, 1)]
    let w := memT [(0x34, 19, 0, 4), (0x30, 10, 10, 1)]
    let q := r.memReq (quota r) 0
    let wq := w.memReq (quota w) 0
    let held := (quota w).setQueue 0 0 [{ q with job := 1 }]
    (quota r).memTask 0 0 = some r ∧ (quota r).run 0 1 = some r ∧ ((quota r).memWaiting 1 q.owner).isEmpty = true ∧
    (quota r).queueReady q.owner = false ∧ (quota r).memTurn 0 q.owner 0 = true ∧ (held.memWaiting 1 wq.owner).isEmpty = true ∧
    held.memTurn 0 wq.owner 0 = true ∧ held.queueReady wq.owner = false ∧ (quota r).allocCheck q = (0, 16) ∧
    (quota r).queueOf q.owner q.queue = [] ∧
    ((quota r).alloc q.owner).findSlot (tableSize q.owner) (tableSize q.owner) ((quota r).alloc q.owner).next = some 0 ∧
    runs (.allocTask 0) (quota r) = true ∧ runs (.allocTask 0) (quota z) = true ∧
    held.allocCheck wq = (0, 16) ∧ held.queueOf wq.owner wq.queue ≠ [] ∧ wq.wait = true ∧ runs (.allocTask 0) held = true := by
  decide +kernel

/-- R294: the first allocation of a slot has generation 1; R292: block-store pages 0 to 15 are not allocated. -/
theorem test_alloc : gives (.allocTask 0) (quota (memT [(0x34, 19, 0, 4), (0x30, 9, 9, 1)])) (fun t =>
    ((t.alloc 0).entry 0).gen == 1 && ((t.alloc 0).entry 0).base == 16) = true := by decide +kernel

theorem witness_FreeTask :
    let r := memT [(0x30, 1, 0, 1)]
    let s (st : HState) : State := (quota r).setAlloc 0 { Allocator.init with table := [(0, { HEntry.init with state := st, gen := 1 })] }
    let h := (r.memReq (s .live) 0).handle
    (s .live).memTask 0 1 = some r ∧ (s .live).run 0 1 = some r ∧ h = 0x01000000 ∧ (s .live).memTurn 1 0 0 = true ∧ (s .live).dispatching h = false ∧ (s .live).hmatch h = true ∧ runs (.freeTask 0) (s .live) = true ∧
    runs (.freeTask 0) (s .away) = true ∧ (s .free).hmatch h = true ∧ runs (.freeTask 0) (s .free) = true ∧
    runs (.freeTask 0) (s .freeing) = true ∧ (quota r).hmatch h = false ∧ runs (.freeTask 0) (quota r) = true := by decide +kernel

theorem witness_QueryTask : runs (.queryTask 0) up = true ∧ runs (.queryTask 0x01000000) up = true := by decide +kernel

theorem witness_AllocatorQueues :
    let q : AllocReq := { op := 0, pool := 0, block := 0, job := 0, fw := false, pages := 4, zero := true, wait := true, handle := 0,
                          reg := 0, by_ := .task 0 1, region := 0, waitMs := 100 }
    let s := (quota (memT [])).setQueue 0 0 [q]
    let z := (quota (memT [])).setAlloc 0 { Allocator.init with
      table := [(0, { HEntry.init with state := .live, gen := 1, base := 16, pages := 4 })], zeros := [(0x01000000, q)] }
    s.queueOf 0 0 = [q] ∧ (s.setQueue 0 0 []).allocCheck q = (0, 16) ∧ (s.memWaiting 1 0).isEmpty = true ∧ runs (.allocQueueServe 0 0) s = true ∧
    q.region < 16 ∧ q.job < 64 ∧ pickFirst (fun x => decide (s.allocTo x ≤ x.waitMs)) (s.queueOf 0 0) = some (q, []) ∧
    runs (.allocTimeout 0 0) s = true ∧
    pickFirst (fun x => x.1 == 0x01000000) (z.alloc (hOwner 0x01000000)).zeros = some ((0x01000000, q), []) ∧
    16 * 4096 + 4 * 4096 ≤ bsSize ∧ runs (.allocZeroFillDone 0x01000000) z = true := by decide +kernel

def act0 (st : Nat) (pages : List Nat) : ActRec :=
  { handle := 0x01000000, job := 0, region := 0, block := 0, mb := 0, layer := 0, step := 0, state := st, pages := pages,
    rereads := [], bad := [] }

/-- Job 0 has the record, which holds one block-store page, and the pager its tokens. -/
def paging (st : Nat) (pages : List Nat) : State :=
  let s := slot0 ((hosted up kindAct).setRf (tsReg 0 0xC) 8 8 0) fun x => { x with acts := [act0 st pages] }
  let s := s.setAlloc 0 { Allocator.init with table := [(0, { HEntry.init with
    state := if st = 4 then .away else .live, gen := 1, pages := 1, base := 16, pager := true })] }
  s.setTok 0 { Tokens.init with held := [(4096, 200)] }

def accOkB (a : HostAcc) : Bool := match a with | .at _ => true | .err _ => false

theorem witness_ActivationPager :
    let h := 0x01000000
    let crc := (paging 4 [0]).setBit (tsReg 0 0xC) 8
    (∀ st ∈ [1, 6], (paging st [0]).act 0 h = some (act0 st [0]) ∧ (paging st [0]).ucieUp = true ∧
      (paging st [0]).hasTokens 0 (pagerReq h) = true ∧
      accOkB ((paging st [0]).pageAcc 0 (act0 st [0]) 0) = true ∧ (paging st [0]).outGrant 0 1 = true ∧
      runs (.offloadComplete ⟨0, []⟩ h) (paging st [0]) = true) ∧
    (((paging 2 []).offloadStart 0 h).act 0 h).map ActRec.state = some 1 ∧ runs (.offloadRetry 0 h) (paging 2 []) = true ∧
    (paging 4 [0]).pageOk 0 (act0 4 [0]) 0 = true ∧ (paging 4 [0]).prefetchGrant 1 = true ∧ accOkB ((paging 4 [0]).pageAcc 0 (act0 4 [0]) 0) = true ∧ [0].length ≤ 1536 ∧ [0].Nodup ∧ runs (.prefetchComplete ⟨0, []⟩ h) (paging 4 [0]) = true ∧
     (act0 4 [0]).rereads.contains 0 = false ∧ runs (.prefetchPageReread 0 h ⟨0, false⟩) crc = true ∧ runs (.prefetchPageReread 0 h ⟨0, true⟩) crc = true := by
  decide +kernel

theorem witness_HostMemoryAccess :
    let u := up.setRn 0x51000 1
    let b := (at_ .boot).setRn 0x51000 1
    let m := 512 * 2 ^ 21
    let d := up.setBit (hwinReg 15 0xC) 16
    (up.setBit (regionReg 0 0x3000) 16).rbit (regionReg 0 0x3000) 16 = true ∧
    0 = (up.scrubber 0).next ∧ 0 * up.scrubMs 0 ≤ (up.scrubber 0).ms * 49152 ∧ acts (.hbmScrub 0 0 []) (up.setBit (regionReg 0 0x3000) 16) = true ∧
    (m + 64 ≤ hdmSize ∧ m % 64 = 0 ∧ u.ucieUp = true ∧ u.cxlServed 0 = true ∧ fwArea m = false ∧ u.poisoned (.hbm 0) m 64 = false ∧
      runs (.cxlMemRead m []) u = true ∧ runs (.cxlMemWrite m 5 1 []) u = true ∧ runs (.cxlMemWrite m 5 (2 ^ 64 - 1) []) u = true) ∧
    (b.cxlServed 0 = false ∧ runs (.cxlMemRead m []) b = true ∧ runs (.cxlMemWrite m 5 1 []) b = true) ∧
    (fwArea (m - 64) = true ∧ runs (.cxlMemRead (m - 64) []) u = true ∧ runs (.cxlMemWrite (m - 64) 5 1 []) u = true) ∧
    ((u.poison (.hbm 0) m 64).poisoned (.hbm 0) m 64 = true ∧ runs (.cxlMemRead m []) (u.poison (.hbm 0) m 64) = true) ∧
    runs .cxlSnoop u = true ∧
    (d.rbit (hwinReg 15 0xC) 16 = true ∧ (∀ r ∈ (d.slot (d.rf (hwinReg 15 0xC) 8 3)).acts, r.state ≠ 1 ∧ r.state ≠ 4 ∧ r.state ≠ 6) ∧
      runs (.windowDrainDone 15) d = true) ∧
    runs .ucieLinkDown u = true ∧
    (up.ucieUp = false ∧ up.hostUp = true ∧ ucieModules 15 ≠ [] ∧ runs (.ucieTrainingDone 15 0) up = true ∧
      ucieModules 1 ≠ [] ∧ runs (.ucieTrainingDone 1 0) up = true) := by decide +kernel

/-- An EGRESS of one FP32 element with the OP: destination at window offset 0, completion record at 4,096. -/
def egress (op : Nat) (f : List (Nat × Nat × Nat × Nat)) : RTask :=
  { task .mover1 (record ([(4, 3, 0, 7), (0x30, 2, 0, op), (0x50, 31, 0, 1), (0x54, 12, 0, 1), (0x60, 63, 0, 4096)] ++ f)) with
    addrs := [bsAddr 4096, bsAddr 8192] }

def sending (op : Nat) (f : List (Nat × Nat × Nat × Nat)) : State := hosted (runningT up (egress op f)) kindXfer

theorem witness_EgressTasks :
    let clip := (sending 2 []).setBit (tsReg 0 0x10) 1
    let ok (s : State) (op : Nat) : Bool := decide (s.egTask 0 op = some (egress op [])) && decide (s.run 0 1 = some (egress op [])) &&
      s.ucieUp && s.outGrant 1 (egChunks (egress op []).task.record) && decide (s.hostAcc 0 kindXfer 0 0 4 = .at 0x80000000) && decide (s.hostAcc 0 kindXfer 0 4096 32 = .at 0x80001000)
    ok (sending 0 []) 0 = true ∧ runs (.egressGrad 0 []) (sending 0 []) = true ∧
    ok (sending 1 []) 1 = true ∧ runs (.egressScan 0 []) (sending 1 []) = true ∧
    ok clip 2 = true ∧ runs (.egressSend 0 []) clip = true ∧
    (sending 2 []).rbit (tsReg 0 0x10) 1 = false ∧ runs (.egressSend 0 []) (sending 2 []) = true ∧
    ok (sending 5 []) 5 = true ∧ runs (.egressData 0 []) (sending 5 []) = true ∧ 0x80000000 + 4 * 1 ≤ 0x80001000 := by decide +kernel

theorem witness_NormsAndClipping :
    let n := egress 3 []
    let w := egress 3 [(0x38, 11, 0, 1)]
    egNidx n.task.record ≠ 1 ∧ (sending 3 []).egTask 0 3 = some n ∧ 4096 + 4 ≤ 8192 ∧ 8192 + 4 ≤ bsSize ∧
    runs (.egressNormOut ⟨0, []⟩) (sending 3 []) = true ∧
    egNidx w.task.record = 1 ∧ (sending 3 [(0x38, 11, 0, 1)]).egTask 0 3 = some w ∧ (sending 3 [(0x38, 11, 0, 1)]).outGrant 1 (egChunks w.task.record) = true ∧
    (sending 3 [(0x38, 11, 0, 1)]).rbit (tsReg 0 0x10) 0 = false ∧
    (sending 3 [(0x38, 11, 0, 1)]).hostAcc 0 kindXfer 0 0 4 = .at 0x80000000 ∧ runs (.egressNormOut ⟨0, []⟩) (sending 3 [(0x38, 11, 0, 1)]) = true ∧
    (sending 4 []).egTask 0 4 = some (egress 4 []) ∧ runs (.egressClipfact 0 []) (sending 4 []) = true := by decide +kernel

/-- R266 with clipping threshold 1.0 and norm sum 4.0: c = 1.0 over 2.0 + 2^-20, FP32 by hand 0x3EFFFFF8. -/
theorem test_clipfact : (clipFactor false 0x3F800000 [0x40800000]).1 = 0x3EFFFFF8 := by decide +kernel

def ingress (op : Nat) : RTask :=
  { task .mover0 (record [(4, 3, 0, 8), (0x30, 1, 0, op), (0x30, 4, 4, 1), (0x48, 31, 0, 4)]) with addrs := [bsAddr 4096, bsAddr 8192] }

theorem witness_IngressTasks :
    let s (op : Nat) : State := hosted (runningT up (ingress op)) kindXfer
    let wait := (queued (record [(4, 3, 0, 8), (0x34, 31, 0, 1)]))
    let late := wait.setBlock 0 { Block.init with queue := [{ qtask (record [(4, 3, 0, 8), (0x34, 31, 0, 1)]) with waitMs := 1000 }] }
    (s 0).run 0 1 = some (ingress 0) ∧ (s 0).paired 0 = false ∧ (s 0).inTask 0 0 = some (ingress 0) ∧
    (s 0).hostAcc 0 kindXfer 0 0 4 = .at 0x80000000 ∧ (crcRecords 65536 4 [1, 2, 3, 4]).length = 8 ∧ 8192 + 8 ≤ bsSize ∧
    (s 0).deltaGrant (chunks 4) = true ∧ (s 0).ucieUp = true ∧ runs (.ingressDelta ⟨0, []⟩ false) (s 0) = true ∧ runs (.ingressDelta ⟨0, []⟩ true) (s 0) = true ∧
    (s 1).inTask 0 1 = some (ingress 1) ∧ runs (.ingressData ⟨0, []⟩ false) (s 1) = true ∧ runs (.ingressData ⟨0, []⟩ true) (s 1) = true ∧
    (s 2).inTask 0 2 = some (ingress 2) ∧ runs (.ingressCrcgen 0 []) (s 2) = true ∧
    (match late.doorbellWait 0 with | some (i, q) => decide (i = 0) && decide (late.rf (xfReg q.job 4) 15 0 ≤ q.waitMs) | none => false) =
      true ∧ runs (.ingressTimeout 0) late = true := by decide +kernel

theorem witness_RedundancyCompare :
    let x (rec' : Nat) (reran : Bool) : RTask := { task .mover0 rec' with redundant := true, left := 0, reran := reran }
    let pair (rec' : Nat) (reran : Bool) (d : Int) : State :=
      let s := runningT up { x rec' reran with sumDi := d }
      s.setBlock 1 { Block.init with running := [{ x rec' reran with odd := true }] }
    let mv := record [(4, 3, 0, 4)]
    let ud := record [(4, 3, 0, 6)]
    (pair mv false 0).run 0 1 = some (x mv false) ∧ (pair mv false 0).run 1 1 = some { x mv false with odd := true } ∧
    (pair mv false 0).copiesAgree 0 (x mv false) { x mv false with odd := true } = true ∧
    runs (.redundancyCompare 0 1) (pair mv false 0) = true ∧ runs (.redundancyCompare 0 1) (pair mv true 0) = true ∧
    (pair ud false 1).copiesAgree 0 { x ud false with sumDi := 1 } { x ud false with odd := true } = false ∧
    [4, 6].contains (recKind ud) = true ∧ (pair ud false 1).rerunRoom 0 (x ud false) = true ∧
    runs (.redundancyCompare 0 1) (pair ud false 1) = true ∧ runs (.redundancyCompare 0 1) (pair ud true 1) = true := by decide +kernel

/-! ### Collectives (O47, O48) -/

/-- A COLLECTIVE of weights on 64 × members bytes of FP32, without digest, group 0 of job 0, SRC 4,096 and DST 8,192. -/
def coll (op len : Nat) : RTask :=
  { task .link (record [(4, 3, 0, 9), (0x30, 2, 0, op), (0x30, 3, 3, 1), (0x48, 31, 0, len)]) with addrs := [bsAddr 4096, bsAddr 8192] }

/-- Device 1, in a group of job 0 with one rail and these members, first hop port 0, which is UP. -/
def grouped (members : List Nat) (s : State) : State :=
  let s := (s.setRn 0x34000 (1 + 2 ^ 13)).setRn (lportReg 0 0) 3
  { s with fab := { s.fab with groups := [(groupKey 0 0 0, { members := members, port := 0, total := 1 })] } }

def collOp (op : Nat) : Instr := match op with
  | 0 => .reduceScatter 0 [] | 1 => .allGather 0 [] | 2 => .allReduce 0 [] | _ => .beat 0

theorem witness_CollectiveStart : ∀ op ∈ [0, 1, 2, 3],
    let x := coll op (if op = 3 then 0 else 128)
    let two := grouped [1, 2] (runningT up x)
    let one := grouped [1] (runningT up x)
    let none' := runningT up x
    two.collTask 0 op = some x ∧ two.run 0 1 = some x ∧ x.arrived = false ∧
    two.collBad 0 x.task.record = false ∧ two.groupSize x ≠ 1 ∧ runs (collOp op) two = true ∧
    one.collTask 0 op = some x ∧ one.collBad 0 x.task.record = false ∧ one.groupSize x = 1 ∧
    (one.newRound 0 op x).dst.pool < 2 ∧ runs (collOp op) one = true ∧
    none'.collTask 0 op = some x ∧ none'.collBad 0 x.task.record = true ∧ runs (collOp op) none' = true := by decide +kernel

/-- R362: at stage 0 of a REDUCE_SCATTER of two members, member 0 (device 1) sends shard 1, the source bytes 64 to 127. -/
theorem test_reduceScatter : gives (.reduceScatter 0 []) ((grouped [1, 2] (runningT up (coll 0 128))).wrLe (.bs 0) (4096 + 64) 4 0x3F800000)
    (fun t => t.fab.out.any fun m => match m with
      | .cdata _ _ _ _ d => decide (d.data = [0, 0, 0x80, 0x3F] ++ List.replicate 60 0) | _ => false) = true := by decide +kernel

def round0 (op : Nat) : Round := (grouped [1, 2] (runningT up (coll op 128))).newRound 0 op (coll op 128)
def inRound (r : Round) : State :=
  let s := grouped [1, 2] (runningT up { coll r.op r.len with arrived := true })
  { s with fab := { s.fab with rounds := [r] } }
def hdrIn : Chdr :=
  { fjob := 0, group := 0, rail := 0, step := 0, round := 0, attempt := 0, stage := 0, op := 0, wfmt := 0, digest := 0,
    member := 1, c := 1, kmax := 0, nf := false, cfgPrefix := 0 }
def dataIn (seq : Nat) (crcOk : Bool) : Cdata :=
  { fjob := 0, group := 0, rail := 0, step := 0, round := 0, attempt := 0, stage := 0, seq := seq, crcOk := crcOk, words := [],
    data := List.replicate 64 0 }
def opened (op : Nat) : Round := { round0 op with runs := [{ RailRun.init with hdr := true, c := 1 }] }

theorem witness_CollectiveReceive :
    let fresh := inRound (round0 0)
    (fresh.idValid = true ∧ fresh.roundOf (.chdr hdrIn) = some (round0 0) ∧ hdrIn.attempt = (round0 0).attempt ∧
      (round0 0).runs[0]? = some RailRun.init ∧
      runs (.chdrReceive hdrIn) fresh = true ∧ runs (.chdrReceive { hdrIn with cfgPrefix := 1 }) fresh = true) ∧
    (∀ op ∈ [0, 1], (inRound (opened op)).roundOf (.cdata (dataIn 0 true)) = some (opened op) ∧ (dataIn 0 true).attempt = (opened op).attempt ∧ (opened op).done = false ∧
      (opened op).runs[0]? = some { RailRun.init with hdr := true, c := 1 } ∧ (opened op).dst.pool < 2 ∧
      ((opened 1).reduceStages 2 ≤ 0) ∧ runs (.cdataReceive ⟨dataIn 0 true, []⟩) (inRound (opened op)) = true ∧
      runs (.cdataReceive ⟨dataIn 1 true, []⟩) (inRound (opened op)) = true ∧
      runs (.cdataReceive ⟨dataIn 0 false, []⟩) (inRound (opened op)) = true) ∧
    runs (.cdataReceive ⟨dataIn 0 true, []⟩) (inRound { opened 0 with done := true }) = true ∧
    (let late := inRound { round0 0 with dataMs := 100 }
     late.roundAt 0 = some { round0 0 with dataMs := 100 } ∧ (round0 0).done = false ∧ (round0 0).beatOnly = false ∧ late.rf 0x34008 15 0 ≤ 100 ∧ runs (.stageDataLost 0) late = true) ∧
    (grouped [1, 2] up).idValid = true ∧ runs .blameNotice (grouped [1, 2] up) = true := by decide +kernel

/-- R363: two reduced shards of 1.0 and 2.0 make 3.0 at DST. -/
theorem test_cdata : gives (.cdataReceive ⟨{ dataIn 0 true with data := [0, 0, 0, 0x40] ++ List.replicate 60 0 }, []⟩)
    ((inRound (opened 0)).wrLe (.bs 0) 4096 4 0x3F800000) (fun t => t.rdN (.bs 0) 8192 4 == 0x40400000) = true := by decide +kernel

/-! ### Beats, verdicts, commits and restart (O49, O50) -/

def beat0 : Round := { round0 3 with beatOnly := true, op := 3, runs := [], len := 0 }

theorem witness_BeatsAndVerdicts :
    let s := inRound beat0
    let down (r : Round) (bts : Nat) : State := inRound { r with down := some (bts, 0x3FFF, 10) }
    let upB := leBytes 4 0 ++ leBytes 4 16 ++ leBytes 24 0
    let dnB := leBytes 4 0 ++ leBytes 4 48 ++ leBytes 24 0
    let one := slot0 (clocked up) fun x => { x with
      state := .running, lists := [(0, { DList.init with records := [1], pass := 1 })] }
    (5000 % (s.rf 0x34004 7 0 * 1000) = 0 ∧ s.time ≤ 5000 ∧ beat0.upSent = false ∧ s.ownDone beat0 = true ∧
      runs (.beatSlotBoundary 5000) s = true) ∧
    (s.idValid = true ∧ s.roundOf (.beat 2 upB) = some beat0 ∧ s.roundOf (.beat 2 dnB) = some beat0 ∧ bit (byteN upB 4 4) 5 = false ∧
      (s.members beat0).contains 2 = true ∧ beat0.ups.contains (indexOf (s.members beat0) 2) = false ∧
      bit (byteN dnB 4 4) 5 = true ∧ beat0.down = none ∧
      runs (.beatReceive 2 upB) s = true ∧ runs (.beatReceive 2 dnB) s = true) ∧
    ((down beat0 1).roundAt 0 = some { beat0 with down := some (1, 0x3FFF, 10) } ∧ beat0.job < 64 ∧
      runs (.verdictApply 0) (down beat0 1) = true ∧ (∀ v ∈ [0, 2, 8], runs (.verdictApply 0) (down (round0 0) v) = true)) ∧
    ((one.slot 0).state = .running ∧ bit (one.slot 0).flags 0 = false ∧ one.gradDone 0 0 = true ∧
      (∃ y ∈ (one.slot 0).lists, (one.slot 0).vstep ≤ y.2.pass ∧ (y.2.pos.length < y.2.records.length ∨ (one.slot 0).vstep < y.2.pass)) ∧
      runs (.singleDeviceVerdict 0) one = true) ∧
    (let late := inRound { round0 0 with done := true, waitMs := 1000 }
     late.roundAt 0 = some { round0 0 with done := true, waitMs := 1000 } ∧
       late.ownDone { round0 0 with done := true, waitMs := 1000 } = true ∧ (round0 0).down = none ∧ late.rf 0x34008 31 16 ≤ 1000 ∧
       runs (.beatTimeout 0) late = true) := by decide +kernel

theorem witness_CommitsAndRestart :
    let s := slot0 up fun x => { x with state := .running, verdicts := [(0, false)] }
    let log := { up with fw := { up.fw with commitLog := [{ typ := 1, job := 0, fjob := 0, step := 0, epoch := 1, time := 0, lscale := 0, image := 0, base := 0 }] } }
    let img := slot0 (up.setRn 0x51000 1) fun x => { x with imgCopy := [0] }
    let o : Op := { oph := 5, opcode := 0x0C04, arg := 0, path := 0, dst := 0, link := none, notify := false, done := false, status := 0, detail := 0,
                     progress := 0, result := [] }
    let rst := slot0 up fun x => { x with restOrd := 4, restored := true, restOp := 5 }
    let rst := { rst with fw := { rst.fw with ops := [o] } }
    (((s.slot 0).verdicts.find? fun v => v.1 = (s.slot 0).step) = some (0, false) ∧ (s.slot 0).state.active = true ∧
      (s.slot 0).committed = false ∧ s.updatesDone 0 0 = true ∧ runs (.stepCommit 0) s = true) ∧
    (log.fw.commitLog ≠ [] ∧ runs .commitLogProgram log = true) ∧
    ((img.slot 0).imgCopy.contains 0 = true ∧ img.ucieUp = true ∧ runs (.imageCopyDone ⟨0, []⟩ 0) img = true) ∧
    (rst.jobUnits 0 = [] ∧ (rst.slot 0).restOrd = 4 ∧ (rst.slot 0).restored = true ∧ rst.opsOf [0x0C04] (fun a => a == 0) = [o] ∧
      (rst.fw.ops.find? fun x => x.oph = (rst.slot 0).restOp ∧ ¬ x.done) = some o ∧ runs (.restoreComplete 0) rst = true) := by
  decide +kernel
/-! ### Links (O51, O52) -/

/-- Logical port 0 with LINK_CFG of its port, in the state. -/
def ported (cfg st : Nat) (P : Port) : State := ((up.setRn (linkReg 0 0) cfg).setRn (lportReg 0 0) st).setPort 0 P

theorem witness_PortStates :
    let bytes := leBytes 2 1 ++ leBytes 62 0
    let hi (cfg st : Nat) : State := ported cfg st Port.init
    (∀ v ∈ [0, 1, 5, 7], writes (clocked up) (linkReg 3 0) (0x30A00 + v) .linkCfg .linkCfgWrite = true) ∧
    (∀ cfg ∈ [1, 5], (ported cfg 1 Port.init).lpState 0 = lpTraining ∧ (ported cfg 1 Port.init).lpEn 0 = true ∧ ((ported cfg 1 Port.init).port 0).trainFailed = false ∧
      ∀ l ∈ [0, 0x0F, 0xFF], runs (.linkTrainingDone 0 l) (ported cfg 1 Port.init) = true) ∧
    (let s := ported 1 1 { Port.init with trainFailed := true, trainMs := 1000 }
     s.lpState 0 = lpTraining ∧ (s.port 0).trainFailed = true ∧ s.lpState 0 = lpTraining ∧ 1000 ≤ (s.port 0).trainMs ∧ runs (.linkTrainingRetry 0) s = true) ∧
    (hi 1 2).helloState 0 = true ∧ bytes.length = 64 ∧ runs (.helloReceive 0 bytes) (hi 1 2) = true ∧
    runs (.helloReceive 0 bytes) (hi 9 2) = true ∧ runs (.helloReceive 0 (leBytes 64 0)) (hi 1 2) = true ∧
    (let s := (hi 1 2).setRn 0x34000 (2 ^ 13)
     runs (.helloReceive 0 (leBytes 2 1 ++ leBytes 2 1 ++ leBytes 60 0)) s = true) ∧
    (let s := ported 1 3 { Port.init with missMs := 4000 }
     s.helloState 0 = true ∧ s.rf (linkReg 0 0) 19 16 * s.rf (linkReg 0 0) 15 8 ≤ (s.port 0).missMs ∧ runs (.helloTimeout 0) s = true) ∧
    runs (.flitAlignmentLoss 0) (hi 1 3) = true := by decide +kernel

/-- R345, R346: all eight lanes trained put the port in HELLO with 8 lanes. -/
theorem test_linkTraining : gives (.linkTrainingDone 0 0xFF) (ported 1 1 Port.init) (fun t =>
    t.lpState 0 == 2 && t.rf (lportReg 0 0) 7 4 == 8) = true := by decide +kernel

def flit (crc tag : Bool) : FlitIn := { crcOk := crc, tagOk := tag, eccUnc := true, newGen := false, symbols := 2, credits := [1, 0, 0, 0] }

/-- The time parent is behind port 0, which is UP. -/
def timed (locked : Bool) : State :=
  let s := (ported 1 3 Port.init).setRn 0x34088 (2 ^ 6 + 8 * 2 ^ 8)
  { s with fab := { s.fab with syncUs := 1000, locked := locked } }

theorem witness_FlitsKeysAndTime :
    let s := ported 1 3 { Port.init with changed := true }
    let enc := ported 9 3 { Port.init with keyOk := true, tagFails := 8 }
    let own := (ported 1 3 Port.init).setRn 0x34000 (1 + 2 ^ 13)
    let routed := own.setRn 0x30004 0x20
    let key := ported 9 2 { Port.init with keying := true, keyMs := 100 }
    let back := ported 9 2 { Port.init with keyFailed := true, keyMs := 1000 }
    let full := ported 9 3 { Port.init with keyOk := true, txFlits := 2 ^ 31 }
    let old := ported 9 3 { Port.init with oldKey := true, oldMs := 1 }
    (s.helloState 0 = true ∧ (s.port 0).changed = true ∧ runs (.helloSend 0) s = true) ∧
    (∀ n ∈ [0, 8], let b := ported 1 3 { Port.init with flitFails := n }
      (b.port 0).replays.length < 1000 ∧ runs (.flitReceive 0 (flit false true)) b = true) ∧
    runs (.flitReceive 0 (flit true false)) enc = true ∧ runs (.flitReceive 0 (flit true true)) enc = true ∧
    (own.carries 0 2 = true ∧ own.idValid = true ∧ 2 ≠ own.ownId ∧ own.routePort 2 2 = none ∧ routed.routePort 2 2 = some 0 ∧
      runs (.messageRoute 0 5 1 2 9 0 0 false []) own = true ∧ runs (.messageRoute 0 5 2 2 9 0 0 true []) own = true ∧
      runs (.messageRoute 0 5 2 2 0 0 0 false []) own = true ∧ runs (.messageRoute 0 5 2 2 9 0 0 false []) own = true ∧
      runs (.messageRoute 0 5 2 2 9 0 0 false []) routed = true) ∧
    (key.lpState 0 = lpHello ∧ (key.port 0).keying = true ∧ 100 ≤ (key.port 0).keyMs ∧ runs (.linkKeyTimeout 0 false) key = true ∧
      runs (.linkKeyTimeout 0 true) key = true) ∧
    (back.lpState 0 = lpHello ∧ (back.port 0).keyFailed = true ∧ (back.port 0).keying = false ∧ 1000 ≤ (back.port 0).keyMs ∧
      runs (.linkKeyRetry 0) back = true) ∧
    (full.lpState 0 = lpUp ∧ (full.port 0).keyOk = true ∧ 2 ^ 31 ≤ (full.port 0).txFlits ∧ runs (.linkRekey 0) full = true) ∧
    ((old.port 0).oldKey = true ∧ 1 ≤ (old.port 0).oldMs ∧ runs (.oldKeyErase 0) old = true) ∧
    (∀ l : Bool, (timed l).timeParent = some 0 ∧ (timed l).rf 0x34088 15 8 * 125 ≤ (timed l).fab.syncUs ∧
      runs .timeSyncInterval (timed l) = true ∧ runs (.timeMessage 0 100000 100000 0) (timed l) = true) := by decide +kernel

/-- The peer's serial number differs from this device's (R525). -/
theorem witness_LinkKeyEstablished :
    let s := { ported 9 2 { Port.init with keying := true, peerSerial := (Config.serial + 1).toNat } with
      sec := { up.sec with state := .operational } }
    s.lpState 0 = lpHello ∧ (s.port 0).keying = true ∧ s.sec.state = .operational ∧ (s.port 0).peerSerial ≠ Config.serial.toNat ∧
    runs (.linkKeyEstablished 0) s = true := by
  have h : ∀ x : BitVec 64, (x + 1).toNat ≠ x.toNat := by intro x hx; bv_omega
  have hs := h Config.serial
  intro s
  have h1 : s.lpState 0 = lpHello := by decide +kernel
  have h2 : (s.port 0).keying = true := by decide +kernel
  have h3 : s.sec.state = .operational := rfl
  have h4 : (s.port 0).peerSerial = (Config.serial + 1).toNat := rfl
  refine ⟨h1, h2, h3, by rw [h4]; exact hs, ?_⟩
  show (match execLinkKeyEstablished 0 s with | .next _ => true | .fault _ => false | .refused _ => false) = true
  unfold execLinkKeyEstablished
  simp only [whenever]

/-- R384: offset = ((t2 - t1) - (t4 - t3)) / 2 = 50,000 of 0.25 ns; the first answer steps the clock by 12,500 ns. -/
theorem test_timeMessage : gives (.timeMessage 0 100000 100000 100000) (timed false) (fun t => t.time == 12500) = true := by
  decide +kernel
/-! ### Journal, firmware, mailboxes and management paths (O53, O54) -/

def jrec : JRec :=
  { typ := 1, cls := 3, jclock := 0, seq := 0, time := 0, event := 0x0900, kind := 0, unit := 0, job := 255, task := 0,
    count := 1, boots := 0, detail := [] }
def op_ (opcode arg : Nat) : Op :=
  { oph := 5, opcode := opcode, arg := arg, path := 0, dst := 0, link := none, notify := false, done := false, status := 0, detail := 0, progress := 0,
    result := [] }
def busy (opcode arg : Nat) (s : State) : State := { s with fw := { s.fw with ops := [op_ opcode arg] } }
/-- Tensor 0 without pieces. -/
def tensor0 (st : Nat) (s : State) : State :=
  { s with fw := { s.fw with tensors := [(0, some { state := st, layout := 0, count := 1, pieces := [], handles := [] })] } }
def withJrn (f : Journal → Journal) : State := { up with jrn := f up.jrn }

theorem witness_JournalAndFirmwareLoop :
    let page := withJrn fun j => { j with staged := [jrec], stagedMs := 100 }
    let comp := withJrn fun j => { j with blocks := [[[jrec]], []], erased := 15 }
    let bulk := withJrn fun j => { j with blocks := [List.replicate 33 (List.replicate 32 jrec)] ++ List.replicate 32 [], erased := 15 }
    let rep : Report := { code := 0x0121, kind := 1, unit := 0, job := 255, task := 0, count := 1 }
    let agg := { up with aggs := [(3, [rep])] }
    let sum := withJrn fun j => { j with others := 7 }
    (page.jrn.staged ≠ [] ∧ 100 ≤ page.jrn.stagedMs ∧ runs .journalPageProgram page = true) ∧
    (comp.jrn.erased < 16 ∧ comp.jrn.blocks = [[jrec]] :: [[]] ∧
      ([[jrec]].flatten.filter comp.jrn.keeps).length + (comp.wearOf [[jrec]].flatten).length ≤ 512 ∧ runs (.journalCompaction PartReads.none) comp = true ∧
      comp.jrn.readable lostPage = [[]] :: [[]] ∧ runs (.journalCompaction lostPage) comp = true) ∧
    (bulk.jrn.erased < 16 ∧ (let b := (List.replicate 33 (List.replicate 32 jrec)).flatten
      512 < (b.filter bulk.jrn.keeps).length + (bulk.wearOf b).length) ∧ runs (.journalBulkCompaction PartReads.none) bulk = true) ∧
    (SMap.get (fun _ => []) agg.aggs 3 = [rep] ∧ runs (.aggregatorWindowEnd 3) agg = true) ∧
    (sum.jrn.others ≠ 0 ∧ runs .rateSummary sum = true) ∧
    (up.mpUp = true ∧ up.fw.reports = [] ∧ up.nextBox = none ∧ runs (.firmwareTick ServeIn.none false) up = true) ∧
    (∀ opc ∈ [0x0304, 0x0305], let s := busy opc 0 (tensor0 3 up)
      (s.fw.ops.find? fun o => o.oph = 5 ∧ ¬ o.done) = some (op_ opc 0) ∧ ((s.tensor 0).map fun x => s.allHeld 0 x) = some true ∧
      runs (.operationComplete 5) s = true) ∧
    (∀ opc ∈ [0x0405, 0x0502, 0x0801, 0x0903], runs (.operationComplete 5) (busy opc 0 up) = true) ∧
    (∀ g ∈ bitsOf 16 1, up.calState g = calIdle ∨ up.calState g = calOff) ∧
    ((busy 0x0B07 (3 + 8192 * 12) up).opsOf [0x0B07] (fun a => a == 3 + 8192 * 12) = [op_ 0x0B07 (3 + 8192 * 12)] ∧
      (∀ r ∈ [none, some []], runs (.fabForwardResponse 3 12 r) (busy 0x0B07 (3 + 8192 * 12) up) = true)) := by decide +kernel

/-- The journal of reset has room for every record (hypothesis of RATE_SUMMARY, REC_CLEAR_FLAG). -/
theorem journal_room (r : JRec) : up.jrn.room r = true := by
  simp only [Journal.room, show up.jrn.erased = 768 from rfl]
  split
  · decide
  · split <;> decide

/-- R410, R414: the SUMMARY counts the occurrences. -/
theorem test_rateSummary : gives .rateSummary (withJrn fun j => { j with others := 7 }) (fun t =>
    (t.jrn.staged.map fun r => (r.typ, r.count)) == [(tySummary, 7)]) = true := by decide +kernel

def operational (s : State) : State := { s with sec := { s.sec with state := .operational } }
def spdm (o : Option (Nat × Bool)) : SpdmIn := { src := 9, bytes := [0x13, 0xE1], opens := o, ends := none }
def appData : SpdmIn := { src := 9, bytes := [], opens := none, ends := none, data := some (1, [1, 2]) }
def good1 : State := operational { up with sec := { up.sec with slots := [(1, FwSlot.factory)] } }
def session (s : State) : State := { s with sec := { s.sec with sessions := [{ id := 1, hybrid := false, mutAuth := true }] } }

theorem witness_MailboxesAndManagementPaths :
    let boxed := ((List.range 16).foldl (fun (s : State) m => s.setMb m mbIdle) up)
    let full := ([8, 9, 10, 11].foldl (fun (s : State) m => s.setMb m mbBusy) up)
    let seg := up.setBox 12 { Mailbox.init with filling := true, src := 3, nextSeg := 1 }
    let idle := good1.sec.idle 0
    (up.mbState 8 < 2 ∧ writes up (mbReg 8 0) 1 .mbDoorbell .mailboxRing = true) ∧
    ((up.setMb 8 mbDone).mbState 8 = mbDone ∧ writes (up.setMb 8 mbDone) (mbReg 8 4) 8 .mbStatus .mailboxRelease = true) ∧
    (([8, 9, 10, 11].find? fun m => boxed.mbState m == mbIdle) = some 8 ∧ ([8, 9, 10, 11].find? fun m => full.mbState m == mbIdle) = none ∧
      (∀ more, runs (.mctpMessageReceive 9 [1, 2] more) boxed = true) ∧ runs (.mctpMessageReceive 9 [1, 2] false) full = true) ∧
    runs (.mctpControl 9 [0]) up = true ∧ runs (.pldmRequest 9 none [0]) up = true ∧
    ((up.sensor 1).isSome = true ∧ runs (.pldmRequest 9 (some 1) [0]) up = true) ∧
    (up.stateOk 0x0902 = true ∧ up.dev ≠ .glade ∧ 4 + 2 ≤ slotSize 0 ∧ runs (.pldmFirmwareUpdate 9 (.transfer 0 4 [1, 2])) up = true) ∧
    (up.stateOk 0x0904 = true ∧ (good1.sec.slot 0 idle).verified = true ∧ runs (.pldmFirmwareUpdate 9 (.activate 0)) good1 = true) ∧
    (∀ tag ∈ [0, 4, 8], ∀ l ∈ ([none, some 0] : List (Option PortId)), runs (.mgmtSegmentReceive ⟨3, l⟩ tag [1]) boxed = true ∧ runs (.mgmtSegmentReceive ⟨3, l⟩ tag [1]) seg = true) ∧
    runs (.dynamicAddressAssignment 127) up = true := by decide +kernel

theorem witness_EnclaveAndTimers :
    let part := { up with fw := { up.fw with reasm := [(9, [], 101)] } }
    let reseed := operational { up with sec := { up.sec with drbgMs := 3600000 } }
    ((operational up).sec.state = .operational ∧ runs (.noiseSourceFailure 3) (operational up) = true) ∧
    (∀ o ∈ [none, some (1, true)], (spdm o).data = none ∧ runs (.spdmMctpMessage (spdm o)) (operational up) = true) ∧
    (appData.data = some (1, [1, 2]) ∧ runs (.spdmMctpMessage appData) (operational up) = true ∧ runs (.spdmMctpMessage appData) (operational (session up)) = true) ∧
    ((part.fw.reasm.find? fun x => x.1 = 9) = some (9, [], 101) ∧ runs (.mctpReassemblyTimeout 9) part = true) ∧
    (reseed.sec.state = .operational ∧ 3600000 ≤ reseed.sec.drbgMs ∧ runs .drbgReseed reseed = true) ∧
    (((operational (session up)).sec.sessions.find? fun x => x.id = 1) = some { id := 1, hybrid := false, mutAuth := true } ∧
      (List.replicate 1184 0#8).length = 1184 ∧ runs (.vendorDefinedRequest 9 1 (List.replicate 1184 0)) (operational (session up)) = true ∧
      runs (.vendorDefinedRequest 9 1 []) (session up) = true) := by decide +kernel

/-! ### Power, sensors and calibration (O55 to O57) -/

def railed (st : Nat) (s : State) : State := s.setRf (railReg 0 0) 3 1 st
def locked : State := { up with mpLock := true }
def switched (st : Nat) (s : State) : State := s.setRf (clkReg 0 4) 10 8 st

theorem witness_PowerDomainsAndCaps :
    (∀ st ∈ [0, 1, 3, 4, 5], writes (railed st locked) (railReg 0 0) (1 + 800 * 2 ^ 16) .railCtl .railCtlWrite = true) ∧
    (∀ st ∈ [0, 2, 3, 4, 5], ∀ v ∈ [30, 256 + 30],
      writes (railed 3 (switched st locked)) (clkReg 0 0) v .clkTarget .clkTargetWrite = true) ∧
    runs (.capLoopTick 1000 5 (List.replicate 16 0)) up = true ∧
    writes (clocked up) 0x300008 (2000 + 400 * 2 ^ 16) .pwrCap .pwrCapWrite = true := by decide +kernel

/-- A rail that is on is requested off: the check (R542) looks at every tier of the region. -/
theorem witness_RailOff : writes ((railed 3 locked).setBit (railReg 0 0) 0) (railReg 0 0) (800 * 2 ^ 16) .railCtl .railCtlWrite = true := by
  decide +kernel

theorem witness_PowerDomainsRamp :
    let late := (railed 1 up).setSupply 0 { Supply.init with waitUs := 1000 }
    pdWait = 1 ∧ pdUp = 2 ∧ pdDown = 4 ∧ pdPending = 5 ∧
    ((railed 1 up).grantable 0 = true ∧ runs (.inrushGrant 0) (railed 1 up) = true) ∧
    (late.railState 0 = 1 ∧ 1000 ≤ (late.supply 0).waitUs ∧ runs (.inrushGrantTimeout 0) late = true) ∧
    ((railed 2 up).railState 0 = 2 ∧ runs (.domainRampDone (.region 0)) (railed 2 up) = true) ∧
    (∀ st ∈ [4, 5], (railed st up).railState 0 = st ∧ runs (.domainRampDownDone (.region 0)) (railed st up) = true ∧
      (switched st up).bstate 0 = st ∧ runs (.domainRampDownDone (.block 0)) (switched st up) = true) ∧
    ((switched 2 up).bstate 0 = 2 ∧ runs (.domainRampDone (.block 0)) (switched 2 up) = true) := by decide +kernel

/-- R549: the tile allotment of a region is TILE_W × 25/4 (400 W: 2,500 lots). -/
theorem test_pwrCap : gives (.pwrCapWrite .mp (acc 0x300008) (2000 + 400 * 2 ^ 16)) (clocked up) (fun t =>
    t.rf (regionReg 0 0x4000) 31 16 == 2500) = true := by decide +kernel

theorem witness_SensorSamples :
    let temps (x : Nat) := List.replicate 16 x
    let hot := up.setSupply 0 { Supply.init with hotUs := temps 90 }
    ((railed pdOn up).railState 0 = pdOn ∧ (List.replicate 63 790).length = 63 ∧
      runs (.voltageSensorSample 0 (700 :: List.replicate 63 790)) (railed pdOn up) = true) ∧
    writes locked (railReg 0 4) (2 ^ 31) .railMin .railMinClear = true ∧
    ((temps 1050).length = 16 ∧ 1050 ≤ (temps 1050).getD 0 0 ∧ 90 ≤ (hot.supply 0).hotUs.getD 0 0 ∧
      runs (.thermalSensorSample 0 (temps 1050)) hot = true) ∧
    (∀ x ∈ [1050, 1020, 960, 300], runs (.thermalSensorSample 0 (temps x)) up = true) ∧
    runs (.coolantSample 399 410 450) up = true ∧ runs (.coolantSample 600 300 450) up = true := by decide +kernel

def calSt (st : Nat) (s : State) : State := s.setRf (calReg 0 0) 2 0 st

theorem witness_Calibration :
    let on := (calSt calIdle (railed pdOn up)).setSupply 0 { Supply.init with sensors := List.replicate 16 400 }
    let T (n : Nat) : Tile := { up.tile 0 with calLeft := n, tokens := true }
    let meas (n : Nat) : State := (calSt calMeasuring (clocked up)).setTile 0 (T n)
    let tap := (calSt calApplying (clocked up)).setCal 0 { CalRegion.init with targets := [(0, 5)], codes := [(0, 4)], gradual := true }
    let taps := (calSt calApplying (clocked up)).setCal 0 { CalRegion.init with targets := [(0, 5)] }
    let wait := (calSt calWait (clocked up)).setCal 0 { CalRegion.init with waitMs := 1000 }
    (∀ st ∈ [calOff, calIdle, calMeasuring, calApplying], writes (calSt st (clocked up)) (calReg 0 0) 32 .calRstatus .calRunWrite = true) ∧
    (on.railState 0 = pdOn ∧ (on.supply 0).sensors.length = 16 ∧ runs (.regionTempEval 0) on = true) ∧
    (∀ n ∈ [1, 2], ((meas n).tile 0).calLeft ≠ 0 ∧ (meas n).otherGrant 0 = true ∧
      (meas n).blockOn 0 = true ∧ (meas n).rbit (blockReg 0 0xC308) 1 = false ∧
      runs (.calibrationMeasurement 0 (List.replicate 576 3)) (meas n) = true) ∧
    (tap.calState 0 = calApplying ∧ tap.tapPoint 0 = true ∧ (tap.calR 0).nextTap 0 = some (0, 5) ∧ tap.gradualMode 0 = true ∧
      listGet (tap.calR 0).last 0 = none ∧ runs (.gradualTap 0) tap = true) ∧
    (taps.calState 0 = calApplying ∧ taps.tapPoint 0 = true ∧ runs (.stepModeTaps 0) (taps.setBit 0x350000 8) = true) ∧
    (wait.calState 0 = calWait ∧ 1000 ≤ (wait.calR 0).waitMs ∧ runs (.stepModeFallback 0) wait = true) ∧
    (on.calState 0 = calIdle ∧ on.rf (calReg 0 0) 31 16 = 0 ∧ on.lastCalRec 0 = none ∧ runs (.inServiceRecord 0) on = true) := by
  decide +kernel

/-- R524: some message opens in every session (its tag alone, over no data). -/
theorem witness_openData (x : Session) : ∃ m data, x.openData m = some data := by
  have hl : ∀ ks iv aad c, (gcmTag ks iv aad c).length = min (beBytes 16 0).length (aesBlock ks (iv ++ beBytes 4 1)).length := by
    have hb : ∀ a b : Nat, (beBytes 16 a).length = (beBytes 16 b).length := fun a b => by simp [beBytes, leBytes]
    intro ks iv aad c; simp only [gcmTag, xorBytes, List.length_zipWith]; rw [hb _ 0]
  let ks := aesKeys (x.keys "req data").1
  let iv := seqIv (x.keys "req data").2 x.rxSeq
  let n := min (beBytes 16 0).length (aesBlock ks (iv ++ beBytes 4 1)).length
  have hn : n - 16 = 0 := by
    have : (beBytes 16 0).length = 16 := by decide
    omega
  refine ⟨gcmTag ks iv (sealHead x.id x.rxSeq n) [], [], ?_⟩
  have h2 : (gcmTag ks iv (sealHead x.id x.rxSeq n) []).length = n := hl _ _ _ _
  simp only [Session.openData, gcmOpen, h2, hn, List.take_zero, List.drop_zero]
  rw [if_pos rfl]
  simp [gcmStream, blocks16]
/-! ### Ciand (O58 to O60) -/

/-- Mailbox m holds a request with the opcode and payload, and is posted. -/
def ask (s : State) (m op : Nat) (p : List Byte) : State :=
  (s.writeArea m 0 (leBytes 2 op ++ leBytes 2 0 ++ leBytes 4 1 ++ leBytes 4 p.length ++ leBytes 20 0 ++ p)).setRf (mbReg m 4) 2 0 mbPosted

def servingB (s : State) (m op : Nat) : Bool :=
  s.mpUp && decide (s.nextBox = some m) && decide ((s.request m).op = op) && decide (s.headerBad m = none) && pathOk op (boxPath m) &&
    s.stateOk op && decide ((s.box m).lastKey ≠ some ((s.request m).seq, op))

theorem serving_of_servingB {s : State} {m op : Nat} (h : servingB s m op = true) : Serving s m op := by
  simp only [servingB, Bool.and_eq_true, decide_eq_true_eq] at h
  exact ⟨h.1.1.1.1.1.1, h.1.1.1.1.1.2, h.1.1.1.1.2, h.1.1.1.2, h.1.1.2, h.1.2, h.2⟩

/-- The request in mailbox 0 is the one to be served, and the command completes. -/
def asks (s : State) (op : Nat) (p : List Byte) (c : MailboxId → Instr) : Bool := servingB (ask s 0 op p) 0 op && runs (c 0) (ask s 0 op p)

/-- A payload of n bytes with values at byte offsets. -/
def pay (n : Nat) (l : List (Nat × Nat)) : List Byte := leBytes n (l.foldl (fun a x => a + x.2 * 2 ^ (8 * x.1)) 0)

def job0 (st : JobState) (s : State) : State := slot0 s fun x => { x with state := st, graph := true }

theorem witness_CiandQueries :
    let ended := { up with fw := { up.fw with ops := [{ op_ 0x0304 0 with done := true }] } }
    asks up 0x0101 [] .getInfo = true ∧ asks up 0x0102 [] .getState = true ∧ asks up 0x0103 (pay 8 [(4, 896)]) .getTiers = true ∧
    asks up 0x0104 [] .getJobs = true ∧
    (∀ s ∈ [ended, busy 0x0304 0 up], (s.fw.ops.find? fun o => o.oph = 5).isSome = true ∧ asks s 0x0105 (pay 4 [(0, 5)]) .opStatus = true) ∧
    asks up 0x0106 (pay 2 [(0, 4)]) .evtRead = true ∧ asks up 0x0201 [] .cfgGet = true ∧
    ((localParam 1).isSome = true ∧ asks up 0x0205 (pay 2 [(0, 1)]) .localGet = true) ∧
    (((tensor0 5 up).tensor 0).isSome = true ∧ asks (tensor0 5 up) 0x0303 (pay 4 []) .resQuery = true) ∧
    ((job0 .running up).admitted 0 = true ∧ asks (job0 .running up) 0x0409 [0] .jobStatus = true ∧
      asks (job0 .running up) 0x0C05 [0] .recStatus = true) ∧
    asks up 0x0501 [] .calStatus = true ∧ (∀ t ∈ [0, 2], asks up 0x0503 (pay 12 [(0, t), (8, 61408)]) (.calRead · PartReads.none) = true ∧
      asks up 0x0503 (pay 12 [(0, t), (8, 61408)]) (.calRead · lostPage) = true) ∧
    asks up 0x0601 [] .pwrGet = true ∧ asks up 0x0701 (pay 10 [(8, 479)]) (.jrnRead · PartReads.none) = true ∧ asks up 0x0701 (pay 10 [(8, 1)]) (.jrnRead · lostPage) = true ∧
    asks up 0x0702 (pay 12 [(0, 6), (8, 7675)]) .jrnUnits = true ∧ asks up 0x0704 [] .fltGet = true ∧
    (∀ t ∈ [9, 13], asks up 0x0802 (pay 2 [(0, t), (1, 255)]) .testResult = true) ∧ asks up 0x0803 [] .postResult = true ∧
    asks { at_ .glade with fw := { (at_ .glade).fw with postTest := 14, postDetail := [1] } } 0x0803 [] .postResult = true ∧
    asks up 0x0901 [] .fwInfo = true ∧ (∀ s ∈ [up, operational up], asks s 0x0A01 [0x13, 0xE1] (fun m => .spdmMsg m none none) = true) ∧
    ((operational up).sec.state = .operational ∧ (operational up).sec.sessions = [] ∧
      asks (operational up) 0x0A01 [0x13, 0x84] (fun m => .spdmMsg m (some (1, true)) none) = true) ∧
    asks up 0x0A02 [] .secStatus = true ∧ asks up 0x0B03 [] .fabNeighbours = true := by decide +kernel

/-- R464, R465: the response to FLT_GET, of 12 bytes, stands in the mailbox of the host path, which is DONE. -/
theorem test_fltGet : gives (.fltGet 0) (ask up 0 0x0704 []) (fun t =>
    t.mbState 0 == mbDone && (t.box 0).num 0 2 == 0x0704 && (t.box 0).num 8 4 == 12) = true := by decide +kernel

def commitPay : List Byte := pay 72 [(9, 5), (10, 2), (13, 8), (16, 100 + 65536 * 1000), (68, 65536)]
def admitPay : List Byte :=
  pay 108 [(0, 7), (8, 200 * 65536), (0xC, 0x10), (0x14, 0x3F800000), (0x18, 5), (0x20, 4), (0x24, 8), (0x28, 1), (0x2C, 100), (0x3C, 3), (0x40, 1), (0x44, 1), (0x4C, 1)]
/-- Tensor 0 has one piece, of 4 by 4 cells, on tile tier 0. -/
def tensorP (st : Nat) (s : State) : State :=
  let s := s.setRf (tierReg 0) 18 16 0
  { s with fw := { s.fw with tensors :=
    [(0, some { state := st, layout := 0, count := 1, pieces := [(0, (0, 4, 4, 0))], handles := [] })] } }

theorem witness_CiandConfiguration :
    (ask up 0 0x0202 [0, 0, 0, 0, 2, 0, 0, 0, 7, 8]).arg 0 0 4 + (ask up 0 0x0202 [0, 0, 0, 0, 2, 0, 0, 0, 7, 8]).arg 0 4 4 ≤ 65536 ∧
    asks up 0x0202 [0, 0, 0, 0, 2, 0, 0, 0, 7, 8] .cfgStage = true ∧
    (let a := (ask up 0 0x0203 commitPay).arg 0
     a 8 1 ≤ 1 ∧ 1 ≤ a 9 1 ∧ a 9 1 ≤ 50 ∧ 2 ≤ a 10 1 ∧ a 10 1 ≤ 15 ∧ a 11 1 ≤ 15 ∧ a 12 1 ≤ 3 ∧ a 13 1 ≠ 0 ∧ a 14 2 = 0 ∧
     1 ≤ a 16 4 % 65536 ∧ a 16 4 % 65536 ≤ 60000 ∧ 1 ≤ a 16 4 / 65536 ∧ a 16 4 / 65536 ≤ 60000 ∧ a 68 4 ≤ 65536 ∧
     a 0 4 = (ask up 0 0x0203 commitPay).rn 0x34010 ∧ up.multiJob = false) ∧
    asks up 0x0203 commitPay .cfgCommit = true ∧ asks up 0x0204 (pay 8 [(0, 1), (4, 168)]) .localSet = true := by decide +kernel

theorem witness_CiandResidency :
    let def1 := pay 12 [(4, 131072), (8, 1)]
    let part := pay 24 [(8, 1), (12, 8), (16, 1024), (18, 1024)]
    let free := (up.setRf (tierReg 8) 18 16 0)
    let one (n : Nat) : State := { free with fw := { up.fw with
      tensors := [(0, some { state := 1, layout := 0, count := n, pieces := [], handles := [] })] } }
    let s := ask (one 1) 0 0x0302 part
    let ps := [(0, (s.request 0).piece 0)]
    up.tensor 0 = none ∧ asks up 0x0301 def1 .resDefine = true ∧
    s.badPiece 0 false [(0, ((s.request 0).piece 0).1)] [] = none ∧
    (((s.begun 0).place 0 { state := 1, layout := 0, count := 1, pieces := ps, handles := [] } (List.range 16)).1).isSome = true ∧
    asks (one 1) 0x0302 part .resPieces = true ∧ asks (one 2) 0x0302 part .resPieces = true ∧
    (tensorP 2 up).takes 0 0 false 0 = true ∧ up.opRoom = true ∧
    asks (tensorP 2 up) 0x0304 (pay 4 []) .resLoad = true ∧ asks (tensorP 2 up) 0x0305 (pay 4 []) .resAdopt = true ∧
    asks (tensorP 5 up) 0x0306 (pay 4 []) .resRelease = true ∧ asks up 0x0307 (pay 8 [(4, 131072)]) .resDiscard = true := by
  decide +kernel

theorem witness_CiandJobs :
    let adm := ask (operational up) 0 0x0401 admitPay
    let a := adm.arg 0
    let named := tensorP 5 (job0 .admitted up)
    let wins := job0 .loaded up
    firstBad (admitBad (adm.request 0)) = none ∧ adm.sec.state = .operational ∧
    ((List.range 64).find? fun k => !adm.admitted k) = some 0 ∧ adm.taken (a 0x3C 4) (a 0x44 8) (bitsOf 256 (a 0x4C 32)) = false ∧
    asks (operational up) 0x0401 admitPay .jobAdmit = true ∧
    (named.admitted 0 = true ∧ named.tensor 0 ≠ none ∧ named.writerOf 0 = none ∧ (named.slot 0).state.started = false ∧
      asks named 0x0402 (pay 16 [(4, 1), (12, 1)]) .jobTensors = true) ∧
    ((∀ k ∈ [0, 1, 2], (wins.windows 0 k).length = 0) ∧ wins.actTotal + 16 ≤ 262144 ∧
      ((List.range 16).find? fun w => !wins.rbit (hwinReg w 0xC) 0 && !wins.rbit (hwinReg w 0xC) 16) = some 0 ∧
      (∀ k ∈ [0, 1, 2], asks wins 0x0403 (pay 16 [(1, k), (4, 2097152), (12, 16)]) .jobWindow = true)) ∧
    asks wins 0x0404 (pay 14 [(1, 15), (8, 2), (12, 3)]) .jobGraphStage = true ∧
    (∀ st ∈ [JobState.admitted, .loaded, .stopped], asks (job0 st up) 0x0405 [0] .jobGraphLoad = true) ∧
    ((wins.slot 0).graph = true ∧ wins.jobResident 0 = true ∧ asks wins 0x0406 [0] .jobStart = true) ∧
    asks (job0 .running up) 0x0407 [0] .jobStop = true ∧ asks (job0 .trapStopped up) 0x0408 [0] .jobResume = true ∧
    asks (job0 .stopped up) 0x040A [0] .jobEnd = true := by decide +kernel

/-- R240, R474: JOB_ADMIT takes slot 0 and sets line 1 as its step line. -/
theorem test_jobAdmit : gives (.jobAdmit 0) (ask (operational up) 0 0x0401 admitPay) (fun t =>
    (t.slot 0).fjob == 7 && t.rf (clReg 1 0) 9 0 == 64 + 128 + 256 && t.dev == .running) = true := by decide +kernel

theorem witness_CiandManagement :
    let idle := (good1 : State).sec.idle 0
    up.opRoom = true ∧ up.fw.ops = [] ∧ asks up 0x0502 [255, 255] .calRun = true ∧
    asks up 0x0602 (pay 4 [(0, 1000), (2, 640)]) .pwrLimit = true ∧ asks up 0x0603 [255, 255] .pwrClearMin = true ∧
    asks up 0x0703 (pay 2 [(0, 1022)]) .evtSubscribe = true ∧
    asks up 0x0801 (pay 36 [(0, 9), (4, 1)]) .testRun = true ∧ asks up 0x0902 (pay 14 [(8, 2), (12, 7)]) .fwStage = true ∧
    asks up 0x0903 (pay 8 [(4, 8192)]) .fwVerify = true ∧
    ((good1.sec.slot 0 idle).verified = true ∧ asks good1 0x0904 [0] .fwActivate = true) ∧
    asks up 0x0B01 (pay 2 [(0, 0x3FFF)]) .fabSetId = true ∧ asks up 0x0B02 (pay 6 [(0, 8191), (2, 1), (4, 0xFFF)]) .fabRoute = true ∧
    (encOk .linkCfg 0x30A00 = true ∧ asks up 0x0B04 (List.replicate 16 (leBytes 4 0x30A00)).flatten .fabPorts = true) ∧
    (encOk .timeCfg 0x841 = true ∧ asks up 0x0B05 (pay 4 [(0, 0x841)]) .fabTime = true) ∧
    asks (job0 .loaded up) 0x0B06 (pay 16 [(1, 15), (2, 3), (3, 4), (8, 2), (10, 31), (12, 1), (14, 2)]) .fabGroup = true ∧
    asks up 0x0B07 (pay 36 [(0, 8191), (2, 12)]) .fabForward = true := by decide +kernel

theorem witness_CiandRecovery :
    let fab := slot0 (job0 .stopped up) fun x => { x with fjob := 7, rests := 3 }
    let back := { fab with fw := { fab.fw with ops := [op_ 0x0C04 0] } }
    let back := slot0 back fun x => { x with restKind := 1 }
    asks (job0 .running up) 0x0C01 (pay 8 [(4, 5)]) .recImageDone = true ∧
    (fab.admitted 0 = true ∧ (fab.slot 0).fjob = 7 ∧ asks fab 0x0C02 (pay 8 [(0, 7), (4, 3)]) .recRestart = true) ∧
    (encOk .numLscale 16 = true ∧ (fab.slot 0).state.idle = true ∧
      asks fab 0x0C03 (pay 24 [(4, 3), (8, 4), (12, 16)]) .recRestoreJob = true) ∧
    (fab.opsOf [0x0C04] (fun i => i == 0) = [] ∧ (∀ k ∈ [0, 1, 2], asks fab 0x0C04 [0, k] (fun m => .recBegin m ServeIn.none.img) = true)) ∧
    ((back.slot 0).restKind ≠ 0 ∧ back.fw.nextOph ≠ 5 ∧ asks back 0x0C04 [0, 2] (fun m => .recBegin m ServeIn.none.img) = true) := by
  decide +kernel

/-- The serial number of a request's payload is this device's: the request's other fields are those of `ask`. -/
def askSerial (s : State) (op : Nat) : State :=
  let s := (ask s 0 op (leBytes 8 0))
  let B := s.box 0
  s.setBox 0 { B with area := (List.range 32).map (fun i => (i, B.byte i)) ++
    (List.range 8).map fun i => (32 + i, BitVec.ofNat 8 (Config.serial.toNat / 256 ^ i)) }

theorem serial_bytes (n : Nat) (h : n < 2 ^ 64) : leNat ((List.range 8).map fun i => BitVec.ofNat 8 (n / 256 ^ i)) = n := by
  simp [leNat, List.range, List.range.loop]; omega

theorem witness_SerialCommands : (askSerial up 0x0A03).arg 0 0 8 = Config.serial.toNat ∧ servingB (askSerial up 0x0A03) 0 0x0A03 = true ∧
    runs (.secZeroise 0) (askSerial up 0x0A03) = true ∧ servingB (askSerial { up with sec := { up.sec with state := .error } } 0x0A03) 0 0x0A03 = true ∧
    (askSerial (at_ .flagged) 0x0C06).arg 0 0 8 = Config.serial.toNat ∧
    servingB (askSerial (at_ .flagged) 0x0C06) 0 0x0C06 = true ∧ runs (.recClearFlag 0) (askSerial (at_ .flagged) 0x0C06) = true := by
  have h (s : State) (op : Nat) (e : (askSerial s op).arg 0 0 8 = leNat ((List.range 8).map fun i => BitVec.ofNat 8 (Config.serial.toNat / 256 ^ i))) :
      (askSerial s op).arg 0 0 8 = Config.serial.toNat := by rw [e, serial_bytes _ Config.serial.isLt]
  exact ⟨h _ _ rfl, by decide +kernel, by decide +kernel, by decide +kernel, h _ _ rfl, by decide +kernel, by decide +kernel⟩
/-! ### Well-formedness: an ill-formed term for each check -/

def badErr : MemErr := { hbm := true, unit := 16, addr := 0, double := false }

theorem test_wf_operands : ([
    .powerApplied 50000 (some 255) PartReads.none, .powerApplied 65536 none PartReads.none,
    .jrnRead 0 { PartReads.none with lost := [(768, 0)] }, .calRead 0 { PartReads.none with fixed := 65537 },
    .jrnRead 0 { PartReads.none with other := [(5, 0, 0)] }, .bootComplete [{ test := 15, kind := 0, unit := 0, again := false }],
    .selfTestComplete [{ test := 1, kind := 7, unit := 0, again := false }], .resetNRelease (some 255) PartReads.none, .protectiveShutdown 5,
    .inputVoltageSample 65536 0, .tileReadStart 0 [badErr], .moveTask 0 0 [{ badErr with unit := 15, addr := 103079215104 }],
    .updateTask 0 [{ badErr with hbm := false, unit := 256 }], .veLd 0 [{ badErr with hbm := false, addr := 6291456 }],
    .thermalSensorSample 0 [], .thermalSensorSample 0 (List.replicate 16 2048), .voltageSensorSample 0 (List.replicate 63 0),
    .coolantSample 600 32768 0, .capLoopTick 0 0 [], .matmulCheckPass 0 { kind := 4, m := 0, n := 0, blk := 0 },
    .matmulCheckPass 0 { kind := 0, m := 128, n := 0, blk := 0 }, .veFadd 0 { res := 3, ecc := 0 }, .veSt 0 [] { res := 0, ecc := 3 },
    .calibrationMeasurement 0 [1], .noiseSourceFailure 255, .queryTask (2 ^ 32), .hbmScrub 0 49152 []] : List Instr).all
    (fun i => !i.wf) = true := by decide +kernel

theorem test_wf_addresses : ([
    .registerWrite .host { off := 2 ^ 26, bytes := 4, be := 15 } 0, .registerWrite .host { off := 0, bytes := 0, be := 0 } 0,
    .registerWrite .host { off := 0, bytes := 4, be := 16 } 0, .registerWrite .host { off := 0, bytes := 4, be := 15 } (2 ^ 32),
    .rcRegisterRead .host { off := 0, bytes := 9, be := 0 }, .crossingTimeout .host { off := 0, bytes := 4, be := 15 } (some (2 ^ 32)),
    .allocQueueServe 17 0, .allocTimeout 0 17, .cxlMemRead 1 [], .cxlMemWrite 1649267441664 0 0 [], .cxlMemWrite 0 (2 ^ 512) 0 []]
    : List Instr).all (fun i => !i.wf) = true := by decide +kernel

theorem test_wf_messages : ([
    .chdrReceive { hdrIn with rail := 4 }, .cdataReceive ⟨{ dataIn 0 true with group := 16 }, []⟩, .cdataReceive ⟨dataIn 0 true, [badErr]⟩, .beatReceive 8192 [], .prefetchPageReread 0 0 ⟨1536, true⟩,
    .veFadd 0 { res := 0, ecc := 0, lane := 512 }, .firmwareTick { ServeIn.none with reads := { PartReads.none with failed := 65537 } } false, .linkTrainingDone 0 256,
    .ucieTrainingDone 16 0, .helloReceive 0 [], .flitReceive 0 { flit true true with credits := [] },
    .messageRoute 0 8192 0 2 0 0 0 false [], .messageRoute 0 0 0 6 0 0 0 false [], .spdmMctpMessage { spdm none with bytes := [] },
    .pldmRequest 0 (some 41) [], .pldmFirmwareUpdate 0 (.activate 4), .mgmtSegmentReceive ⟨0, none⟩ 65536 [], .mgmtSegmentReceive ⟨8192, none⟩ 0 [], .operationComplete (2 ^ 32),
    .fabForwardResponse 0 11 none, .fabForwardResponse 0 12 (some []), .dynamicAddressAssignment 128,
    .recBegin 0 { base := [{ unit := 131072, row := 0, col := 0, val := 0 }], segs := [], img := [] },
    .recBegin 0 { base := [], segs := [2 ^ 64], img := [] }] : List Instr).all (fun i => !i.wf) = true := by decide +kernel
end Sys2Proof.Tests
end

section
namespace Sys2Proof.Machine

/-! ### Frames: what depends on the stores alone -/

section
variable {s t : State} (h : t.store = s.store)
include h
theorem State.reg_of_store (a : Nat) : t.reg a = s.reg a := by rw [State.reg, h]; rfl
theorem State.cell_of_store (k : Nat) : t.cell k = s.cell k := by rw [State.cell, h]; rfl
theorem State.norm_of_store (k : Nat) : t.norm k = s.norm k := by rw [State.norm, h]; rfl
theorem State.rdByte_of_store (sp : Space) (a : Nat) : t.rdByte sp a = s.rdByte sp a := by
  cases sp <;> simp only [State.rdByte, h]
theorem SameMem.of_store : SameMem s t := ⟨State.cell_of_store h, State.rdByte_of_store h, State.norm_of_store h⟩
theorem SameRegs.of_store (l : List Nat) : SameRegs s t l := fun a _ => State.reg_of_store h a
end

theorem SameMem.refl (s : State) : SameMem s s := .of_store rfl
theorem SameMem.trans {s t u : State} (h : SameMem s t) (h' : SameMem t u) : SameMem s u :=
  ⟨fun k => (h'.cells k).trans (h.cells k), fun sp a => (h'.bytes sp a).trans (h.bytes sp a),
    fun k => (h'.norms k).trans (h.norms k)⟩

/-- A command completes when its event comes about and leaves a state of the kind claimed. -/
theorem completes_of_whenever {c : Instr} {s t : State} {b : Bool} {P : State → Prop} (he : exec c s = whenever b s t)
    (hb : b = true) (hP : P t) : Completes c s P := ⟨t, by rw [he, hb, whenever_true], hP⟩

/-! ### A state without power (R7, R573, R574, R590) -/

/-- What power loss and RESET_N leave of s: the non-volatile stores as they were, everything else at its reset value. -/
def Wiped (s t : State) : Prop :=
  Nonvolatile s t ∧ t.part = s.part ∧ t.jrn.blocks = s.jrn.blocks ∧ t.sec.slots = s.sec.slots ∧ Blank t ∧
    t.mpUp = false ∧ t.hostUp = false

theorem blank_reset : Blank State.reset where
  regs _ := rfl
  bytes sp _ := by cases sp <;> rfl

/-- A state that keeps the non-volatile stores of s, has no register written and no memory filled, is wiped. -/
theorem wiped_of_store {s t : State} (hs : t.store = { State.reset.store with cells := s.store.cells })
    (hp : t.part = s.part) (hj : t.jrn = s.jrn.kept) (he : t.sec = s.sec.kept) (hm : t.mpUp = false) (hh : t.hostUp = false) :
    Wiped s t := by
  have hcell : ∀ k, t.cell k = s.cell k := fun k => by rw [State.cell, hs]; rfl
  have hblank : Blank t := ⟨fun a => by rw [State.reg, hs]; rfl, fun sp a => by cases sp <;> simp only [State.rdByte, hs] <;> rfl⟩
  exact ⟨⟨hcell, by rw [hp], fun _ => by rw [hp], by rw [he]; exact ⟨rfl, rfl⟩⟩, hp, by rw [hj]; rfl, by rw [he]; rfl, hblank, hm, hh⟩

theorem State.powerOff_wiped (s : State) (shut : Bool) : Wiped s (s.powerOff shut) := wiped_of_store rfl rfl rfl rfl rfl rfl

/-- A protective shutdown wipes the device and latches the first cause (R540). -/
theorem State.protect_down (s : State) (ev : Nat) :
    Wiped s (s.protect ev) ∧ (s.protect ev).dev = .off ∧ (s.protect ev).pwr.shut = true ∧
      (s.protect ev).pwr.cause = if s.pwr.cause = 0 then ev else s.pwr.cause :=
  ⟨wiped_of_store rfl rfl rfl rfl rfl rfl, rfl, rfl, rfl⟩

/-- Settles O2: the reset state's stores are empty, so every read answers what an unlisted key reads as. -/
theorem resetState : Obligations.ResetState :=
  ⟨blank_reset, fun _ => rfl, fun _ => rfl, rfl, rfl, rfl, rfl, rfl⟩

/-! ### Input samples (R536) -/

/-- The state once an input sample of `mv` is shown. -/
def State.shown (s : State) (mv : Nat) : State := ({ s with pwr := { s.pwr with vin := mv } } : State).setRf 0x300000 15 0 mv

/-- The state that has noted an excursion, or its end. -/
def State.vinNoted (s : State) (b : Bool) : State := { s with pwr := { s.pwr with vinTold := b } }

/-- The three ranges of an input sample: beyond the shutdown limits, within 40 to 60 V, and between them. -/
theorem execInputVoltageSample_of_on {s : State} {mv us : Nat} (h : s.dev ≠ .off) :
    execInputVoltageSample mv us s = .next
      (if (mv < 38000 ∧ 100 ≤ us) ∨ (62000 < mv ∧ 10 ≤ us) then (s.shown mv).protect 0x0703
       else if 40000 ≤ mv ∧ mv ≤ 60000 then (s.shown mv).vinNoted false
       else if s.pwr.vinTold then s.shown mv
       else (((s.shown mv).vinNoted true).setBit 0x30000C 2).raiseFw 0x0710 0 0) := by
  simp only [execInputVoltageSample, bne_iff_ne.mpr h, whenever_true]
  rfl

theorem State.shown_rf (s : State) (mv : Nat) : (s.shown mv).rf 0x300000 15 0 = mv % 65536 :=
  State.setRf_rf_same _ _ _ _ _ (by decide) (by decide)

theorem State.shown_reg_ne (s : State) (mv a : Nat) (h : a ≠ 0x300000) : (s.shown mv).reg a = s.reg a := by
  rw [State.shown, State.setRf_reg_ne _ _ _ _ _ _ h]; rfl

theorem State.shown_mem (s : State) (mv : Nat) : SameMem s (s.shown mv) :=
  ⟨fun _ => rfl, fun sp _ => by cases sp <;> rfl, fun _ => rfl⟩

/-- Settles O7. The sample's three ranges are the three branches of R536. -/
theorem powerLossKeepsNonvolatile : Obligations.PowerLossKeepsNonvolatile := by
  intro s kept down
  refine ⟨fun h => ?_, fun hr hd => ?_, fun hr hd => ?_, fun cause hd hc => ?_, fun mv us hd hv => ?_,
    fun mv us hd h1 h2 => ?_, fun mv us hd h1 h2 => ?_⟩
  · exact completes_of_whenever rfl (by simp [h]) ⟨s.powerOff_wiped false, rfl, rfl, rfl⟩
  · refine completes_of_whenever rfl (by simp [hr]) ?_
    rw [if_neg hd]
    exact ⟨wiped_of_store rfl rfl rfl rfl rfl rfl, rfl, rfl⟩
  · simp only [exec, execResetNAssert, hr, Bool.not_false, whenever_true, if_pos hd]
  · exact completes_of_whenever rfl (by simp [hd, hc]) (s.protect_down _)
  · refine ⟨(s.shown mv).protect 0x0703, by rw [exec, execInputVoltageSample_of_on hd, if_pos hv], ?_, rfl, rfl, rfl⟩
    exact wiped_of_store rfl rfl rfl rfl rfl rfl
  · refine ⟨(s.shown mv).vinNoted false, by rw [exec, execInputVoltageSample_of_on hd, if_neg (by omega), if_pos ⟨h1, h2⟩], ?_⟩
    refine ⟨?_, (s.shown_mem mv).trans (.of_store rfl), fun a ha => ?_, ⟨rfl, rfl, rfl, rfl, rfl⟩, rfl, rfl⟩
    · exact (s.shown_rf mv).trans (Nat.mod_eq_of_lt (by omega))
    · exact s.shown_reg_ne mv a (by simpa using ha)
  · have hx := execInputVoltageSample_of_on (mv := mv) (us := us) hd
    rw [if_neg h2, if_neg (by omega)] at hx
    cases hv : s.pwr.vinTold with
    | true =>
      rw [hv, if_pos rfl] at hx
      refine ⟨s.shown mv, hx, s.shown_rf mv, s.shown_mem mv, fun a ha => ?_, ⟨rfl, rfl, rfl, rfl, rfl⟩, hv, ?_⟩
      · exact s.shown_reg_ne mv a (by simp_all)
      · rw [if_pos rfl]; exact ⟨rfl, s.shown_reg_ne mv _ (by decide)⟩
    | false =>
      rw [hv, if_neg Bool.false_ne_true] at hx
      refine ⟨_, hx, ?_, ?_, fun a ha => ?_, ⟨rfl, rfl, rfl, rfl, rfl⟩, rfl, ?_⟩
      · exact (State.setRf_rf_ne _ _ _ _ _ _ _ _ (by decide)).trans (s.shown_rf mv)
      · refine (s.shown_mem mv).trans ⟨fun _ => rfl, fun sp _ => by cases sp <;> rfl, fun _ => rfl⟩
      · obtain ⟨h0, hC⟩ : a ≠ 0x300000 ∧ a ≠ 0x30000C := by simpa using ha
        exact (State.setBit_reg_ne _ _ _ _ hC).trans (s.shown_reg_ne mv a h0)
      · rw [if_neg Bool.false_ne_true]
        exact ⟨State.setBit_rbit _ _ _ (by decide), rfl⟩
end Sys2Proof.Machine
end

section
namespace Sys2Proof.Machine

/-! ### The register table -/

/-- Every row of the register table. -/
def regTable : List RegDesc := regionRegs ++ tileRegs ++ blockRegs ++ linkRegs ++ mailboxRegs ++ msixRegs ++ chipRegs

theorem findDesc_mem {x : Nat} {l : List RegDesc} {d : RegDesc} {i : Nat} (h : findDesc x l = some (d, i)) : d ∈ l := by
  induction l with
  | nil => cases h
  | cons e r ih =>
    simp only [findDesc] at h
    generalize (if e.stride = 0 then 0 else _) = j at h
    split at h
    · cases h; exact List.mem_cons_self
    · exact List.mem_cons_of_mem _ (ih h)

theorem mkRef_mem {x u : Nat} {l : List RegDesc} {r : RegRef} (h : mkRef u (findDesc x l) = some r) : r.desc ∈ l := by
  obtain ⟨⟨d, i⟩, hd, rfl⟩ := Option.map_eq_some_iff.mp h
  exact findDesc_mem hd

theorem regAtRegion_mem {g x : Nat} {r : RegRef} (h : regAtRegion g x = some r) : r.desc ∈ regTable := by
  simp only [regTable, List.mem_append]
  simp only [regAtRegion] at h
  split at h
  · have := mkRef_mem h; tauto
  · split at h <;> have := mkRef_mem h <;> tauto

/-- A register is described by a row of the table. -/
theorem regAt_mem {a : Nat} {r : RegRef} (h : regAt a = some r) : r.desc ∈ regTable := by
  have hin {x u : Nat} {l : List RegDesc} (hl : l ⊆ regTable) (h : mkRef u (findDesc x l) = some r) : r.desc ∈ regTable :=
    hl (mkRef_mem h)
  simp only [regAt] at h
  split at h
  · split at h
    · exact regAtRegion_mem h
    · cases h
  · split at h
    · exact hin (by simp [regTable, List.subset_def]; tauto) h
    · split at h
      · exact hin (by simp [regTable, List.subset_def]; tauto) h
      · split at h
        · exact hin (by simp [regTable, List.subset_def]; tauto) h
        · exact hin (by simp [regTable, List.subset_def]; tauto) h

theorem regAt_of_locOf {a : Nat} {r : RegRef} (h : locOf a = .reg r) : regAt a = some r := by
  simp only [locOf] at h
  split at h
  · split at h <;> cases h
  · split at h
    · split at h <;> cases h
    · split at h
      · cases h
      · split at h
        · next hr => cases h; exact hr
        · cases h

/-- The bits of HWIN_CTL are all key-guarded. -/
theorem hwinCtl_masks : ∀ d ∈ regTable, d.id = .hwinCtl → d.rw = 0 ∧ d.rwk = 0x1FF ∧ d.w1c = 0 := by decide +kernel

/-- A read clears nothing of a low word that captures its high word. -/
theorem captures_rc : ∀ d ∈ regTable, captures.contains d.id = true → d.rc = 0 := by decide +kernel

/-- The register at offset 0 is CHIP_ID: no high half lies there. -/
theorem locOf_zero {r : RegRef} (h : locOf 0 = .reg r) : r.desc.id = .chipId := by
  have h0 : (regAt 0).map (fun r => r.desc.id) = some .chipId := by decide +kernel
  simpa [regAt_of_locOf h] using h0

/-! ### What an access leaves alone -/

/-- Between s and t no register but those listed, no memory and no unit has changed. -/
def OnlyRegs (s t : State) (l : List Nat) : Prop := SameRegs s t l ∧ SameMem s t ∧ SameUnits s t

theorem SameUnits.refl (s : State) : SameUnits s s := by constructor <;> rfl

theorem SameUnits.trans {s t u : State} (h : SameUnits s t) (h' : SameUnits t u) : SameUnits s u :=
  ⟨h'.tiles.trans h.tiles, h'.tiers.trans h.tiers, h'.blocks.trans h.blocks, h'.slots.trans h.slots, h'.allocs.trans h.allocs,
    h'.arb.trans h.arb, h'.scrub.trans h.scrub, h'.toks.trans h.toks, h'.pwr.trans h.pwr, h'.cal.trans h.cal,
    h'.dev.trans h.dev, h'.jrn.trans h.jrn, h'.part.trans h.part, h'.sec.trans h.sec⟩

section
variable {s t : State} {l : List Nat}

theorem OnlyRegs.refl (s : State) (l : List Nat) : OnlyRegs s s l := ⟨fun _ _ => rfl, .refl s, .refl s⟩

theorem OnlyRegs.trans {u : State} (h : OnlyRegs s t l) (h' : OnlyRegs t u l) : OnlyRegs s u l :=
  ⟨fun a ha => (h'.1 a ha).trans (h.1 a ha), h.2.1.trans h'.2.1, h.2.2.trans h'.2.2⟩

theorem OnlyRegs.of_store (h : t.store = s.store) (hu : SameUnits s t) : OnlyRegs s t l :=
  ⟨.of_store h l, .of_store h, hu⟩

theorem onlyRegs_setReg (s : State) {a : Nat} (v : Word) (ha : a ∈ l) : OnlyRegs s (s.setReg a v) l :=
  ⟨fun b hb => by rw [State.setReg_get, if_neg (ne_of_mem_of_not_mem ha hb).symm], ⟨fun _ => rfl, fun sp _ => by cases sp <;> rfl, fun _ => rfl⟩,
    by constructor <;> rfl⟩

theorem onlyRegs_closeLock (s : State) (w : Writer) (l : List Nat) : OnlyRegs s (s.closeLock w) l := by
  cases w <;> exact .of_store rfl (by constructor <;> rfl)

theorem onlyRegs_holdLow (s : State) (a : Nat) (v : Word) (l : List Nat) : OnlyRegs s (s.holdLow a v) l :=
  .of_store rfl (by constructor <;> rfl)

theorem onlyRegs_raiseFw (s : State) (c k u : Nat) (l : List Nat) : OnlyRegs s (s.raiseFw c k u) l :=
  .of_store rfl (by constructor <;> rfl)

theorem onlyRegs_emit (s : State) (m : OutMsg) (l : List Nat) : OnlyRegs s (s.emit m) l :=
  .of_store rfl (by constructor <;> rfl)
end

/-- An event of the chip has no aggregator: firmware has it at once (R390). -/
theorem State.raise_chip (s : State) (c u : Nat) : s.raise c 0 u = s.raiseFw c 0 u := rfl

/-! ### What a write stores (R10, R496) -/

theorem bit_eq_testBit (n i : Nat) : bit n i = n.testBit i := by
  simp [bit, Nat.testBit_eq_decide_div_mod_eq]

theorem writtenValue_wrote {d : RegDesc} (hid : d.id ≠ .clMparrive) (old : Word) (v : Nat) :
    Wrote d old (writtenValue d old (BitVec.ofNat 32 v)) v := by
  intro i hi
  simp only [writtenValue, if_neg hid, BitVec.getLsbD_and, BitVec.getLsbD_or, BitVec.getLsbD_not, BitVec.getLsbD_ofNat, hi,
    decide_true, Bool.true_and]
  cases (d.rw ||| d.rwk).testBit i <;> cases v.testBit i <;> cases d.w1c.testBit i <;> simp

/-- The state in which an accepted write of a register of row d takes effect: the write of a key-guarded register has closed
the lock (R503). -/
def State.keyUsed (s : State) (w : Writer) (d : RegDesc) : State := if d.rwk = 0 then s else s.closeLock w

theorem onlyRegs_keyUsed (s : State) (w : Writer) (d : RegDesc) (l : List Nat) : OnlyRegs s (s.keyUsed w d) l := by
  unfold State.keyUsed
  split
  · exact .refl s l
  · exact onlyRegs_closeLock s w l

@[simp] theorem State.keyUsed_reg (s : State) (w : Writer) (d : RegDesc) (a : Nat) : (s.keyUsed w d).reg a = s.reg a :=
  (onlyRegs_keyUsed s w d []).1 a (by simp)

theorem State.keyUsed_ruleRefuses (s : State) (w : Writer) (d : RegDesc) (r : RegRef) (a v : Nat) :
    (s.keyUsed w d).ruleRefuses w r a v = s.ruleRefuses w r a v := by
  unfold State.keyUsed State.closeLock
  cases w <;> split <;> rfl

theorem State.keyUsed_dead (s : State) (w : Writer) (d : RegDesc) (dom : Domain) (a : Nat) :
    (s.keyUsed w d).dead dom a = s.dead dom a := by
  unfold State.keyUsed State.closeLock
  cases w <;> split <;> rfl

/-- A write that passes every check takes effect (R497). -/
theorem Accepted.write_eq {s : State} {w : Writer} {a : Access} {v : Nat} {r : RegRef} (h : Accepted s w a v r) :
    s.write w a v = (s.keyUsed w r.desc).applyWrite w r a.off v := by
  obtain ⟨_, hshape, hloc, hstate, hkey, henc, hclock, hrule⟩ := h
  have hguard : ¬ (r.desc.rwk ≠ 0 ∧ ¬ s.isOpen w = true ∧ ([a.off].any fun x => s.changesRwk r.desc x v) = true) := by
    simp only [List.any_cons, List.any_nil, Bool.or_false]
    rintro ⟨h1, h2, h3⟩
    rcases hkey with h | h | h
    · exact h1 h
    · exact h2 h
    · exact Bool.false_ne_true (h.symm.trans h3)
  have hcheck : s.checkWrite w r.desc a.off v [a.off] = (none, s.keyUsed w r.desc) := by
    rw [State.checkWrite, hstate, if_neg Bool.false_ne_true, if_neg hguard]
    simp only [henc, if_true, State.keyUsed]
  simp only [State.write, hshape, hloc, State.writeReg, hcheck, State.targetWrite, State.keyUsed_dead, State.keyUsed_ruleRefuses,
    hclock, hrule, Bool.not_true, Bool.false_eq_true, if_false]

theorem Accepted.named {s : State} {w : Writer} {a : Access} {v : Nat} {r : RegRef} (h : Accepted s w a v r) {ids : List RegId}
    (hid : ids.contains r.desc.id = true) :
    s.namedWrite ids w a v = .next ((s.keyUsed w r.desc).applyWrite w r a.off v) := by
  simp only [State.namedWrite, h.here, regIdAt, h.names, hid, Bool.and_self, whenever_true, h.write_eq]
end Sys2Proof.Machine
end

section
namespace Sys2Proof.Machine

/-! ### What a write does beyond storing its value -/

/-- Registers whose write does more, or other, than store the value. -/
def effectIds : List RegId :=
  [.hwinBaseLo, .hwinBaseHi, .vePstore, .xfDbell, .bcastSel, .chipUnlock, .mbDoorbell, .clEn, .ptCfg, .seqWin, .linkCfg, .railCtl,
   .clkTarget, .pwrCap, .railMin, .calRstatus, .calCfg, .zgwTensor, .zgwCfg, .hwinCtl, .fabId, .mbStatus, .msixCtl]

/-- The value that a write of v leaves in the register r at a. -/
def State.newValue (s : State) (r : RegRef) (a v : Nat) : Word := writtenValue r.desc (s.reg a) (BitVec.ofNat 32 v)

theorem State.applyWrite_plain {s : State} {w : Writer} {r : RegRef} {a v : Nat} (h : effectIds.contains r.desc.id = false) :
    s.applyWrite w r a v = s.setReg a (s.newValue r a v) := by
  unfold State.applyWrite
  split
  case h_8 =>
    unfold State.regEffect
    split
    case h_17 => rfl
    all_goals next hid => rw [hid] at h; exact absurd h (by decide)
  all_goals next hid => rw [hid] at h; exact absurd h (by decide)

theorem effectIds_of_other {i : RegId} (h : ownWrites.contains i = false)
    (h' : [RegId.calCfg, .fabId, .msixCtl, .bcastSel, .ptCfg].contains i = false) : effectIds.contains i = false := by
  cases i <;> simp_all [ownWrites, effectIds]

/-- HWIN_CTL: a write that clears VALID sets DRAINING (R290). -/
theorem State.applyWrite_hwinCtl {s : State} {w : Writer} {r : RegRef} {a v : Nat} (h : r.desc.id = .hwinCtl) :
    s.applyWrite w r a v =
      let t := s.setReg a (s.newValue r a v)
      if bit (s.rn a) 0 && !t.rbit a 0 then t.setRf a 16 16 1 else t := by
  simp only [State.applyWrite, State.regEffect, h, State.newValue]; rfl

/-- The high half of a two-word register completes the write with the low half held for it (R493). -/
def State.bothHalves (s : State) (r : RegRef) (a v : Nat) : State :=
  ((s.setReg (a - 4) (s.lowOf a)).holdLow (a - 4) (s.lowOf a)).setReg a (s.newValue r a v)

theorem State.applyWrite_hwinBaseLo {s : State} {w : Writer} {r : RegRef} {a v : Nat} (h : r.desc.id = .hwinBaseLo) :
    s.applyWrite w r a v = s.holdLow a (s.newValue r a v) := by
  simp only [State.applyWrite, h, State.newValue]

theorem State.applyWrite_hwinBaseHi {s : State} {w : Writer} {r : RegRef} {a v : Nat} (h : r.desc.id = .hwinBaseHi) :
    s.applyWrite w r a v = s.bothHalves r a v := by
  simp only [State.applyWrite, h, State.newValue, State.bothHalves]

theorem State.applyWrite_vePstore {s : State} {w : Writer} {r : RegRef} {a v : Nat} (h : r.desc.id = .vePstore) :
    s.applyWrite w r a v = if r.idx % 2 = 0 then s.holdLow a (s.newValue r a v) else s.bothHalves r a v := by
  simp only [State.applyWrite, h, State.newValue, State.bothHalves]

/-- A doorbell of a slot that is not ACTIVE only sets its sticky bit (spec/14). -/
theorem State.applyWrite_xfDbell {s : State} {w : Writer} {r : RegRef} {a v : Nat} (h : r.desc.id = .xfDbell) :
    s.applyWrite w r a v =
      if s.rbit (numReg r.idx 4) 16 then s.setReg a (s.newValue r a v) else s.setBit (xfReg r.idx 8) 2 := by
  simp only [State.applyWrite, h, State.newValue]

theorem State.applyWrite_chipUnlock {s : State} {w : Writer} {r : RegRef} {a v : Nat} (h : r.desc.id = .chipUnlock) :
    s.applyWrite w r a v = s.writeKey w v := by
  simp only [State.applyWrite, h]

/-! ### The commands that write -/

section
variable {s : State} {w : Writer} {a : Access} {v : Nat} {r : RegRef} {c : Instr}

@[simp] theorem State.keyUsed_newValue (s : State) (w : Writer) (d : RegDesc) (r : RegRef) (a v : Nat) :
    (s.keyUsed w d).newValue r a v = s.newValue r a v := by simp only [State.newValue, State.keyUsed_reg]

theorem State.newValue_wrote (s : State) {r : RegRef} (hid : r.desc.id ≠ .clMparrive) (a v : Nat) :
    Wrote r.desc (s.reg a) (s.newValue r a v) v := writtenValue_wrote hid (s.reg a) v

/-- The command stores v by the access codes of the register at a, and changes nothing else. -/
def Stores (c : Instr) (s : State) (r : RegRef) (a v : Nat) : Prop :=
  Completes c s fun t => Wrote r.desc (s.reg a) (t.reg a) v ∧ OnlyRegs s t [a]

theorem stores_setReg (h : exec c s = .next ((s.keyUsed w r.desc).setReg a.off (s.newValue r a.off v)))
    (hid : r.desc.id ≠ .clMparrive) : Stores c s r a.off v :=
  ⟨_, h, by simpa using s.newValue_wrote hid a.off v,
    (onlyRegs_keyUsed s w r.desc _).trans (onlyRegs_setReg _ _ (List.mem_singleton_self _))⟩

/-- The command holds v as the low half of the two-word register at a. -/
def HoldsLow (c : Instr) (s : State) (r : RegRef) (a v : Nat) : Prop :=
  Completes c s fun t => Wrote r.desc (s.reg a) (t.lowOf (a + 4)) v ∧ OnlyRegs s t []

/-- The command writes both halves of the two-word register whose high half is at a. -/
def StoresBoth (c : Instr) (s : State) (r : RegRef) (a v : Nat) : Prop :=
  Completes c s fun t => t.reg (a - 4) = s.lowOf a ∧ Wrote r.desc (s.reg a) (t.reg a) v ∧ OnlyRegs s t [a - 4, a]

theorem holdsLow_of_holdLow (h : exec c s = .next ((s.keyUsed w r.desc).holdLow a.off (s.newValue r a.off v)))
    (hid : r.desc.id ≠ .clMparrive) : HoldsLow c s r a.off v := by
  refine ⟨_, h, ?_, (onlyRegs_keyUsed s w r.desc _).trans (onlyRegs_holdLow _ _ _ _)⟩
  have hl : ((s.keyUsed w r.desc).holdLow a.off (s.newValue r a.off v)).lowOf (a.off + 4) = s.newValue r a.off v := by
    rw [State.lowOf, Nat.add_sub_cancel]
    exact (SMap.get_set _ _ _ _ _).trans (if_pos rfl)
  rw [hl]
  exact s.newValue_wrote hid a.off v

theorem storesBoth_of_bothHalves (h : exec c s = .next ((s.keyUsed w r.desc).bothHalves r a.off v))
    (hid : r.desc.id ≠ .clMparrive) (h0 : a.off ≠ 0) : StoresBoth c s r a.off v := by
  have hne : a.off - 4 ≠ a.off := by omega
  have hlow : (s.keyUsed w r.desc).lowOf a.off = s.lowOf a.off := by
    unfold State.keyUsed State.closeLock
    cases w <;> split <;> rfl
  refine ⟨_, h, ?_, ?_, ?_⟩
  · simp only [State.bothHalves, State.setReg_get, if_neg hne, hlow]
    exact (State.setReg_get _ _ _ _).trans (if_pos rfl)
  · simpa [State.bothHalves] using s.newValue_wrote hid a.off v
  · refine (onlyRegs_keyUsed s w r.desc _).trans ((onlyRegs_setReg _ _ ?_).trans ((onlyRegs_holdLow _ _ _ _).trans (onlyRegs_setReg _ _ ?_)))
      <;> simp
end

/-! ### The lines that firmware arrives on (R338) -/

theorem sum_two_pow_lt (p : Nat → Bool) (n : Nat) : ((List.range n).map fun l => if p l then 2 ^ l else 0).sum < 2 ^ n := by
  induction n with
  | zero => simp
  | succ n ih =>
    rw [List.range_succ, List.map_append, List.sum_append, Nat.pow_succ]
    cases hp : p n <;> simp [hp] <;> omega

/-- Bit i of a sum of distinct powers of two. -/
theorem testBit_sum_two_pow (p : Nat → Bool) (n i : Nat) :
    ((List.range n).map fun l => if p l then 2 ^ l else 0).sum.testBit i = (decide (i < n) && p i) := by
  induction n with
  | zero => simp
  | succ n ih =>
    have hor := Nat.two_pow_add_eq_or_of_lt (sum_two_pow_lt p n) (p n).toNat
    have hbit : 2 ^ n * (p n).toNat = if p n then 2 ^ n else 0 := by cases p n <;> simp
    rw [List.range_succ, List.map_append, List.sum_append, List.map_singleton, List.sum_singleton, Nat.add_comm, ← hbit, hor,
      Nat.testBit_or, ih, hbit]
    rcases eq_or_ne i n with rfl | hne
    · cases hp : p i <;> simp
    · have hle : i < n + 1 ↔ i < n := by omega
      cases p n <;> simp [hle, hne.symm]

/-- Firmware arrives on no line that it does not name. -/
theorem State.mpLines_le (s : State) (v i : Nat) (h : (s.mpLines v).testBit i = true) : v.testBit i = true := by
  rw [State.mpLines, testBit_sum_two_pow (fun l => bit v l && s.markerDone l)] at h
  simp only [Bool.and_eq_true, bit_eq_testBit] at h
  exact h.2.1

/-! ### Writes with an effect of their own -/

theorem Accepted.off_ne_zero {s : State} {w : Writer} {a : Access} {v : Nat} {r : RegRef} (h : Accepted s w a v r)
    (hid : r.desc.id ≠ .chipId) : a.off ≠ 0 := fun h0 => hid (locOf_zero (h0 ▸ h.names))

theorem State.rbit_eq (s : State) (a i : Nat) : s.rbit a i = (s.reg a).getLsbD i := by
  simp [State.rbit, State.rf, fld, State.rn, BitVec.getLsbD, Nat.testBit_eq_decide_div_mod_eq]

section
variable {s : State} {w : Writer} {a : Access} {v : Nat} {r : RegRef} {c : Instr}

/-- Bit 0 of HWIN_CTL takes the value written. -/
theorem State.newValue_valid (s : State) (hid : r.desc.id = .hwinCtl) (hm : r.desc ∈ regTable) (x v : Nat) :
    (s.newValue r x v).getLsbD 0 = bit v 0 := by
  obtain ⟨hrw, hrwk, hw1c⟩ := hwinCtl_masks _ hm hid
  have h := s.newValue_wrote (by rw [hid]; decide) x v 0 (by decide)
  rw [h, hrw, hrwk, hw1c, bit_eq_testBit]
  simp

theorem Accepted.hwinCtl_write (h : Accepted s w a v r) (hid : r.desc.id = .hwinCtl) :
    exec (.hwinRegisterWrite w a v) s = .next
      (let t := (s.keyUsed w r.desc).setReg a.off (s.newValue r a.off v)
       if s.rbit a.off 0 && !bit v 0 then t.setRf a.off 16 16 1 else t) := by
  refine (h.named (by rw [hid]; decide)).trans ?_
  have hv := s.newValue_valid hid (regAt_mem (regAt_of_locOf h.names)) a.off v
  have hold : bit (s.rn a.off) 0 = s.rbit a.off 0 := by rw [bit_eq_testBit, State.rbit_eq]; rfl
  have hrn : (s.keyUsed w r.desc).rn a.off = s.rn a.off := by rw [State.rn, State.keyUsed_reg]; rfl
  rw [State.applyWrite_hwinCtl hid]
  simp only [State.rbit_eq, State.setReg_get, if_true, State.keyUsed_newValue, hv, hrn, hold]

/-- A write of HWIN_CTL that leaves VALID set, or finds it clear, only stores. -/
theorem Accepted.hwinCtl_stores (h : Accepted s w a v r) (hid : r.desc.id = .hwinCtl)
    (hv : s.rbit a.off 0 = false ∨ bit v 0 = true) : Stores (.hwinRegisterWrite w a v) s r a.off v := by
  refine stores_setReg (w := w) ((h.hwinCtl_write hid).trans ?_) (by rw [hid]; decide)
  rcases hv with hv | hv <;> simp [hv]

/-- A write of HWIN_CTL that clears VALID sets DRAINING (R290). -/
theorem Accepted.hwinCtl_drains (h : Accepted s w a v r) (hid : r.desc.id = .hwinCtl) (hs : s.rbit a.off 0 = true)
    (hv : bit v 0 = false) :
    Completes (.hwinRegisterWrite w a v) s fun t => t.rbit a.off 0 = false ∧ t.rbit a.off 16 = true ∧ OnlyRegs s t [a.off] := by
  have hx := h.hwinCtl_write hid
  simp only [hs, hv, Bool.not_false, Bool.and_self, if_true] at hx
  have hvalid := s.newValue_valid hid (regAt_mem (regAt_of_locOf h.names)) a.off v
  refine ⟨_, hx, ?_, State.setBit_rbit _ _ _ (by decide), ?_⟩
  · rw [State.rbit, State.setRf_rf_other _ _ _ _ _ _ _ (by decide) (by decide) (by decide) (by decide), ← State.rbit, State.rbit_eq,
      State.setReg_get, if_pos rfl, hvalid, hv]
  · exact (onlyRegs_keyUsed s w r.desc _).trans ((onlyRegs_setReg _ _ (List.mem_singleton_self _)).trans
      (onlyRegs_setReg _ _ (List.mem_singleton_self _)))

theorem Accepted.xfDbell_stray (h : Accepted s w a v r) (hid : r.desc.id = .xfDbell) (hs : s.rbit (numReg r.idx 4) 16 = false) :
    Completes (.xfDbellWrite w a v) s fun t => t.rbit (xfReg r.idx 8) 2 = true ∧ OnlyRegs s t [xfReg r.idx 8] := by
  have hk : (s.keyUsed w r.desc).rbit (numReg r.idx 4) 16 = false := by rw [State.rbit_eq, State.keyUsed_reg, ← State.rbit_eq, hs]
  refine ⟨_, h.named (by rw [hid]; decide), ?_, ?_⟩
  · rw [State.applyWrite_xfDbell hid, hk]
    exact State.setBit_rbit _ _ _ (by decide)
  · rw [State.applyWrite_xfDbell hid, hk]
    exact (onlyRegs_keyUsed s w r.desc _).trans (onlyRegs_setReg _ _ (List.mem_singleton_self _))

/-- The lock of a requester is set. -/
def State.setLock (s : State) (w : Writer) (b : Bool) : State :=
  match w with | .host => { s with hostLock := b } | .mp => { s with mpLock := b }

@[simp] theorem State.setLock_isOpen (s : State) (w : Writer) (b : Bool) : (s.setLock w b).isOpen w = b := by cases w <;> rfl

theorem onlyRegs_setLock (s : State) (w : Writer) (b : Bool) (l : List Nat) : OnlyRegs s (s.setLock w b) l := by
  cases w <;> exact .of_store rfl (by constructor <;> rfl)

theorem State.setLock_fw (s : State) (w : Writer) (b : Bool) : (s.setLock w b).fw = s.fw := by cases w <;> rfl

theorem State.keyUsed_fw (s : State) (w : Writer) (d : RegDesc) : (s.keyUsed w d).fw = s.fw := by
  unfold State.keyUsed State.closeLock
  cases w <;> split <;> rfl

/-- A key opens the requester's lock; anything else closes it and is reported (R503). -/
theorem State.writeKey_eq (s : State) (w : Writer) (v : Nat) :
    s.writeKey w v = if v % 65536 = 0x6A3C then s.setLock w true else ((s.setLock w false).setBit 0x14 16).raiseFw 0x0480 0 0 := by
  by_cases hv : v % 65536 = 0x6A3C
  · rw [if_pos hv]
    cases w <;> simp [State.writeKey, hv, State.setLock]
  · have hb : (v % 65536 == 0x6A3C) = false := beq_eq_false_iff_ne.mpr hv
    rw [if_neg hv]
    cases w <;> simp [State.writeKey, hb, State.setLock, State.raise_chip]

theorem Accepted.unlock_good (h : Accepted s w a v r) (hid : r.desc.id = .chipUnlock) (hv : v % 65536 = 0x6A3C) :
    Completes (.chipUnlockWrite w a v) s fun t => t.isOpen w = true ∧ OnlyRegs s t [] ∧ t.fw = s.fw := by
  refine ⟨_, h.named (by rw [hid]; decide), ?_⟩
  rw [State.applyWrite_chipUnlock hid, State.writeKey_eq, if_pos hv]
  exact ⟨State.setLock_isOpen _ _ _, (onlyRegs_keyUsed s w r.desc _).trans (onlyRegs_setLock _ _ _ _),
    (State.setLock_fw _ _ _).trans (State.keyUsed_fw _ _ _)⟩

theorem Accepted.unlock_bad (h : Accepted s w a v r) (hid : r.desc.id = .chipUnlock) (hv : v % 65536 ≠ 0x6A3C) :
    Completes (.chipUnlockWrite w a v) s fun t => t.isOpen w = false ∧ t.rbit 0x14 16 = true ∧ OnlyRegs s t [0x14] ∧
      t.fw.reports = s.fw.reports ++ [{ code := 0x0480, kind := 0, unit := 0, job := 255, task := 0, count := 1 }] := by
  refine ⟨_, h.named (by rw [hid]; decide), ?_⟩
  rw [State.applyWrite_chipUnlock hid, State.writeKey_eq, if_neg hv]
  have hfw : ((s.keyUsed w r.desc).setLock w false).fw = s.fw := (State.setLock_fw _ _ _).trans (State.keyUsed_fw _ _ _)
  refine ⟨?_, State.setBit_rbit _ _ _ (by decide), ?_, ?_⟩
  · cases w <;> rfl
  · exact (onlyRegs_keyUsed s w r.desc _).trans ((onlyRegs_setLock _ _ _ _).trans ((onlyRegs_setReg _ _ (List.mem_singleton_self _)).trans
      (onlyRegs_raiseFw _ _ _ _ _)))
  · rw [← hfw]; rfl

/-- A write of CL_MPARRIVE that is accepted is accepted with fewer lines. -/
theorem Accepted.fewer_lines (h : Accepted s w a v r) (hid : r.desc.id = .clMparrive) {v' : Nat}
    (hv : ∀ i, v'.testBit i = true → v.testBit i = true) : Accepted s w a v' r := by
  refine { h with key := h.key.imp_right (Or.imp_right fun hk => ?_), enc := by rw [hid]; rfl, rule := by rw [State.ruleRefuses, hid] }
  simp only [State.changesRwk, hid, writtenValue, if_true, Bool.or_eq_false_iff, bne_eq_false_iff_eq] at hk ⊢
  refine ⟨BitVec.eq_of_getLsbD_eq fun i hi => ?_, by simp⟩
  have h0 := congrArg (fun x : Word => x.getLsbD i) hk.1
  have hsub := hv i
  simp only [BitVec.getLsbD_and, BitVec.getLsbD_xor, BitVec.getLsbD_or, BitVec.getLsbD_ofNat, hi, decide_true, Bool.true_and] at h0 ⊢
  revert h0 hsub
  cases (s.reg a.off).getLsbD i <;> cases v.testBit i <;> cases v'.testBit i <;> simp

/-- The lines on which a write of CL_MPARRIVE arrives (R334, R338). -/
def State.linesOf (s : State) (w : Writer) (v : Nat) : Nat := match w with | .host => v | .mp => s.mpLines v

theorem State.linesOf_le (s : State) (w : Writer) (v i : Nat) (h : (s.linesOf w v).testBit i = true) : v.testBit i = true := by
  cases w
  · exact h
  · exact s.mpLines_le v i h

/-- Arrivals only set bits; firmware's name no step line whose marker is not written (R334, R338). -/
theorem Accepted.arrives (h : Accepted s w a v r) (hid : r.desc.id = .clMparrive) :
    Completes (.clMparriveWrite w a v) s fun t =>
      t.reg a.off = s.reg a.off ||| BitVec.ofNat 32 (s.linesOf w v) ∧ OnlyRegs s t [a.off] := by
  refine ⟨_, (h.fewer_lines hid (s.linesOf_le w v)).named (by rw [hid]; decide), ?_⟩
  rw [State.applyWrite_plain (by rw [hid]; decide)]
  refine ⟨?_, (onlyRegs_keyUsed s w r.desc _).trans (onlyRegs_setReg _ _ (List.mem_singleton_self _))⟩
  simp only [State.setReg_get, if_true, State.keyUsed_reg, State.newValue, writtenValue, hid]
end

/-! ### The message areas of mailboxes (R460, R462) -/

/-- Bytes stored one after another: each at its place, every other as before. -/
theorem get_foldl_zipIdx (l : List Byte) (o x : Nat) (m : SMap Byte) :
    SMap.get (fun _ => 0#8) ((l.zipIdx o).foldl (fun m (v, i) => SMap.set (fun _ => 0#8) m i v) m) x =
      if o ≤ x ∧ x < o + l.length then l.getD (x - o) 0 else SMap.get (fun _ => 0#8) m x := by
  induction l generalizing o m with
  | nil => rw [if_neg (by simp only [List.length_nil]; omega)]; rfl
  | cons v l ih =>
    rw [List.zipIdx_cons, List.foldl_cons, ih, SMap.get_set]
    rcases Nat.lt_trichotomy x o with hx | rfl | hx
    · rw [if_neg (by omega), if_neg (by omega), if_neg (by omega)]
    · rw [if_neg (by omega), if_pos rfl, if_pos (by simp), Nat.sub_self, List.getD_cons_zero]
    · have hsub : x - o = (x - (o + 1)) + 1 := by omega
      rw [if_neg (by omega : x ≠ o), hsub, List.getD_cons_succ]
      exact if_congr (by simp only [List.length_cons]; omega) rfl rfl

theorem State.writeArea_area (s : State) (m off x m' : Nat) (l : List Byte) :
    SMap.get (fun _ => 0#8) ((s.writeArea m off l).box m').area x =
      if m' = m ∧ off ≤ x ∧ x < off + l.length then l.getD (x - off) 0 else SMap.get (fun _ => 0#8) (s.box m').area x := by
  rw [State.writeArea, State.setBox_get]
  by_cases hm : m' = m
  · subst hm
    simp only [if_true, true_and]
    exact get_foldl_zipIdx l off x _
  · rw [if_neg hm, if_neg (fun h => hm h.1)]

theorem leBytes_length (n v : Nat) : (leBytes n v).length = n := by
  induction n generalizing v with
  | zero => rfl
  | succ n ih => rw [leBytes, List.length_cons, ih]

theorem leBytes_getD (n v i : Nat) (h : i < n) : (leBytes n v).getD i 0 = BitVec.ofNat 8 (v / 2 ^ (8 * i)) := by
  induction n generalizing v i with
  | zero => cases h
  | succ n ih =>
    cases i with
    | zero => simp [leBytes]
    | succ i =>
      rw [leBytes, List.getD_cons_succ, ih _ _ (by omega), Nat.div_div_eq_div_mul, Nat.mul_succ, Nat.pow_add, Nat.mul_comm]

/-- A message-area write into a mailbox that takes a request stores its 4 bytes (R462). -/
theorem mailboxAreaWrite_stores {s : State} {w : Writer} {a : Access} {v m off : Nat} (hr : s.reaches w = true) (hs : accessOk a = true)
    (hl : locOf a.off = .area m off) (hst : s.stateRefuses w a.off = false) (hw : w = .host → m < 8) (hm : s.mbState m < 2) :
    Completes (.mailboxAreaWrite w a v) s fun t => OnlyRegs s t [] ∧
      ∀ m' x, SMap.get (fun _ => 0#8) (t.box m').area x =
        if m' = m ∧ off ≤ x ∧ x < off + 4 then BitVec.ofNat 8 (v / 2 ^ (8 * (x - off)))
        else SMap.get (fun _ => 0#8) (s.box m').area x := by
  have htaken : s.mbTaken m = false := by rw [State.mbTaken]; exact decide_eq_false (by omega)
  have hhost : ¬ ((w = .host ∧ 8 ≤ m) ∨ s.mbTaken m = true) := by
    rw [htaken]
    rintro (⟨h, h8⟩ | h)
    · exact absurd (hw h) (by omega)
    · cases h
  have hwrite : s.write w a v = s.writeArea m off (leBytes 4 v) := by
    simp only [State.write, hs, hl, State.writeMsg, hst, Bool.not_true, Bool.false_eq_true, if_false, if_neg hhost]
  refine completes_of_whenever rfl (by simp only [hr, hl, Bool.and_self]) ?_
  rw [hwrite]
  refine ⟨.of_store rfl (by constructor <;> rfl), fun m' x => ?_⟩
  rw [State.writeArea_area, leBytes_length]
  refine ite_congr rfl (fun h => ?_) fun _ => rfl
  exact leBytes_getD 4 v (x - off) (by omega)

section
variable {s : State} {w : Writer} {a : Access} {v : Nat} {r : RegRef} {c : Instr}

/-- A command that writes registers `ids` stores in those of them, `plain`, that have no effect of their own. -/
theorem Accepted.stores (h : Accepted s w a v r) {ids plain : List RegId} (hid : plain.contains r.desc.id = true)
    (hall : plain.all (fun i => ids.contains i && !effectIds.contains i && i != .clMparrive) = true)
    (hc : exec c s = s.namedWrite ids w a v) : Stores c s r a.off v := by
  have hi := List.all_eq_true.mp hall _ (List.contains_iff_mem.mp hid)
  simp only [Bool.and_eq_true, Bool.not_eq_true', bne_iff_ne] at hi
  obtain ⟨⟨hin, hplain⟩, hne⟩ := hi
  refine stores_setReg (w := w) ((hc.trans (h.named hin)).trans ?_) hne
  rw [State.applyWrite_plain hplain, State.keyUsed_newValue]

/-- REGISTER_WRITE, of a register that no other command writes. -/
theorem Accepted.registerWrite_stores (h : Accepted s w a v r) (h1 : ownWrites.contains r.desc.id = false)
    (h2 : [RegId.calCfg, .fabId, .msixCtl, .bcastSel, .ptCfg].contains r.desc.id = false) :
    Stores (.registerWrite w a v) s r a.off v := by
  have hne : r.desc.id ≠ .clMparrive := fun e => by rw [e] at h1; exact absurd h1 (by decide)
  refine stores_setReg (w := w) ?_ hne
  have hx : exec (.registerWrite w a v) s = .next (s.write w a v) := by
    simp only [exec, execRegisterWrite, h.here, h.names, h1, Bool.not_false, Bool.and_self, whenever_true]
  rw [hx, h.write_eq, State.applyWrite_plain (effectIds_of_other h1 h2), State.keyUsed_newValue]

theorem Accepted.vePstore_halves (h : Accepted s w a v r) (hid : r.desc.id = .vePstore) :
    if r.idx % 2 = 0 then HoldsLow (.vePstoreWrite w a v) s r a.off v else StoresBoth (.vePstoreWrite w a v) s r a.off v := by
  have hx : exec (.vePstoreWrite w a v) s = _ := h.named (by rw [hid]; decide)
  rw [State.applyWrite_vePstore hid, State.keyUsed_newValue] at hx
  by_cases hi : r.idx % 2 = 0
  · rw [if_pos hi] at hx ⊢
    exact holdsLow_of_holdLow hx (by rw [hid]; decide)
  · rw [if_neg hi] at hx ⊢
    exact storesBoth_of_bothHalves hx (by rw [hid]; decide) (h.off_ne_zero (by rw [hid]; decide))

theorem Accepted.hwinBaseLo_held (h : Accepted s w a v r) (hid : r.desc.id = .hwinBaseLo) :
    HoldsLow (.hwinRegisterWrite w a v) s r a.off v := by
  have hx : exec (.hwinRegisterWrite w a v) s = _ := h.named (by rw [hid]; decide)
  rw [State.applyWrite_hwinBaseLo hid, State.keyUsed_newValue] at hx
  exact holdsLow_of_holdLow hx (by rw [hid]; decide)

theorem Accepted.hwinBaseHi_both (h : Accepted s w a v r) (hid : r.desc.id = .hwinBaseHi) :
    StoresBoth (.hwinRegisterWrite w a v) s r a.off v := by
  have hx : exec (.hwinRegisterWrite w a v) s = _ := h.named (by rw [hid]; decide)
  rw [State.applyWrite_hwinBaseHi hid] at hx
  exact storesBoth_of_bothHalves hx (by rw [hid]; decide) (h.off_ne_zero (by rw [hid]; decide))

/-- A doorbell of an ACTIVE slot takes the value (R450). -/
theorem Accepted.xfDbell_stores (h : Accepted s w a v r) (hid : r.desc.id = .xfDbell) (hs : s.rbit (numReg r.idx 4) 16 = true) :
    Stores (.xfDbellWrite w a v) s r a.off v := by
  have hx : exec (.xfDbellWrite w a v) s = _ := h.named (by rw [hid]; decide)
  have hk : (s.keyUsed w r.desc).rbit (numReg r.idx 4) 16 = true := by rw [State.rbit_eq, State.keyUsed_reg, ← State.rbit_eq, hs]
  rw [State.applyWrite_xfDbell hid, hk, if_pos rfl, State.keyUsed_newValue] at hx
  exact stores_setReg hx (by rw [hid]; decide)
end

/-- Settles O27. A write stores its value (`State.applyWrite_plain`) unless its register has an effect of its own. -/
theorem registerWrites : Obligations.RegisterWrites := by
  intro s w a v rest
  refine ⟨fun r h => ?_, fun m off hr hs hl hst hw hm => mailboxAreaWrite_stores hr hs hl hst hw hm⟩
  have only {i : RegId} (hid : r.desc.id = i) : [i].contains r.desc.id = true := by simp [hid]
  intro plain both held
  refine ⟨fun hid => h.stores hid (by decide) rfl, fun hid => h.stores hid (by decide) rfl,
    fun hid => h.stores (only hid) (by decide) rfl, fun hid => h.stores (only hid) (by decide) rfl,
    fun hid => h.stores (only hid) (by decide) rfl, h.arrives, h.registerWrite_stores, h.vePstore_halves, h.hwinBaseLo_held,
    h.hwinBaseHi_both, fun hid => h.stores (only hid) (by decide) rfl, h.hwinCtl_stores, h.hwinCtl_drains, h.xfDbell_stores,
    h.xfDbell_stray, h.unlock_good, h.unlock_bad⟩
end Sys2Proof.Machine
end

section
namespace Sys2Proof.Machine

/-! ### Accesses that end with Completer Abort (R494, R495) -/

section
variable (s : State) (w : Writer) (off : Nat) (wr : Bool) (kind : Nat)

theorem onlyRegs_latchRefusal : OnlyRegs s (s.latchRefusal w off wr kind) [0x80, 0x84, 0x88] := by
  unfold State.latchRefusal
  split
  · exact onlyRegs_setReg _ _ (by simp)
  · exact (onlyRegs_setReg _ _ (by simp)).trans ((onlyRegs_setReg _ _ (by simp)).trans (onlyRegs_setReg _ _ (by simp)))

theorem State.latchRefusal_fab : (s.latchRefusal w off wr kind).fab = s.fab := by unfold State.latchRefusal; split <;> rfl
theorem State.latchRefusal_fw : (s.latchRefusal w off wr kind).fw = s.fw := by unfold State.latchRefusal; split <;> rfl
theorem State.latchRefusal_lowHalf : (s.latchRefusal w off wr kind).lowHalf = s.lowHalf := by unfold State.latchRefusal; split <;> rfl

/-- A refusal is recorded, reported and answered, and changes nothing else. -/
theorem aborted_refuseAccess : Aborted s (s.refuseAccess w off wr kind) (if wr then .regWrite true else .regRead 0 true)
    (if kind = rkCrossing then 0x0481 else 0x0480) := by
  have hrest : OnlyRegs s (s.refuseAccess w off wr kind) [0x80, 0x84, 0x88] :=
    (onlyRegs_latchRefusal s w off wr kind).trans ((onlyRegs_raiseFw _ _ _ _ _).trans (onlyRegs_emit _ _ _))
  obtain ⟨hregs, hmem, hunits⟩ := hrest
  have hfw := s.latchRefusal_fw w off wr kind
  refine ⟨?_, ?_, hregs, hmem, hunits, ?_, s.latchRefusal_lowHalf w off wr kind⟩
  · show (s.latchRefusal w off wr kind).fab.out ++ _ = _
    rw [State.latchRefusal_fab]
  · show (s.latchRefusal w off wr kind).fw.reports ++ _ = _
    rw [hfw]
  · show (s.latchRefusal w off wr kind).fw.boxes = _
    rw [hfw]
end

/-- An abort after the lock has closed is an abort. -/
theorem Aborted.of_closeLock {s t : State} {w : Writer} {m : OutMsg} {ev : Nat} (h : Aborted (s.closeLock w) t m ev) : Aborted s t m ev := by
  obtain ⟨hregs, hmem, hunits⟩ := onlyRegs_closeLock s w [0x80, 0x84, 0x88]
  have hfab : (s.closeLock w).fab = s.fab ∧ (s.closeLock w).fw = s.fw ∧ (s.closeLock w).lowHalf = s.lowHalf := by
    cases w <;> exact ⟨rfl, rfl, rfl⟩
  obtain ⟨h1, h2, h3⟩ := hfab
  exact ⟨h1 ▸ h.out, h2 ▸ h.told, fun x hx => (h.regs x hx).trans (hregs x hx), hmem.trans h.mem, hunits.trans h.units,
    h2 ▸ h.boxes, h3 ▸ h.halves⟩

/-! ### Reads (R493, R497) -/

section
variable {s : State} {w : Writer} {a : Access} {r : RegRef}

theorem State.read_refused {k : Nat} (hr : s.reaches w = true) (hk : readRefusal w a = some k) :
    s.read w a = s.refuseAccess w a.off false k := by
  simp only [State.read, hr, hk, Bool.not_true, Bool.false_eq_true, if_false]

/-- The checks before the crossing give other kinds. -/
theorem readRefusal_ne_crossing {k : Nat} (hk : readRefusal w a = some k) : k ≠ rkCrossing := by
  unfold readRefusal at hk
  split at hk
  · cases hk; decide
  · split at hk
    · cases hk; decide
    · cases hk; decide
    · cases hk; decide
    · split at hk <;> cases hk; decide
    · cases hk

/-- A readable register lies where the access points, and no check refuses its read. -/
theorem State.readable_reg (h : s.readable w a = some r) :
    locOf a.off = .reg r ∧ s.reaches w = true ∧ readRefusal w a = none := by
  unfold State.readable at h
  split at h
  · next r' hl =>
    split at h
    · next hc =>
      cases h
      simp only [Bool.and_eq_true, Option.isNone_iff_eq_none] at hc
      exact ⟨hl, hc.1.1, hc.1.2⟩
    · cases h
  · cases h

theorem State.read_readable (h : s.readable w a = some r) : s.read w a = s.readReg r a.off := by
  obtain ⟨_, hr, hn⟩ := State.readable_reg h
  simp only [State.read, hr, hn, h, Bool.not_true, Bool.false_eq_true, if_false]

theorem State.read_dead (hr : s.reaches w = true) (hs : accessOk a = true) (hl : locOf a.off = .reg r)
    (hd : s.dead r.desc.dom a.off = true) : s.read w a = s.refuseAccess w a.off false rkCrossing := by
  have hn : readRefusal w a = none := by simp only [readRefusal, hs, hl, Bool.not_true, Bool.false_eq_true, if_false]
  have hnr : s.readable w a = none := by simp only [State.readable, hl, hd, Bool.not_true, Bool.and_false, Bool.false_eq_true, if_false]
  simp only [State.read, hr, hn, hnr, hl, Bool.not_true, Bool.false_eq_true, if_false]

theorem Aborted.read_refused {k : Nat} (hr : s.reaches w = true) (hk : readRefusal w a = some k) :
    Aborted s (s.read w a) (.regRead 0 true) 0x0480 := by
  have h := aborted_refuseAccess s w a.off false k
  rw [if_neg (readRefusal_ne_crossing hk)] at h
  rw [State.read_refused hr hk]
  exact h

theorem Aborted.read_dead (hr : s.reaches w = true) (hs : accessOk a = true) (hl : locOf a.off = .reg r)
    (hd : s.dead r.desc.dom a.off = true) : Aborted s (s.read w a) (.regRead 0 true) 0x0481 := by
  rw [State.read_dead hr hs hl hd]
  exact aborted_refuseAccess s w a.off false rkCrossing

/-- A read of a counter that reads clear (R10, R502). -/
theorem State.read_clears (h : s.readable w a = some r) (hrc : r.desc.rc ≠ 0) :
    let t := s.read w a
    t.fab.out = s.fab.out ++ [.regRead (s.liveReg r a.off) false] ∧ SameRegs s t [a.off] ∧ SameMem s t ∧ SameUnits s t ∧
      ∀ i < 32, (t.reg a.off).getLsbD i = ((s.reg a.off).getLsbD i && !r.desc.rc.testBit i) := by
  have key (t : State) (ht : t.store = (s.setReg a.off (s.reg a.off &&& ~~~(BitVec.ofNat 32 r.desc.rc))).store) (hu : SameUnits s t) :
      SameRegs s t [a.off] ∧ SameMem s t ∧ SameUnits s t ∧
        ∀ i < 32, (t.reg a.off).getLsbD i = ((s.reg a.off).getLsbD i && !r.desc.rc.testBit i) := by
    obtain ⟨hregs, hmem, -⟩ := onlyRegs_setReg s (s.reg a.off &&& ~~~(BitVec.ofNat 32 r.desc.rc)) (List.mem_singleton_self a.off)
    refine ⟨fun b hb => (State.reg_of_store ht b).trans (hregs b hb), hmem.trans (.of_store ht), hu, fun i hi => ?_⟩
    rw [State.reg_of_store ht, State.setReg_get, if_pos rfl, BitVec.getLsbD_and, BitVec.getLsbD_not, BitVec.getLsbD_ofNat]
    simp only [hi, decide_true, Bool.true_and]
  simp only [State.read_readable h, State.readReg, hrc, ne_eq, not_false_eq_true, if_true, true_and]
  split <;> split <;> exact ⟨rfl, key _ rfl (by constructor <;> rfl)⟩

/-- A read of a low word holds its high word for the next read (R493). -/
theorem State.read_captures {h' : RegRef} (h : s.readable w a = some r) (hc : captures.contains r.desc.id = true)
    (hhi : regAt (a.off + 4) = some h') :
    let t := s.read w a
    t.fab.out = s.fab.out ++ [.regRead (s.liveReg r a.off) false] ∧
      SMap.get (fun _ => 0#32) t.capHi (a.off + 4) = BitVec.ofNat 32 (s.liveReg h' (a.off + 4)) ∧ t.store = s.store ∧ SameUnits s t := by
  have hrc := captures_rc _ (regAt_mem (regAt_of_locOf (State.readable_reg h).1)) hc
  simp only [State.read_readable h, State.readReg, hhi, hc, hrc, ne_eq, not_true_eq_false, false_and, if_true, if_false]
  refine ⟨rfl, ?_, rfl, by constructor <;> rfl⟩
  exact (SMap.get_set _ _ _ _ _).trans (if_pos rfl)

/-! ### Crossings (R499) -/

/-- The checks of a write change nothing but the requester's lock (R503). -/
theorem State.checkWrite_state (s : State) (w : Writer) (d : RegDesc) (off v : Nat) (l : List Nat) :
    (s.checkWrite w d off v l).2 = s ∨ (s.checkWrite w d off v l).2 = s.closeLock w := by
  unfold State.checkWrite
  split
  · exact .inl rfl
  · split
    · exact .inl rfl
    · by_cases hd : d.rwk = 0
      · simp only [if_pos hd]; split <;> exact .inl rfl
      · simp only [if_neg hd]; split <;> exact .inr rfl

theorem State.closeLock_dead (s : State) (w : Writer) (d : Domain) (a : Nat) : (s.closeLock w).dead d a = s.dead d a := by
  cases w <;> rfl

/-- A write to a register without a clock ends with Completer Abort; it is the crossing's where no check before it fails. -/
theorem Aborted.write_dead (hs : accessOk a = true) (hl : locOf a.off = .reg r) (hd : s.dead r.desc.dom a.off = true) (v : Nat) :
    (∃ ev, Aborted s (s.write w a v) (.regWrite true) ev) ∧
      ((s.checkWrite w r.desc a.off v [a.off]).1 = none → Aborted s (s.write w a v) (.regWrite true) 0x0481) := by
  have hw : s.write w a v = s.writeReg w r a.off v := by simp only [State.write, hs, hl, Bool.not_true, Bool.false_eq_true, if_false]
  have hlock := s.checkWrite_state w r.desc a.off v [a.off]
  rw [hw, State.writeReg]
  generalize s.checkWrite w r.desc a.off v [a.off] = x at hlock
  obtain ⟨o, t⟩ := x
  have hback {u : State} {m : OutMsg} {ev : Nat} (h : Aborted t u m ev) : Aborted s u m ev := by
    rcases hlock with rfl | rfl
    · exact h
    · exact h.of_closeLock
  cases o with
  | some k => exact ⟨⟨_, hback (aborted_refuseAccess t w a.off true k)⟩, fun h => nomatch h⟩
  | none =>
    have hdt : t.dead r.desc.dom a.off = true := by
      rcases hlock with rfl | rfl
      · exact hd
      · rw [State.closeLock_dead, hd]
    simp only [State.targetWrite, hdt, if_true]
    have h := hback (aborted_refuseAccess t w a.off true rkCrossing)
    exact ⟨⟨_, h⟩, fun _ => h⟩
end

/-- Settles O28. -/
theorem registerReads : Obligations.RegisterReads := by
  intro s w a
  refine ⟨fun k hk hr => ⟨_, rfl, .read_refused hr hk⟩, fun r h hrc => ⟨_, rfl, State.read_clears h hrc⟩,
    fun r h' h hc hhi => ⟨_, rfl, State.read_captures h hc hhi⟩, fun r hr hs hl hd => ⟨⟨_, rfl, .read_dead hr hs hl hd⟩, fun v => ?_⟩,
    fun ho => completes_of_whenever rfl ho ?_⟩
  · exact ⟨_, by simp only [exec, execCrossingTimeout, hr, whenever_true], Aborted.write_dead hs hl hd v⟩
  · cases w <;> exact ⟨rfl, rfl⟩
end Sys2Proof.Machine
end

section
namespace Sys2Proof.Machine

/-! ### Changes of the device state (R5, R346, R595) -/

/-- A change of the fields that hellos carry touches ports only. -/
theorem State.helloChanged_eq (s : State) : ∃ f, s.helloChanged = { s with fab := f } := by
  refine State.each_pred (fun t => ∃ f, t = { s with fab := f }) _ (fun t p ht => ?_) _ s ⟨s.fab, rfl⟩
  obtain ⟨f, rfl⟩ := ht
  split
  · exact ⟨_, rfl⟩
  · exact ⟨f, rfl⟩

theorem State.pins_eq (s : State) (old new : DevState) : ∃ f, s.pins old new = { s with fab := f } := by
  unfold State.pins
  split <;> split <;> exact ⟨_, rfl⟩

/-- A change of the device state drives the sideband pins and has hellos sent. -/
theorem State.setDev_eq (s : State) (d : DevState) : ∃ f, s.setDev d = { s with dev := d, fab := f } := by
  obtain ⟨f, hf⟩ := s.pins_eq s.dev d
  obtain ⟨g, hg⟩ := ({ s.pins s.dev d with dev := d } : State).helloChanged_eq
  exact ⟨g, by rw [State.setDev, hg, hf]⟩

section
variable (s : State) (d : DevState)
@[simp] theorem State.setDev_dev : (s.setDev d).dev = d := by obtain ⟨f, h⟩ := s.setDev_eq d; rw [h]
@[simp] theorem State.setDev_store : (s.setDev d).store = s.store := by obtain ⟨f, h⟩ := s.setDev_eq d; rw [h]
@[simp] theorem State.setDev_hbmPoison : (s.setDev d).hbmPoison = s.hbmPoison := by obtain ⟨f, h⟩ := s.setDev_eq d; rw [h]
@[simp] theorem State.setDev_bsPoison : (s.setDev d).bsPoison = s.bsPoison := by obtain ⟨f, h⟩ := s.setDev_eq d; rw [h]
@[simp] theorem State.setDev_fw : (s.setDev d).fw = s.fw := by obtain ⟨f, h⟩ := s.setDev_eq d; rw [h]
@[simp] theorem State.setDev_sec : (s.setDev d).sec = s.sec := by obtain ⟨f, h⟩ := s.setDev_eq d; rw [h]
@[simp] theorem State.setDev_jrn : (s.setDev d).jrn = s.jrn := by obtain ⟨f, h⟩ := s.setDev_eq d; rw [h]
@[simp] theorem State.setDev_slots : (s.setDev d).slots = s.slots := by obtain ⟨f, h⟩ := s.setDev_eq d; rw [h]
@[simp] theorem State.setDev_part : (s.setDev d).part = s.part := by obtain ⟨f, h⟩ := s.setDev_eq d; rw [h]
theorem sameMem_setDev : SameMem s (s.setDev d) := .of_store (s.setDev_store d)
end

/-- What each change brings about for its own element and takes from none holds of every element afterwards. -/
theorem State.each_mem {α : Type} {P : α → State → Prop} {f : State → α → State} (hself : ∀ s x, P x (f s x))
    (hkeep : ∀ s x y, P y s → P y (f s x)) {l : List α} {x : α} (hx : x ∈ l) (s : State) : P x (s.each f l) := by
  induction l generalizing s with
  | nil => cases hx
  | cons y l ih =>
    rw [State.each_cons]
    cases hx with
    | head => exact State.each_pred (P x) f (fun t z ht => hkeep t z x ht) l _ (hself s x)
    | tail _ h => exact ih h _

/-! ### Memories that journal, events and registers leave alone -/

theorem SameMem.each {α : Type} {f : State → α → State} (h : ∀ s x, SameMem s (f s x)) (l : List α) (s : State) :
    SameMem s (s.each f l) :=
  State.each_pred (fun t => SameMem s t) f (fun t x ht => ht.trans (h t x)) l s (.refl s)

section
variable (s : State)
theorem sameMem_jWrite (r : JRec) : SameMem s (s.jWrite r) := ⟨fun _ => by simp, fun _ _ => by simp, fun _ => by simp⟩
theorem sameMem_raise (c k u : Nat) : SameMem s (s.raise c k u) := ⟨fun _ => by simp, fun _ _ => by simp, fun _ => by simp⟩
theorem sameMem_raiseFw (c k u : Nat) : SameMem s (s.raiseFw c k u) := .of_store rfl
theorem sameMem_setRn (a n : Nat) : SameMem s (s.setRn a n) := ⟨fun _ => by simp, fun _ _ => by simp, fun _ => by simp⟩
theorem sameMem_setRf (a hi lo v : Nat) : SameMem s (s.setRf a hi lo v) := sameMem_setRn s a _
end

/-! ### Tests that fail once, or twice (R581 to R584) -/

theorem sameMem_testRecord (s : State) (e t k u : Nat) : SameMem s (s.testRecord e t k u) := sameMem_jWrite s _

theorem sameMem_testPassedAgain (s : State) (o : TestOutcome) : SameMem s (s.testPassedAgain o) := by
  unfold State.testPassedAgain
  by_cases h : (decide (9 ≤ o.test) && decide (o.test ≤ 13)) = true
  · simp only [h, if_true]
    exact (sameMem_testRecord s _ _ _ _).trans (sameMem_raise _ _ _ _)
  · simp only [h]
    exact sameMem_testRecord s _ _ _ _

theorem sameMem_setPost (s : State) (t k u : Nat) : SameMem s (s.setPost t k u) := .of_store rfl

theorem sameMem_bootFail (s : State) (t k u : Nat) : SameMem s (s.bootFail t k u) := by
  have h := (sameMem_testRecord s 0x0420 t k u).trans (sameMem_raiseFw _ 0x0420 k u)
  simp only [State.bootFail]
  split
  · exact h.trans (sameMem_setPost _ t k u)
  · exact h

/-- A region's rail, HBM, calibration and clock go off. -/
def State.regionOff (s : State) (g : Nat) : State :=
  let s := ((s.setRf (railReg g 0) 4 0 0).setRf (regionReg g 0x3000) 17 16 0).setRn (calReg g 0) 0
  ((s.setRf (regionReg g 0) 31 16 0).setRn (regionReg g 4) 0).setSupply g Supply.init

/-- A block's clock target and switch go off. -/
def State.blockOff (s : State) (b : Nat) : State := (s.setRf (clkReg b 0) 8 8 0).setRf (clkReg b 4) 10 0 0

theorem State.railsOff_eq (s : State) :
    s.railsOff = (s.each State.regionOff (List.range 16)).each State.blockOff (List.range 256) := rfl

/-- Switching off keeps what neither a region's nor a block's part changes. -/
theorem State.railsOff_keeps {β : Type} (g : State → β) (h : ∀ s x, g (State.regionOff s x) = g s) (h' : ∀ s x, g (State.blockOff s x) = g s)
    (s : State) : g s.railsOff = g s := by
  rw [State.railsOff_eq, State.each_keeps g _ h', State.each_keeps g _ h]

theorem State.railsOff_dev (s : State) : s.railsOff.dev = s.dev := 
  State.railsOff_keeps (·.dev) (fun _ _ => by simp [State.regionOff]) (fun _ _ => by simp [State.blockOff]) s
theorem State.railsOff_fw (s : State) : s.railsOff.fw = s.fw := 
  State.railsOff_keeps (·.fw) (fun _ _ => by simp [State.regionOff]) (fun _ _ => by simp [State.blockOff]) s

theorem sameMem_railsOff (s : State) : SameMem s s.railsOff := by
  rw [State.railsOff_eq]
  refine (SameMem.each (fun s g => ?_) _ s).trans (SameMem.each (fun s b => ?_) _ _)
  · exact ⟨fun _ => by simp [State.regionOff], fun _ _ => by simp [State.regionOff], fun _ => by simp [State.regionOff]⟩
  · exact ⟨fun _ => by simp [State.blockOff], fun _ _ => by simp [State.blockOff], fun _ => by simp [State.blockOff]⟩

theorem sameMem_setJrn (s : State) (j : Journal) : SameMem s (s.setJrn j) :=
  ⟨fun _ => by simp, fun _ _ => by simp, fun _ => by simp⟩

/-- The TEST record of a failed self-test is programmed, 0x0420 is raised and POST_RESULT is set (R582). -/
def State.failNoted (s : State) (test kind unit : Nat) : State :=
  let s := s.testRecord 0x0420 test kind unit
  ((s.setJrn (s.jrn.programAll s.jrn.staged.length)).raiseFw 0x0420 kind unit).setPost test kind unit

theorem State.failSelfTest_eq (s : State) (test kind unit : Nat) :
    s.failSelfTest test kind unit = ((s.failNoted test kind unit).setDev .glade).railsOff := by
  simp only [State.failSelfTest, State.failNoted]

theorem sameMem_failNoted (s : State) (test kind unit : Nat) : SameMem s (s.failNoted test kind unit) :=
  (sameMem_testRecord s _ _ _ _).trans ((sameMem_setJrn _ _).trans ((sameMem_raiseFw _ _ _ _).trans (sameMem_setPost _ _ _ _)))

/-- A device that fails self-test is in GLADE, names the test, and keeps its memories (R582, R584). -/
theorem State.failSelfTest_spec (s : State) (test kind unit : Nat) :
    (s.failSelfTest test kind unit).dev = .glade ∧ (s.failSelfTest test kind unit).fw.postTest = test ∧
      (s.failSelfTest test kind unit).fw.postKind = kind ∧ (s.failSelfTest test kind unit).fw.postUnit = unit ∧
      SameMem s (s.failSelfTest test kind unit) := by
  rw [State.failSelfTest_eq, State.railsOff_dev, State.railsOff_fw, State.setDev_dev, State.setDev_fw]
  exact ⟨rfl, rfl, rfl, rfl, (sameMem_failNoted s _ _ _).trans ((sameMem_setDev _ _).trans (sameMem_railsOff _))⟩

/-! ### BOOT_COMPLETE (R577, R583) -/

theorem State.railRequest_dev (s : State) (g : Nat) : (s.railRequest g).dev = s.dev := by
  simp only [State.railRequest]
  split <;> simp

theorem sameMem_railRequest (s : State) (g : Nat) : SameMem s (s.railRequest g) := by
  simp only [State.railRequest]
  split <;> exact ⟨fun _ => by simp, fun _ _ => by simp, fun _ => by simp⟩

theorem State.bootFlagged_dev (s : State) : s.bootFlagged.dev = .flagged := State.setDev_dev _ _

theorem sameMem_bootFlagged (s : State) : SameMem s s.bootFlagged := (sameMem_jWrite s _).trans (sameMem_setDev _ _)

/-- The state after the BOOT tests that did not pass at first. -/
def State.bootTested (s : State) (outs : List TestOutcome) : State :=
  s.each (fun s (o : TestOutcome) => if o.again then s.bootFail o.test o.kind o.unit else s.testPassedAgain o) outs

theorem sameMem_bootTested (s : State) (outs : List TestOutcome) : SameMem s (s.bootTested outs) := by
  refine SameMem.each (fun s o => ?_) outs s
  split
  · exact sameMem_bootFail s _ _ _
  · exact sameMem_testPassedAgain s o

/-- BOOT ends: FLAGGED, or GLADE, or SELFTEST with every rail requested (R577, R583). -/
def State.leaveBoot (s : State) : State :=
  if s.jrn.flagOpen then s.bootFlagged
  else if s.fw.postTest = 255 then (s.setDev .selftest).each State.railRequest (List.range 16)
  else (s.setDev .selftest).failSelfTest s.fw.postTest s.fw.postKind s.fw.postUnit

theorem execBootComplete_eq (outs : List TestOutcome) (s : State) : execBootComplete outs s =
    whenever (s.dev == .boot && s.mpUp && !s.monitor && outs.all fun o => bootTests.contains o.test) s (s.bootTested outs).leaveBoot := by
  simp only [execBootComplete, State.leaveBoot, State.setDev_fw, ne_eq, ite_not]
  rfl

theorem State.each_railRequest_dev (s : State) (l : List Nat) : (s.each State.railRequest l).dev = s.dev :=
  State.each_keeps (fun s => s.dev) _ State.railRequest_dev l s

theorem State.leaveBoot_dev (s : State) : s.leaveBoot.dev =
    if s.jrn.flagOpen then .flagged else if s.fw.postTest = 255 then .selftest else .glade := by
  unfold State.leaveBoot
  split
  · exact s.bootFlagged_dev
  · split
    · rw [State.each_railRequest_dev, State.setDev_dev]
    · exact (State.failSelfTest_spec _ _ _ _).1

theorem sameMem_leaveBoot (s : State) : SameMem s s.leaveBoot := by
  unfold State.leaveBoot
  split
  · exact sameMem_bootFlagged s
  · refine (sameMem_setDev s .selftest).trans ?_
    split
    · exact SameMem.each sameMem_railRequest _ _
    · exact (State.failSelfTest_spec _ _ _ _).2.2.2.2

/-- Events change no register below the regions' windows. -/
theorem State.report_reg_low (s : State) (r : Report) {a : Nat} (h : a < 0x2000000) : (s.report r).reg a = s.reg a := by
  simp only [State.report]
  split
  · rfl
  · split
    · rfl
    · split
      · rw [State.bump_reg_ne _ _ _ _ _ _ (by unfold regionReg; omega)]; rfl
      · rfl

theorem State.rbit_congr {s t : State} {a : Nat} (h : t.reg a = s.reg a) (i : Nat) : t.rbit a i = s.rbit a i := by
  rw [State.rbit_eq, State.rbit_eq, h]

/-- A region whose rail is requested keeps its request. -/
theorem State.railRequest_req (s : State) (g x : Nat) (hx : x < 16) :
    (s.railRequest g).rbit (railReg x 0) 0 = (decide (x = g) || s.rbit (railReg x 0) 0) := by
  have hset : (s.setRf (railReg g 0) 0 0 1).rbit (railReg x 0) 0 = (decide (x = g) || s.rbit (railReg x 0) 0) := by
    by_cases hg : x = g
    · subst hg
      rw [decide_eq_true rfl, Bool.true_or]
      exact State.setBit_rbit s _ 0 (by decide)
    · rw [decide_eq_false hg, Bool.false_or]
      exact State.rbit_congr (State.setRf_reg_ne _ _ _ _ _ _ (by unfold railReg; omega)) 0
  have hstate (v : Nat) : ((s.setRf (railReg g 0) 0 0 1).setRf (railReg g 0) 3 1 v).rbit (railReg x 0) 0 =
      (s.setRf (railReg g 0) 0 0 1).rbit (railReg x 0) 0 := by
    by_cases hg : x = g
    · subst hg
      unfold State.rbit
      rw [State.setRf_rf_other _ _ _ _ _ _ _ (by decide) (by decide) (by decide) (by decide)]
    · exact State.rbit_congr (State.setRf_reg_ne _ _ _ _ _ _ (by unfold railReg; omega)) 0
  simp only [State.railRequest]
  split
  · rw [← hset, ← hstate 1]
    exact State.rbit_congr (State.setSupply_reg _ _ _ _) 0
  · rw [← hset, ← hstate 5]
    exact State.rbit_congr (State.report_reg_low _ _ (by unfold railReg; omega)) 0
  · exact hset

theorem State.each_railRequest_req {l : List Nat} (s : State) {x : Nat} (hl : x ∈ l) (hx : x < 16) :
    (s.each State.railRequest l).rbit (railReg x 0) 0 = true := by
  refine State.each_mem (P := fun x s => x < 16 → s.rbit (railReg x 0) 0 = true) (fun s x hx => ?_) (fun s g x h hx => ?_) hl s hx
  · rw [s.railRequest_req x x hx, decide_eq_true rfl, Bool.true_or]
  · rw [s.railRequest_req g x hx, h hx, Bool.or_true]

/-! ### The array sample reads (R580) -/

section
variable {s t : State} (hc : t.store.cells = s.store.cells) (ht : t.tiers = s.tiers)
include hc

theorem State.sampleRow_congr (u row d : Nat) : t.sampleRow u row d = s.sampleRow u row d := by
  simp only [State.sampleRow, State.verifyPair, State.cell, hc]

include ht

theorem State.sampleTier_congr (u d : Nat) : t.sampleTier u d = s.sampleTier u d := by
  have hl (row : Nat) (l : List (Int × Nat)) : t.sampleLevels u row l = s.sampleLevels u row l := by
    have hcell : t.cell = s.cell := funext fun k => by rw [State.cell, hc]; rfl
    have htier : t.tier = s.tier := funext fun u => by rw [State.tier, ht]; rfl
    rw [State.sampleLevels, hcell, htier]
    rfl
  simp only [State.sampleTier, State.sampleRow_congr hc, hl]

/-- The array sample reads depend on cells and erase history alone. -/
theorem State.arrayFails_congr (d : Nat) : t.arrayFails d = s.arrayFails d := by
  simp only [State.arrayFails, State.sampleTier_congr hc ht]
end

/-- The draws of one run over the tiers are made. -/
def State.sampled (s : State) : State := { s with draws := s.draws + sampleDraws }

theorem State.arrayTest_pass {s : State} (h : s.arrayFails s.draws = []) : s.arrayTest = (none, s.sampled) := by
  delta State.arrayTest
  rw [h]
  rfl

/-- The sample reads fail in some tier and pass when they are run once more (R581). -/
theorem State.arrayTest_again {s : State} {u : Nat} {l : List Nat} (h : s.arrayFails s.draws = u :: l)
    (h' : s.sampled.arrayFails s.sampled.draws = []) :
    s.arrayTest = (none, s.sampled.sampled.testPassedAgain { test := 14, kind := 1, unit := u, again := false }) := by
  delta State.sampled at h' ⊢
  delta State.arrayTest
  generalize sampleDraws = n at *
  rw [h]
  dsimp only at h' ⊢
  rw [h']

/-- The sample reads fail twice (R581, R582). -/
theorem State.arrayTest_fail {s : State} {u v : Nat} {l l' : List Nat} (h : s.arrayFails s.draws = u :: l)
    (h' : s.sampled.arrayFails s.sampled.draws = v :: l') : s.arrayTest = (some v, s.sampled.sampled) := by
  delta State.sampled at h' ⊢
  delta State.arrayTest
  generalize sampleDraws = n at *
  rw [h]
  dsimp only at h' ⊢
  rw [h']

/-- The verdict of the array sample reads depends on cells, erase history and the draws' index alone. -/
theorem State.arrayTest_congr {s t : State} (hc : t.store.cells = s.store.cells) (ht : t.tiers = s.tiers) (hd : t.draws = s.draws) :
    t.arrayTest.1 = s.arrayTest.1 := by
  have h0 : t.arrayFails t.draws = s.arrayFails s.draws := by rw [hd, State.arrayFails_congr hc ht]
  have hd1 : t.sampled.draws = s.sampled.draws := by rw [State.sampled, State.sampled, hd]
  have h1 : t.sampled.arrayFails t.sampled.draws = s.sampled.arrayFails s.sampled.draws := by
    rw [hd1, State.arrayFails_congr (s := s.sampled) (t := t.sampled) hc ht]
  cases h : s.arrayFails s.draws with
  | nil => rw [State.arrayTest_pass h, State.arrayTest_pass (h0.trans h)]
  | cons u l =>
    cases h' : s.sampled.arrayFails s.sampled.draws with
    | nil => rw [State.arrayTest_again h h', State.arrayTest_again (h0.trans h) (h1.trans h')]
    | cons v l' => rw [State.arrayTest_fail h h', State.arrayTest_fail (h0.trans h) (h1.trans h')]

/-- What a journal record, an event, a report to firmware and a draw leave alone of the state that SELFTEST judges. -/
structure SameTested (s t : State) : Prop where
  mem   : SameMem s t
  cells : t.store.cells = s.store.cells
  tiers : t.tiers = s.tiers
  sec   : t.sec = s.sec

theorem SameTested.refl (s : State) : SameTested s s := ⟨.refl s, rfl, rfl, rfl⟩
theorem SameTested.trans {s t u : State} (h : SameTested s t) (h' : SameTested t u) : SameTested s u :=
  ⟨h.mem.trans h'.mem, h'.cells.trans h.cells, h'.tiers.trans h.tiers, h'.sec.trans h.sec⟩

theorem sameTested_sampled (s : State) : SameTested s s.sampled := ⟨.of_store rfl, rfl, rfl, rfl⟩

theorem sameTested_testPassedAgain (s : State) (o : TestOutcome) : SameTested s (s.testPassedAgain o) := by
  refine ⟨sameMem_testPassedAgain s o, ?_, ?_, ?_⟩ <;> simp only [State.testPassedAgain, State.testRecord] <;> split <;> simp

theorem State.testPassedAgain_draws (s : State) (o : TestOutcome) : (s.testPassedAgain o).draws = s.draws := by
  simp only [State.testPassedAgain, State.testRecord]
  split <;> simp

theorem sameTested_arrayTest (s : State) : SameTested s s.arrayTest.2 := by
  cases h : s.arrayFails s.draws with
  | nil => rw [State.arrayTest_pass h]; exact sameTested_sampled s
  | cons u l =>
    have h2 := (sameTested_sampled s).trans (sameTested_sampled _)
    cases h' : s.sampled.arrayFails s.sampled.draws with
    | nil =>
      rw [State.arrayTest_again h h']
      exact h2.trans (sameTested_testPassedAgain s.sampled.sampled { test := 14, kind := 1, unit := u, again := false })
    | cons v l' => rw [State.arrayTest_fail h h']; exact h2

/-! ### READY (R308, R520, R576) -/

/-- The memories after self-test: block stores and HBM at 0, no poison marks (R308). -/
def State.zeroed (s : State) : State :=
  { s with store := { s.store with bstore := [], hbm := [] }, hbmPoison := [], bsPoison := [] }

/-- The fused minimum SVN of an image type follows the image that runs (R520). -/
def Enclave.fusedSvn (e : Enclave) (typ : Nat) : Nat :=
  let x := e.slot typ (e.active.getD typ 0)
  if x.commit = true ∧ e.minSvn.getD typ 0 < x.svn then x.svn else e.minSvn.getD typ 0

/-- The fuses of one image type are blown (R520, R521). -/
def State.blowType (s : State) (typ : Nat) : State :=
  let e := s.sec
  let x := e.slot typ (e.active.getD typ 0)
  let s := if x.commit && decide (e.minSvn.getD typ 0 < x.svn) then
      (s.setSec { e with minSvn := setAt e.minSvn typ x.svn }).raiseFw 0x0805 0 0
    else s
  if x.commit then
    let mask := ((List.range x.keyIdx).filter fun i => bit x.revokes i && !bit s.sec.revoked i).foldl (fun n i => n + 2 ^ i) 0
    s.setSec { s.sec with revoked := s.sec.revoked + mask }
  else s

theorem State.blowFuses_eq (s : State) : s.blowFuses = s.each State.blowType [0, 1, 2] := rfl

theorem setAt_length {α : Type} (l : List α) (i : Nat) (v : α) : (setAt l i v).length = l.length := by
  induction l generalizing i with
  | nil => rfl
  | cons x l ih => cases i <;> simp [setAt, ih]

theorem setAt_getD {α : Type} (l : List α) (i j : Nat) (v d : α) :
    (setAt l i v).getD j d = if j = i ∧ i < l.length then v else l.getD j d := by
  induction l generalizing i j with
  | nil => simp [setAt]
  | cons x l ih =>
    cases i with
    | zero => cases j <;> simp [setAt]
    | succ i =>
      cases j with
      | zero => simp [setAt]
      | succ j => rw [setAt, List.getD_cons_succ, List.getD_cons_succ, ih]; simp

/-- What the fuses of one type leave alone. -/
theorem State.blowType_keeps (s : State) (typ : Nat) :
    (s.blowType typ).store = s.store ∧ (s.blowType typ).hbmPoison = s.hbmPoison ∧ (s.blowType typ).bsPoison = s.bsPoison ∧
      (s.blowType typ).dev = s.dev ∧ (s.blowType typ).sec.slots = s.sec.slots ∧ (s.blowType typ).sec.active = s.sec.active := by
  simp only [State.blowType]
  split <;> split <;> exact ⟨rfl, rfl, rfl, rfl, rfl, rfl⟩

theorem State.blowType_minSvn (s : State) (typ : Nat) : (s.blowType typ).sec.minSvn =
    if (s.sec.slot typ (s.sec.active.getD typ 0)).commit = true ∧ s.sec.minSvn.getD typ 0 < (s.sec.slot typ (s.sec.active.getD typ 0)).svn then
      setAt s.sec.minSvn typ (s.sec.slot typ (s.sec.active.getD typ 0)).svn
    else s.sec.minSvn := by
  simp only [State.blowType, Bool.and_eq_true, decide_eq_true_eq]
  split <;> split <;> rfl

/-- The minimum SVN of type j after the fuses of type `typ`. -/
theorem State.blowType_getD (s : State) {typ : Nat} (h : typ < s.sec.minSvn.length) (j : Nat) :
    (s.blowType typ).sec.minSvn.getD j 0 = if j = typ then s.sec.fusedSvn typ else s.sec.minSvn.getD j 0 := by
  rw [State.blowType_minSvn, Enclave.fusedSvn]
  by_cases hj : j = typ
  · subst hj
    split
    · rw [setAt_getD, if_pos ⟨rfl, h⟩, if_pos rfl]
    · rw [if_pos rfl]
  · rw [if_neg hj]
    split
    · rw [setAt_getD, if_neg fun e => hj e.1]
    · rfl

/-- The fuses of the three image types follow the images that run, each on its own. -/
theorem State.blowFuses_getD (s : State) (hl : s.sec.minSvn.length = 4) {typ : Nat} (h : typ < 3) :
    s.blowFuses.sec.minSvn.getD typ 0 = s.sec.fusedSvn typ := by
  have hlen (t : State) (i : Nat) : (t.blowType i).sec.minSvn.length = t.sec.minSvn.length := by
    rw [State.blowType_minSvn]
    split
    · exact setAt_length _ _ _
    · rfl
  have hfused (t : State) {i j : Nat} (hi : i < t.sec.minSvn.length) (hj : j ≠ i) : (t.blowType i).sec.fusedSvn j = t.sec.fusedSvn j := by
    obtain ⟨-, -, -, -, hs, ha⟩ := t.blowType_keeps i
    rw [Enclave.fusedSvn, Enclave.fusedSvn, Enclave.slot, Enclave.slot, hs, ha, t.blowType_getD hi, if_neg hj]
  have h0 : 0 < s.sec.minSvn.length := by omega
  have h1 : 1 < (s.blowType 0).sec.minSvn.length := by rw [hlen]; omega
  have h2 : 2 < ((s.blowType 0).blowType 1).sec.minSvn.length := by rw [hlen, hlen]; omega
  rw [State.blowFuses_eq]
  change (((s.blowType 0).blowType 1).blowType 2).sec.minSvn.getD typ 0 = _
  obtain rfl | rfl | rfl : typ = 0 ∨ typ = 1 ∨ typ = 2 := by omega
  · rw [State.blowType_getD _ h2, if_neg (by decide), State.blowType_getD _ h1, if_neg (by decide), State.blowType_getD _ h0, if_pos rfl]
  · rw [State.blowType_getD _ h2, if_neg (by decide), State.blowType_getD _ h1, if_pos rfl, hfused _ h0 (by decide)]
  · rw [State.blowType_getD _ h2, if_pos rfl, hfused _ h1 (by decide), hfused _ h0 (by decide)]

/-- Blowing fuses touches the enclave and reports alone. -/
theorem State.blowFuses_keeps {β : Type} (g : State → β) (h : ∀ s typ, g (State.blowType s typ) = g s) (s : State) :
    g s.blowFuses = g s := State.each_keeps g _ h _ s

/-- Every HBM stack is marked ready. -/
def State.stacksReady (s : State) : State := s.each (fun s g => s.setRf (regionReg g 0x3000) 16 16 1) (List.range 16)

/-- The in-field tests' schedules start anew. -/
def State.scheduled (s : State) : State :=
  let x : BlockTest := { BlockTest.init with dueS := s.testInterval, result := 1, lastRun := s.jrn.jclock }
  s.each (fun s b => s.each (fun s t => s.setTest b t x) (List.range 5)) (List.range 256)

theorem State.passSelfTest_eq (s : State) :
    s.passSelfTest = ((s.zeroed.stacksReady.scheduled.setDev .ready).raiseFw 0x0423 0 0).blowFuses := by
  simp only [State.passSelfTest, State.zeroed, State.stacksReady, State.scheduled]

/-- The schedules are firmware's own. -/
theorem State.scheduled_keeps {β : Type} (g : State → β) (h : ∀ s b t x, g (State.setTest s b t x) = g s) (s : State) :
    g s.scheduled = g s := by
  simp only [State.scheduled]
  exact State.each_keeps g _ (fun s b => State.each_keeps g _ (fun s t => h s b t _) _ s) _ s

theorem State.stacksReady_rbit (s : State) {g : Nat} (hg : g < 16) : s.stacksReady.rbit (regionReg g 0x3000) 16 = true := by
  refine State.each_mem (P := fun g s => s.rbit (regionReg g 0x3000) 16 = true) (fun s g => s.setBit_rbit _ 16 (by decide))
    (fun s x g h => ?_) (List.mem_range.mpr hg) s
  by_cases hx : g = x
  · rw [hx]
    exact s.setBit_rbit _ 16 (by decide)
  · rw [← h]
    exact State.rbit_congr (State.setRf_reg_ne _ _ _ _ _ _ (by unfold regionReg; omega)) 16

theorem sameMem_stacksReady (s : State) : SameMem s s.stacksReady := SameMem.each (fun s _ => sameMem_setRf s _ _ _ _) _ s

theorem State.stacksReady_keeps {β : Type} (g : State → β) (h : ∀ s a n, g (State.setRn s a n) = g s) (s : State) :
    g s.stacksReady = g s := State.each_keeps g _ (fun s x => h s (regionReg x 0x3000) _) _ s

/-- What passing self-test adds to READY does not touch the stores. -/
theorem State.passSelfTest_store (s : State) : s.passSelfTest.store = s.zeroed.stacksReady.store := by
  rw [State.passSelfTest_eq, State.blowFuses_keeps (·.store) fun s t => (s.blowType_keeps t).1, State.raiseFw_store, State.setDev_store,
    State.scheduled_keeps (·.store) fun _ _ _ _ => rfl]

/-- A device that passes self-test is READY with its volatile memories at 0 (R308, R520, R576). -/
theorem State.passSelfTest_spec (s : State) :
    s.passSelfTest.dev = .ready ∧ SameMem s.zeroed s.passSelfTest ∧ s.passSelfTest.hbmPoison = [] ∧ s.passSelfTest.bsPoison = [] ∧
      (∀ g < 16, s.passSelfTest.rbit (regionReg g 0x3000) 16 = true) ∧
      (s.sec.minSvn.length = 4 → ∀ typ < 3, s.passSelfTest.sec.minSvn.getD typ 0 = s.sec.fusedSvn typ) := by
  have hsec : ((s.zeroed.stacksReady.scheduled.setDev .ready).raiseFw 0x0423 0 0).sec = s.sec := by
    rw [State.raiseFw_sec, State.setDev_sec, State.scheduled_keeps (·.sec) fun _ _ _ _ => rfl,
      State.stacksReady_keeps (·.sec) fun _ _ _ => rfl]
    rfl
  refine ⟨?_, (sameMem_stacksReady _).trans (.of_store s.passSelfTest_store), ?_, ?_, fun g hg => ?_, fun hl typ ht => ?_⟩
  · rw [State.passSelfTest_eq, State.blowFuses_keeps (·.dev) fun s t => (s.blowType_keeps t).2.2.2.1, State.raiseFw_dev, State.setDev_dev]
  · rw [State.passSelfTest_eq, State.blowFuses_keeps (·.hbmPoison) fun s t => (s.blowType_keeps t).2.1, State.raiseFw_hbmPoison,
      State.setDev_hbmPoison, State.scheduled_keeps (·.hbmPoison) fun _ _ _ _ => rfl, State.stacksReady_keeps (·.hbmPoison) fun _ _ _ => rfl]
    rfl
  · rw [State.passSelfTest_eq, State.blowFuses_keeps (·.bsPoison) fun s t => (s.blowType_keeps t).2.2.1, State.raiseFw_bsPoison,
      State.setDev_bsPoison, State.scheduled_keeps (·.bsPoison) fun _ _ _ _ => rfl, State.stacksReady_keeps (·.bsPoison) fun _ _ _ => rfl]
    rfl
  · exact (State.rbit_congr (State.reg_of_store s.passSelfTest_store _) 16).trans (State.stacksReady_rbit _ hg)
  · rw [State.passSelfTest_eq, State.blowFuses_getD _ (by rw [hsec]; exact hl) ht, hsec]

/-! ### SELF_TEST_COMPLETE (R579 to R584) -/

/-- The state after the SELFTEST tests that passed on a second run. -/
def State.selfTested (s : State) (outs : List TestOutcome) : State :=
  s.each (fun s (o : TestOutcome) => if o.again then s else s.testPassedAgain o) outs

theorem State.selfTested_pred (P : State → Prop) (h : ∀ s o, P s → P (s.testPassedAgain o)) (outs : List TestOutcome) (s : State)
    (hs : P s) : P (s.selfTested outs) :=
  State.each_pred P _ (fun t o ht => by split; exacts [ht, h t o ht]) outs s hs

theorem sameTested_selfTested (s : State) (outs : List TestOutcome) : SameTested s (s.selfTested outs) :=
  State.selfTested_pred (fun t => SameTested s t) (fun t o ht => ht.trans (sameTested_testPassedAgain t o)) outs s (.refl s)

theorem State.selfTested_draws (s : State) (outs : List TestOutcome) : (s.selfTested outs).draws = s.draws :=
  State.selfTested_pred (fun t => t.draws = s.draws) (fun t o ht => (t.testPassedAgain_draws o).trans ht) outs s rfl

/-- The link tests raise an event of their own before the failed test is recorded (R583). -/
def State.testReported (s : State) (o : TestOutcome) : State :=
  if 9 ≤ o.test ∧ o.test ≤ 13 then s.raise 0x0413 o.kind o.unit else s

theorem sameMem_testReported (s : State) (o : TestOutcome) : SameMem s (s.testReported o) := by
  unfold State.testReported
  split
  · exact sameMem_raise s _ _ _
  · exact .refl s

/-- SELFTEST ends by the verdict of the array sample reads (R582). -/
def State.leaveArrayTest : Option Nat × State → State
  | (some u, s) => s.failSelfTest 14 1 u
  | (none, s) => s.passSelfTest

/-- SELFTEST ends in GLADE by the first test that failed again, else by the array sample reads' verdict. -/
def State.leaveSelfTest (s : State) : Option TestOutcome → State
  | some o => (s.testReported o).failSelfTest o.test o.kind o.unit
  | none => State.leaveArrayTest s.arrayTest

theorem execSelfTestComplete_eq (outs : List TestOutcome) (s : State) : execSelfTestComplete outs s =
    whenever (s.dev == .selftest && (outs.all fun o => selfTests.contains o.test) && ((outs.find? fun o => o.again).isSome || s.planeUp)) s
      ((s.selfTested outs).leaveSelfTest (outs.find? fun o => o.again)) := by
  delta execSelfTestComplete State.selfTested
  dsimp only
  cases outs.find? fun o => o.again with
  | some o => rfl
  | none =>
    dsimp only [State.leaveSelfTest]
    generalize State.arrayTest _ = p
    obtain ⟨_ | _, _⟩ := p <;> rfl

theorem State.leaveArrayTest_of_fst {p : Option Nat × State} {v : Option Nat} (h : p.1 = v) :
    State.leaveArrayTest p = State.leaveArrayTest (v, p.2) := by
  subst h
  rfl

/-- The end of SELFTEST when no observed test failed again: a device whose cells fail their reads twice is in GLADE. -/
theorem State.leaveSelfTest_fails {s t : State} (hst : SameTested s t) (hd : t.draws = s.draws) {u : Nat} (h : s.arrayTest.1 = some u) :
    (t.leaveSelfTest none).dev = .glade ∧ (t.leaveSelfTest none).fw.postTest = 14 ∧ (t.leaveSelfTest none).fw.postKind = 1 ∧
      (t.leaveSelfTest none).fw.postUnit = u ∧ SameMem s (t.leaveSelfTest none) := by
  rw [State.leaveSelfTest, State.leaveArrayTest_of_fst ((State.arrayTest_congr hst.cells hst.tiers hd).trans h)]
  obtain ⟨hdev, ht, hk, hu, hm⟩ := t.arrayTest.2.failSelfTest_spec 14 1 u
  exact ⟨hdev, ht, hk, hu, hst.mem.trans ((sameTested_arrayTest t).mem.trans hm)⟩

/-- Settles O9: BOOT and SELFTEST end by the tests that failed, SELFTEST also by the cells' sample reads. -/
theorem bootAndSelfTestEnd : Obligations.BootAndSelfTestEnd := by
  intro s
  refine ⟨fun outs hd hm hn ho => ?_, fun hd hm hn => ?_, fun outs o hd ho hf => ?_, fun outs hd ho hf hp => ?_⟩
  · refine completes_of_whenever (execBootComplete_eq outs s) (by simpa [hd, hm, hn] using ho)
      ⟨?_, (sameMem_bootTested s outs).trans (sameMem_leaveBoot _)⟩
    rw [State.leaveBoot_dev]
    split
    · exact .inl rfl
    · split
      · exact .inr (.inr rfl)
      · exact .inr (.inl rfl)
  · refine completes_of_whenever (execBootComplete_eq [] s) (by simp [hd, hm, hn]) ?_
    change if s.jrn.flagOpen = true then s.leaveBoot.dev = .flagged else if s.fw.postTest = 255 then
      s.leaveBoot.dev = .selftest ∧ ∀ g < 16, s.leaveBoot.rbit (railReg g 0) 0 = true else s.leaveBoot.dev = .glade
    rw [State.leaveBoot_dev]
    split
    · rfl
    · rename_i hj
      split
      · rename_i h255
        refine ⟨rfl, fun g hg => ?_⟩
        rw [State.leaveBoot, if_neg hj, if_pos h255]
        exact State.each_railRequest_req _ (List.mem_range.mpr hg) hg
      · rfl
  · refine completes_of_whenever (execSelfTestComplete_eq outs s) (by simpa [hd, hf] using ho) ?_
    rw [hf]
    obtain ⟨hdev, ht, hk, hu, hmem⟩ := ((s.selfTested outs).testReported o).failSelfTest_spec o.test o.kind o.unit
    exact ⟨hdev, ht, hk, hu, (sameTested_selfTested s outs).mem.trans ((sameMem_testReported _ o).trans hmem)⟩
  · refine completes_of_whenever (execSelfTestComplete_eq outs s) (by simpa [hd, hp] using ho) ?_
    rw [hf]
    have hst := sameTested_selfTested s outs
    have hdraws := s.selfTested_draws outs
    cases h : s.arrayTest.1 with
    | some u => exact State.leaveSelfTest_fails hst hdraws h
    | none =>
      rw [State.leaveSelfTest, State.leaveArrayTest_of_fst ((State.arrayTest_congr hst.cells hst.tiers hdraws).trans h)]
      have har := hst.trans (sameTested_arrayTest (s.selfTested outs))
      generalize (s.selfTested outs).arrayTest.2 = t at har
      obtain ⟨hdev, hmem, hhp, hbp, hready, hsvn⟩ := t.passSelfTest_spec
      refine ⟨hdev, fun b => hmem.bytes (.bs b), fun g => hmem.bytes (.hbm g), fun a => ?_, fun k => ?_, hhp, hbp, hready, fun hl typ ht => ?_⟩
      · exact (hmem.bytes .host a).trans (har.mem.bytes .host a)
      · exact (hmem.cells k).trans (har.mem.cells k)
      · refine (hsvn (by rw [har.sec]; exact hl) typ ht).trans ?_
        rw [har.sec]
        rfl

end Sys2Proof.Machine
end

section
namespace Sys2Proof.Machine

/-! ### What the stop of a job leaves alone (R302, R322) -/

/-- No cell, no job's state, nothing of the enclave and no register of the job slots, windows and drain has changed. -/
structure Calm (s t : State) : Prop where
  dev   : t.dev = s.dev
  sec   : t.sec = s.sec
  cells : ∀ k, t.cell k = s.cell k
  low   : ∀ a < 0x50000, t.reg a = s.reg a
  jobs  : ∀ k, (t.slot k).state = (s.slot k).state

/-- Nor has any byte, and no pager record has come or changed. -/
structure Still (s t : State) : Prop extends Calm s t where
  mem  : SameMem s t
  acts : ∀ k, (t.slot k).acts ⊆ (s.slot k).acts

theorem Calm.refl (s : State) : Calm s s := ⟨rfl, rfl, fun _ => rfl, fun _ _ => rfl, fun _ => rfl⟩
theorem Calm.trans {s t u : State} (h : Calm s t) (h' : Calm t u) : Calm s u :=
  ⟨h'.dev.trans h.dev, h'.sec.trans h.sec, fun k => (h'.cells k).trans (h.cells k), fun a ha => (h'.low a ha).trans (h.low a ha),
    fun k => (h'.jobs k).trans (h.jobs k)⟩
theorem Calm.each {α : Type} {f : State → α → State} (h : ∀ s x, Calm s (f s x)) (l : List α) (s : State) : Calm s (s.each f l) :=
  State.each_pred (fun t => Calm s t) f (fun t x ht => ht.trans (h t x)) l s (.refl s)

theorem Still.refl (s : State) : Still s s := ⟨.refl s, .refl s, fun _ => List.Subset.refl _⟩
theorem Still.trans {s t u : State} (h : Still s t) (h' : Still t u) : Still s u :=
  ⟨h.toCalm.trans h'.toCalm, h.mem.trans h'.mem, fun k => List.Subset.trans (h'.acts k) (h.acts k)⟩
theorem Still.each {α : Type} {f : State → α → State} (h : ∀ s x, Still s (f s x)) (l : List α) (s : State) : Still s (s.each f l) :=
  State.each_pred (fun t => Still s t) f (fun t x ht => ht.trans (h t x)) l s (.refl s)

/-- Units other than the stores, the job slots, the device state and the enclave do not matter. -/
theorem Still.of_eq {s t : State} (hst : t.store = s.store) (hsl : t.slots = s.slots) (hd : t.dev = s.dev) (he : t.sec = s.sec) : Still s t := by
  have hslot : ∀ k, t.slot k = s.slot k := fun k => by rw [State.slot, hsl]; rfl
  exact ⟨⟨hd, he, State.cell_of_store hst, fun a _ => State.reg_of_store hst a, fun k => by rw [hslot]⟩, .of_store hst,
    fun k => by rw [hslot]; exact List.Subset.refl _⟩

section
variable (s : State)

theorem calm_setSlot (j : Nat) (x : Slot) (h : x.state = (s.slot j).state) : Calm s (s.setSlot j x) := by
  refine ⟨rfl, rfl, fun _ => rfl, fun _ _ => rfl, fun k => ?_⟩
  rw [State.setSlot_get]
  split
  · rename_i hk; rw [hk, h]
  · rfl

theorem still_setSlot (j : Nat) (x : Slot) (h : x.state = (s.slot j).state) (ha : x.acts ⊆ (s.slot j).acts) : Still s (s.setSlot j x) := by
  refine ⟨calm_setSlot s j x h, .of_store rfl, fun k => ?_⟩
  rw [State.setSlot_get]
  split
  · rename_i hk; rw [hk]; exact ha
  · exact List.Subset.refl _

theorem still_setRn (a n : Nat) (h : 0x50000 ≤ a) : Still s (s.setRn a n) :=
  ⟨⟨rfl, rfl, fun _ => rfl, fun b hb => by rw [State.setRn_reg, if_neg (by omega)], fun _ => rfl⟩, sameMem_setRn s a n,
    fun _ => List.Subset.refl _⟩
theorem still_setRf (a hi lo v : Nat) (h : 0x50000 ≤ a) : Still s (s.setRf a hi lo v) := still_setRn s a _ h
theorem still_setBit (a i : Nat) (h : 0x50000 ≤ a) : Still s (s.setBit a i) := still_setRf s a i i 1 h

theorem still_bump (a hi lo k : Nat) (h : 0x50000 ≤ a) : Still s (s.bump a hi lo k) := still_setRf s a hi lo _ h

theorem still_report (r : Report) : Still s (s.report r) :=
  ⟨⟨by simp, by simp, fun _ => by simp, fun a ha => State.report_reg_low s r (by omega), fun _ => by simp⟩,
    ⟨fun _ => by simp, fun _ _ => by simp, fun _ => by simp⟩, fun k => by simp⟩
theorem still_raise (c k u : Nat) : Still s (s.raise c k u) := still_report s _
theorem still_raiseJ (c k u j t : Nat) : Still s (s.raiseJ c k u j t) := still_report s _

theorem still_setBlock (b : Nat) (x : Block) : Still s (s.setBlock b x) := .of_eq rfl rfl rfl rfl
theorem still_setHentry (h : Nat) (e : HEntry) : Still s (s.setHentry h e) := .of_eq rfl rfl rfl rfl
theorem still_dropPrefetch (h : Nat) : Still s (s.dropPrefetch h) := .of_eq rfl rfl rfl rfl
theorem still_dropTokens (g req : Nat) : Still s (s.dropTokens g req) := .of_eq rfl rfl rfl rfl
theorem still_trimTokens (b req : Nat) : Still s (s.trimTokens b req) := .of_eq rfl rfl rfl rfl

theorem still_freeEntry (h : Nat) : Still s (s.freeEntry h) := by
  simp only [State.freeEntry]
  have h1 := still_setHentry s h { s.hentry h with state := .free, inuse := 0, zeroing := false }
  split
  · exact h1.trans ((still_dropPrefetch _ h).trans (still_setSlot _ _ _ rfl (List.filter_subset_self _)))
  · exact h1

theorem still_decUse (h : Nat) : Still s (s.decUse h) := by
  simp only [State.decUse]
  have h1 := still_setHentry s h { s.hentry h with inuse := (s.hentry h).inuse - 1 }
  split
  · exact h1.trans (still_freeEntry _ h)
  · exact h1

theorem still_returnTokens (b r : Nat) : Still s (s.returnTokens b r) := by
  unfold State.returnTokens
  split
  · exact .refl s
  · exact still_trimTokens s _ _

theorem still_dropRun (b num : Nat) : Still s (s.dropRun b num) := by
  unfold State.dropRun
  split
  · exact .refl s
  · exact (still_setBlock s b _).trans ((Still.each still_decUse _ _).trans (still_returnTokens _ _ _))

theorem still_failTask (b num : Nat) : Still s (s.failTask b num) := by
  unfold State.failTask
  split
  · exact .refl s
  · have hbit (t : State) : Still t (t.setBit (blockReg b 0xC304) 24) := still_setBit t _ _ (by unfold blockReg blockBase; omega)
    refine .trans ?_ ((still_dropRun _ b num).trans ((hbit _).trans (still_raiseJ _ _ _ _ _ _)))
    split
    · exact still_dropRun s _ _
    · exact .refl s

theorem still_closeTiles (j : Nat) (o : OpenMb) (ts : List Nat) : Still s (s.closeTiles j o ts) := by
  simp only [State.closeTiles]
  exact (Still.each (f := fun s t => s.setTile t ((s.tile t).closeFence o.epoch)) (fun s t => .of_eq rfl rfl rfl rfl) _ s).trans
    (still_setSlot _ _ _ rfl (List.Subset.refl _))

/-- The link's drop fails the tasks that reach host memory and marks its own registers (R442). -/
theorem still_ucieDrop : Still s s.ucieDrop := by
  simp only [State.ucieDrop]
  have hdown : Still s ((((s.setRf 0x51000 6 0 0).setBit 0x51000 8).bump 0x51004 31 24 1).raise 0x0460 0 0) :=
    (still_setRf s _ _ _ _ (by decide)).trans ((still_setBit _ _ _ (by decide)).trans
      ((still_bump _ _ _ _ _ (by decide)).trans (still_raise _ _ _ _)))
  refine hdown.trans ?_
  refine Still.each (fun s b => Still.each (fun s r => ?_) _ s) _ _
  split
  · exact still_failTask s _ _
  · exact .refl s

/-! ### The pager's transfers in flight (R274) -/

theorem calm_modAct (j h : Nat) (f : ActRec → ActRec) : Calm s (s.modAct j h f) := calm_setSlot s _ _ rfl

theorem calm_wr (sp : Space) (a : Nat) (l : List Byte) : Calm s (s.wr sp a l) :=
  ⟨by simp, by simp, fun _ => by simp, fun _ _ => by simp, fun _ => by simp⟩
theorem calm_wrLe (sp : Space) (a n v : Nat) : Calm s (s.wrLe sp a n v) :=
  ⟨by simp, by simp, fun _ => by simp, fun _ _ => by simp, fun _ => by simp⟩
theorem calm_poison (sp : Space) (a n : Nat) : Calm s (s.poison sp a n) :=
  ⟨by simp, by simp, fun _ => by simp, fun _ _ => by simp, fun _ => by simp⟩

/-- A page of a record goes to its window page, with its page list entry (R304). -/
def State.pageOut (u : State) (j : Nat) (r : ActRec) (t : State) (x : Nat × Nat) : State :=
  let (sp, a) := u.recordPage r x.2
  let data := u.rdBytes sp a 4096
  let t := match u.pageAcc j r x.1 with | .at h => t.wr .host h data | .err _ => t
  if r.state = 6 then t
  else t.wrLe (.hbm r.region) (pageList r.handle x.2) 8 (listEntry x.1 (u.poisoned sp a 4096) data)

/-- A page of a record comes back from its window page (R306). -/
def State.pageIn (u : State) (j : Nat) (r : ActRec) (t : State) (x : Nat × Nat) : State :=
  let (sp, b) := u.recordPage r x.2
  let t := match u.pageAcc j r x.1 with | .at h => t.wr sp b (u.rdBytes .host h 4096) | .err _ => t
  if bit (u.pageEntry r x.2) 31 || u.listPoisoned r x.2 then t.poison sp b 4096 else t

theorem calm_pageOut (u : State) (j : Nat) (r : ActRec) (x : Nat × Nat) : Calm s (u.pageOut j r s x) := by
  have hwr (l : List Byte) : Calm s (match u.pageAcc j r x.1 with | .at h => s.wr .host h l | .err _ => s) := by
    split
    · exact calm_wr s _ _ _
    · exact .refl s
  simp only [State.pageOut]
  split
  · exact hwr _
  · exact (hwr _).trans (calm_wrLe _ _ _ _ _)

theorem calm_pageIn (u : State) (j : Nat) (r : ActRec) (x : Nat × Nat) : Calm s (u.pageIn j r s x) := by
  have hwr (sp : Space) (b : Nat) : Calm s (match u.pageAcc j r x.1 with | .at h => s.wr sp b (u.rdBytes .host h 4096) | .err _ => s) := by
    split
    · exact calm_wr s _ _ _
    · exact .refl s
  simp only [State.pageIn]
  split
  · exact (hwr _ _).trans (calm_poison _ _ _ _)
  · exact hwr _ _

theorem calm_offloadDone (j : Nat) (r : ActRec) : Calm s (s.offloadDone j r []) := by
  obtain ⟨u, hu⟩ : ∃ u, u = s.dropTokens r.region (pagerReq r.handle) := ⟨_, rfl⟩
  have hsu : Calm s u := hu ▸ (still_dropTokens s _ _).toCalm
  have hout : Calm u (u.each (u.pageOut j r) r.pages.zipIdx) := Calm.each (fun t x => calm_pageOut t u j r x) _ u
  unfold State.offloadDone
  rw [show s.memErrs [] = s from rfl, ← hu]
  refine hsu.trans ?_
  dsimp only
  split
  · exact (calm_modAct _ _ _ _).trans (still_raiseJ _ _ _ _ _ _).toCalm
  · by_cases h6 : r.state = 6
    · rw [if_pos h6]
      exact hout.trans (calm_modAct _ _ _ _)
    · rw [if_neg h6]
      exact hout.trans ((calm_modAct _ _ _ _).trans (still_setHentry _ _ _).toCalm)

theorem calm_prefetchDone (j : Nat) (r : ActRec) : Calm s (s.prefetchDone j r []) := by
  obtain ⟨u, hu⟩ : ∃ u, u = s.dropTokens r.region (pagerReq r.handle) := ⟨_, rfl⟩
  have hsu : Calm s u := hu ▸ (still_dropTokens s _ _).toCalm
  have hin : Calm u (u.each (u.pageIn j r) r.pages.zipIdx) := Calm.each (fun t x => calm_pageIn t u j r x) _ u
  unfold State.prefetchDone
  rw [show s.memErrs [] = s from rfl, ← hu]
  refine hsu.trans ?_
  dsimp only
  split
  · exact (still_setHentry _ _ _).toCalm.trans ((calm_modAct _ _ _ _).trans (still_raiseJ _ _ _ _ _ _).toCalm)
  · exact hin.trans ((still_setHentry _ _ _).toCalm.trans (calm_modAct _ _ _ _))
end

theorem calm_finishTransfers (s : State) (j : Nat) (p : ActRec → Bool) : Calm s (s.finishTransfers j p) := by
  unfold State.finishTransfers
  split
  · exact .refl s
  · refine Calm.each (fun s r => ?_) _ s
    split
    · exact calm_offloadDone s j r
    · split
      · exact calm_prefetchDone s j r
      · exact .refl s

/-- A job without transfers in flight has none to finish. -/
theorem State.finishTransfers_eq_self {s : State} {j : Nat} (h : ∀ r ∈ (s.slot j).acts, r.state ≠ 1 ∧ r.state ≠ 4 ∧ r.state ≠ 6)
    (p : ActRec → Bool) : s.finishTransfers j p = s := by
  have hnone (l : List ActRec) (hl : l ⊆ (s.slot j).acts) : s.each (fun s r =>
      if r.state == 1 || r.state == 6 then s.offloadDone j r []
      else if r.state == 4 && r.bad.isEmpty then s.prefetchDone j r [] else s) l = s := by
    induction l with
    | nil => rfl
    | cons r l ih =>
      obtain ⟨h1, h4, h6⟩ := h r (hl List.mem_cons_self)
      rw [State.each_cons, if_neg (by simp [h1, h6]), if_neg (by simp [h4])]
      exact ih fun x hx => hl (List.mem_cons_of_mem r hx)
  unfold State.finishTransfers
  split
  · rfl
  · exact hnone _ (List.filter_subset_self _)

/-! ### The stop of a job -/

/-- A job's handles and requests of one allocator go (R302). -/
def State.freeOwner (s : State) (j o : Nat) : State :=
  let a := s.alloc o
  let qs : SMap (List AllocReq) := a.queues.foldl (fun m (i, l) =>
    SMap.set (fun _ => []) m i (l.filter fun q => q.fw || q.job != j)) []
  let s := s.setAlloc o { a with queues := qs, zeros := a.zeros.filter fun (_, q) => q.fw || q.job != j }
  s.each (fun s (i, e) =>
    if e.job = j ∧ e.fw = false ∧ e.state ≠ .free then
      let h := mkHandle i o e.pool e.gen
      if e.inuse = 0 then s.freeEntry h else s.setHentry h { e with state := .freeing, zeroing := false }
    else s) a.table

/-- A block loses the job's queued tasks and its waiting ones (R302, R322). -/
def State.quietBlock (s : State) (j b : Nat) : State :=
  let B := s.block b
  let gone := B.running.filter fun r => r.task.job == j && [0, 5, 9].contains (recKind r.task.record)
  let s := s.setBlock b { B with
    queue := B.queue.filter (fun q => q.job != j),
    arrived := B.arrived.filter fun l => !(gone.any fun r => r.arrived && recF r.task.record 0x30 8 4 == l) }
  s.each (fun s (r : RTask) => s.dropRun b r.num) gone

/-- A block's requesters give back the tokens that no task needs. -/
def State.trimBlock (s : State) (b : Nat) : State :=
  s.each (fun s req => s.trimTokens b req) [tokMatrix b, tokMover b 0, tokMover b 1, tokCarry b]

/-- The job's collective rounds end. -/
def State.leaveRounds (s : State) (j : Nat) : State :=
  { s with fab := { s.fab with
    rounds := s.fab.rounds.filter fun r => r.job != j
    early := s.fab.early.filter fun e => e.fjob != (s.slot j).fjob } }

/-- The job's open micro-batches close their tiles. -/
def State.closeOpen (s : State) (j : Nat) : State := s.each (fun s (o : OpenMb) => s.closeTiles j o o.tiles) (s.slot j).open_

/-- The pager's tokens of the job's records return. -/
def State.dropPager (s : State) (j : Nat) : State :=
  s.each (fun s (r : ActRec) => s.dropTokens r.region (pagerReq r.handle)) (s.slot j).acts

/-- The job's stop but for the pager's transfers, its handles and its slot (R302). -/
def State.quieted (s : State) (j : Nat) : State :=
  let s := s.each (fun s b => s.quietBlock j b) (s.blocks.map fun x => x.1)
  let s := s.each State.trimBlock (s.blocks.map fun x => x.1)
  ((s.leaveRounds j).closeOpen j).dropPager j

theorem State.freeJobHandles_eq (s : State) (j : Nat) : s.freeJobHandles j =
    let u := s.each (fun s o => s.freeOwner j o) (List.range 17)
    u.setSlot j { u.slot j with hregs := [], acts := [] } := rfl

theorem still_freeOwner (s : State) (j o : Nat) : Still s (s.freeOwner j o) := by
  have hentry (s : State) (x : Nat × HEntry) : Still s (if x.2.job = j ∧ x.2.fw = false ∧ x.2.state ≠ .free then
      let h := mkHandle x.1 o x.2.pool x.2.gen
      if x.2.inuse = 0 then s.freeEntry h else s.setHentry h { x.2 with state := .freeing, zeroing := false }
    else s) := by
    dsimp only
    split
    · split
      · exact still_freeEntry s _
      · exact still_setHentry s _ _
    · exact .refl s
  unfold State.freeOwner
  exact (Still.of_eq rfl rfl rfl rfl : Still s (s.setAlloc o _)).trans (Still.each hentry _ _)

theorem still_freeJobHandles (s : State) (j : Nat) : Still s (s.freeJobHandles j) := by
  have h := Still.each (fun s o => still_freeOwner s j o) (List.range 17) s
  rw [State.freeJobHandles_eq]
  generalize s.each (fun s o => s.freeOwner j o) (List.range 17) = u at h ⊢
  exact h.trans (still_setSlot u j { u.slot j with hregs := [], acts := [] } rfl (List.nil_subset _))

theorem still_quietBlock (s : State) (j b : Nat) : Still s (s.quietBlock j b) := by
  unfold State.quietBlock
  exact (still_setBlock s b _).trans (Still.each (fun s (r : RTask) => still_dropRun s b r.num) _ _)

theorem still_quieted (s : State) (j : Nat) : Still s (s.quieted j) := by
  have htrim (s : State) (b : Nat) : Still s (s.trimBlock b) := Still.each (fun s req => still_trimTokens s b req) _ s
  have hrounds (s : State) : Still s (s.leaveRounds j) := .of_eq rfl rfl rfl rfl
  have hopen (s : State) : Still s (s.closeOpen j) := Still.each (fun s (o : OpenMb) => still_closeTiles s j o o.tiles) _ s
  have hpager (s : State) : Still s (s.dropPager j) :=
    Still.each (fun s (r : ActRec) => still_dropTokens s r.region (pagerReq r.handle)) _ s
  unfold State.quieted
  exact (Still.each (fun s b => still_quietBlock s j b) _ s).trans ((Still.each htrim _ _).trans
    ((hrounds _).trans ((hopen _).trans (hpager _))))

/-- The job's slot once it has stopped. -/
def Slot.stopped (sl : Slot) : Slot :=
  { sl with
    state := .stopped, normRes := none, open_ := [], mbEpochs := [], ties := [], kparts := [], pbufs := [],
    lists := sl.lists.map fun (g, l) => (g, { l with pos := [] }) }

theorem State.stopJob_eq (s : State) (j : Nat) : s.stopJob j =
    let u := ((s.quieted j).finishTransfers j fun _ => true).freeJobHandles j
    u.setSlot j (u.slot j).stopped := by
  rfl

/-- No pager transfer of the job is in flight. -/
def State.noTransfer (s : State) (j : Nat) : Prop := ∀ r ∈ (s.slot j).acts, r.state ≠ 1 ∧ r.state ≠ 4 ∧ r.state ≠ 6

/-- Job j has stopped, and nothing else that a stop must leave alone has changed. -/
structure Halted (j : Nat) (s t : State) : Prop where
  dev   : t.dev = s.dev
  sec   : t.sec = s.sec
  cells : ∀ k, t.cell k = s.cell k
  low   : ∀ a < 0x50000, t.reg a = s.reg a
  jobs  : ∀ k, (t.slot k).state = if k = j then .stopped else (s.slot k).state
  mem   : s.noTransfer j → SameMem s t

/-- The slot of a job that stops, or has stopped, is written. -/
theorem Halted.setSlot {j : Nat} {s u : State} {x : Slot} (hx : x.state = .stopped) (h : Calm s u ∨ Halted j s u)
    (hm : s.noTransfer j → SameMem s u) : Halted j s (u.setSlot j x) := by
  have hjobs (k : Nat) : ((u.setSlot j x).slot k).state = if k = j then .stopped else (u.slot k).state := by
    rw [State.setSlot_get]
    split
    · exact hx
    · rfl
  obtain h | h := h
  · exact ⟨h.dev, h.sec, h.cells, h.low, fun k => by rw [hjobs, h.jobs], fun hn => (hm hn).trans (.of_store rfl)⟩
  · refine ⟨h.dev, h.sec, h.cells, h.low, fun k => ?_, fun hn => (hm hn).trans (.of_store rfl)⟩
    rw [hjobs, h.jobs]
    split <;> rfl

theorem halted_stopJob (s : State) (j : Nat) : Halted j s (s.stopJob j) := by
  have hq := still_quieted s j
  have hf := still_freeJobHandles ((s.quieted j).finishTransfers j fun _ => true) j
  rw [State.stopJob_eq]
  refine .setSlot rfl (.inl (hq.toCalm.trans ((calm_finishTransfers _ _ _).trans hf.toCalm))) fun hn => ?_
  rw [State.finishTransfers_eq_self (fun r hr => hn r (hq.acts j hr))] at hf ⊢
  exact hq.mem.trans hf.mem

theorem halted_haltJob (s : State) (j cause evt task : Nat) : Halted j s (s.haltJob j cause evt task) := by
  have h := halted_stopJob s j
  exact .setSlot (by rw [h.jobs, if_pos rfl]) (.inr h) h.mem

theorem State.haltJob_stopCause (s : State) (j cause evt task : Nat) : ((s.haltJob j cause evt task).slot j).stopCause = cause := by
  simp [State.haltJob]

/-! ### Host-die reset (R589) -/

/-- A window is no longer valid. -/
def State.unmap (s : State) (w : Nat) : State :=
  if s.rbit (hwinReg w 0xC) 0 then (s.setRf (hwinReg w 0xC) 0 0 0).setRf (hwinReg w 0xC) 16 16 1 else s

/-- A job that is in its slot is stopped. -/
def State.haltAny (s : State) (j : Nat) : State :=
  let st := (s.slot j).state
  if st = .free ∨ st = .stopped then s else s.haltJob j 5 0 0

/-- A mailbox is empty and takes no request. -/
def State.idleBox (s : State) (m : Nat) : State := (s.setBox m Mailbox.init).setMb m mbIdle

/-- Link, windows, jobs and mailboxes after the host die went down (R589). -/
def State.hostLost (s : State) : State :=
  (((if s.ucieUp then s.ucieDrop else s).each State.unmap (List.range 16)).each State.haltAny (List.range 64)).each State.idleBox (List.range 8)

/-- Host memory is lost. -/
def State.hostDown (s : State) : State := { s with store := { s.store with host := [] } }

/-- The enclave verifies the host-die image. -/
def State.hostBooted (s : State) : Bool × State := if s.sec.state = .operational then s.bootImage 1 else (false, s)

/-- The host die runs if its image was accepted. -/
def State.withHost (p : Bool × State) : State := { p.2 with hostUp := p.1 }

theorem execHostDieReset_eq (s : State) :
    execHostDieReset s = whenever (s.hostUp && s.mpUp) s (State.withHost s.hostLost.hostDown.hostBooted) := by
  delta execHostDieReset
  refine congrArg (whenever (s.hostUp && s.mpUp) s) ?_
  extract_lets s1 s2 s3 s4
  have h : s4 = s.hostLost := rfl
  clear_value s4
  rw [← h]
  rfl

section
variable (s : State)

theorem State.unmap_keeps {β : Type} (g : State → β) (h : ∀ s a hi lo v, g (State.setRf s a hi lo v) = g s) (w : Nat) : g (s.unmap w) = g s := by
  unfold State.unmap
  split
  · rw [h, h]
  · rfl

theorem State.unmap_self (w : Nat) : (s.unmap w).rbit (hwinReg w 0xC) 0 = false := by
  unfold State.unmap
  split
  · rw [State.rbit, State.setRf_rf_other _ _ _ _ _ _ _ (by decide) (by decide) (by decide) (by decide),
      State.setRf_rf_same _ _ _ _ _ (by decide) (by decide)]
    rfl
  · simp_all

theorem State.unmap_rbit (x w : Nat) (h : s.rbit (hwinReg w 0xC) 0 = false) : (s.unmap x).rbit (hwinReg w 0xC) 0 = false := by
  by_cases hw : w = x
  · rw [hw]
    exact s.unmap_self x
  · have hne : hwinReg w 0xC ≠ hwinReg x 0xC := by unfold hwinReg; omega
    unfold State.unmap
    split
    · rw [← h]
      exact State.rbit_congr (by rw [State.setRf_reg_ne _ _ _ _ _ _ hne, State.setRf_reg_ne _ _ _ _ _ _ hne]) 0
    · exact h

/-- Free or stopped: not in need of a stop. -/
def JobState.gone (st : JobState) : Prop := st = .free ∨ st = .stopped

theorem State.haltAny_cases (j : Nat) : (s.haltAny j = s ∧ (s.slot j).state.gone) ∨ Halted j s (s.haltAny j) := by
  simp only [State.haltAny]
  split
  · exact .inl ⟨rfl, ‹_›⟩
  · exact .inr (halted_haltJob s j 5 0 0)

theorem State.haltAny_keeps {β : Type} (g : State → β) (h : ∀ s t j, Halted j s t → g t = g s) (j : Nat) : g (s.haltAny j) = g s := by
  obtain ⟨e, -⟩ | hh := s.haltAny_cases j
  · rw [e]
  · exact h _ _ _ hh

theorem State.haltAny_self (j : Nat) : ((s.haltAny j).slot j).state.gone := by
  obtain ⟨e, hg⟩ | hh := s.haltAny_cases j
  · rw [e]; exact hg
  · rw [hh.jobs, if_pos rfl]; exact .inr rfl

theorem State.haltAny_gone (i j : Nat) (h : (s.slot j).state.gone) : ((s.haltAny i).slot j).state.gone := by
  obtain ⟨e, -⟩ | hh := s.haltAny_cases i
  · rw [e]; exact h
  · rw [hh.jobs]
    split
    · exact .inr rfl
    · exact h

/-- The mailbox takes no request and holds none. -/
def State.boxIdle (s : State) (m : Nat) : Prop := s.mbState m = mbIdle ∧ s.box m = Mailbox.init

theorem State.setMb_reg_ne (m st a : Nat) (h : a ≠ mbReg m 4) : (s.setMb m st).reg a = s.reg a := by
  rw [State.setMb, State.setRf_reg_ne _ _ _ _ _ _ h, State.setRf_reg_ne _ _ _ _ _ _ h]

theorem State.idleBox_self (m : Nat) : (s.idleBox m).boxIdle m := by
  refine ⟨?_, ?_⟩
  · rw [State.idleBox, State.setMb, State.mbState, State.setRf_rf_other _ _ _ _ _ _ _ (by decide) (by decide) (by decide) (by decide),
      State.setRf_rf_same _ _ _ _ _ (by decide) (by decide)]
    rfl
  · simp [State.idleBox, State.setMb]

theorem State.idleBox_boxIdle (x m : Nat) (h : s.boxIdle m) : (s.idleBox x).boxIdle m := by
  by_cases hm : m = x
  · rw [hm]
    exact s.idleBox_self x
  · obtain ⟨hst, hbox⟩ := h
    have hne : mbReg m 4 ≠ mbReg x 4 := by unfold mbReg; omega
    refine ⟨?_, ?_⟩
    · rw [← hst, State.idleBox, State.mbState, State.mbState, State.rf, State.rn, State.setMb_reg_ne _ _ _ _ hne]
      rfl
    · simpa [State.idleBox, State.setMb, hm] using hbox
end

theorem State.idleBox_keeps {β : Type} (g : State → β) (h : ∀ s a hi lo v, g (State.setRf s a hi lo v) = g s)
    (h' : ∀ s m x, g (State.setBox s m x) = g s) (s : State) (m : Nat) : g (s.idleBox m) = g s := by
  rw [State.idleBox, State.setMb, h, h, h']

/-- What link, registers, mailboxes and stops leave alone stays. -/
theorem State.hostLost_keeps {β : Type} (g : State → β) (hs : ∀ s t, Still s t → g t = g s)
    (hr : ∀ s a hi lo v, g (State.setRf s a hi lo v) = g s) (hh : ∀ s t j, Halted j s t → g t = g s)
    (hb : ∀ s m x, g (State.setBox s m x) = g s) (s : State) : g s.hostLost = g s := by
  have hlink : g (if s.ucieUp then s.ucieDrop else s) = g s := by
    split
    · exact hs _ _ (still_ucieDrop s)
    · rfl
  rw [State.hostLost, State.each_keeps g _ (State.idleBox_keeps g hr hb), State.each_keeps g _ fun s j => s.haltAny_keeps g hh j,
    State.each_keeps g _ fun s w => s.unmap_keeps g hr w, hlink]

theorem State.hostLost_window (s : State) {w : Nat} (hw : w < 16) : s.hostLost.rbit (hwinReg w 0xC) 0 = false := by
  have hlow : hwinReg w 0xC < 0x50000 := by unfold hwinReg; omega
  rw [State.hostLost, State.each_keeps (fun s => s.rbit (hwinReg w 0xC) 0) _ fun s m => ?_,
    State.each_keeps (fun s => s.rbit (hwinReg w 0xC) 0) _ fun s j => s.haltAny_keeps (fun s => s.rbit (hwinReg w 0xC) 0)
      (fun s t j h => State.rbit_congr (h.low _ hlow) 0) j]
  · exact State.each_mem (P := fun w s => s.rbit (hwinReg w 0xC) 0 = false) (fun s x => s.unmap_self x) (fun s x w h => s.unmap_rbit x w h)
      (List.mem_range.mpr hw) _
  · exact State.rbit_congr ((State.setMb_reg_ne _ _ _ _ (by unfold mbReg; omega)).trans rfl) 0

theorem State.hostLost_gone (s : State) {j : Nat} (hj : j < 64) : (s.hostLost.slot j).state.gone := by
  rw [State.hostLost, State.each_keeps (fun s => (s.slot j).state) State.idleBox fun s m => rfl]
  exact State.each_mem (P := fun j s => (s.slot j).state.gone) (fun s x => s.haltAny_self x) (fun s x j h => s.haltAny_gone x j h)
    (List.mem_range.mpr hj) _

theorem State.hostLost_boxIdle (s : State) {m : Nat} (hm : m < 8) : s.hostLost.boxIdle m :=
  State.each_mem (P := fun m s => s.boxIdle m) (fun s x => s.idleBox_self x) (fun s x m h => s.idleBox_boxIdle x m h)
    (List.mem_range.mpr hm) _

/-! ### The enclave verifies images (R514, R516) -/

theorem Enclave.imageStatus_congr {e e' : Enclave} (hm : e'.minSvn = e.minSvn) (hr : e'.revoked = e.revoked) (typ : Nat) (x : FwSlot) :
    e'.imageStatus typ x = e.imageStatus typ x := by
  simp only [Enclave.imageStatus, hm, hr]

/-- What the verification of images leaves alone: it reports, and may make the other slot active. -/
structure Verified (s t : State) : Prop where
  store  : t.store = s.store
  dev    : t.dev = s.dev
  slots  : t.slots = s.slots
  part   : t.part = s.part
  boxes  : t.fw.boxes = s.fw.boxes
  images : ∀ typ ab, t.sec.imageStatus typ (t.sec.slot typ ab) = s.sec.imageStatus typ (s.sec.slot typ ab)

theorem Verified.refl (s : State) : Verified s s := ⟨rfl, rfl, rfl, rfl, rfl, fun _ _ => rfl⟩
theorem Verified.trans {s t u : State} (h : Verified s t) (h' : Verified t u) : Verified s u :=
  ⟨h'.store.trans h.store, h'.dev.trans h.dev, h'.slots.trans h.slots, h'.part.trans h.part, h'.boxes.trans h.boxes,
    fun typ ab => (h'.images typ ab).trans (h.images typ ab)⟩
theorem verified_raiseFw (s : State) (c k u : Nat) : Verified s (s.raiseFw c k u) := ⟨rfl, rfl, rfl, rfl, rfl, fun _ _ => rfl⟩
theorem verified_activate (s : State) (a n : List Nat) : Verified s (s.setSec { s.sec with active := a, next := n }) :=
  ⟨rfl, rfl, rfl, rfl, rfl, fun _ _ => Enclave.imageStatus_congr rfl rfl _ _⟩

theorem State.verifySlot_spec (s : State) (typ ab : Nat) : Verified s (s.verifySlot typ ab).2 ∧
    ((s.verifySlot typ ab).1 = true → s.sec.imageStatus typ (s.sec.slot typ ab) = 0) := by
  unfold State.verifySlot
  split
  · exact ⟨.refl s, fun _ => ‹_›⟩
  · exact ⟨verified_raiseFw s _ _ _, fun h => by cases h⟩
  · exact ⟨verified_raiseFw s _ _ _, fun h => by cases h⟩

/-- An image starts only if the checks of one of its slots pass. -/
theorem State.bootImage_spec (s : State) (typ : Nat) : Verified s (s.bootImage typ).2 ∧
    ((s.bootImage typ).1 = true → ∃ ab, s.sec.imageStatus typ (s.sec.slot typ ab) = 0) := by
  obtain ⟨hv, hok⟩ := s.verifySlot_spec typ (s.sec.active.getD typ 0)
  obtain ⟨hv', hok'⟩ := (s.verifySlot typ (s.sec.active.getD typ 0)).2.verifySlot_spec typ (1 - s.sec.active.getD typ 0)
  unfold State.bootImage
  dsimp only
  split
  · exact ⟨hv, fun _ => ⟨_, hok ‹_›⟩⟩
  · split
    · exact ⟨hv.trans (hv'.trans ((verified_activate _ _ _).trans (verified_raiseFw _ _ _ _))),
        fun _ => ⟨_, (hv.images _ _).symm.trans (hok' ‹_›)⟩⟩
    · exact ⟨hv.trans hv', fun h => by cases h⟩

theorem State.withHost_hostBooted (s : State) : Verified s (State.withHost s.hostBooted) ∧
    ((State.withHost s.hostBooted).hostUp = true → s.sec.state = .operational ∧ ∃ ab, s.sec.imageStatus 1 (s.sec.slot 1 ab) = 0) := by
  unfold State.hostBooted
  split
  · obtain ⟨hv, hok⟩ := s.bootImage_spec 1
    exact ⟨⟨hv.store, hv.dev, hv.slots, hv.part, hv.boxes, hv.images⟩, fun h => ⟨‹_›, hok h⟩⟩
  · exact ⟨⟨rfl, rfl, rfl, rfl, rfl, fun _ _ => rfl⟩, fun h => by cases h⟩

/-- What O10 says of a host-die reset. -/
def HostReset (s t : State) : Prop :=
  t.dev = s.dev ∧ (t.hostUp = true → s.sec.state = .operational ∧ ∃ ab, t.sec.imageStatus 1 (t.sec.slot 1 ab) = 0) ∧
    (∀ a, t.rdByte .host a = 0) ∧ (∀ m < 8, t.boxIdle m) ∧ (∀ w < 16, t.rbit (hwinReg w 0xC) 0 = false) ∧
    (∀ j < 64, (t.slot j).state.gone) ∧ ∀ k, t.cell k = s.cell k

/-- After the loss of the host die, the device is one whose host die was reset (R589). -/
theorem State.withHost_hostLost (s : State) : HostReset s (State.withHost s.hostLost.hostDown.hostBooted) := by
  have hsec : s.hostLost.sec = s.sec := State.hostLost_keeps (·.sec) (fun _ _ h => h.sec) (fun _ _ _ _ _ => rfl) (fun _ _ _ h => h.sec)
    (fun _ _ _ => rfl) s
  have hdev : s.hostLost.dev = s.dev := State.hostLost_keeps (·.dev) (fun _ _ h => h.dev) (fun _ _ _ _ _ => rfl) (fun _ _ _ h => h.dev)
    (fun _ _ _ => rfl) s
  have hcell (k : Nat) : s.hostLost.cell k = s.cell k := State.hostLost_keeps (·.cell k) (fun _ _ h => h.cells k)
    (fun _ _ _ _ _ => rfl) (fun _ _ _ h => h.cells k) (fun _ _ _ => rfl) s
  have hwin (w : Nat) := s.hostLost_window (w := w)
  have hgone (j : Nat) := s.hostLost_gone (j := j)
  have hidle (m : Nat) := s.hostLost_boxIdle (m := m)
  generalize s.hostLost = u at *
  obtain ⟨hv, hup⟩ := State.withHost_hostBooted u.hostDown
  have hreg (a : Nat) := State.reg_of_store hv.store a
  refine ⟨hv.dev.trans hdev, fun h => ?_, fun a => ?_, fun m hm => ?_, fun w hw => ?_, fun j hj => ?_, fun k => ?_⟩
  · obtain ⟨hop, ab, hab⟩ := hup h
    exact ⟨hsec ▸ hop, ab, (hv.images 1 ab).trans hab⟩
  · rw [State.rdByte_of_store hv.store]
    rfl
  · obtain ⟨hst, hbox⟩ := hidle m hm
    exact ⟨(congrArg (fun x : Word => fld x.toNat 2 0) (hreg _)).trans hst, (by rw [State.box, hv.boxes]; exact hbox)⟩
  · exact (State.rbit_congr (hreg _) 0).trans (hwin w hw)
  · rw [State.slot, hv.slots]
    exact hgone j hj
  · rw [State.cell_of_store hv.store]
    exact hcell k

/-! ### The drain's end (R416, R417) -/

theorem sameMem_drained (s : State) (f : DevState) (j : Journal) (n c : Nat) :
    SameMem s ((((s.setJrn j).jState f n c).setDev f).raise 0x0411 0 0) :=
  (sameMem_setJrn s j).trans ((sameMem_jWrite _ _).trans ((sameMem_setDev _ _).trans (sameMem_raise _ _ _ _)))

/-- Settles O10: a stop of a job leaves cells and the enclave alone, and with no transfer in flight every memory. -/
theorem hostDieResetAndDrainEnd : Obligations.HostDieResetAndDrainEnd := by
  intro s
  refine ⟨fun hh hm => ?_, fun j hd ha ht => ?_, fun hd hj hw he => ?_⟩
  · exact completes_of_whenever (execHostDieReset_eq s) (by simp [hh, hm]) s.withHost_hostLost
  · have h := halted_haltJob s j.val 4 (s.rf 0x40000 31 16) 0
    have hr := still_raiseJ (s.haltJob j.val 4 (s.rf 0x40000 31 16) 0) 0x0417 0 0 j.val 0
    refine completes_of_whenever rfl (by simp [hd, ha, ht]) ⟨?_, ?_, ?_, ?_, fun k => ?_, fun hn => ?_⟩
    · rw [hr.jobs, h.jobs, if_pos rfl]
    · rw [show ∀ t : State, ((t.raiseJ 0x0417 0 0 j.val 0).slot j.val) = t.slot j.val from fun t => by simp [State.raiseJ],
        State.haltJob_stopCause]
    · rw [hr.dev, h.dev, hd]
    · exact .inl ⟨_, List.mem_append_right _ (List.mem_singleton_self _), rfl, rfl, rfl⟩
    · rw [hr.cells, h.cells]
    · exact (h.mem hn).trans hr.mem
  · refine completes_of_whenever rfl (by simpa [hd, he] using ⟨hj, hw⟩) ⟨?_, ?_, sameMem_drained s _ _ _ _, ?_, ?_⟩
    · simp
    · exact .inl ⟨_, List.mem_append_right _ (List.mem_singleton_self _), rfl, rfl, rfl⟩
    · simp [State.jState]
    · simp [State.jState]

end Sys2Proof.Machine
end

section
namespace Sys2Proof.Machine

/-! ### The causes that a reset left (R541, R578, R587) -/

/-- What the first stage has latched, as the firmware that starts reads it (R541). -/
def State.latched (s : State) (rd : PartReads) : Nat := ((s.scanJournal rd).partReads rd).pwr.cause

/-- An event of the chip that starts is taken. -/
def State.bootEvent (s : State) (code unit : Nat) : State :=
  s.takeReport { code := code, kind := 0, unit := unit, job := 255, task := 0, count := 1 }

/-- The latched cause and the reset itself are reported (R541, R578, R587). -/
def State.causesHeard (s : State) (latch cause : Nat) (rd : PartReads) : State :=
  let s := (s.scanJournal rd).partReads rd
  (if latch = 0 then s else s.bootEvent latch 0).bootEvent 0x0422 (if latch = 0x0703 ∨ latch = 0x0722 then 6 else cause)

/-- A lockstep miscompare opens the flag (R587). -/
def State.flagOpened (s : State) (latch : Nat) : State :=
  if latch = 0x0421 then
    let q := s.jrn.nextSeq - 1
    let s := s.jState .boot 1 3
    { s with fw := { s.fw with causeSeq := q } }
  else s

/-- The latch is cleared. -/
def State.unlatched (s : State) : State := { s with pwr := { s.pwr with cause := 0 } }

/-- An open flag shows its cause again. -/
def State.causeRestored (s : State) : State := if s.jrn.flagOpen then s.restoreCause else s

/-- All that firmware's start does before it looks at the tiers. -/
def State.causesTaken (s : State) (cause : Nat) (rd : PartReads) : State :=
  ((s.causesHeard (s.latched rd) cause rd).flagOpened (s.latched rd)).unlatched.causeRestored

/-! ### A residency record that start-up writes stays (R52, R135) -/

/-- Residency records stand in the partition. -/
def Noted (s : State) : Prop := s.part.resid.blocks ≠ []

theorem noted_of_part {s t : State} (h : t.part = s.part) (hs : Noted s) : Noted t := by
  rw [Noted, h]
  exact hs

theorem PartArea.page_blocks (A : PartArea) (p : PartPage) : (A.page p).blocks ≠ [] := by
  unfold PartArea.page
  split
  · split <;> simp
  · simp

theorem PartArea.program_blocks (A : PartArea) (p : PartPage) : (A.program p).blocks ≠ [] := by
  unfold PartArea.program
  extract_lets full
  clear_value full
  split
  · split <;> exact PartArea.page_blocks _ p
  · exact PartArea.page_blocks _ p

/-- A residency record that is written stands in the partition. -/
theorem noted_writeResidency (s : State) (u : Nat) : Noted (s.writeResidency u) := PartArea.program_blocks _ _

theorem noted_bootTier (rd : PartReads) (s : State) (u : Nat) (h : Noted s) : Noted (s.bootTier rd u) := by
  have hset (v : Nat) : Noted (s.setRn (tierReg u) v) := noted_of_part (by simp) h
  simp only [State.bootTier]
  split
  · split
    · exact noted_of_part rfl (noted_writeResidency _ u)
    · split
      · exact noted_of_part rfl (hset (stRetired * 65536))
      · exact hset _
  · split
    · split
      · exact noted_of_part rfl (hset (stDormant * 65536))
      · exact hset _
    · exact hset _

theorem noted_applyLocal (s : State) (x : Nat × Nat) (h : Noted s) : Noted (s.applyLocal x.1 x.2) := by
  unfold State.applyLocal
  split <;> exact noted_of_part (by simp) h

theorem State.helloChanged_part (s : State) : s.helloChanged.part = s.part := by
  obtain ⟨f, h⟩ := s.helloChanged_eq
  rw [h]

theorem State.applyConfig_part (s : State) (cfg : List Byte) (epoch : Nat) : (s.applyConfig cfg epoch).part = s.part := by
  have hdig (f : Nat → Nat) (t : State) : (t.each (fun s i => s.setRn (0x34020 + 4 * i) (f i)) (List.range 12)).part = t.part :=
    State.each_keeps (fun s => s.part) (fun s i => s.setRn (0x34020 + 4 * i) (f i)) (fun _ _ => rfl) (List.range 12) t
  simp only [State.applyConfig, State.helloChanged_part, State.setRf_part, State.setRn_part, hdig]

theorem noted_setMb (s : State) (m : Nat) (h : Noted s) : Noted (if s.mbState m = 0 then s.setMb m mbIdle else s) := by
  split
  · exact noted_of_part (by simp [State.setMb]) h
  · exact h

/-- Firmware's start keeps the records that stand once the causes are taken. The kernel would evaluate the loops over all
tiers and mailboxes to compare two forms of the body: the body is therefore unfolded in an equation of functions, and the
loops' ranges are made variables (`id` keeps them so). -/
theorem noted_firmwareStart {s : State} {cause : Nat} {rd : PartReads} (h : Noted (s.causesTaken cause rd)) : Noted (s.firmwareStart cause rd) := by
  obtain ⟨start, hstart⟩ : ∃ start, start = @State.firmwareStart := ⟨_, rfl⟩
  rw [← hstart]
  delta State.firmwareStart at hstart
  rw [hstart]
  beta_reduce
  generalize List.range 131072 = l
  generalize List.range 16 = l'
  revert l l'
  refine id fun l l' => ?_
  extract_lets a latch ev b c d fw e f pw g i t m
  have hl : latch = s.latched rd := rfl
  have hc : c = s.causesHeard latch cause rd := rfl
  clear_value c latch
  have hf : f = c.flagOpened latch := rfl
  clear_value f
  have hi : i = f.unlatched.causeRestored := rfl
  clear_value i
  replace hi : Noted i := by rw [hi, hf, hc, hl]; exact h
  have hm : Noted m := State.each_pred Noted _ noted_setMb l' t (State.each_pred Noted _ (noted_bootTier rd) l i hi)
  clear_value m
  generalize m.part.settings rd = p
  obtain ⟨id, locals⟩ := p
  have hr : Noted (m.setRn 0x34000 id) := noted_of_part (by simp) hm
  dsimp only
  split
  · exact State.each_pred Noted _ noted_applyLocal locals _ (noted_of_part (State.applyConfig_part _ _ _) hr)
  · exact State.each_pred Noted _ noted_applyLocal locals _ (noted_of_part rfl hr)

/-- The enclave has taken over and verified the MP's image (R516, R519). -/
def State.imageTried (s : State) : Bool × State :=
  (({ s with dev := .boot, resetN := false, time := 0, pwr := { s.pwr with shut := false, pwrgood := true } } : State).setSec
    { s.sec.installRecovery with state := .operational }).bootImage 0

/-- The MP runs, its generators reseeded. -/
def State.mpStarted (s : State) : State := ({ s with mpUp := true } : State).reseedGenerators

theorem State.bootFail_part (s : State) (t k u : Nat) : (s.bootFail t k u).part = s.part := by
  have hrec : ((s.testRecord 0x0420 t k u).raiseFw 0x0420 k u).part = s.part := by simp [State.testRecord]
  simp only [State.bootFail]
  split
  · exact hrec
  · exact hrec

/-- The same for the whole start-up; firmware's start is made a variable, for the reason given above. -/
theorem noted_startUp {s t : State} {cause : Nat} {rd : PartReads} (hb : s.imageTried = (true, t))
    (h : Noted (t.mpStarted.causesTaken cause rd)) : Noted (s.startUp cause none rd) := by
  have hf := noted_firmwareStart h
  obtain ⟨up, hup⟩ : ∃ up, up = @State.startUp := ⟨_, rfl⟩
  rw [← hup]
  delta State.startUp at hup
  rw [hup]
  beta_reduce
  generalize @State.firmwareStart = start at hf ⊢
  revert start
  refine id fun start hf => ?_
  unfold State.imageTried at hb
  dsimp only at hb ⊢
  rw [hb]
  simp only [if_true, Bool.not_true, Bool.true_and, if_false, Bool.false_eq_true]
  unfold State.mpStarted at hf
  generalize start ({ t with mpUp := true } : State).reseedGenerators cause rd = u at hf ⊢
  have hk : Noted (u.bootImage 2).2 := noted_of_part (u.bootImage_spec 2).1.part hf
  have hh : Noted ((u.bootImage 2).2.bootImage 1).2 := noted_of_part ((u.bootImage 2).2.bootImage_spec 1).1.part hk
  split
  · exact hh
  · exact noted_of_part (State.bootFail_part _ _ _ _) hh

theorem noted_deviceReset {s : State} {cause : Nat} {rd : PartReads} (hb : (s.cleared .boot false).imageTried.1 = true)
    (h : Noted ((s.cleared .boot false).imageTried.2.mpStarted.causesTaken cause rd)) : Noted (s.deviceReset cause none rd) :=
  noted_startUp (Prod.ext hb rfl) h

theorem execWatchdogExpiry_next {s t : State} {enc : Option Nat} {rd : PartReads} (hm : s.mpUp = true) (hr : s.resetN = false)
    (h : exec (.watchdogExpiry enc rd) s = .next t) : t = s.deviceReset 4 enc rd := by
  simpa [exec, execWatchdogExpiry, hm, hr] using h.symm

/-! ### A latched cause that is none of the first stage's -/

/-- A running device whose first stage has latched 0x0132, the event of a tier's retirement. -/
def causeLatched : State :=
  { State.reset with dev := .running, mpUp := true, resetN := false, pwr := { Power.init with cause := 0x0132 } }

/-- Firmware takes the latched 0x0132 for a tier that retires and writes that tier's residency record. -/
theorem causeLatched_noted : Noted (causeLatched.deviceReset 4 none PartReads.none) :=
  noted_deviceReset (by decide +kernel) (by unfold Noted; decide +kernel)

/-- Refutes O8: the statement leaves the first stage's latch free, which only 0x0421, 0x0703 and 0x0722 ever set. Firmware
takes the latched cause as an event; at a latched 0x0132 it writes a residency record, although no tier's erase was open. -/
theorem not_startUpKeepsNonvolatile : ¬ Obligations.StartUpKeepsNonvolatile := by
  intro h
  obtain ⟨-, -, hreset⟩ := h causeLatched none PartReads.none
  obtain ⟨t, ht, hkept, -⟩ := (hreset rfl rfl).2.1
  have hnoted : Noted t := execWatchdogExpiry_next rfl rfl ht ▸ causeLatched_noted
  have hresid : t.part.resid = causeLatched.part.resid := hkept.resid fun u _ hopen => by cases hopen
  exact hnoted (by rw [hresid]; rfl)

end Sys2Proof.Machine
end

section
namespace Sys2Proof.Machine

/-! ### Messages on their way out (R353, R357) -/

/-- All that sending a message changes: ports, sequence numbers and what has gone out, and firmware may hear that the
destination cannot be reached. -/
def Sent (s t : State) : Prop :=
  ∃ p q l r, t = { s with fab := { s.fab with ports := p, seqs := q, out := s.fab.out ++ l },
                          fw := { s.fw with reports := s.fw.reports ++ r } }

theorem Sent.refl (s : State) : Sent s s := ⟨s.fab.ports, s.fab.seqs, [], [], by simp⟩

theorem Sent.trans {s t u : State} (h : Sent s t) (h' : Sent t u) : Sent s u := by
  obtain ⟨p, q, l, r, rfl⟩ := h
  obtain ⟨p', q', l', r', rfl⟩ := h'
  exact ⟨p', q', l ++ l', r ++ r', by simp⟩

theorem Sent.each {α : Type} {f : State → α → State} (h : ∀ s x, Sent s (f s x)) (l : List α) (s : State) : Sent s (s.each f l) :=
  State.each_pred (fun t => Sent s t) f (fun t x ht => ht.trans (h t x)) l s (.refl s)

section
variable (s : State)

theorem sent_emit (m : OutMsg) : Sent s (s.emit m) := ⟨s.fab.ports, s.fab.seqs, [m], [], by simp [State.emit]⟩
theorem sent_setPort (p : Nat) (x : Port) : Sent s (s.setPort p x) := 
  ⟨SMap.set (fun _ => Port.init) s.fab.ports p x, s.fab.seqs, [], [], by simp [State.setPort]⟩
theorem sent_raiseChip (c u : Nat) : Sent s (s.raise c 0 u) := 
  ⟨s.fab.ports, s.fab.seqs, [], [{ code := c, kind := 0, unit := u, job := 255, task := 0, count := 1 }],
    by simp [State.raise, State.report, unitRegion]⟩

theorem sent_seqs (q : SMap Nat) : Sent s { s with fab := { s.fab with seqs := q } } := ⟨s.fab.ports, q, [], [], by simp⟩

theorem sent_drainFlits (p n : Nat) : Sent s (State.drainFlits p n s) := by
  induction n generalizing s with
  | zero => exact .refl s
  | succ n ih =>
    simp only [State.drainFlits]
    split
    · exact .refl s
    · refine .trans ?_ (ih _)
      have hflit (x : Port) := sent_setPort s p x
      split
      · split
        · exact (hflit _).trans ((sent_emit _ _).trans (sent_emit _ _))
        · exact (hflit _).trans (sent_emit _ _)
      · exact hflit _

theorem sent_sendOn (p cls len : Nat) (m : OutMsg) : Sent s (s.sendOn p cls len m) :=
  (sent_setPort s p _).trans (sent_drainFlits _ p _)

theorem sent_sendVia (via : Option Nat) (dst cls len : Nat) (mk : Nat → Nat → OutMsg) : Sent s (s.sendVia via dst cls len mk).2 := by
  unfold State.sendVia
  dsimp only
  split
  · exact .refl s
  · split
    · exact sent_raiseChip s _ _
    · exact .trans (sent_seqs s _) (sent_sendOn _ _ _ _ _)

theorem sent_sendMsg (via : Option Nat) (dst cls tag : Nat) (l : List Byte) : Sent s (s.sendMsg via dst cls tag l).2 := by
  unfold State.sendMsg
  split
  · exact sent_emit s _
  · exact sent_sendVia s _ _ _ _ _
end

namespace Sent
variable {s t : State} (h : Sent s t)
include h
theorem store : t.store = s.store := by obtain ⟨_, _, _, _, rfl⟩ := h; rfl
theorem slots : t.slots = s.slots := by obtain ⟨_, _, _, _, rfl⟩ := h; rfl
theorem blocks : t.blocks = s.blocks := by obtain ⟨_, _, _, _, rfl⟩ := h; rfl
theorem time : t.time = s.time := by obtain ⟨_, _, _, _, rfl⟩ := h; rfl
theorem groups : t.fab.groups = s.fab.groups := by obtain ⟨_, _, _, _, rfl⟩ := h; rfl
theorem rounds : t.rounds = s.rounds := by obtain ⟨_, _, _, _, rfl⟩ := h; rfl
theorem early : t.fab.early = s.fab.early := by obtain ⟨_, _, _, _, rfl⟩ := h; rfl
theorem units : SameUnits s t := by obtain ⟨_, _, _, _, rfl⟩ := h; constructor <;> rfl
theorem mem : SameMem s t := .of_store h.store
end Sent

/-! ### Rounds under way -/

theorem Round.same_iff {a b : Round} : a.same b = true ↔
    a.job = b.job ∧ a.group = b.group ∧ a.step = b.step ∧ a.round = b.round ∧ a.beatOnly = b.beatOnly := by
  simp [Round.same, and_assoc]

theorem Round.same_refl (a : Round) : a.same a = true := same_iff.mpr ⟨rfl, rfl, rfl, rfl, rfl⟩
theorem Round.same_symm {a b : Round} (h : a.same b = true) : b.same a = true := by
  rw [same_iff] at *
  obtain ⟨h1, h2, h3, h4, h5⟩ := h
  exact ⟨h1.symm, h2.symm, h3.symm, h4.symm, h5.symm⟩
theorem Round.same_trans {a b c : Round} (h : a.same b = true) (h' : b.same c = true) : a.same c = true := by
  rw [same_iff] at *
  obtain ⟨h1, h2, h3, h4, h5⟩ := h
  obtain ⟨g1, g2, g3, g4, g5⟩ := h'
  exact ⟨h1.trans g1, h2.trans g2, h3.trans g3, h4.trans g4, h5.trans g5⟩

theorem State.mem_setRound {s : State} {r y : Round} :
    y ∈ (s.setRound r).rounds ↔ ∃ x ∈ s.rounds, (if x.same r then r else x) = y := List.mem_map

/-- A round that is written stands among the rounds when one of its kind did. -/
theorem State.mem_setRound_self {s : State} {r x : Round} (hx : x ∈ s.rounds) (h : x.same r = true) : r ∈ (s.setRound r).rounds :=
  State.mem_setRound.mpr ⟨x, hx, if_pos h⟩

theorem State.roundOf_mem {s : State} {e : Early} {r : Round} (h : s.roundOf e = some r) : r ∈ s.rounds := List.mem_of_find?_eq_some h

theorem State.roundAt_mem {s : State} {i : Nat} {r : Round} (h : s.roundAt i = some r) : r ∈ s.rounds := List.mem_of_getElem? h

/-- A predicate on rounds of one kind that every write of a round keeps. -/
theorem State.exists_setRound {s : State} {x r : Round} {P : Round → Prop} (hx : ∃ y ∈ s.rounds, y.same x = true ∧ P y)
    (hr : r.same x = true → P r) : ∃ y ∈ (s.setRound r).rounds, y.same x = true ∧ P y := by
  obtain ⟨y, hy, hs, hP⟩ := hx
  by_cases h : y.same r = true
  · have hrx := Round.same_trans (Round.same_symm h) hs
    exact ⟨r, mem_setRound_self hy h, hrx, hr hrx⟩
  · exact ⟨y, State.mem_setRound.mpr ⟨y, hy, if_neg h⟩, hs, hP⟩

/-! ### Slot boundaries (R376) -/

/-- What the rounds handled at a slot boundary leave as it was: every round keeps its kind and class. -/
structure Slotted (s t : State) : Prop where
  store  : t.store = s.store
  slots  : t.slots = s.slots
  groups : t.fab.groups = s.fab.groups
  time   : t.time = s.time
  kinds  : ∀ y ∈ t.rounds, ∃ z ∈ s.rounds, y.beatOnly = z.beatOnly ∧ y.job = z.job ∧ y.step = z.step ∧ y.cls = z.cls
  kept   : ∀ x ∈ s.rounds, ∃ y ∈ t.rounds, y.same x = true

theorem Slotted.refl (s : State) : Slotted s s :=
  ⟨rfl, rfl, rfl, rfl, fun y hy => ⟨y, hy, rfl, rfl, rfl, rfl⟩, fun x hx => ⟨x, hx, x.same_refl⟩⟩

theorem Slotted.sent {s t u : State} (h : Slotted s t) (h' : Sent t u) : Slotted s u :=
  ⟨h'.store.trans h.store, h'.slots.trans h.slots, h'.groups.trans h.groups, h'.time.trans h.time,
    fun y hy => h.kinds y (h'.rounds ▸ hy), fun x hx => h'.rounds ▸ h.kept x hx⟩

theorem Slotted.setRound {s t : State} (h : Slotted s t) {r x : Round} (hx : x ∈ s.rounds)
    (hr : r.beatOnly = x.beatOnly ∧ r.job = x.job ∧ r.step = x.step ∧ r.cls = x.cls) : Slotted s (t.setRound r) := by
  refine ⟨h.store, h.slots, h.groups, h.time, fun y hy => ?_, fun z hz => ?_⟩
  · obtain ⟨w, hw, rfl⟩ := State.mem_setRound.mp hy
    split
    · exact ⟨x, hx, hr⟩
    · exact h.kinds w hw
  · obtain ⟨y, hy, hs⟩ := h.kept z hz
    obtain ⟨w, hw, hws, -⟩ := State.exists_setRound (r := r) (P := fun _ => True) ⟨y, hy, hs, trivial⟩ fun _ => trivial
    exact ⟨w, hw, hws⟩

section
variable {s t : State} (h : Slotted s t)
include h
theorem Slotted.rf (a hi lo : Nat) : t.rf a hi lo = s.rf a hi lo := by rw [State.rf, State.rn, State.reg_of_store h.store]; rfl
theorem Slotted.members (r : Round) : t.members r = s.members r := by rw [State.members, State.ring, State.rail, h.groups]; rfl
theorem Slotted.ownId : t.ownId = s.ownId := h.rf _ _ _
theorem Slotted.children (n i : Nat) : t.children n i = s.children n i := by
  rw [State.children, State.fanout, h.rf]; rfl

theorem Slotted.gradDone {j n : Nat} (hg : s.gradDone j n = true) : t.gradDone j n = true := by
  have hslot : t.slot j = s.slot j := by rw [State.slot, h.slots]; rfl
  simp only [State.gradDone, Bool.and_eq_true, hslot, State.rbit, h.rf] at hg ⊢
  refine ⟨⟨hg.1.1, ?_⟩, hg.2⟩
  rw [List.all_eq_true]
  intro y hy
  obtain ⟨z, hz, h1, h2, h3, h4⟩ := h.kinds y hy
  rw [h1, h2, h3, h4]
  exact List.all_eq_true.mp hg.1.2 z hz

theorem Slotted.ownDone {r : Round} (hd : s.ownDone r = true) : t.ownDone r = true := by
  unfold State.ownDone at *
  split at hd
  · rw [if_pos ‹_›]; exact h.gradDone hd
  · rw [if_neg ‹_›]; exact hd
end

theorem sent_sendDown (s : State) (r : Round) (b bl at_ : Nat) : Sent s (s.sendDown r b bl at_) :=
  Sent.each (fun s _ => sent_sendMsg s _ _ _ _ _) _ s

/-- At a slot boundary a round is left alone, or sends its up beat. -/
theorem State.slotRound_cases (s : State) (now : Nat) (r : Round) :
    (s.slotRound now r = s ∧ (r.upSent || !s.ownDone r ||
      !((s.children (s.members r).length (indexOf (s.members r) s.ownId)).all fun k => r.ups.contains k)) = true) ∨
    ∃ r', r'.same r = true ∧ r'.cls = r.cls ∧ r'.upSent = true ∧ Sent (s.setRound r') (s.slotRound now r) := by
  simp only [State.slotRound]
  split
  · exact .inl ⟨rfl, ‹_›⟩
  · right
    split
    · refine ⟨_, ?_, ?_, ?_, sent_sendDown _ _ _ _ _⟩
      · exact Round.same_iff.mpr ⟨rfl, rfl, rfl, rfl, rfl⟩
      · rfl
      · rfl
    · refine ⟨_, ?_, ?_, ?_, sent_sendMsg _ _ _ _ _ _⟩
      · exact Round.same_iff.mpr ⟨rfl, rfl, rfl, rfl, rfl⟩
      · rfl
      · rfl

theorem Slotted.slotRound {s t : State} (h : Slotted s t) {r : Round} (hr : r ∈ s.rounds) (now : Nat) : Slotted s (t.slotRound now r) := by
  obtain ⟨he, -⟩ | ⟨r', hs, hc, -, hsent⟩ := t.slotRound_cases now r
  · rw [he]; exact h
  · obtain ⟨h1, h2, h3, h4, h5⟩ := Round.same_iff.mp hs
    exact (h.setRound hr ⟨h5, h1, h3, hc⟩).sent hsent

/-- A round whose up beat has gone. -/
def State.beatSent (s : State) (x : Round) : Prop := ∃ y ∈ s.rounds, y.same x = true ∧ y.upSent = true

theorem State.slotRound_keeps_beatSent {s : State} {x : Round} (h : s.beatSent x) (now : Nat) (r : Round) : (s.slotRound now r).beatSent x := by
  obtain ⟨he, -⟩ | ⟨r', -, -, hu, hsent⟩ := s.slotRound_cases now r
  · rw [he]; exact h
  · rw [State.beatSent, hsent.rounds]
    exact State.exists_setRound h fun _ => hu

/-- All rounds of a list at a slot boundary: each that could send its up beat has sent it. -/
theorem State.each_slotRound (s : State) (now : Nat) (l : List Round) (hl : ∀ r ∈ l, r ∈ s.rounds) (t : State) (h : Slotted s t) :
    Slotted s (t.each (fun s r => s.slotRound now r) l) ∧
    (∀ x, t.beatSent x → (t.each (fun s r => s.slotRound now r) l).beatSent x) ∧
    ∀ x ∈ l, x.upSent = false → s.ownDone x = true →
      (∀ k ∈ s.children (s.members x).length (indexOf (s.members x) s.ownId), k ∈ x.ups) →
      (t.each (fun s r => s.slotRound now r) l).beatSent x := by
  induction l generalizing t with
  | nil => exact ⟨h, fun _ hx => hx, fun _ hx => by cases hx⟩
  | cons r l ih =>
    have hr := hl r List.mem_cons_self
    obtain ⟨h1, h2, h3⟩ := ih (fun y hy => hl y (List.mem_cons_of_mem _ hy)) _ (h.slotRound hr now)
    refine ⟨h1, fun x hx => h2 x (State.slotRound_keeps_beatSent hx now r), fun x hx hu hd hk => ?_⟩
    cases hx with
    | tail _ hx => exact h3 x hx hu hd hk
    | head =>
      refine h2 _ ?_
      obtain ⟨-, hidle⟩ | ⟨r', hs, -, hu', hsent⟩ := t.slotRound_cases now r
      · rw [hu, h.ownDone hd, h.members, h.children, h.ownId] at hidle
        simp at hidle
        obtain ⟨k, hkc, hkn⟩ := hidle
        exact absurd (hk k hkc) hkn
      · obtain ⟨y, hy, hys⟩ := h.kept r hr
        rw [State.beatSent, hsent.rounds]
        exact ⟨r', State.mem_setRound_self hy (Round.same_trans hys (Round.same_symm hs)), hs, hu'⟩
end Sys2Proof.Machine
end

section
namespace Sys2Proof.Machine

/-! ### What the handling of a round's data leaves alone -/

/-- No cell, no round and no message that waits has changed. -/
structure Aside (s t : State) : Prop where
  cells  : ∀ k, t.cell k = s.cell k
  rounds : t.rounds = s.rounds
  early  : t.fab.early = s.fab.early

theorem Aside.refl (s : State) : Aside s s := ⟨fun _ => rfl, rfl, rfl⟩
theorem Aside.trans {s t u : State} (h : Aside s t) (h' : Aside t u) : Aside s u :=
  ⟨fun k => (h'.cells k).trans (h.cells k), h'.rounds.trans h.rounds, h'.early.trans h.early⟩

theorem Sent.aside {s t : State} (h : Sent s t) : Aside s t := ⟨h.mem.cells, h.rounds, h.early⟩

theorem Aside.of_fab {s t : State} (hc : ∀ k, t.cell k = s.cell k) (hf : t.fab = s.fab) : Aside s t :=
  ⟨hc, by rw [State.rounds, hf]; rfl, by rw [hf]⟩

section
variable (s : State)
theorem aside_flushed (j : Nat) : Aside s (s.flushed j) := .of_fab (fun _ => rfl) rfl
theorem aside_nanReport (j : Nat) (r : NanRep) : Aside s (s.nanReport j r) := .of_fab (fun _ => rfl) rfl
theorem aside_raiseJ (c k u j t : Nat) : Aside s (s.raiseJ c k u j t) := .of_fab (fun _ => by simp) (by simp)
theorem aside_bump (a hi lo k : Nat) : Aside s (s.bump a hi lo k) := .of_fab (fun _ => rfl) rfl
theorem aside_wr (sp : Space) (a : Nat) (l : List Byte) : Aside s (s.wr sp a l) := .of_fab (fun _ => by simp) (by simp)
theorem aside_linkDraw (n : Nat) : Aside s (s.linkDraw n).2 := .of_fab (fun _ => rfl) rfl

theorem aside_wrPages (a : BAddr) (n : Nat) (l : List Byte) : Aside s (s.wrPages a n l) := by
  induction n generalizing s a l with
  | zero => exact .refl s
  | succ n ih =>
    cases l with
    | nil => exact .refl s
    | cons b l => exact (aside_wr s _ _ _).trans (ih _ _ _)

theorem aside_wrAt (a : BAddr) (l : List Byte) : Aside s (s.wrAt a l) := by
  unfold State.wrAt
  split
  · exact aside_wr s _ _ _
  · exact aside_wrPages s _ _ _
end

/-- The same round and attempt. -/
structure Round.Kin (a b : Round) : Prop where
  same    : a.same b = true
  attempt : a.attempt = b.attempt
  reruns  : a.reruns = b.reruns
  down    : a.down = b.down

theorem Round.Kin.refl (a : Round) : a.Kin a := ⟨a.same_refl, rfl, rfl, rfl⟩
theorem Round.Kin.trans {a b c : Round} (h : a.Kin b) (h' : b.Kin c) : a.Kin c :=
  ⟨same_trans h.same h'.same, h.attempt.trans h'.attempt, h.reruns.trans h'.reruns, h.down.trans h'.down⟩

/-- A step that handles data of a round answers the same round, and leaves the others alone. -/
def Handles (s : State) (r : Round) (p : Round × State) : Prop := p.1.Kin r ∧ Aside s p.2

section
variable (s : State) (r : Round)

theorem handles_noteElems (es : List Elem) : Handles s r (s.noteElems r es) := by
  refine ⟨⟨Round.same_iff.mpr ⟨rfl, rfl, rfl, rfl, rfl⟩, rfl, rfl, rfl⟩, ?_⟩
  simp only [State.noteElems]
  split
  · exact aside_flushed s _
  · exact .refl s

theorem handles_noteNonfinite (rail first src : Nat) (l : List FpNum) : Handles s r (s.noteNonfinite r rail first src l) := by
  unfold State.noteNonfinite
  split
  · exact ⟨.refl r, .refl s⟩
  · exact ⟨⟨Round.same_iff.mpr ⟨rfl, rfl, rfl, rfl, rfl⟩, rfl, rfl, rfl⟩, aside_nanReport s _ _⟩

theorem aside_sendTile (rail stage tile c kmax : Nat) (ws : List Nat) (data : List Byte) :
    Aside s (s.sendTile r rail stage tile c kmax ws data) := by
  simp only [State.sendTile]
  split
  · exact ((sent_sendVia s _ _ _ _ _).trans (sent_sendVia _ _ _ _ _ _)).aside
  · exact (sent_sendVia s _ _ _ _ _).aside

theorem Handles.trans {s t : State} {r r' : Round} {p : Round × State} (h : Handles s r (r', t)) (h' : Handles t r' p) : Handles s r p :=
  ⟨h'.1.trans h.1, h.2.trans h'.2⟩

theorem Handles.then {s t : State} {r : Round} {p : Round × State} (h : Handles s r p) (h' : Aside p.2 t) : Handles s r (p.1, t) :=
  ⟨h.1, h.2.trans h'⟩

theorem Handles.after {s t : State} {r : Round} {p : Round × State} (h : Aside s t) (h' : Handles t r p) : Handles s r p :=
  ⟨h'.1, h.trans h'.2⟩

theorem aside_ownTile (n rail shard tile : Nat) : Aside s (s.ownTile r n rail shard tile).2 := aside_linkDraw s _

theorem handles_sendOwn (n rail shard k tile : Nat) : Handles s r (s.sendOwn r n rail shard k tile) := by
  have hown := aside_ownTile s r n rail shard tile
  unfold State.sendOwn
  generalize s.ownTile r n rail shard tile = p at hown
  obtain ⟨es, t⟩ := p
  dsimp only at hown ⊢
  obtain ⟨u, hu, hout⟩ : ∃ u, Aside t u ∧ u = (if r.op = 1 then t.wrAt (r.dst.plus ((r.tileAt n rail shard tile).1 * r.wireW)) (r.bytes (es.map fun e => e.code)) else t) := by
    refine ⟨_, ?_, rfl⟩
    split
    · exact aside_wrAt t _ _
    · exact .refl t
  rw [← hout]
  have h1 := handles_noteElems u r es
  generalize u.noteElems r es = p at h1
  obtain ⟨r1, s1⟩ := p
  dsimp only
  have h2 := handles_noteNonfinite s1 r1 rail (r.tileAt n rail shard tile).1 s1.ownId (es.map fun e => e.sum)
  generalize s1.noteNonfinite r1 rail _ _ _ = p at h2
  obtain ⟨r2, s2⟩ := p
  exact Handles.after (hown.trans hu) ((h1.trans h2).then (aside_sendTile _ _ _ _ _ _ _ _ _))

/-- Stage 0 ends with the round written. -/
theorem State.sendStage0_eq (n : Nat) : ∃ p, Handles s r p ∧ s.sendStage0 r n = p.2.setRound p.1 := by
  refine ⟨_, ?_, rfl⟩
  generalize ((List.range r.runs.length).map fun rail => (List.range (r.tiles n)).map fun tile => (rail, tile)).flatten = l
  suffices h : ∀ p, Handles s r p → Handles s r (l.foldl (fun (x : Round × State) (y : Nat × Nat) =>
      let i := x.2.ringIndex x.1 y.1
      let shard := if r.op = 1 then i else (i + n - 1) % n
      x.2.sendOwn x.1 n y.1 shard (x.2.shardK x.1 n y.1 shard) y.2) p) from h (r, s) ⟨.refl r, .refl s⟩
  induction l with
  | nil => exact fun p hp => hp
  | cons y l ih => exact fun p hp => ih _ (hp.trans (handles_sendOwn _ _ _ _ _ _ _))

theorem handles_takeTile (x : RailRun) (d : Cdata) : ∃ p, Handles s r p ∧ s.takeTile r x d = p.2.setRound p.1 := by
  obtain ⟨T, hT⟩ : ∃ T, T = s.takeTile r x d := ⟨_, rfl⟩
  rw [← hT]
  unfold State.takeTile at hT
  extract_lets n i dn red t shard sender s0 src at hT
  split at hT
  rename_i first count hc
  extract_lets inp l fails s1 s2 at hT
  have h1 : Aside s s1 := by
    unfold s1
    split
    · exact (aside_bump s _ _ _ _).trans ((aside_raiseJ _ _ _ _ _ _).trans (sent_sendMsg _ _ _ _ _ _).aside)
    · exact .refl s
  have h2 : Aside s s2 := by
    unfold s2
    split
    · exact h1.trans (aside_flushed s1 _)
    · exact h1
  have h3 := Handles.after h2 (handles_noteNonfinite s2 r d.rail first sender l)
  split at hT
  rename_i r3 s3 hn
  rw [hn] at h3
  extract_lets r4 last out at hT
  have hr4 : r4.Kin r3 := ⟨Round.same_iff.mpr ⟨rfl, rfl, rfl, rfl, rfl⟩, rfl, rfl, rfl⟩
  have h4 : Handles s r (r4, s3) := ⟨hr4.trans h3.1, h3.2⟩
  generalize hp : (if red = true then _ else _ : Round × State) = p at hT
  have h5 : Handles s r p := by
    split at hp
    · have hd := aside_linkDraw s3 count
      split at hp
      rename_i g s4 hg
      rw [hg] at hd
      extract_lets own at hp
      have h5 := handles_noteNonfinite s4 r4 d.rail first s4.ownId (own.map fun v => v.1)
      split at hp
      rename_i r5 s5 hn5
      rw [hn5] at h5
      extract_lets es at hp
      have h6 := handles_noteElems s5 r5 es
      split at hp
      rename_i r6 s6 hn6
      rw [hn6] at h6
      extract_lets data words s7 at hp
      have h7 : Aside s6 s7 := by
        unfold s7
        split
        · exact aside_wrAt s6 _ _
        · exact .refl s6
      have h8 : Handles s r (r6, s7) := (h4.trans ((Handles.after hd h5).trans h6)).then h7
      rw [← hp]
      refine h8.then ?_
      dsimp only
      split
      · exact .refl s7
      · exact aside_sendTile s7 _ _ _ _ _ _ _ _
    · rw [← hp]
      refine h4.then ((aside_wrAt s3 out d.data).trans ?_)
      split
      · exact .refl _
      · exact aside_sendTile _ _ _ _ _ _ _ _ _
  obtain ⟨r6, s6⟩ := p
  refine ⟨(_, s6), ?_, hT⟩
  exact h5.trans ⟨⟨Round.same_iff.mpr ⟨rfl, rfl, rfl, rfl, rfl⟩, rfl, rfl, rfl⟩, .refl _⟩
end
end Sys2Proof.Machine
end

section
namespace Sys2Proof.Machine

/-! ### A round's attempt -/

/-- A round is under way in a certain attempt. -/
structure State.InAttempt (s : State) (r : Round) (n m : Nat) : Prop where
  one : ∃ y ∈ s.rounds, y.same r = true
  all : ∀ y ∈ s.rounds, y.same r = true → y.attempt = n ∧ y.reruns = m

/-- The cells stay, and so does the attempt of every round. -/
structure Attempts (s t : State) : Prop where
  cells : ∀ k, t.cell k = s.cell k
  tries : ∀ r n m, s.InAttempt r n m → t.InAttempt r n m

theorem Attempts.refl (s : State) : Attempts s s := ⟨fun _ => rfl, fun _ _ _ h => h⟩
theorem Attempts.trans {s t u : State} (h : Attempts s t) (h' : Attempts t u) : Attempts s u :=
  ⟨fun k => (h'.cells k).trans (h.cells k), fun r n m hr => h'.tries r n m (h.tries r n m hr)⟩

theorem Aside.attempts {s t : State} (h : Aside s t) : Attempts s t :=
  ⟨h.cells, fun _ _ _ hr => ⟨h.rounds ▸ hr.one, h.rounds ▸ hr.all⟩⟩

section
variable (s : State)

theorem attempts_setRound {y z : Round} (hz : z ∈ s.rounds) (hs : y.same z = true) (ha : y.attempt = z.attempt) (hm : y.reruns = z.reruns) :
    Attempts s (s.setRound y) := by
  refine ⟨fun _ => rfl, fun r n m h => ⟨?_, fun w hw hws => ?_⟩⟩
  · obtain ⟨x, hx, hxs⟩ := h.one
    obtain ⟨w, hw, hws, -⟩ := State.exists_setRound (r := y) (P := fun _ => True) ⟨x, hx, hxs, trivial⟩ fun _ => trivial
    exact ⟨w, hw, hws⟩
  · obtain ⟨x, hx, rfl⟩ := State.mem_setRound.mp hw
    split at hws
    · rw [if_pos ‹_›, ha, hm]
      exact h.all z hz (Round.same_trans (Round.same_symm hs) hws)
    · rw [if_neg ‹_›]
      exact h.all x hx hws

theorem attempts_hold (e : Early) : Attempts s (s.hold e) := ⟨fun _ => rfl, fun _ _ _ h => ⟨h.one, h.all⟩⟩

variable {s} {r : Round} (hr : r ∈ s.rounds)
include hr

theorem attempts_loseRound : Attempts s (s.loseRound r) := by
  refine .trans ?_ (aside_raiseJ _ _ _ _ _ _).attempts
  exact attempts_setRound s hr (Round.same_iff.mpr ⟨rfl, rfl, rfl, rfl, rfl⟩) rfl rfl

theorem attempts_takeChdr (h : Chdr) : Attempts s (s.takeChdr r h) := by
  unfold State.takeChdr
  split
  · exact .refl s
  · split
    · exact .refl s
    · split
      · refine .trans ?_ (aside_raiseJ _ _ _ _ _ _).attempts
        exact attempts_setRound s hr (Round.same_iff.mpr ⟨rfl, rfl, rfl, rfl, rfl⟩) rfl rfl
      · split
        · exact attempts_loseRound hr
        · exact attempts_setRound s hr (Round.same_iff.mpr ⟨rfl, rfl, rfl, rfl, rfl⟩) rfl rfl

theorem attempts_takeCdata (d : Cdata) : Attempts s (s.takeCdata r d) := by
  unfold State.takeCdata
  split
  · exact .refl s
  · split
    · exact .refl s
    · split
      · exact attempts_loseRound hr
      · obtain ⟨p, ⟨hk, ha⟩, he⟩ := handles_takeTile s r ‹_› d
        rw [he]
        exact ha.attempts.trans (attempts_setRound _ (ha.rounds ▸ hr) hk.same hk.attempt hk.reruns)

theorem attempts_takeBeat (src : Nat) (p : List Byte) : Attempts s (s.takeBeat r src p) := by
  simp only [State.takeBeat]
  split
  · split
    · exact .refl s
    · have h : Attempts s ((s.setRound { r with down := some (byteN p 16 2, byteN p 18 2, byteN p 24 8) }).sendDown r (byteN p 16 2)
          (byteN p 18 2) (byteN p 24 8)) := by
        refine .trans ?_ (sent_sendDown _ _ _ _ _).aside.attempts
        exact attempts_setRound s hr (Round.same_iff.mpr ⟨rfl, rfl, rfl, rfl, rfl⟩) rfl rfl
      split
      · exact h.trans (aside_raiseJ _ _ _ _ _ _).attempts
      · exact h
  · split
    · exact .refl s
    · split
      · split
        · exact attempts_hold s _
        · exact .refl s
      · exact attempts_setRound s hr (Round.same_iff.mpr ⟨rfl, rfl, rfl, rfl, rfl⟩) rfl rfl
end

theorem attempts_arrive (s : State) (e : Early) : Attempts s (s.arrive e) := by
  unfold State.arrive
  split
  · split
    · exact attempts_hold s e
    · exact .refl s
  · have hr := State.roundOf_mem ‹_›
    split
    · split
      · exact attempts_takeChdr hr _
      · split
        · exact attempts_hold s _
        · exact .refl s
    · split
      · exact attempts_takeCdata hr _
      · split
        · exact attempts_hold s _
        · exact .refl s
    · exact attempts_takeBeat hr _ _

theorem attempts_replayEarly (s : State) : Attempts s s.replayEarly :=
  .trans (t := { s with fab := { s.fab with early := [] } }) ⟨fun _ => rfl, fun _ _ _ h => ⟨h.one, h.all⟩⟩
    (State.each_pred (fun t => Attempts _ t) State.arrive (fun t e ht => ht.trans (attempts_arrive t e)) _ _ (.refl _))

theorem State.replayEarly_rounds {s : State} (h : s.fab.early = []) : s.replayEarly.rounds = s.rounds := by
  simp only [State.replayEarly, h]
  rfl

/-- The round as its next attempt begins (R379). -/
def Round.again (r : Round) : Round :=
  { r with
    attempt := r.attempt + 1, runs := r.runs.map fun _ => RailRun.init, nf := false, reject := false, lost := false,
    refused := false, blame := 0x3FFF, done := false, ups := [], upSent := false, down := none, reruns := r.reruns + 1,
    waitMs := 0, dataMs := 0 }

theorem State.rerunRound_eq (s : State) (r : Round) :
    s.rerunRound r = ((s.setRound r.again).sendStage0 r.again (s.members r).length).replayEarly := rfl

/-- A round that runs again keeps its kind, is in the next attempt, and has no verdict unless messages wait for it (R379). -/
theorem State.rerunRound_next {s : State} {r : Round} (hr : r ∈ s.rounds) : (∀ k, (s.rerunRound r).cell k = s.cell k) ∧
    ∃ r' ∈ (s.rerunRound r).rounds, r'.same r = true ∧ r'.attempt = r.attempt + 1 ∧ r'.reruns = r.reruns + 1 ∧
      (s.fab.early = [] → r'.down = none) := by
  obtain ⟨q, hq⟩ : ∃ q, q = r.again := ⟨_, rfl⟩
  have hqr : q.same r = true := by rw [hq]; exact Round.same_iff.mpr ⟨rfl, rfl, rfl, rfl, rfl⟩
  have hqs := State.mem_setRound_self hr (Round.same_symm hqr)
  obtain ⟨⟨r', t⟩, ⟨hk, ht⟩, he⟩ := State.sendStage0_eq (s.setRound q) q (s.members r).length
  rw [State.rerunRound_eq, ← hq, he]
  dsimp only at hk ht ⊢
  have hrep := attempts_replayEarly (t.setRound r')
  have hr' : r' ∈ (t.setRound r').rounds := State.mem_setRound_self (ht.rounds ▸ hqs) (Round.same_symm hk.same)
  have hn : r'.attempt = r.attempt + 1 ∧ r'.reruns = r.reruns + 1 ∧ r'.down = none := by
    rw [hk.attempt, hk.reruns, hk.down, hq]
    exact ⟨rfl, rfl, rfl⟩
  have hrr := Round.same_trans hk.same hqr
  refine ⟨fun k => (hrep.cells k).trans (ht.cells k), ?_⟩
  by_cases hemp : s.fab.early = []
  · rw [State.replayEarly_rounds (show (t.setRound r').fab.early = [] from ht.early.trans hemp)]
    exact ⟨r', hr', hrr, hn.1, hn.2.1, fun _ => hn.2.2⟩
  · have hin : (t.setRound r').InAttempt r (r.attempt + 1) (r.reruns + 1) := by
      refine ⟨⟨r', hr', hrr⟩, fun y hy hs => ?_⟩
      obtain ⟨x, -, rfl⟩ := State.mem_setRound.mp hy
      by_cases hx : x.same r' = true
      · rw [if_pos hx]
        exact ⟨hn.1, hn.2.1⟩
      · rw [if_neg hx] at hs
        exact absurd (Round.same_trans hs (Round.same_symm hrr)) hx
    obtain ⟨⟨y, hy, hs⟩, hall⟩ := hrep.tries r _ _ hin
    obtain ⟨ha, hm⟩ := hall y hy hs
    exact ⟨y, hy, hs, ha, hm, fun h => absurd h hemp⟩
end Sys2Proof.Machine
end

section
namespace Sys2Proof.Machine

/-! ### Reports of the chip as a whole -/

section
variable (s : State) (c u j t : Nat)

theorem State.raiseJ_chip_reg (a : Nat) : (s.raiseJ c 0 u j t).reg a = s.reg a := rfl

theorem State.raiseJ_chip_heard : (s.raiseJ c 0 u j t).Heard c 0 u :=
  .inl ⟨_, List.mem_append_right _ List.mem_cons_self, rfl, rfl, rfl⟩
end

theorem State.bump_rf_same (s : State) (a k : Nat) : (s.bump a 31 0 k).rf a 31 0 = min (2 ^ 32 - 1) (s.rf a 31 0 + k) := by
  rw [State.bump, State.setRf_rf_same s a 31 0 _ (by decide) (by decide)]
  omega

theorem numReg_ne {j x y : Nat} (h : x ≠ y) : numReg j x ≠ numReg j y := by
  simp only [numReg]
  omega

/-- A bit that is written reads as its value. -/
theorem State.setRf_rbit_same (s : State) (a v : Nat) {i : Nat} (h : i < 32) : (s.setRf a i i v).rbit a i = decide (v % 2 = 1) := by
  have e := State.setRf_rf_same s a i i v h (le_refl i)
  rw [show i + 1 - i = 1 by omega] at e
  simp only [State.rbit, e, pow_one]

theorem State.setRf_rbit_other (s : State) (a v : Nat) {i k : Nat} (hi : i < 32) (h : k ≠ i) : (s.setRf a i i v).rbit a k = s.rbit a k := by
  have e := State.setRf_rf_other s a i i v k k hi (le_refl i) (le_refl k) (by omega)
  simp only [State.rbit, e]

theorem enc2c_lt (w : Nat) (v : Int) : enc2c w v < 2 ^ w := by
  have h0 : (0 : Int) < (2 ^ w : Nat) := by exact_mod_cast Nat.two_pow_pos w
  have h1 := Int.emod_lt_of_pos v h0
  have h2 := Int.emod_nonneg v h0.ne'
  rw [enc2c]
  omega

/-! ### A step's verdict (R222, R226, R228, R232) -/

/-- The watches of a job write watch registers and its counts of the steps past. -/
structure Watched (s t : State) (j : Nat) : Prop where
  regs  : ∀ a, a < 0x10000 → t.reg a = s.reg a
  mem   : SameMem s t
  fab   : t.fab = s.fab
  time  : t.time = s.time
  slots : ∀ i, ∃ m n, t.slot i = { s.slot i with zgwN := m, zgwNz := n }

theorem Watched.refl (s : State) (j : Nat) : Watched s s j := ⟨fun _ _ => rfl, .refl s, rfl, rfl, fun _ => ⟨_, _, rfl⟩⟩
theorem Watched.trans {s t u : State} {j : Nat} (h : Watched s t j) (h' : Watched t u j) : Watched s u j := by
  refine ⟨fun a ha => (h'.regs a ha).trans (h.regs a ha), h.mem.trans h'.mem, h'.fab.trans h.fab, h'.time.trans h.time, fun i => ?_⟩
  obtain ⟨m, n, h1⟩ := h.slots i
  obtain ⟨m', n', h2⟩ := h'.slots i
  exact ⟨m', n', by rw [h2, h1]⟩

section
variable (s : State) (j : Nat)

theorem watched_setRn {e x : Nat} (v : Nat) : Watched s (s.setRn (zgwReg e x) v) j := by
  refine ⟨fun a ha => ?_, sameMem_setRn s _ _, rfl, rfl, fun _ => ⟨_, _, rfl⟩⟩
  rw [State.setRn_reg, if_neg (by simp only [zgwReg]; omega)]

theorem watched_report (r : Report) : Watched s (s.report r) j := by
  refine ⟨fun a ha => State.report_reg_low s r (by omega), ?_, by simp, by simp,
    fun i => ⟨(s.slot i).zgwN, (s.slot i).zgwNz, by rw [State.report_slot]⟩⟩
  exact ⟨fun k => by simp, fun sp a => by simp, fun k => by simp⟩

theorem watched_watchEval (e : Nat) : Watched s (s.watchEval j e) j := by
  simp only [State.watchEval]
  split
  · generalize ht : s.setRn (zgwReg e 0xC) _ = t
    have h : Watched s t j := ht ▸ watched_setRn s j _
    refine h.trans ?_
    split
    · have hrun := watched_setRn t j (e := e) (x := 8) (putFld (t.rn (zgwReg e 8)) 15 0 (min 65535 (t.rf (zgwReg e 8) 15 0 + 1)))
      split
      · exact (hrun.trans (watched_setRn _ j _)).trans (watched_report _ j _)
      · exact hrun
    · exact watched_setRn t j _
  · exact .refl s j

theorem watched_watchVerdict (nf : Bool) : Watched s (s.watchVerdict j nf) j := by
  simp only [State.watchVerdict]
  have h : Watched s (if nf then s else s.each (fun s e => s.watchEval j e) (List.range 4096)) j := by
    split
    · exact .refl s j
    · exact State.each_pred (fun t => Watched s t j) _ (fun t e ht => ht.trans (watched_watchEval t j e)) _ s (.refl s j)
  refine h.trans ⟨fun _ _ => rfl, SameMem.of_store rfl, rfl, rfl, fun i => ?_⟩
  rw [State.setSlot_get]
  split
  · rw [‹i = j›]
    exact ⟨_, _, rfl⟩
  · exact ⟨_, _, rfl⟩

/-- The flags move up: this step's verdict is shown, and the next step's flag becomes the present one (R222). -/
def State.moveFlags (nf : Bool) : State :=
  let s := s.setRf (numReg j 4) 7 7 (b2n nf)
  let s := s.setRf (numReg j 4) 5 5 (s.rf (numReg j 4) 6 6)
  s.setRf (numReg j 4) 6 6 0

/-- The verdict of the next step is due. -/
def State.nextVerdict : State := s.setSlot j { s.slot j with vstep := (s.slot j).vstep + 1 }

/-- A skipped step is counted and reported (R228). -/
def State.countSkip : State := (s.bump (numReg j 0xC) 31 0 1).raiseJ 0x0910 0 0 j 0

/-- The loss scale after a nonfinite step: one lower, unless it stands at its floor (R232). -/
def State.lowerLoss (e : Int) : State :=
  if -8 < e then s.setRn (numReg j 8) (enc2c 6 (e - 1))
  else ((s.setBit (numReg j 4) 4).setRf (numReg j 8) 31 16 0).raiseJ 0x0912 0 0 j 0

/-- The loss scale after a clean step: one more clean step, or one higher (R232). -/
def State.raiseLoss (e : Int) (clean interval : Nat) : State :=
  if clean + 1 < interval then s.setRf (numReg j 8) 31 16 (clean + 1)
  else if e < 24 then (s.setRn (numReg j 8) (enc2c 6 (e + 1))).raiseJ 0x0911 0 0 j 0
  else s.setRf (numReg j 8) 31 16 0

/-- Loss scale and skip count after a verdict, from the values before it (R226, R232). -/
def State.scaleLoss (nf lsEn : Bool) (e : Int) (clean interval : Nat) : State :=
  if nf then if !lsEn then s.countSkip j else (s.countSkip j).lowerLoss j e
  else if !lsEn then s else s.raiseLoss j e clean interval

theorem State.verdictNumeric_eq (nf : Bool) : s.verdictNumeric j nf = ((s.moveFlags j nf).nextVerdict j).scaleLoss j nf (s.rbit (numReg j 0) 2)
    (sext 6 (s.rf (numReg j 8) 5 0)) (s.rf (numReg j 8) 31 16) (s.rf (numReg j 0) 31 16) := rfl

theorem State.moveFlags_reg (nf : Bool) {x : Nat} (h : x ≠ 4) : (s.moveFlags j nf).reg (numReg j x) = s.reg (numReg j x) := by
  simp [State.moveFlags, numReg_ne h]

theorem State.moveFlags_shown (nf : Bool) : (s.moveFlags j nf).rbit (numReg j 4) 7 = nf := by
  rw [State.moveFlags, State.setRf_rbit_other _ _ _ (by decide) (by decide), State.setRf_rbit_other _ _ _ (by decide) (by decide),
    State.setRf_rbit_same _ _ _ (by decide)]
  cases nf <;> rfl

theorem State.moveFlags_present (nf : Bool) : (s.moveFlags j nf).rbit (numReg j 4) 5 = s.rbit (numReg j 4) 6 := by
  have h1 : s.rf (numReg j 4) 6 6 < 2 := Nat.mod_lt _ (by decide)
  rw [State.moveFlags, State.setRf_rbit_other _ _ _ (by decide) (by decide), State.setRf_rbit_same _ _ _ (by decide),
    State.setRf_rf_other _ _ 7 7 _ 6 6 (by decide) (by decide) (by decide) (by decide), Nat.mod_eq_of_lt h1, State.rbit]

theorem State.moveFlags_next (nf : Bool) : (s.moveFlags j nf).rbit (numReg j 4) 6 = false := by
  rw [State.moveFlags, State.setRf_rbit_same _ _ _ (by decide)]
  rfl

theorem State.moveFlags_low (nf : Bool) {k : Nat} (h : k < 5) : (s.moveFlags j nf).rbit (numReg j 4) k = s.rbit (numReg j 4) k := by
  rw [State.moveFlags, State.setRf_rbit_other _ _ _ (by decide) (by omega), State.setRf_rbit_other _ _ _ (by decide) (by omega),
    State.setRf_rbit_other _ _ _ (by decide) (by omega)]

end

/-- Loss scale, its clean-step count, the skip count and the floor flag of a job are set; the rest stays. -/
structure Rescaled (j : Nat) (s t : State) : Prop where
  slots : t.slots = s.slots
  regs  : ∀ a, a ≠ numReg j 8 → a ≠ numReg j 0xC → a ≠ numReg j 4 → t.reg a = s.reg a
  bits  : ∀ k, k ≠ 4 → t.rbit (numReg j 4) k = s.rbit (numReg j 4) k
  mem   : SameMem s t
  fab   : t.fab = s.fab
  time  : t.time = s.time

namespace Rescaled
variable {j : Nat}

theorem refl (s : State) : Rescaled j s s := ⟨rfl, fun _ _ _ _ => rfl, fun _ _ => rfl, .refl s, rfl, rfl⟩

theorem trans {s t u : State} (h : Rescaled j s t) (h' : Rescaled j t u) : Rescaled j s u :=
  ⟨h'.slots.trans h.slots, fun a h1 h2 h3 => (h'.regs a h1 h2 h3).trans (h.regs a h1 h2 h3), fun k hk => (h'.bits k hk).trans (h.bits k hk),
    h.mem.trans h'.mem, h'.fab.trans h.fab, h'.time.trans h.time⟩

variable (s : State)

theorem setRn {x : Nat} (h : x = 8 ∨ x = 0xC) (v : Nat) : Rescaled j s (s.setRn (numReg j x) v) := by
  refine ⟨rfl, fun a h1 h2 _ => ?_, fun k _ => State.rbit_congr ?_ k, sameMem_setRn s _ _, rfl, rfl⟩
  · rw [State.setRn_reg, if_neg]
    obtain rfl | rfl := h
    · exact h1
    · exact h2
  · rw [State.setRn_reg, if_neg (numReg_ne (by omega))]

theorem setFloor : Rescaled j s (s.setBit (numReg j 4) 4) :=
  ⟨rfl, fun _ _ _ h3 => State.setBit_reg_ne s _ _ _ h3, fun _ hk => State.setRf_rbit_other s _ _ (by decide) hk, sameMem_setRn s _ _, rfl, rfl⟩

theorem raise (c t : Nat) : Rescaled j s (s.raiseJ c 0 0 j t) := ⟨rfl, fun _ _ _ _ => rfl, fun _ _ => rfl, .of_store rfl, rfl, rfl⟩

theorem countSkip : Rescaled j s (s.countSkip j) := .trans (t := s.bump (numReg j 0xC) 31 0 1) (setRn s (.inr rfl) _) (raise _ _ _)

theorem lowerLoss (e : Int) : Rescaled j s (s.lowerLoss j e) := by
  unfold State.lowerLoss
  split
  · exact setRn s (.inl rfl) _
  · exact .trans (setFloor s) (.trans (t := (s.setBit (numReg j 4) 4).setRf (numReg j 8) 31 16 0) (setRn _ (.inl rfl) _) (raise _ _ _))

theorem raiseLoss (e : Int) (clean interval : Nat) : Rescaled j s (s.raiseLoss j e clean interval) := by
  unfold State.raiseLoss
  split
  · exact setRn s (.inl rfl) _
  · split
    · exact .trans (setRn s (.inl rfl) _) (raise _ _ _)
    · exact setRn s (.inl rfl) _

theorem scaleLoss (nf lsEn : Bool) (e : Int) (clean interval : Nat) : Rescaled j s (s.scaleLoss j nf lsEn e clean interval) := by
  unfold State.scaleLoss
  split
  · split
    · exact countSkip s
    · exact (countSkip s).trans (lowerLoss _ e)
  · split
    · exact .refl s
    · exact raiseLoss s e clean interval
end Rescaled

section
variable (s : State) (j : Nat)

theorem State.countSkip_count : (s.countSkip j).rf (numReg j 0xC) 31 0 = min (2 ^ 32 - 1) (s.rf (numReg j 0xC) 31 0 + 1) :=
  s.bump_rf_same (numReg j 0xC) 1

theorem State.lowerLoss_reg (e : Int) {x : Nat} (h8 : x ≠ 8) (h4 : x ≠ 4) : (s.lowerLoss j e).reg (numReg j x) = s.reg (numReg j x) := by
  unfold State.lowerLoss
  split
  · rw [State.setRn_reg, if_neg (numReg_ne h8)]
  · rw [State.raiseJ_chip_reg, State.setRf_reg_ne _ _ _ _ _ _ (numReg_ne h8), State.setBit_reg_ne _ _ _ _ (numReg_ne h4)]

theorem State.lowerLoss_heard (e : Int) {c k u : Nat} (h : s.Heard c k u) : (s.lowerLoss j e).Heard c k u := by
  unfold State.lowerLoss
  split
  · exact h
  · obtain ⟨r, hr, hc⟩ | hg := h
    · exact .inl ⟨r, List.mem_append_left _ hr, hc⟩
    · exact .inr hg

theorem State.lowerLoss_low {e : Int} (h : -8 < e) : (s.lowerLoss j e).rn (numReg j 8) = enc2c 6 (e - 1) := by
  rw [State.lowerLoss, if_pos h, State.setRn_rn, if_pos rfl]
  exact Nat.mod_eq_of_lt (lt_of_lt_of_le (enc2c_lt 6 _) (by decide))

theorem State.raiseLoss_clean (e : Int) {clean interval : Nat} (h : clean + 1 < interval) (hi : interval < 2 ^ 16) :
    (s.raiseLoss j e clean interval).rf (numReg j 8) 31 16 = clean + 1 ∧
    (s.raiseLoss j e clean interval).rf (numReg j 8) 5 0 = s.rf (numReg j 8) 5 0 := by
  rw [State.raiseLoss, if_pos h, State.setRf_rf_same _ _ 31 16 _ (by decide) (by decide),
    State.setRf_rf_other _ _ 31 16 _ 5 0 (by decide) (by decide) (by decide) (by decide)]
  exact ⟨Nat.mod_eq_of_lt (by omega), rfl⟩

theorem State.raiseLoss_up {e : Int} {clean interval : Nat} (h : interval ≤ clean + 1) (he : e < 24) :
    (s.raiseLoss j e clean interval).rn (numReg j 8) = enc2c 6 (e + 1) := by
  rw [State.raiseLoss, if_neg (by omega), if_pos he, State.rn, State.raiseJ_chip_reg, ← State.rn, State.setRn_rn, if_pos rfl]
  exact Nat.mod_eq_of_lt (lt_of_lt_of_le (enc2c_lt 6 _) (by decide))
end

theorem State.rf_congr {s t : State} {a : Nat} (h : t.reg a = s.reg a) (hi lo : Nat) : t.rf a hi lo = s.rf a hi lo := by
  rw [State.rf, State.rn, h]
  rfl

/-- What scaling the loss does after a verdict (R226, R228, R232). -/
theorem State.scaleLoss_taken (s : State) (j : Nat) (nf lsEn : Bool) (e : Int) (clean interval : Nat) (hi : interval < 2 ^ 16) :
    let t := s.scaleLoss j nf lsEn e clean interval
    (nf = true → t.rf (numReg j 0xC) 31 0 = min (2 ^ 32 - 1) (s.rf (numReg j 0xC) 31 0 + 1) ∧ t.Heard 0x0910 0 0) ∧
    (nf = true → lsEn = true → -8 < e → t.rn (numReg j 8) = enc2c 6 (e - 1)) ∧
    (nf = false → lsEn = true → clean + 1 < interval → t.rf (numReg j 8) 31 16 = clean + 1 ∧ t.rf (numReg j 8) 5 0 = s.rf (numReg j 8) 5 0) ∧
    (nf = false → lsEn = true → interval ≤ clean + 1 → e < 24 → t.rn (numReg j 8) = enc2c 6 (e + 1)) ∧
    (lsEn = false → t.reg (numReg j 8) = s.reg (numReg j 8)) := by
  have hskip : (s.countSkip j).Heard 0x0910 0 0 := State.raiseJ_chip_heard _ _ _ _ _
  have h8 : (s.countSkip j).reg (numReg j 8) = s.reg (numReg j 8) := by
    rw [State.countSkip, State.raiseJ_chip_reg, State.bump_reg_ne _ _ _ _ _ _ (numReg_ne (by decide))]
  cases nf <;> cases lsEn <;> simp [State.scaleLoss]
  · exact ⟨fun h => s.raiseLoss_clean j e h hi, fun h he => s.raiseLoss_up j h he⟩
  · exact ⟨⟨s.countSkip_count j, hskip⟩, h8⟩
  · refine ⟨⟨?_, State.lowerLoss_heard _ j e hskip⟩, fun h => State.lowerLoss_low _ j h⟩
    exact (State.rf_congr (State.lowerLoss_reg _ j e (by decide) (by decide)) _ _).trans (s.countSkip_count j)

theorem verdictTaken_applyVerdict (s : State) {j : Nat} (hj : j < 64) (nf : Bool) :
    VerdictTaken s (s.applyVerdict j nf) j nf ∧ SameMem s (s.applyVerdict j nf) ∧ (s.applyVerdict j nf).fab = s.fab ∧
    (s.applyVerdict j nf).time = s.time := by
  obtain ⟨s1, h1⟩ : ∃ s1, s1 = s.setSlot j { s.slot j with
    verdicts := ((s.slot j).vstep, nf) :: (s.slot j).verdicts.take 3,
    skipped := if nf then (s.slot j).vstep :: (s.slot j).skipped.take 3 else (s.slot j).skipped } := ⟨_, rfl⟩
  obtain ⟨s2, h2⟩ : ∃ s2, s2 = s1.watchVerdict j nf := ⟨_, rfl⟩
  have hw : Watched s1 s2 j := h2 ▸ watched_watchVerdict s1 j nf
  have hreg {x : Nat} (hx : x < 0x40) : s2.reg (numReg j x) = s.reg (numReg j x) := by
    rw [hw.regs _ (by simp only [numReg]; omega), h1]
    rfl
  obtain ⟨s3, h3⟩ : ∃ s3, s3 = (s2.moveFlags j nf).nextVerdict j := ⟨_, rfl⟩
  have h4 := s2.verdictNumeric_eq j nf
  rw [← h3, State.rbit_congr (hreg (x := 0) (by decide)), State.rf_congr (hreg (x := 0) (by decide)),
    State.rf_congr (hreg (x := 8) (by decide)), State.rf_congr (hreg (x := 8) (by decide))] at h4
  obtain ⟨s4, hs4⟩ : ∃ s4, s4 = s2.verdictNumeric j nf := ⟨_, rfl⟩
  rw [← hs4] at h4
  have hr : Rescaled j s3 s4 := h4 ▸ .scaleLoss s3 _ _ _ _ _
  have ht := s3.scaleLoss_taken j nf (s.rbit (numReg j 0) 2) (sext 6 (s.rf (numReg j 8) 5 0)) (s.rf (numReg j 8) 31 16)
    (s.rf (numReg j 0) 31 16) (Nat.mod_lt _ (by decide))
  rw [← h4] at ht
  have happ : s.applyVerdict j nf = if nf && s4.rbit (numReg j 0) 3 && s4.rbit (numReg j 4) 3 then
      s4.setSlot j { s4.slot j with state := .trapStopped, stopCause := 3, stopEvt := 0x0900 } else s4 := by
    rw [hs4, h2, h1]
    rfl
  have hreg3 {x : Nat} (hx : x < 0x40) (h4 : x ≠ 4) : s3.reg (numReg j x) = s.reg (numReg j x) :=
    .trans (h3 ▸ rfl) ((s2.moveFlags_reg j nf h4).trans (hreg hx))
  have hbit4 {k : Nat} (hk : k ≠ 4) : s4.rbit (numReg j 4) k = (s2.moveFlags j nf).rbit (numReg j 4) k :=
    (hr.bits k hk).trans (h3 ▸ rfl)
  have hmove : SameMem s2 (s2.moveFlags j nf) :=
    (sameMem_setRn _ _ _).trans ((sameMem_setRn _ _ _).trans (sameMem_setRn _ _ _))
  have hmem : SameMem s s4 := (SameMem.of_store (h1 ▸ rfl)).trans (hw.mem.trans (hmove.trans
    (.trans (.of_store (h3 ▸ rfl)) hr.mem)))
  have hfab : s4.fab = s.fab := hr.fab.trans (.trans (h3 ▸ rfl) (hw.fab.trans (h1 ▸ rfl)))
  have htime : s4.time = s.time := hr.time.trans (.trans (h3 ▸ rfl) (hw.time.trans (h1 ▸ rfl)))
  have hslot : (s4.slot j).vstep = (s.slot j).vstep + 1 ∧ (s4.slot j).verdicts = ((s.slot j).vstep, nf) :: (s.slot j).verdicts.take 3 := by
    obtain ⟨m, n, hm⟩ := hw.slots j
    have hs3 : s4.slot j = { s2.slot j with vstep := (s2.slot j).vstep + 1 } := by
      rw [State.slot, hr.slots, ← State.slot, h3, State.nextVerdict, State.setSlot_get, if_pos rfl]
      rfl
    rw [hs3, hm, h1, State.setSlot_get, if_pos rfl]
    exact ⟨rfl, rfl⟩
  obtain ⟨hskips, hdown, hclean, hup, hoff⟩ := ht
  rw [State.rf_congr (hreg3 (x := 0xC) (by decide) (by decide))] at hskips
  rw [State.rf_congr (hreg3 (x := 8) (by decide) (by decide))] at hclean
  rw [hreg3 (x := 8) (by decide) (by decide)] at hoff
  have hflags : s4.rbit (numReg j 4) 5 = s.rbit (numReg j 4) 6 ∧ s4.rbit (numReg j 4) 6 = false := by
    rw [hbit4 (by decide), hbit4 (by decide), s2.moveFlags_present, s2.moveFlags_next, State.rbit_congr (hreg (x := 4) (by decide))]
    exact ⟨rfl, rfl⟩
  have hshown : s4.rbit (numReg j 4) 7 = nf := (hbit4 (by decide)).trans (s2.moveFlags_shown j nf)
  have hen : s4.rbit (numReg j 0) 3 = s.rbit (numReg j 0) 3 :=
    State.rbit_congr ((hr.regs _ (numReg_ne (by decide)) (numReg_ne (by decide)) (numReg_ne (by decide))).trans (hreg3 (by decide) (by decide))) _
  have hen4 : s4.rbit (numReg j 4) 3 = s.rbit (numReg j 4) 3 :=
    (hbit4 (by decide)).trans ((s2.moveFlags_low j nf (by decide)).trans (State.rbit_congr (hreg (by decide)) _))
  rw [happ, hen, hen4]
  split
  · refine ⟨⟨?_, ?_, hshown, hflags, hskips, hdown, hclean, hup, hoff, fun _ _ _ => ?_⟩, hmem.trans (.of_store rfl), hfab, htime⟩
    all_goals rw [State.setSlot_get, if_pos rfl]
    · exact hslot.1
    · exact hslot.2
  · rename_i hno
    exact ⟨⟨hslot.1, hslot.2, hshown, hflags, hskips, hdown, hclean, hup, hoff, fun h1 h2 h3 => absurd (by simp [h1, h2, h3]) hno⟩,
      hmem, hfab, htime⟩
end Sys2Proof.Machine
end

section
namespace Sys2Proof.Machine

/-- A task in progress that is changed is found changed. -/
theorem State.run_modRun (s : State) (b num : Nat) {f : RTask → RTask} (hf : ∀ r, (f r).num = r.num) :
    (s.modRun b num f).run b num = (s.run b num).map f := by
  simp only [State.modRun, State.run, State.setBlock_get, if_pos, findRun, List.find?_map]
  rw [show ((fun r : RTask => decide (r.num = num)) ∘ fun r => if r.num = num then f r else r) = fun r => decide (r.num = num) from ?_]
  · cases hr : (s.block b).running.find? fun r => decide (r.num = num) with
    | none => rfl
    | some r =>
      have hn : r.num = num := by simpa using List.find?_some hr
      simp [hn]
  · funext r
    by_cases h : r.num = num
    · simp [h, hf]
    · simp [h]

theorem State.run_partDone {s : State} {b num : Nat} {x : RTask} (h : s.run b num = some x) :
    (s.partDone b num).run b num = some { x with left := x.left - 1 } := by
  have e := State.run_modRun s b num (f := fun r => { r with left := r.left - 1 }) fun _ => rfl
  rw [State.partDone, e, h]
  rfl

/-- The four flags of a beat give back its bits. -/
theorem orBits_flags (a b : Nat) : let o := orBits a b
    b2n (bit o 0) + 2 * b2n (bit o 1) + 4 * b2n (bit o 2) + 8 * b2n (bit o 3) = o := by
  have h (w x y z : Bool) : let o := (((0 + 2 ^ 0 * b2n w) + 2 ^ 1 * b2n x) + 2 ^ 2 * b2n y) + 2 ^ 3 * b2n z
      b2n (bit o 0) + 2 * b2n (bit o 1) + 4 * b2n (bit o 2) + 8 * b2n (bit o 3) = o := by
    revert w x y z
    decide
  exact h (bit a 0 || bit b 0) (bit a 1 || bit b 1) (bit a 2 || bit b 2) (bit a 3 || bit b 3)

/-! ### The events of beats and verdicts -/

section
variable {s : State}

theorem completes_beatSlotBoundary {now : Nat} (hb : now % (s.rf 0x34004 7 0 * 1000) = 0) (ht : s.time ≤ now) :
    Completes (.beatSlotBoundary now) s fun t => t.time = now ∧ SameMem s t ∧
      ∀ r ∈ s.rounds, r.upSent = false → s.ownDone r = true →
        (∀ k ∈ s.children (s.members r).length (indexOf (s.members r) s.ownId), k ∈ r.ups) →
        ∃ r' ∈ t.rounds, r'.same r = true ∧ r'.upSent = true := by
  obtain ⟨hs, -, hsent⟩ := State.each_slotRound ({ s with time := now } : State) now s.rounds (fun _ hr => hr) _ (.refl _)
  refine completes_of_whenever (b := now % (s.rf 0x34004 7 0 * 1000) == 0 && decide (s.time ≤ now)) rfl (by simp [hb, ht]) ?_
  exact ⟨hs.time, .of_store hs.store, hsent⟩

theorem State.arrive_beat {src : Nat} {p : List Byte} {r : Round} (h : s.roundOf (.beat src p) = some r) :
    s.arrive (.beat src p) = s.takeBeat r src p := by
  simp only [State.arrive, h]

variable {src : Nat} {p : List Byte} {r : Round} (hid : s.idValid = true) (hr : s.roundOf (.beat src p) = some r)
include hid hr

theorem completes_beatReceive_down (hd : bit (byteN p 4 4) 5 = true) (hn : r.down = none) :
    Completes (.beatReceive src p) s fun t => SameMem s t ∧
      (∃ r' ∈ t.rounds, r'.same r = true ∧ r'.down = some (byteN p 16 2, byteN p 18 2, byteN p 24 8)) ∧
      (byteN p 24 8 < s.time → t.Heard 0x0527 0 0) := by
  refine completes_of_whenever (t := s.arrive (.beat src p)) rfl hid ?_
  rw [State.arrive_beat hr, State.takeBeat]
  simp only [hd, if_true, hn, Option.isSome_none, Bool.false_eq_true, if_false]
  obtain ⟨q, hq⟩ : ∃ q : Round, q = { r with down := some (byteN p 16 2, byteN p 18 2, byteN p 24 8) } := ⟨_, rfl⟩
  have hqr : r.same q = true := hq ▸ Round.same_iff.mpr ⟨rfl, rfl, rfl, rfl, rfl⟩
  have hqd : q.down = some (byteN p 16 2, byteN p 18 2, byteN p 24 8) := hq ▸ rfl
  rw [← hq]
  have hs := sent_sendDown (s.setRound q) r (byteN p 16 2) (byteN p 18 2) (byteN p 24 8)
  generalize (s.setRound q).sendDown r _ _ _ = t at hs
  have hmem : SameMem s t := .of_store hs.store
  have hin : ∃ r' ∈ t.rounds, r'.same r = true ∧ r'.down = some (byteN p 16 2, byteN p 18 2, byteN p 24 8) :=
    ⟨q, hs.rounds ▸ State.mem_setRound_self (State.roundOf_mem hr) hqr, Round.same_symm hqr, hqd⟩
  rw [show t.time = s.time from hs.time]
  split
  · exact ⟨hmem.trans (.of_store rfl), hin, fun _ => State.raiseJ_chip_heard _ _ _ _ _⟩
  · exact ⟨hmem, hin, fun h => absurd h ‹_›⟩

theorem completes_beatReceive_up (hd : bit (byteN p 4 4) 5 = false) (hm : (s.members r).contains src = true)
    (hu : r.ups.contains (indexOf (s.members r) src) = false) :
    Completes (.beatReceive src p) s fun t => t.store = s.store ∧ ∃ r' ∈ t.rounds, r'.same r = true ∧
      r'.ups = r.ups ++ [indexOf (s.members r) src] ∧ r'.bits = orBits r.bits (byteN p 16 2) ∧ r'.blame = min r.blame (byteN p 18 2) := by
  refine completes_of_whenever (t := s.arrive (.beat src p)) rfl hid ?_
  rw [State.arrive_beat hr, State.takeBeat]
  simp only [hd, hm, hu, Bool.false_eq_true, if_false, Bool.not_true]
  refine ⟨rfl, _, State.mem_setRound_self (State.roundOf_mem hr) ?_, ?_, rfl, ?_, rfl⟩
  · exact Round.same_iff.mpr ⟨rfl, rfl, rfl, rfl, rfl⟩
  · exact Round.same_iff.mpr ⟨rfl, rfl, rfl, rfl, rfl⟩
  · exact orBits_flags r.bits (byteN p 16 2)
end

section
variable (s : State)

theorem State.setNf_cases (j n : Nat) : s.setNf j n = s ∨ ∃ i, s.setNf j n = s.setBit (numReg j 4) i := by
  simp only [State.setNf]
  split
  · exact .inr ⟨5, rfl⟩
  · split
    · exact .inr ⟨6, rfl⟩
    · exact .inl rfl

theorem sameMem_setNf (j n : Nat) : SameMem s (s.setNf j n) := by
  obtain h | ⟨i, h⟩ := s.setNf_cases j n <;> rw [h]
  · exact .refl s
  · exact sameMem_setRn s _ _

theorem State.setNf_rounds (j n : Nat) : (s.setNf j n).rounds = s.rounds := by
  obtain h | ⟨i, h⟩ := s.setNf_cases j n <;> rw [h]
  rfl

theorem State.setNf_blocks (j n : Nat) : (s.setNf j n).blocks = s.blocks := by
  obtain h | ⟨i, h⟩ := s.setNf_cases j n <;> rw [h]
  rfl

theorem State.normAccepted_keeps (r : Round) : (s.normAccepted r).store = s.store ∧ (s.normAccepted r).fab = s.fab ∧
    (s.normAccepted r).blocks = s.blocks := by
  unfold State.normAccepted
  split <;> exact ⟨rfl, rfl, rfl⟩
end

section
variable {s : State} {i : Nat} {r : Round} {bts bl at_ : Nat} (hr : s.roundAt i = some r) (hd : r.down = some (bts, bl, at_))
include hr hd

theorem exec_verdictApply : exec (.verdictApply i) s =
    (let s : State := { s with time := max s.time at_ }
      if r.beatOnly then
        .next (((s.dropRound r).applyVerdict r.job (bit bts 0)).partDone r.block r.num)
      else if bits bts 3 1 = 0 then
        let s := if bit bts 0 then s.setNf r.job r.step else s
        .next (((s.dropRound r).normAccepted r).partDone r.block r.num)
      else
        let s := s.bump 0x34014 15 0 1
        if bit bts 3 || decide (s.rf 0x34004 17 16 ≤ r.reruns) then
          .next ((s.dropRound r).raiseJ 0x0524 0 0 r.job r.task)
        else .next (s.rerunRound r)) := by
  rw [show exec (.verdictApply i) s = execVerdictApply i s from rfl, execVerdictApply, hr]
  simp only [hd]

theorem completes_verdictApply_step (hj : r.job < 64) (hb : r.beatOnly = true) :
    Completes (.verdictApply i) s fun t => t.time = max s.time at_ ∧ VerdictTaken s t r.job (bit bts 0) ∧ SameMem s t ∧
      t.rounds = s.rounds.filter fun x => !x.same r := by
  have he := exec_verdictApply hr hd
  simp only [hb, if_true] at he
  refine ⟨_, he, ?_⟩
  obtain ⟨u, hu⟩ : ∃ u, u = ({ s with time := max s.time at_ } : State).dropRound r := ⟨_, rfl⟩
  obtain ⟨hv, hm, hf, ht⟩ := verdictTaken_applyVerdict u hj (bit bts 0)
  rw [← hu]
  generalize u.applyVerdict r.job (bit bts 0) = t at *
  subst hu
  refine ⟨ht, ⟨hv.step, hv.noted, hv.shown, hv.flags, hv.skips, hv.down, hv.clean, hv.up, hv.off, hv.trap⟩, ?_, ?_⟩
  · exact .trans (t := t) ⟨hm.cells, hm.bytes, hm.norms⟩ (.of_store rfl)
  · exact congrArg (fun f => f.rounds) hf

theorem completes_verdictApply_accepted (hb : r.beatOnly = false) (hz : bits bts 3 1 = 0) :
    Completes (.verdictApply i) s fun t => t.rounds = (s.rounds.filter fun x => !x.same r) ∧
      SameMem s t ∧ ∀ x, s.run r.block r.num = some x → t.run r.block r.num = some { x with left := x.left - 1 } := by
  have he := exec_verdictApply hr hd
  simp only [hb, Bool.false_eq_true, if_false, hz, if_true] at he
  refine ⟨_, he, ?_⟩
  obtain ⟨u, hu, hmem, hround, hblock⟩ : ∃ u, u = (if bit bts 0 = true then ({ s with time := max s.time at_ } : State).setNf r.job r.step
      else { s with time := max s.time at_ }) ∧ SameMem s u ∧ u.rounds = s.rounds ∧ u.blocks = s.blocks := by
    refine ⟨_, rfl, ?_⟩
    split
    · exact ⟨.trans (t := { s with time := max s.time at_ }) (.of_store rfl) (sameMem_setNf _ _ _), State.setNf_rounds _ _ _, State.setNf_blocks _ _ _⟩
    · exact ⟨.of_store rfl, rfl, rfl⟩
  rw [← hu]
  obtain ⟨hst, hf, hbl⟩ := State.normAccepted_keeps (u.dropRound r) r
  refine ⟨?_, hmem.trans (.of_store hst), fun x hx => State.run_partDone ?_⟩
  · rw [← hround]
    exact congrArg (fun f => f.rounds) hf
  · rw [State.run, State.block, hbl, show (u.dropRound r).blocks = s.blocks from hblock]
    exact hx

theorem completes_verdictApply_rejected (hb : r.beatOnly = false) (hz : bits bts 3 1 ≠ 0) :
    if bit bts 3 = true ∨ s.rf 0x34004 17 16 ≤ r.reruns then Completes (.verdictApply i) s fun t =>
      t.rounds = (s.rounds.filter fun x => !x.same r) ∧ t.Heard 0x0524 0 0 ∧ SameMem s t
    else Completes (.verdictApply i) s fun t => (∀ k, t.cell k = s.cell k) ∧
      ∃ r' ∈ t.rounds, r'.same r = true ∧ r'.attempt = r.attempt + 1 ∧ r'.reruns = r.reruns + 1 ∧
        (s.fab.early = [] → r'.down = none) := by
  have he := exec_verdictApply hr hd
  simp only [hb, Bool.false_eq_true, if_false, hz] at he
  obtain ⟨u, hu⟩ : ∃ u, u = ({ s with time := max s.time at_ } : State).bump 0x34014 15 0 1 := ⟨_, rfl⟩
  have hrf : u.rf 0x34004 17 16 = s.rf 0x34004 17 16 := by
    rw [hu]
    exact State.rf_congr (State.bump_reg_ne _ _ _ _ _ _ (by decide)) _ _
  rw [← hu, hrf] at he
  split
  · rw [if_pos (by simpa using ‹_›)] at he
    have hm : SameMem s u := hu ▸ .trans (t := { s with time := max s.time at_ }) (.of_store rfl) (sameMem_setRn _ _ _)
    exact ⟨_, he, hu ▸ rfl, State.raiseJ_chip_heard _ _ _ _ _, hm.trans (.of_store rfl)⟩
  · rename_i hno
    rw [if_neg (by simpa using hno)] at he
    have hin : r ∈ u.rounds := hu ▸ State.roundAt_mem hr
    obtain ⟨hc, r', h1, h2, h3, h4, h5⟩ := State.rerunRound_next hin
    exact ⟨_, he, fun k => (hc k).trans (hu ▸ rfl), r', h1, h2, h3, h4, fun hemp => h5 (hu ▸ hemp)⟩
end

theorem completes_singleDeviceVerdict {s : State} {j : SlotId} (hrun : (s.slot j.val).state = .running) (ha : bit (s.slot j.val).flags 0 = false)
    (hl : ∃ y ∈ (s.slot j.val).lists, (s.slot j.val).vstep ≤ y.2.pass ∧ (y.2.pos.length < y.2.records.length ∨ (s.slot j.val).vstep < y.2.pass))
    (hg : s.gradDone j.val (s.slot j.val).vstep = true) : Completes (.singleDeviceVerdict j) s fun t =>
      VerdictTaken s t j.val (s.nf j.val (s.slot j.val).vstep) ∧ SameMem s t := by
  obtain ⟨hv, hm, -, -⟩ := verdictTaken_applyVerdict s j.isLt (s.nf j.val (s.slot j.val).vstep)
  refine completes_of_whenever (b := ((s.slot j.val).state == .running && !bit (s.slot j.val).flags 0 &&
    ((s.slot j.val).lists.any fun (_, l) => decide ((s.slot j.val).vstep ≤ l.pass) &&
      decide (l.pos.length < l.records.length ∨ (s.slot j.val).vstep < l.pass)) &&
    s.gradDone j.val (s.slot j.val).vstep)) rfl ?_ ⟨hv, hm⟩
  simp only [hrun, ha, hg, Bool.and_true, Bool.not_false, beq_self_eq_true, Bool.true_and]
  obtain ⟨y, hy, hp⟩ := hl
  exact List.any_eq_true.mpr ⟨y, hy, by simpa using hp⟩

theorem completes_beatTimeout {s : State} {i : Nat} {r : Round} (hr : s.roundAt i = some r) (ho : s.ownDone r = true) (hd : r.down = none)
    (hw : s.rf 0x34008 31 16 ≤ r.waitMs) : Completes (.beatTimeout i) s fun t =>
      t.rounds = (s.rounds.filter fun x => !x.same r) ∧ t.Heard 0x0526 0 0 ∧ t.store = s.store := by
  refine ⟨(s.dropRound r).raiseJ 0x0526 0 0 r.job r.task, ?_, rfl, State.raiseJ_chip_heard _ _ _ _ _, rfl⟩
  rw [show exec (.beatTimeout i) s = execBeatTimeout i s from rfl, execBeatTimeout, hr]
  simp only [ho, hd, hw, Option.isNone_none, decide_true, Bool.and_true, whenever_true]

/-- Settles O49: a round's messages leave the other rounds alone, a round that runs again writes itself anew, and a
verdict sets flags, skip count and loss scale by register fields of its job only. -/
theorem beatsAndVerdicts : Obligations.BeatsAndVerdicts := by
  intro s
  refine ⟨fun now hb ht => completes_beatSlotBoundary hb ht, fun src p r => ?_, fun i r bts bl at_ hr hd hj => ⟨?_, ?_, ?_⟩,
    fun j hrun ha hl hg => completes_singleDeviceVerdict hrun ha hl hg, fun i r hr ho hd hw => completes_beatTimeout hr ho hd hw⟩
  · intro ctl hid hr
    exact ⟨completes_beatReceive_down hid hr, completes_beatReceive_up hid hr⟩
  · exact completes_verdictApply_step hr hd hj
  · exact completes_verdictApply_accepted hr hd
  · exact completes_verdictApply_rejected hr hd
end Sys2Proof.Machine
end

section
namespace Sys2Proof.Machine

/-! ### Registers, norms and blocks while records move and jobs stop (R274, R302) -/

/-- The pager's work on records raises events in regions; norms, blocks and every other register stay. -/
structure Paged (s t : State) : Prop where
  regs   : ∀ a, (∀ g, a ≠ regionReg g 0x5004) → t.reg a = s.reg a
  norms  : ∀ k, t.norm k = s.norm k
  blocks : t.blocks = s.blocks
  slots  : ∀ k, ∃ l, t.slot k = { s.slot k with acts := l }

theorem Paged.refl (s : State) : Paged s s := ⟨fun _ _ => rfl, fun _ => rfl, rfl, fun _ => ⟨_, rfl⟩⟩
theorem Paged.trans {s t u : State} (h : Paged s t) (h' : Paged t u) : Paged s u := by
  refine ⟨fun a ha => (h'.regs a ha).trans (h.regs a ha), fun k => (h'.norms k).trans (h.norms k), h'.blocks.trans h.blocks, fun k => ?_⟩
  obtain ⟨l, h1⟩ := h.slots k
  obtain ⟨l', h2⟩ := h'.slots k
  exact ⟨l', by rw [h2, h1]⟩
theorem Paged.each {α : Type} {f : State → α → State} (h : ∀ s x, Paged s (f s x)) (l : List α) (s : State) : Paged s (s.each f l) :=
  State.each_pred (fun t => Paged s t) f (fun t x ht => ht.trans (h t x)) l s (.refl s)
theorem Paged.of_slots {s t : State} (h : t.store = s.store) (hb : t.blocks = s.blocks) (hs : ∀ k, ∃ l, t.slot k = { s.slot k with acts := l }) :
    Paged s t := ⟨fun a _ => State.reg_of_store h a, State.norm_of_store h, hb, hs⟩
theorem Paged.of_store {s t : State} (h : t.store = s.store) (hb : t.blocks = s.blocks) (hs : t.slots = s.slots) : Paged s t :=
  .of_slots h hb fun k => ⟨(s.slot k).acts, by rw [State.slot, hs]; rfl⟩

/-- An event changes the overflow count of a region at most. -/
theorem State.report_reg_of_ne (s : State) (r : Report) {a : Nat} (h : ∀ g, a ≠ regionReg g 0x5004) : (s.report r).reg a = s.reg a := by
  simp only [State.report]
  split
  · rfl
  · split
    · rfl
    · split
      · rw [State.bump_reg_ne _ _ _ _ _ _ (h _)]; rfl
      · rfl

section
variable (s : State)

theorem paged_setActs (j : Nat) (l : List ActRec) : Paged s (s.setSlot j { s.slot j with acts := l }) := by
  refine .of_slots rfl rfl fun k => ?_
  rw [State.setSlot_get]
  split
  · exact ⟨l, by rw [‹k = j›]⟩
  · exact ⟨_, rfl⟩

theorem paged_raiseJ (c k u j t : Nat) : Paged s (s.raiseJ c k u j t) :=
  ⟨fun _ ha => s.report_reg_of_ne _ ha, fun _ => by simp, by simp, fun k => ⟨(s.slot k).acts, by simp⟩⟩
theorem paged_wr (sp : Space) (a : Nat) (l : List Byte) : Paged s (s.wr sp a l) := ⟨fun _ _ => by simp, fun _ => by simp, by simp, fun k => ⟨(s.slot k).acts, by simp⟩⟩
theorem paged_wrLe (sp : Space) (a n v : Nat) : Paged s (s.wrLe sp a n v) := ⟨fun _ _ => by simp, fun _ => by simp, by simp, fun k => ⟨(s.slot k).acts, by simp⟩⟩
theorem paged_poison (sp : Space) (a n : Nat) : Paged s (s.poison sp a n) := ⟨fun _ _ => by simp, fun _ => by simp, by simp, fun k => ⟨(s.slot k).acts, by simp⟩⟩
theorem paged_modAct (j h : Nat) (f : ActRec → ActRec) : Paged s (s.modAct j h f) := paged_setActs s j _
theorem paged_setHentry (h : Nat) (e : HEntry) : Paged s (s.setHentry h e) := .of_store rfl rfl rfl
theorem paged_dropTokens (g req : Nat) : Paged s (s.dropTokens g req) := .of_store rfl rfl rfl
theorem paged_dropPrefetch (h : Nat) : Paged s (s.dropPrefetch h) := .of_store rfl rfl rfl

theorem paged_freeEntry (h : Nat) : Paged s (s.freeEntry h) := by
  simp only [State.freeEntry]
  have h1 := paged_setHentry s h { s.hentry h with state := .free, inuse := 0, zeroing := false }
  split
  · exact h1.trans ((paged_dropPrefetch _ h).trans (paged_setActs _ _ _))
  · exact h1

theorem paged_pageOut (u : State) (j : Nat) (r : ActRec) (x : Nat × Nat) : Paged s (u.pageOut j r s x) := by
  have hwr (l : List Byte) : Paged s (match u.pageAcc j r x.1 with | .at h => s.wr .host h l | .err _ => s) := by
    split
    · exact paged_wr s _ _ _
    · exact .refl s
  simp only [State.pageOut]
  split
  · exact hwr _
  · exact (hwr _).trans (paged_wrLe _ _ _ _ _)

theorem paged_pageIn (u : State) (j : Nat) (r : ActRec) (x : Nat × Nat) : Paged s (u.pageIn j r s x) := by
  have hwr (sp : Space) (b : Nat) : Paged s (match u.pageAcc j r x.1 with | .at h => s.wr sp b (u.rdBytes .host h 4096) | .err _ => s) := by
    split
    · exact paged_wr s _ _ _
    · exact .refl s
  simp only [State.pageIn]
  split
  · exact (hwr _ _).trans (paged_poison _ _ _ _)
  · exact hwr _ _

theorem paged_offloadDone (j : Nat) (r : ActRec) : Paged s (s.offloadDone j r []) := by
  obtain ⟨u, hu⟩ : ∃ u, u = s.dropTokens r.region (pagerReq r.handle) := ⟨_, rfl⟩
  have hsu : Paged s u := hu ▸ paged_dropTokens s _ _
  have hout : Paged u (u.each (u.pageOut j r) r.pages.zipIdx) := .each (fun t x => paged_pageOut t u j r x) _ u
  unfold State.offloadDone
  rw [show s.memErrs [] = s from rfl, ← hu]
  refine hsu.trans ?_
  dsimp only
  split
  · exact (paged_modAct _ _ _ _).trans (paged_raiseJ _ _ _ _ _ _)
  · by_cases h6 : r.state = 6
    · rw [if_pos h6]
      exact hout.trans (paged_modAct _ _ _ _)
    · rw [if_neg h6]
      exact hout.trans ((paged_modAct _ _ _ _).trans (paged_setHentry _ _ _))

theorem paged_prefetchDone (j : Nat) (r : ActRec) : Paged s (s.prefetchDone j r []) := by
  obtain ⟨u, hu⟩ : ∃ u, u = s.dropTokens r.region (pagerReq r.handle) := ⟨_, rfl⟩
  have hsu : Paged s u := hu ▸ paged_dropTokens s _ _
  have hin : Paged u (u.each (u.pageIn j r) r.pages.zipIdx) := .each (fun t x => paged_pageIn t u j r x) _ u
  unfold State.prefetchDone
  rw [show s.memErrs [] = s from rfl, ← hu]
  refine hsu.trans ?_
  dsimp only
  split
  · exact (paged_setHentry _ _ _).trans ((paged_modAct _ _ _ _).trans (paged_raiseJ _ _ _ _ _ _))
  · exact hin.trans ((paged_setHentry _ _ _).trans (paged_modAct _ _ _ _))

theorem paged_finishTransfers (j : Nat) (p : ActRec → Bool) : Paged s (s.finishTransfers j p) := by
  unfold State.finishTransfers
  split
  · exact .refl s
  · refine .each (fun s r => ?_) _ s
    split
    · exact paged_offloadDone s j r
    · split
      · exact paged_prefetchDone s j r
      · exact .refl s

/-- Of a step's records, those in transfer are finished and the others leave the job (R274). -/
def State.releaseRecord (s : State) (r : ActRec) : State :=
  let e := s.hentry r.handle
  let s := s.dropTokens r.region (pagerReq r.handle)
  if e.state = .free then s
  else if e.inuse = 0 then s.freeEntry r.handle else (s.dropPrefetch r.handle).setHentry r.handle { e with state := .freeing }

theorem State.releaseRecords_eq (j : Nat) (p : ActRec → Bool) : s.releaseRecords j p =
    let u := s.finishTransfers j p
    let v := u.each State.releaseRecord ((u.slot j).acts.filter p)
    v.setSlot j { v.slot j with acts := (v.slot j).acts.filter fun r => !p r } := rfl

theorem State.releaseRecord_keeps (r : ActRec) : Paged s (s.releaseRecord r) ∧ Still s (s.releaseRecord r) := by
  simp only [State.releaseRecord]
  split
  · exact ⟨paged_dropTokens s _ _, still_dropTokens s _ _⟩
  · split
    · exact ⟨(paged_dropTokens s _ _).trans (paged_freeEntry _ _), (still_dropTokens s _ _).trans (still_freeEntry _ _)⟩
    · exact ⟨(paged_dropTokens s _ _).trans ((paged_dropPrefetch _ _).trans (paged_setHentry _ _ _)),
        (still_dropTokens s _ _).trans ((still_dropPrefetch _ _).trans (still_setHentry _ _ _))⟩

theorem paged_releaseRecords (j : Nat) (p : ActRec → Bool) : Paged s (s.releaseRecords j p) := by
  rw [State.releaseRecords_eq]
  exact (paged_finishTransfers s j p).trans ((Paged.each (fun s r => (s.releaseRecord_keeps r).1) _ _).trans (paged_setActs _ _ _))

/-- What releasing a job's records leaves: the job's slot but for its records. -/
theorem calm_releaseRecords (j : Nat) (p : ActRec → Bool) : Calm s (s.releaseRecords j p) := by
  rw [State.releaseRecords_eq]
  exact (calm_finishTransfers s j p).trans ((Still.each (fun s r => (s.releaseRecord_keeps r).2) _ _).toCalm.trans (calm_setSlot _ _ _ rfl))

/-- Records of which none is in transfer are not moved. -/
theorem State.finishTransfers_eq_of_none {s : State} {j : Nat} {p : ActRec → Bool}
    (h : ∀ r ∈ (s.slot j).acts, p r = true → r.state ≠ 1 ∧ r.state ≠ 4 ∧ r.state ≠ 6) : s.finishTransfers j p = s := by
  have hnone (l : List ActRec) (hl : ∀ r ∈ l, r.state ≠ 1 ∧ r.state ≠ 4 ∧ r.state ≠ 6) : s.each (fun s r =>
      if r.state == 1 || r.state == 6 then s.offloadDone j r []
      else if r.state == 4 && r.bad.isEmpty then s.prefetchDone j r [] else s) l = s := by
    induction l with
    | nil => rfl
    | cons r l ih =>
      obtain ⟨h1, h4, h6⟩ := hl r List.mem_cons_self
      rw [State.each_cons, if_neg (by simp [h1, h6]), if_neg (by simp [h4])]
      exact ih fun x hx => hl x (List.mem_cons_of_mem r hx)
  unfold State.finishTransfers
  split
  · rfl
  · refine hnone _ fun r hr => ?_
    obtain ⟨hm, hp⟩ := List.mem_filter.mp hr
    exact h r hm hp

theorem sameMem_releaseRecords {j : Nat} {p : ActRec → Bool}
    (h : ∀ r ∈ (s.slot j).acts, p r = true → r.state ≠ 1 ∧ r.state ≠ 4 ∧ r.state ≠ 6) : SameMem s (s.releaseRecords j p) := by
  rw [State.releaseRecords_eq, State.finishTransfers_eq_of_none h]
  exact (Still.each (fun s r => (s.releaseRecord_keeps r).2) _ s).mem.trans (.of_store rfl)

/-! ### Stores while a job stops (R302, R322) -/

theorem State.freeEntry_store (h : Nat) : (s.freeEntry h).store = s.store := by
  simp only [State.freeEntry]
  split <;> rfl

theorem State.decUse_store (h : Nat) : (s.decUse h).store = s.store := by
  simp only [State.decUse]
  split
  · exact State.freeEntry_store _ h
  · rfl

theorem State.dropRun_store (b num : Nat) : (s.dropRun b num).store = s.store := by
  unfold State.dropRun State.returnTokens
  split
  · rfl
  · have h (t : State) (l : List Nat) : (t.each (fun s h => s.decUse h) l).store = t.store :=
      State.each_keeps State.store _ (fun t h => t.decUse_store h) l t
    dsimp only
    split
    · exact h _ _
    · exact h _ _

theorem State.quieted_store (j : Nat) : (s.quieted j).store = s.store := by
  have hquiet (s : State) (b : Nat) : (s.quietBlock j b).store = s.store :=
    State.each_keeps State.store _ (fun t (r : RTask) => t.dropRun_store b r.num) _ _
  have htrim (s : State) (b : Nat) : (s.trimBlock b).store = s.store := 
    State.each_keeps State.store (fun s req => s.trimTokens b req) (fun _ _ => rfl) _ s
  have hopen (s : State) (o : OpenMb) : (s.closeTiles j o o.tiles).store = s.store :=
    State.each_keeps State.store (fun s t => s.setTile t ((s.tile t).closeFence o.epoch)) (fun _ _ => rfl) _ s
  have hpager (s : State) : (s.dropPager j).store = s.store :=
    State.each_keeps State.store (fun s (r : ActRec) => s.dropTokens r.region (pagerReq r.handle)) (fun _ _ => rfl) _ s
  unfold State.quieted State.closeOpen
  rw [hpager, State.each_keeps State.store _ hopen]
  exact (State.each_keeps State.store _ htrim _ _).trans (State.each_keeps State.store _ hquiet _ s)

theorem State.freeJobHandles_store (j : Nat) : (s.freeJobHandles j).store = s.store := by
  have howner (s : State) (o : Nat) : (s.freeOwner j o).store = s.store := by
    unfold State.freeOwner
    refine State.each_keeps State.store (fun s (x : Nat × HEntry) => if x.2.job = j ∧ x.2.fw = false ∧ x.2.state ≠ .free then
      let h := mkHandle x.1 o x.2.pool x.2.gen
      if x.2.inuse = 0 then s.freeEntry h else s.setHentry h { x.2 with state := .freeing, zeroing := false } else s) (fun s x => ?_) _ _
    dsimp only
    split
    · split
      · exact State.freeEntry_store _ _
      · rfl
    · rfl
  have h := State.each_keeps State.store (fun s o => s.freeOwner j o) howner (List.range 17) s
  rw [State.freeJobHandles_eq]
  generalize s.each (fun s o => s.freeOwner j o) (List.range 17) = u at h ⊢
  exact h

/-- A job that is halted raises events in regions; every other register stays (R302). -/
theorem State.haltJob_reg (j cause evt task : Nat) {a : Nat} (h : ∀ g, a ≠ regionReg g 0x5004) :
    (s.haltJob j cause evt task).reg a = s.reg a := by
  have hf := (paged_finishTransfers (s.quieted j) j fun _ => true).regs a h
  have hfree := State.reg_of_store (State.freeJobHandles_store ((s.quieted j).finishTransfers j fun _ => true) j) a
  rw [State.haltJob, State.setSlot_reg, State.stopJob_eq]
  dsimp only
  rw [State.setSlot_reg, hfree, hf]
  exact State.reg_of_store (s.quieted_store j) a
end
end Sys2Proof.Machine
end

section
namespace Sys2Proof.Machine

/-! ### The parts of a clearing line's release (R332, R334, R335, R337) -/

section
variable (s : State) (l : Nat)

/-- A block has not arrived on the line any more, and its tasks that waited there are done. -/
def State.leaveBlock (b : Nat) : State :=
  let B := s.block b
  let on (r : RTask) : Bool := recKind r.task.record == 0 && recF r.task.record 0x30 3 0 == 3 && r.arrived &&
    recF r.task.record 0x30 8 4 == l
  s.setBlock b { B with
    arrived := B.arrived.filter (fun x => x != l),
    running := B.running.map fun r => if on r then { r with left := 0 } else r }

/-- The participants leave the line. -/
def State.leaveLine : State := s.each (fun s b => s.leaveBlock l b) ((s.blocks.filter fun (_, B) => B.arrived.contains l).map fun x => x.1)

/-- The MP leaves the line and its release is counted. -/
def State.countRelease : State :=
  let s := s.setRf 0x20010 l l 0
  s.setRf (clReg l 4) 15 0 (s.rf (clReg l 4) 15 0 + 1)

/-- A region's calibration that waited for the line goes on. -/
def State.goCal (g : Nat) : State :=
  let on := (List.range 16).any fun b => s.rbit (blockReg (g * 16 + b) 0xC300) l
  if s.rf (calReg g 0) 2 0 = 4 ∧ on then s.setRf (calReg g 0) 2 0 3 else s

/-- A block waits for its test window. -/
def State.askWindow (b : Nat) : State := let B := s.block b; s.setBlock b { B with winWait := true }

/-- What follows the count of a release: counters, calibrations and windows. -/
def State.afterCount (win : Bool) : State :=
  let s := s.each (fun s (x : Nat × Nat) => s.realign x.1 x.2) (s.realigned l)
  let s := s.each (fun s g => s.goCal l g) (List.range 16)
  if win then s.each State.askWindow ((s.lineBlocks l).filter fun b => s.rbit (blockReg b 0xC308) 0) else s

/-- A block reads as it was written, every other one as it was. -/
theorem State.block_setBlock (b k : Nat) (x : Block) : (s.setBlock b x).block k = if k = b then x else s.block k := by
  simp [State.setBlock, State.block]

theorem State.leaveBlock_arrived (b k : Nat) : ((s.leaveBlock l b).block k).arrived =
    if k = b then (s.block k).arrived.filter (fun x => x != l) else (s.block k).arrived := by
  rw [State.leaveBlock, State.block_setBlock]
  split
  · rw [‹k = b›]
  · rfl

/-- Blocks leave a line in turn. -/
theorem State.each_leaveBlock_arrived (k : Nat) (bs : List Nat) : ((s.each (fun s b => s.leaveBlock l b) bs).block k).arrived =
    if k ∈ bs then (s.block k).arrived.filter (fun x => x != l) else (s.block k).arrived := by
  induction bs generalizing s with
  | nil => rfl
  | cons b bs ih =>
    rw [State.each_cons, ih, State.leaveBlock_arrived]
    by_cases hb : k = b
    · simp [hb, List.filter_filter]
    · simp [hb]

/-- A key of a map that holds no value of some kind reads as another. -/
theorem SMap.get_of_not_mem {α : Type} {d : Nat → α} {m : SMap α} {k : Nat} (p : α → Bool) (hd : p (d k) = false)
    (h : k ∉ (m.filter fun x => p x.2).map fun x => x.1) : p (SMap.get d m k) = false := by
  induction m with
  | nil => exact hd
  | cons x m ih =>
    obtain ⟨k', v⟩ := x
    rw [SMap.get]
    split
    · by_contra hp
      exact h (List.mem_map.mpr ⟨(k', v), List.mem_filter.mpr ⟨List.mem_cons_self, by simpa using hp⟩, ‹k' = k›⟩)
    · refine ih fun hm => h ?_
      obtain ⟨y, hy, hk⟩ := List.mem_map.mp hm
      obtain ⟨hy1, hy2⟩ := List.mem_filter.mp hy
      exact List.mem_map.mpr ⟨y, List.mem_filter.mpr ⟨List.mem_cons_of_mem _ hy1, hy2⟩, hk⟩

theorem State.leaveLine_arrived (k : Nat) : ((s.leaveLine l).block k).arrived = (s.block k).arrived.filter fun x => x != l := by
  rw [State.leaveLine, State.each_leaveBlock_arrived]
  split
  · rfl
  · rename_i h
    have hn : (s.block k).arrived.contains l = false := SMap.get_of_not_mem (fun B : Block => B.arrived.contains l) rfl h
    symm
    rw [List.filter_eq_self]
    intro x hx
    have : x ≠ l := by rintro rfl; simp [hx] at hn
    simpa using this

theorem State.leaveLine_keeps : (s.leaveLine l).store = s.store ∧ (s.leaveLine l).slots = s.slots :=
  ⟨State.each_keeps State.store (fun s b => s.leaveBlock l b) (fun _ _ => rfl) _ s,
    State.each_keeps State.slots (fun s b => s.leaveBlock l b) (fun _ _ => rfl) _ s⟩
end

/-- What the steps after the count leave as it was: registers below the calibration's, counters' controls, memory, jobs, arrivals. -/
structure Lined (s t : State) : Prop where
  low     : ∀ a < 0x50000, t.reg a = s.reg a
  ctl     : ∀ b c, c < 64 → t.reg (ccCtl b c) = s.reg (ccCtl b c)
  mem     : SameMem s t
  slots   : t.slots = s.slots
  arrived : ∀ k, (t.block k).arrived = (s.block k).arrived

theorem Lined.refl (s : State) : Lined s s := ⟨fun _ _ => rfl, fun _ _ _ => rfl, .refl s, rfl, fun _ => rfl⟩
theorem Lined.trans {s t u : State} (h : Lined s t) (h' : Lined t u) : Lined s u :=
  ⟨fun a ha => (h'.low a ha).trans (h.low a ha), fun b c hc => (h'.ctl b c hc).trans (h.ctl b c hc), h.mem.trans h'.mem,
    h'.slots.trans h.slots, fun k => (h'.arrived k).trans (h.arrived k)⟩

theorem Lined.setRn (s : State) {a : Nat} (n : Nat) (ha : 0x50000 ≤ a) (hc : ∀ b c, c < 64 → ccCtl b c ≠ a) : Lined s (s.setRn a n) :=
  ⟨fun x hx => by rw [State.setRn_reg, if_neg (by omega)], fun b c h => by rw [State.setRn_reg, if_neg (hc b c h)], sameMem_setRn s a n,
    rfl, fun _ => rfl⟩

/-- Block registers of two places do not meet. -/
theorem blockReg_inj {b b' x x' : Nat} (hx : x < 0x10000) (hx' : x' < 0x10000) (h : blockReg b x = blockReg b' x') : b = b' ∧ x = x' := by
  simp only [blockReg, blockBase] at h
  omega

theorem blockReg_ne_regionReg {b g x x' : Nat} (_ : x < 0x10000) (_ : x' < 0x10000) (_ : x ≠ x') : blockReg b x ≠ regionReg g x' := by
  simp only [blockReg, blockBase, regionReg]
  omega

theorem blockReg_ge (b x : Nat) : 0x2100000 ≤ blockReg b x := by
  simp only [blockReg, blockBase]
  omega

section
variable (s : State)

theorem lined_raiseJ (c k u j t : Nat) : Lined s (s.raiseJ c k u j t) := by
  refine ⟨fun a ha => s.report_reg_low _ (by omega), fun b c hc => s.report_reg_of_ne _ fun g => ?_,
    ⟨fun _ => by simp, fun _ _ => by simp, fun _ => by simp⟩, by simp, fun _ => by simp⟩
  exact blockReg_ne_regionReg (by omega) (by decide) (by omega)

/-- A counter is aligned with its base value: its own value register holds the base, and no other value register changes. -/
theorem lined_realign (b c : Nat) (hc : c < 64) : Lined s (s.realign b c) ∧ (s.realign b c).rf (ccVal b c) 15 0 = s.rf (ccCtl b c) 15 0 ∧
    ∀ b' c', c' < 64 → (b', c') ≠ (b, c) → (s.realign b c).reg (ccVal b' c') = s.reg (ccVal b' c') := by
  have hge {x : Nat} : 0x50000 ≤ blockReg b x := le_trans (by decide) (blockReg_ge b x)
  have hctl {x : Nat} (hx : x < 0x10000) (h : x < 0xC100 ∨ 0xC200 ≤ x) : ∀ b' c', c' < 64 → ccCtl b' c' ≠ blockReg b x := by
    intro b' c' hc' he
    obtain ⟨-, h2⟩ := blockReg_inj (by omega) hx he
    omega
  have hrun : ∀ b' c', c' < 64 → ccVal b' c' ≠ blockReg b (0xC200 + 4 * c) := by
    intro b' c' hc' he
    obtain ⟨-, h2⟩ := blockReg_inj (by omega) (by omega) he
    omega
  have hval : ∀ b' c', c' < 64 → (b', c') ≠ (b, c) → ccVal b' c' ≠ ccVal b c := by
    intro b' c' hc' hne he
    obtain ⟨h1, h2⟩ := blockReg_inj (by omega) (by omega) he
    exact hne (by rw [h1, show c' = c by omega])
  have hev (g : Nat) {b' c' : Nat} (hc' : c' < 64) : ccVal b' c' ≠ regionReg g 0x5004 :=
    blockReg_ne_regionReg (by omega) (by decide) (by omega)
  simp only [State.realign]
  generalize enc2c 16 _ = m
  obtain ⟨t, ht⟩ : ∃ t, t = (s.setRn (blockReg b (0xC200 + 4 * c)) m).setRf (ccVal b c) 15 0 (s.rf (ccCtl b c) 15 0) := ⟨_, rfl⟩
  have hl : Lined s t := ht ▸ (Lined.setRn s _ hge (hctl (by omega) (by omega))).trans (Lined.setRn _ _ hge (hctl (by omega) (by omega)))
  have hv : t.rf (ccVal b c) 15 0 = s.rf (ccCtl b c) 15 0 := by
    rw [ht, State.setRf_rf_same _ _ 15 0 _ (by decide) (by decide)]
    exact Nat.mod_eq_of_lt (Nat.mod_lt _ (by decide))
  have ho : ∀ b' c', c' < 64 → (b', c') ≠ (b, c) → t.reg (ccVal b' c') = s.reg (ccVal b' c') := by
    intro b' c' hc' hne
    rw [ht, State.setRf_reg_ne _ _ _ _ _ _ (hval b' c' hc' hne), State.setRn_reg, if_neg (hrun b' c' hc')]
  rw [← ht]
  split
  · exact ⟨hl, hv, ho⟩
  · obtain ⟨u, hu⟩ : ∃ u, u = t.setBit (ccVal b c) 18 := ⟨_, rfl⟩
    have hlu : Lined t u := hu ▸ Lined.setRn t _ hge (hctl (by omega) (by omega))
    rw [← hu]
    refine ⟨hl.trans (hlu.trans (lined_raiseJ u _ _ _ _ _)), ?_, fun b' c' hc' hne => ?_⟩
    · refine (State.rf_congr (u.report_reg_of_ne _ fun g => hev g hc) _ _).trans ?_
      rw [hu, ← hv]
      exact State.setRf_rf_other t _ 18 18 1 15 0 (by decide) (by decide) (by decide) (by decide)
    · rw [← ho b' c' hc' hne]
      refine (u.report_reg_of_ne _ fun g => hev g hc').trans ?_
      rw [hu, State.setBit_reg_ne _ _ _ _ (hval b' c' hc' hne)]

/-- Calibrations and windows leave the counters alone as well. -/
def Counted (s t : State) : Prop := Lined s t ∧ ∀ b c, c < 64 → t.reg (ccVal b c) = s.reg (ccVal b c)

theorem Counted.refl : Counted s s := ⟨.refl s, fun _ _ _ => rfl⟩
theorem Counted.trans {s t u : State} (h : Counted s t) (h' : Counted t u) : Counted s u :=
  ⟨h.1.trans h'.1, fun b c hc => (h'.2 b c hc).trans (h.2 b c hc)⟩

theorem counted_goCal (l : Nat) {g : Nat} (hg : g < 16) : Counted s (s.goCal l g) := by
  have hne {b x : Nat} : blockReg b x ≠ calReg g 0 := by
    have := blockReg_ge b x
    simp only [calReg]
    omega
  simp only [State.goCal]
  split
  · refine ⟨Lined.setRn s _ (by simp only [calReg]; omega) fun _ _ _ => hne, fun b c _ => ?_⟩
    exact State.setRf_reg_ne _ _ _ _ _ _ hne
  · exact .refl s

theorem counted_askWindow (b : Nat) : Counted s (s.askWindow b) := by
  refine ⟨⟨fun _ _ => rfl, fun _ _ _ => rfl, .of_store rfl, rfl, fun k => ?_⟩, fun _ _ _ => rfl⟩
  rw [State.askWindow, State.block_setBlock]
  split
  · rw [‹k = b›]
  · rfl

/-- What every change by a member of a list keeps, all of them in turn keep. -/
theorem State.each_pred_mem {α : Type} (P : State → Prop) (f : State → α → State) (l : List α) (h : ∀ s, ∀ x ∈ l, P s → P (f s x))
    (s : State) (hs : P s) : P (s.each f l) := by
  induction l generalizing s with
  | nil => exact hs
  | cons x r ih => exact ih (fun t y hy => h t y (List.mem_cons_of_mem _ hy)) _ (h _ x List.mem_cons_self hs)

/-- Counters realigned in turn all stand at their base values (R335). -/
theorem each_realign (xs : List (Nat × Nat)) (hxs : ∀ x ∈ xs, x.2 < 64) :
    Lined s (s.each (fun s x => s.realign x.1 x.2) xs) ∧
    ∀ b c, c < 64 → ((b, c) ∈ xs ∨ s.rf (ccVal b c) 15 0 = s.rf (ccCtl b c) 15 0) →
      (s.each (fun s x => s.realign x.1 x.2) xs).rf (ccVal b c) 15 0 = s.rf (ccCtl b c) 15 0 := by
  induction xs generalizing s with
  | nil => exact ⟨.refl s, fun b c _ h => h.resolve_left List.not_mem_nil⟩
  | cons x xs ih =>
    obtain ⟨h1, hv, ho⟩ := lined_realign s x.1 x.2 (hxs x List.mem_cons_self)
    obtain ⟨h2, hall⟩ := ih (s.realign x.1 x.2) fun y hy => hxs y (List.mem_cons_of_mem _ hy)
    rw [State.each_cons]
    refine ⟨h1.trans h2, fun b c hc h => ?_⟩
    have hctl : (s.realign x.1 x.2).rf (ccCtl b c) 15 0 = s.rf (ccCtl b c) 15 0 := State.rf_congr (h1.ctl b c hc) 15 0
    rw [← hctl]
    refine hall b c hc ?_
    rw [hctl]
    by_cases hx : (b, c) = x
    · right
      rw [← hx] at hv ⊢
      exact hv
    · obtain h | h := h
      · exact .inl ((List.mem_cons.mp h).resolve_left hx)
      · right
        rw [State.rf_congr (ho b c hc (by simpa using hx)), h]

theorem State.realigned_lt {l : Nat} {x : Nat × Nat} (hx : x ∈ s.realigned l) : x.2 < 64 := by
  simp only [State.realigned, List.mem_filter, List.mem_flatten, List.mem_map, List.mem_range] at hx
  obtain ⟨⟨_, ⟨b, _, rfl⟩, hm⟩, -⟩ := hx
  obtain ⟨c, hc, rfl⟩ := List.mem_map.mp hm
  exact List.mem_range.mp hc

theorem afterCount_lined (l : Nat) (win : Bool) : Lined s (s.afterCount l win) ∧
    ∀ x ∈ s.realigned l, (s.afterCount l win).rf (ccVal x.1 x.2) 15 0 = s.rf (ccCtl x.1 x.2) 15 0 := by
  have hlt : ∀ x ∈ s.realigned l, x.2 < 64 := fun x hx => s.realigned_lt hx
  obtain ⟨h1, hval⟩ := each_realign s _ hlt
  unfold State.afterCount
  generalize s.each (fun s x => s.realign x.1 x.2) (s.realigned l) = t at h1 hval
  have h2 : Counted t (t.each (fun s g => s.goCal l g) (List.range 16)) :=
    State.each_pred_mem (fun u => Counted t u) _ _ (fun u g hg hu => hu.trans (counted_goCal u l (List.mem_range.mp hg))) t (.refl t)
  have h3 (bs : List Nat) : Counted t ((t.each (fun s g => s.goCal l g) (List.range 16)).each State.askWindow bs) :=
    State.each_pred (fun v => Counted t v) _ (fun v b hv => hv.trans (counted_askWindow v b)) bs _ h2
  have hall {v : State} (hv : Counted t v) : Lined s v ∧ ∀ x ∈ s.realigned l, v.rf (ccVal x.1 x.2) 15 0 = s.rf (ccCtl x.1 x.2) 15 0 :=
    ⟨h1.trans hv.1, fun x hx => (State.rf_congr (hv.2 x.1 x.2 (hlt x hx)) 15 0).trans (hval x.1 x.2 (hlt x hx) (.inl hx))⟩
  dsimp only
  split
  · exact hall (h3 _)
  · exact hall h2
end

/-! ### The end of a step (R14, R264) -/

section
variable (s : State) (j : Nat)

/-- The job's next step begins: what belonged to the step that ended is gone. -/
def State.nextStep (n : Nat) : State :=
  let sl := s.slot j
  s.setSlot j { sl with
    step := n + 1, committed := false, actFull := false, winForced := false, ties := sl.ties.filter (fun t => t.step != n),
    kparts := sl.kparts.filter (fun p => p.step != n), pbufs := sl.pbufs.filter (fun p => p.step != n),
    open_ := sl.open_.filter (fun o => o.step != n || !o.tiles.isEmpty), mbEpochs := sl.mbEpochs.filter (fun x => x.2.1 != n),
    gradDone := sl.gradDone.filter (fun x => x.1 != n), aborted := [] }

/-- The step's count, norms and records as a step ends. -/
def State.stepDone (n : Nat) : State :=
  (((s.setRn (tsReg j 8) (s.rn (tsReg j 8) + 1)).clearNorms j).releaseRecords j fun r => r.step == n)

/-- A forced test window no longer holds the line. -/
def State.unforce (forced : Bool) (line : Nat) : State := if forced then s.setRf (clReg line 0) 9 9 0 else s

theorem State.stepRelease_eq : s.stepRelease j =
    let n := (s.slot j).step
    let u := s.stepDone j n
    let v := (u.nextStep j n).unforce (u.slot j).winForced (u.slot j).stepLine
    if (u.slot j).stopAtLine then v.haltJob j 4 (v.rf 0x40000 31 16) 0 else v := rfl

/-- A map that keeps the keys of some kind only. -/
theorem SMap.get_filter_key {α : Type} (d : Nat → α) (p : Nat → Bool) (m : SMap α) (k : Nat) :
    SMap.get d (m.filter fun x => p x.1) k = if p k then SMap.get d m k else d k := by
  induction m with
  | nil => simp
  | cons x m ih =>
    obtain ⟨k', v⟩ := x
    by_cases hk : k' = k
    · subst hk
      cases hp : p k' <;> simp [SMap.get, hp, ih]
    · cases hp : p k' <;> simp [SMap.get, hp, hk, ih]

theorem State.clearNorms_norm (k : Nat) : (s.clearNorms j).norm k = if k / 4096 % 64 = j then 0 else s.norm k := by
  have h := SMap.get_filter_key (fun _ => 0) (fun k => k / 4096 % 64 != j) s.store.norms k
  rw [State.norm, State.clearNorms]
  refine h.trans ?_
  by_cases hk : k / 4096 % 64 = j
  · simp [hk]
  · simp [hk, State.norm]

theorem State.unforce_reg (forced : Bool) (line : Nat) {a : Nat} (h : a ≠ clReg line 0) : (s.unforce forced line).reg a = s.reg a := by
  unfold State.unforce
  split
  · exact State.setRf_reg_ne _ _ _ _ _ _ h
  · rfl

theorem State.unforce_keeps (forced : Bool) (line : Nat) : SameMem s (s.unforce forced line) ∧ (s.unforce forced line).slots = s.slots ∧
    (s.unforce forced line).blocks = s.blocks := by
  unfold State.unforce
  split
  · exact ⟨sameMem_setRn s _ _, rfl, rfl⟩
  · exact ⟨.refl s, rfl, rfl⟩

theorem State.stepDone_reg (n : Nat) {a : Nat} (hev : ∀ g, a ≠ regionReg g 0x5004) :
    (s.stepDone j n).reg a = if a = tsReg j 8 then BitVec.ofNat 32 (s.rn (tsReg j 8) + 1) else s.reg a := by
  refine ((paged_releaseRecords _ j _).regs a hev).trans ?_
  exact State.setRn_reg s _ _ a

theorem State.stepDone_slot (n k : Nat) : ∃ l, (s.stepDone j n).slot k = { s.slot k with acts := l } :=
  (paged_releaseRecords ((s.setRn (tsReg j 8) (s.rn (tsReg j 8) + 1)).clearNorms j) j _).slots k

theorem State.stepDone_norm (n k : Nat) : (s.stepDone j n).norm k = if k / 4096 % 64 = j then 0 else s.norm k :=
  ((paged_releaseRecords _ j _).norms k).trans (State.clearNorms_norm _ j k)

theorem State.stepDone_cell (n k : Nat) : (s.stepDone j n).cell k = s.cell k := (calm_releaseRecords _ j _).cells k

theorem State.stepDone_blocks (n : Nat) : (s.stepDone j n).blocks = s.blocks :=
  (paged_releaseRecords ((s.setRn (tsReg j 8) (s.rn (tsReg j 8) + 1)).clearNorms j) j _).blocks

theorem State.stepDone_bytes {n : Nat} (h : ∀ r ∈ (s.slot j).acts, r.step = n → [1, 4, 6].contains r.state = false) (sp : Space) (a : Nat) :
    (s.stepDone j n).rdByte sp a = s.rdByte sp a := by
  refine ((sameMem_releaseRecords _ fun r hr hp => ?_).bytes sp a).trans ?_
  · have := h r hr (by simpa using hp)
    simpa using this
  · cases sp <;> rfl

/-- A line's release keeps clear of the counters, and of its own count and the MP's arrivals, as a step ends. -/
theorem State.stepRelease_reg {a : Nat} (ha : a ≠ tsReg j 8) (hev : ∀ g, a ≠ regionReg g 0x5004)
    (hl : a ≠ clReg (s.slot j).stepLine 0) : (s.stepRelease j).reg a = s.reg a := by
  obtain ⟨acts, hslot⟩ := s.stepDone_slot j (s.slot j).step j
  rw [State.stepRelease_eq]
  dsimp only
  have hu : (((s.stepDone j (s.slot j).step).nextStep j (s.slot j).step).unforce ((s.stepDone j (s.slot j).step).slot j).winForced
      ((s.stepDone j (s.slot j).step).slot j).stepLine).reg a = s.reg a := by
    rw [State.unforce_reg _ _ _ (by rw [hslot]; exact hl)]
    exact (s.stepDone_reg j _ hev).trans (if_neg ha)
  split
  · rw [State.haltJob_reg _ _ _ _ _ hev, hu]
  · exact hu

/-- A step that ends without a drain that waits (R14, R264). -/
theorem State.stepRelease_runs (hs : (s.slot j).stopAtLine = false) : let t := s.stepRelease j
    (t.slot j).step = (s.slot j).step + 1 ∧ t.blocks = s.blocks ∧ (∀ a, (∀ g, a ≠ regionReg g 0x5004) → a ≠ clReg (s.slot j).stepLine 0 →
      t.reg a = if a = tsReg j 8 then BitVec.ofNat 32 (s.rn (tsReg j 8) + 1) else s.reg a) ∧
    (∀ k, t.norm k = if k / 4096 % 64 = j then 0 else s.norm k) ∧ (∀ k, t.cell k = s.cell k) ∧
    ((∀ r ∈ (s.slot j).acts, r.step = (s.slot j).step → [1, 4, 6].contains r.state = false) → ∀ sp a, t.rdByte sp a = s.rdByte sp a) := by
  obtain ⟨acts, hslot⟩ := s.stepDone_slot j (s.slot j).step j
  rw [State.stepRelease_eq]
  dsimp only
  rw [if_neg (by rw [hslot]; simpa using hs)]
  obtain ⟨u, hu⟩ : ∃ u, u = s.stepDone j (s.slot j).step := ⟨_, rfl⟩
  have hline : (u.slot j).stepLine = (s.slot j).stepLine := by rw [hu, hslot]
  rw [← hu, hline]
  obtain ⟨hmem, hslots, hblocks⟩ := State.unforce_keeps (u.nextStep j (s.slot j).step) (u.slot j).winForced (s.slot j).stepLine
  have hn : SameMem u (u.nextStep j (s.slot j).step) := .of_store rfl
  refine ⟨?_, hblocks.trans ((hu ▸ s.stepDone_blocks j _ :)), fun a hev hl => ?_, fun k => ?_, fun k => ?_, fun hr sp a => ?_⟩
  · rw [State.slot, hslots, ← State.slot, State.nextStep, State.setSlot_get, if_pos rfl]
  · rw [State.unforce_reg _ _ _ hl]
    exact hu ▸ s.stepDone_reg j _ hev
  · exact (hmem.norms k).trans (hu ▸ s.stepDone_norm j _ k)
  · exact (hmem.cells k).trans (hu ▸ s.stepDone_cell j _ k)
  · exact (hmem.bytes sp a).trans ((hn.bytes sp a).trans (hu ▸ s.stepDone_bytes j hr sp a))
end
end Sys2Proof.Machine
end

section
namespace Sys2Proof.Machine

/-! ### A line's release as a whole -/

section
variable (s : State) (l : Nat)

/-- The state as a line has been released, but for the end of a step. -/
def State.lineLeft : State := ((s.leaveLine l).countRelease l).afterCount l (s.rbit (clReg l 0) 9)

theorem State.countRelease_reg {a : Nat} (h1 : a ≠ 0x20010) (h2 : a ≠ clReg l 4) : (s.countRelease l).reg a = s.reg a := by
  rw [State.countRelease, State.setRf_reg_ne _ _ _ _ _ _ h2, State.setRf_reg_ne _ _ _ _ _ _ h1]

variable {l}

section
variable (hl : l < 32)
include hl

theorem State.countRelease_count : (s.countRelease l).rbit 0x20010 l = false ∧
    (s.countRelease l).rf (clReg l 4) 15 0 = (s.rf (clReg l 4) 15 0 + 1) % 65536 := by
  have hne : (0x20010 : Nat) ≠ clReg l 4 := by simp only [clReg]; omega
  refine ⟨?_, ?_⟩
  · rw [State.countRelease, State.rbit_congr (State.setRf_reg_ne _ _ _ _ _ _ hne), State.setRf_rbit_same _ _ _ hl]
    rfl
  · rw [State.countRelease, State.setRf_rf_same _ _ 15 0 _ (by decide) (by decide), State.setRf_rf_ne _ _ _ _ _ _ _ _ hne.symm]
    rfl

/-- What the release of a line does but for the end of a step (R332, R334, R335). -/
theorem State.lineLeft_spec : let u := s.lineLeft l
    (∀ b, (u.block b).arrived = (s.block b).arrived.filter fun x => x != l) ∧ SameMem s u ∧ (∀ j, u.slot j = s.slot j) ∧
    u.rbit 0x20010 l = false ∧ u.rf (clReg l 4) 15 0 = (s.rf (clReg l 4) 15 0 + 1) % 65536 ∧
    (∀ x ∈ s.realigned l, u.rf (ccVal x.1 x.2) 15 0 = s.rf (ccCtl x.1 x.2) 15 0) ∧
    (∀ a < 0x50000, a ≠ 0x20010 → a ≠ clReg l 4 → u.reg a = s.reg a) := by
  obtain ⟨hst, hsl⟩ := s.leaveLine_keeps l
  obtain ⟨t, ht⟩ : ∃ t, t = (s.leaveLine l).countRelease l := ⟨_, rfl⟩
  have hreg {a : Nat} (h1 : a ≠ 0x20010) (h2 : a ≠ clReg l 4) : t.reg a = s.reg a :=
    (ht ▸ State.countRelease_reg _ l h1 h2 :).trans (State.reg_of_store hst a)
  have hlow : clReg l 4 < 0x50000 := by simp only [clReg]; omega
  have hctl (b c : Nat) : t.reg (ccCtl b c) = s.reg (ccCtl b c) := by
    have := blockReg_ge b (0xC100 + 4 * c)
    refine hreg ?_ ?_ <;> rw [ccCtl] <;> omega
  have hre : t.realigned l = s.realigned l := by
    simp only [State.realigned]
    refine List.filter_congr fun x _ => ?_
    rw [State.rbit_congr (hctl x.1 x.2), State.rf_congr (hctl x.1 x.2)]
  obtain ⟨hL, hval⟩ := afterCount_lined t l (s.rbit (clReg l 0) 9)
  obtain ⟨hbit, hcount⟩ := State.countRelease_count (s.leaveLine l) hl
  rw [← ht] at hbit hcount
  rw [State.lineLeft, ← ht]
  refine ⟨fun b => ?_, ?_, fun j => ?_, ?_, ?_, fun x hx => ?_, fun a ha h1 h2 => (hL.low a ha).trans (hreg h1 h2)⟩
  · rw [hL.arrived, ht]
    exact s.leaveLine_arrived l b
  · refine SameMem.trans (.of_store hst) (.trans (t := t) ?_ hL.mem)
    exact ht ▸ (sameMem_setRn _ _ _).trans (sameMem_setRn _ _ _)
  · rw [State.slot, hL.slots, ht]
    exact congrArg (fun m => SMap.get (fun _ => Slot.init) m j) hsl
  · rw [State.rbit_congr (hL.low _ (by decide)), hbit]
  · rw [State.rf_congr (hL.low _ hlow), hcount, State.rf_congr (State.reg_of_store hst _)]
  · rw [hval x (hre ▸ hx), State.rf_congr (hctl x.1 x.2)]

theorem State.releaseLine_cases : s.releaseLine l = if s.rbit (clReg l 0) 8 && s.rbit (clReg l 0) 6 then
    (s.lineLeft l).stepRelease (s.rf (clReg l 0) 5 0) else s.lineLeft l := by
  obtain ⟨-, -, -, -, -, -, hlow⟩ := s.lineLeft_spec hl
  have hc : (s.lineLeft l).reg (clReg l 0) = s.reg (clReg l 0) :=
    hlow _ (by simp only [clReg]; omega) (by simp only [clReg]; omega) (by simp only [clReg]; omega)
  rw [← State.rbit_congr hc 8, ← State.rbit_congr hc 6, ← State.rf_congr hc 5 0]
  rfl

end

theorem completes_clearingLineRelease {l : LineId} (h : s.lineReady l.val = true) : Completes (.clearingLineRelease l) s fun t =>
    let job := s.rf (clReg l.val 0) 5 0
    let stepLine := s.rbit (clReg l.val 0) 8 && s.rbit (clReg l.val 0) 6
    (stepLine = false → (∀ b, (t.block b).arrived = (s.block b).arrived.filter fun x => x != l.val) ∧ SameMem s t ∧
      (∀ j, t.slot j = s.slot j)) ∧
    t.rbit 0x20010 l.val = false ∧ t.rf (clReg l.val 4) 15 0 = (s.rf (clReg l.val 4) 15 0 + 1) % 65536 ∧
    ((stepLine = true → (s.slot job).stepLine < 32) → ∀ x ∈ s.realigned l.val, t.rf (ccVal x.1 x.2) 15 0 = s.rf (ccCtl x.1 x.2) 15 0) ∧
    (stepLine = true → (s.slot job).stopAtLine = false → (t.slot job).step = (s.slot job).step + 1 ∧
      (∀ b, (t.block b).arrived = (s.block b).arrived.filter fun x => x != l.val) ∧
      t.rn (tsReg job 8) = (s.rn (tsReg job 8) + 1) % 2 ^ 32 ∧ (∀ k, k / 4096 % 64 = job → t.norm k = 0) ∧
      (∀ k, k / 4096 % 64 ≠ job → t.norm k = s.norm k) ∧ (∀ k, t.cell k = s.cell k) ∧
      ((∀ r ∈ (s.slot job).acts, r.step = (s.slot job).step → [1, 4, 6].contains r.state = false) →
        ∀ sp a, t.rdByte sp a = s.rdByte sp a)) := by
  refine completes_of_whenever (t := s.releaseLine l.val) rfl h ?_
  have hll : l.val < 32 := l.isLt
  obtain ⟨harr, hmem, hslot, hbit, hcount, hval, hlow⟩ := s.lineLeft_spec hll
  rw [State.releaseLine_cases s hll]
  generalize s.lineLeft l.val = u at *
  intro job stepLine
  have hjob : job < 64 := Nat.mod_lt _ (by decide)
  have hev {a : Nat} (ha : a < 0x2000000) (g : Nat) : a ≠ regionReg g 0x5004 := by simp only [regionReg]; omega
  have hts {a : Nat} (ha : 0x10000 ≤ a) : a ≠ tsReg job 8 := by simp only [tsReg]; omega
  have hsp : stepLine = true ∨ stepLine = false := by cases stepLine <;> simp
  obtain hsp | hsp := hsp
  · rw [if_pos hsp]
    have hreg {a : Nat} (ha : 0x10000 ≤ a) (hg : ∀ g, a ≠ regionReg g 0x5004) (hne : a ≠ clReg (s.slot job).stepLine 0) :
        (u.stepRelease job).reg a = u.reg a := u.stepRelease_reg job (hts ha) hg (by rw [hslot]; exact hne)
    have h1 : (0x20010 : Nat) ≠ clReg (s.slot job).stepLine 0 := by simp only [clReg]; omega
    have h2 : clReg l.val 4 ≠ clReg (s.slot job).stepLine 0 := by simp only [clReg]; omega
    have h3 : clReg l.val 4 < 0x2000000 ∧ 0x10000 ≤ clReg l.val 4 := by simp only [clReg]; omega
    refine ⟨fun hf => absurd (hsp.symm.trans hf) (by decide), ?_, ?_, fun hline x hx => ?_, fun _ hstop => ?_⟩
    · rw [State.rbit_congr (hreg (by decide) (hev (by decide)) h1), hbit]
    · rw [State.rf_congr (hreg h3.2 (hev h3.1) h2), hcount]
    · have hc : x.2 < 64 := s.realigned_lt hx
      have hge := blockReg_ge x.1 (0xC000 + 4 * x.2)
      have hne : ccVal x.1 x.2 ≠ clReg (s.slot job).stepLine 0 := by
        have := hline hsp
        simp only [clReg, ccVal]
        omega
      have hgv (g : Nat) : ccVal x.1 x.2 ≠ regionReg g 0x5004 := blockReg_ne_regionReg (by omega) (by decide) (by omega)
      exact (State.rf_congr (hreg (le_trans (by decide) hge) hgv hne) 15 0).trans (hval x hx)
    · obtain ⟨hstep, hblocks, hregs, hnorms, hcells, hbytes⟩ := u.stepRelease_runs job (by rw [hslot]; exact hstop)
      rw [hslot] at hstep hregs hbytes
      have htn : tsReg job 8 ≠ clReg (s.slot job).stepLine 0 := by simp only [tsReg, clReg]; omega
      refine ⟨hstep, fun b => ?_, ?_, fun k hk => ?_, fun k hk => ?_, fun k => (hcells k).trans (hmem.cells k),
        fun hr sp a => (hbytes hr sp a).trans (hmem.bytes sp a)⟩
      · rw [State.block, hblocks]
        exact harr b
      · have hlt : tsReg job 8 < 0x10000 := by simp only [tsReg]; omega
        rw [State.rn, hregs _ (hev (by omega)) htn, if_pos rfl, State.rn, hlow _ (by omega) (by omega) (by simp only [clReg]; omega),
          BitVec.toNat_ofNat]
        rfl
      · rw [hnorms, if_pos hk]
      · rw [hnorms, if_neg hk, hmem.norms]
  · rw [if_neg (by rw [show (s.rbit (clReg l.val 0) 8 && s.rbit (clReg l.val 0) 6) = false from hsp]; decide)]
    exact ⟨fun _ => ⟨harr, hmem, hslot⟩, hbit, hcount, fun _ => hval, fun ht => absurd (hsp.symm.trans ht) (by decide)⟩
end

theorem completes_clEnWrite {s : State} {w : Writer} {a : Access} {v : Nat} {r : RegRef} (h : Accepted s w a v r) (hid : r.desc.id = .clEn)
    (ha : a.off = blockReg r.unit 0xC300) : ∃ s1 : State, Wrote r.desc (s.reg a.off) (s1.reg a.off) v ∧ SameRegs s s1 [a.off] ∧ SameMem s s1 ∧
      SameUnits s s1 ∧ exec (.clEnWrite w a v) s = .next (s1.each (fun u i =>
        if bit (s.rn a.off) i && !u.rbit a.off i && u.lineReady i then u.releaseLine i else u) (List.range 32)) := by
  obtain ⟨hregs, hmem, hunits⟩ := (onlyRegs_keyUsed s w r.desc [a.off]).trans
    (onlyRegs_setReg _ (s.newValue r a.off v) (List.mem_singleton_self a.off))
  refine ⟨(s.keyUsed w r.desc).setReg a.off (s.newValue r a.off v), ?_, hregs, hmem, hunits, ?_⟩
  · simpa using s.newValue_wrote (by rw [hid]; decide) a.off v
  · have hw := h.named (ids := [.clEn]) (by rw [hid]; decide)
    refine Eq.trans hw ?_
    simp only [State.applyWrite, State.regEffect, hid, State.clEnEffect, ← ha, State.rn, State.keyUsed_reg]
    rfl

/-- Settles O34: the participants leave the line, it is counted, and counters, calibrations, windows and a step's end
follow without writing each other's registers. -/
theorem clearingLines : Obligations.ClearingLines :=
  ⟨fun s _ h => completes_clearingLineRelease s h, fun _ _ _ _ _ h hid ha => completes_clEnWrite h hid ha⟩
end Sys2Proof.Machine
end

section
namespace Sys2Proof.Machine

/-! ### Slots and firmware while units are reserved, loaded and folded (R303, R426) -/

/-- Job slots keep all but handles, records and twin areas; firmware but hears reports. -/
structure Firm (s t : State) : Prop where
  slots : ∀ k, ∃ h a w, t.slot k = { s.slot k with hregs := h, acts := a, twinH := w }
  fw    : ∃ r, t.fw = { s.fw with reports := r }

theorem Firm.refl (s : State) : Firm s s := ⟨fun _ => ⟨_, _, _, rfl⟩, ⟨_, rfl⟩⟩
theorem Firm.trans {s t u : State} (h : Firm s t) (h' : Firm t u) : Firm s u := by
  refine ⟨fun k => ?_, ?_⟩
  · obtain ⟨x, a, w, h1⟩ := h.slots k
    obtain ⟨x', a', w', h2⟩ := h'.slots k
    exact ⟨x', a', w', by rw [h2, h1]⟩
  · obtain ⟨r, h1⟩ := h.fw
    obtain ⟨r', h2⟩ := h'.fw
    exact ⟨r', by rw [h2, h1]⟩
theorem Firm.each {α : Type} {f : State → α → State} (h : ∀ s x, Firm s (f s x)) (l : List α) (s : State) : Firm s (s.each f l) :=
  State.each_pred (fun t => Firm s t) f (fun t x ht => ht.trans (h t x)) l s (.refl s)

/-- Units other than the job slots and firmware do not matter. -/
theorem Firm.of_eq {s t : State} (hs : t.slots = s.slots) (hf : t.fw = s.fw) : Firm s t :=
  ⟨fun k => ⟨(s.slot k).hregs, (s.slot k).acts, (s.slot k).twinH, by rw [State.slot, hs]; rfl⟩, ⟨s.fw.reports, by rw [hf]⟩⟩

theorem Firm.paged {s t : State} (h : Paged s t) (hf : t.fw = s.fw) : Firm s t := by
  refine ⟨fun k => ?_, ⟨s.fw.reports, by rw [hf]⟩⟩
  obtain ⟨l, hl⟩ := h.slots k
  exact ⟨(s.slot k).hregs, l, (s.slot k).twinH, hl⟩

section
variable (s : State)

theorem firm_ite {c : Prop} [Decidable c] {a b : State} (ha : Firm s a) (hb : Firm s b) : Firm s (if c then a else b) := by
  split
  · exact ha
  · exact hb

theorem firm_report (r : Report) : Firm s (s.report r) := by
  refine ⟨fun k => ⟨_, _, _, by simp; rfl⟩, ?_⟩
  simp only [State.report]
  split
  · exact ⟨_, rfl⟩
  · split
    · exact ⟨_, rfl⟩
    · split <;> exact ⟨_, rfl⟩

theorem firm_setSlot (j : Nat) {x : Slot} (hx : ∃ h a w, x = { s.slot j with hregs := h, acts := a, twinH := w }) : Firm s (s.setSlot j x) := by
  refine ⟨fun k => ?_, ⟨_, rfl⟩⟩
  rw [State.setSlot_get]
  split
  · rw [‹k = j›]; exact hx
  · exact ⟨_, _, _, rfl⟩

theorem firm_setRn (a n : Nat) : Firm s (s.setRn a n) := .of_eq rfl rfl
theorem firm_wr (sp : Space) (a : Nat) (l : List Byte) : Firm s (s.wr sp a l) := .of_eq (by simp) (by simp)

theorem firm_freeEntry (h : Nat) : Firm s (s.freeEntry h) := by
  refine .paged (paged_freeEntry s h) ?_
  simp only [State.freeEntry]
  split <;> rfl

theorem firm_respond (q : AllocReq) (status h : Nat) (hq : q.by_ = .firmware) : Firm s (s.respond q status h) := by
  simp only [State.respond, hq]
  exact .of_eq rfl rfl

theorem firm_refuse (q : AllocReq) (status : Nat) (hq : q.by_ = .firmware) : Firm s (s.refuse q status) := by
  have hrep (t : State) (a i c k u j n : Nat) : Firm t ((t.setBit a i).raiseJ c k u j n) := (firm_setRn t a _).trans (firm_report _ _)
  simp only [State.refuse]
  refine .trans ?_ (firm_respond _ q status 0 hq)
  generalize ht : (s.setRn (regionReg q.region 0x200C) _).setRn _ _ = t
  have hst : Firm s t := ht ▸ (firm_setRn s _ _).trans (firm_setRn _ _ _)
  refine hst.trans ?_
  split
  · exact hrep _ _ _ _ _ _ _ _
  · exact hrep _ _ _ _ _ _ _ _
  · exact hrep _ _ _ _ _ _ _ _
  · exact .refl _

theorem firm_grant (q : AllocReq) (base : Nat) (hq : q.by_ = .firmware) : Firm s (s.grant q base) := by
  have hscr (t : State) (x : Space × Nat × Nat) : Firm t (if q.zero then t else t.scramble x.1 x.2.1 x.2.2) := by
    split
    · exact .refl t
    · exact .of_eq rfl rfl
  simp only [State.grant, hq]
  split
  · exact firm_refuse s q 7 hq
  · rename_i i hi
    have h : ∀ a l, Firm s ((s.setAlloc q.owner a).each (fun s (x : Space × Nat × Nat) => if q.zero then s else s.scramble x.1 x.2.1 x.2.2) l) :=
      fun a l => (Firm.of_eq rfl rfl : Firm s (s.setAlloc q.owner a)).trans (.each hscr l _)
    exact firm_ite s (h _ _) ((h _ _).trans (firm_respond _ q 0 _ hq))

theorem firm_allocate (q : AllocReq) (hq : q.by_ = .firmware) : Firm s (s.allocate q) := by
  unfold State.allocate
  split
  dsimp only
  split
  · exact firm_grant s q _ hq
  · split
    · split
      · exact .of_eq rfl rfl
      · exact firm_refuse s q _ hq
    · exact firm_refuse s q _ hq

theorem firm_fwAlloc (g n : Nat) : Firm s (s.fwAlloc g n).2 := firm_allocate s _ rfl

theorem firm_release (q : AllocReq) (hq : q.by_ = .firmware) : Firm s (s.release q) := by
  have hfree (t : State) : Firm t (if (s.hentry q.handle).inuse = 0 then t.freeEntry q.handle
      else t.setHentry q.handle { s.hentry q.handle with state := .freeing }) := by
    split
    · exact firm_freeEntry t _
    · exact .of_eq rfl rfl
  simp only [State.release]
  split
  · exact firm_refuse s q 3 hq
  · split
    · exact firm_refuse s q 4 hq
    · exact firm_refuse s q 4 hq
    · exact (hfree s).trans (firm_respond _ q 0 _ hq)

theorem firm_areaAlloc (g n : Nat) : Firm s (s.areaAlloc g n).2 := by
  have h1 := firm_fwAlloc s g ((3 * n + 1) / 2)
  unfold State.areaAlloc
  generalize s.fwAlloc g ((3 * n + 1) / 2) = p at h1
  obtain ⟨a, t⟩ := p
  cases a with
  | none => exact h1
  | some a =>
    have h2 := firm_fwAlloc t g ((n + 1) / 2)
    dsimp only
    generalize t.fwAlloc g ((n + 1) / 2) = p at h2
    obtain ⟨b, u⟩ := p
    cases b with
    | none => exact h1.trans (h2.trans (firm_release u _ rfl))
    | some b => exact h1.trans h2

theorem firm_raiseFull (x : Journal) (c k u : Nat) : Firm s ((s.setJrn x).raise c k u) :=
  .trans (t := s.setJrn x) (.of_eq rfl rfl) (firm_report _ _)

theorem firm_jWrite (r : JRec) : Firm s (s.jWrite r) := by
  unfold State.jWrite
  split
  · simp only [State.jWithheld]
    split
    · exact firm_setRn s _ _
    · exact (firm_setRn s _ _).trans (firm_raiseFull _ _ _ _ _)
  · exact .of_eq rfl rfl

theorem firm_reserve (n i : Nat) (ds : Bool) (u : Nat) (p : Nat × Nat × Int) (sh fo : Nat) : Firm s (s.reserve n i ds u p sh fo) := by
  unfold State.reserve
  refine .each (fun s v => ?_) _ s
  exact .of_eq rfl rfl

theorem firm_startLoad (u : Nat) : Firm s (s.startLoad u) := by
  have hcommit (t : State) (u : Nat) : Firm t (t.commitErase u) := by
    have hj (t : State) (x : TierInfo) (n : Nat) (b : Bool) : Firm t ((t.setTier u x).jErase u n b) :=
      (Firm.of_eq rfl rfl : Firm t (t.setTier u x)).trans (firm_jWrite _ _)
    simp only [State.commitErase]
    split
    · exact (hj _ _ _ _).trans (firm_raiseFull _ _ _ _ _)
    · exact hj _ _ _ _
  have hshow (p : TierProc) : Firm s (s.showLoading (u / 8) p) := by
    unfold State.showLoading
    split
    · exact .refl s
    · exact firm_setRn s _ _
  have hbegin (p : TierProc) : Firm s (s.beginWrite (u / 8) p).2 := by
    rw [State.beginWrite, apply_ite Prod.snd]
    exact firm_ite s (hshow _) (hcommit s _)
  exact (hbegin _).trans (.of_eq rfl rfl)

/-- Twins of a tensor's pieces in a region: areas, copies of the records and loads (R303). -/
theorem firm_makeTwinsIn (j n g : Nat) (x : Tensor) : Firm s (s.makeTwinsIn j n g x).2 := by
  have hA := firm_areaAlloc s g
  have hone (a b : Nat) (t : State) (y : (Nat × Nat × Nat × Nat × Int) × Nat) : Firm t (
      let (i, u, p) := y.1
      let sh := t.areaBase a + y.2 * 3145728
      let fo := t.areaBase b + y.2 * 1048576
      let I := t.tier u
      let t := t.wr (.hbm g) sh (t.rdBytes (.hbm g) I.shadow 3145728)
      let t := t.wr (.hbm g) fo (t.rdBytes (.hbm g) I.fold 1048576)
      let t := t.reserve n i (x.layout == 1) (u + 512) p sh fo
      t.each State.startLoad (pieceUnits (x.layout == 1) (u + 512))) :=
    (firm_wr t _ _ _).trans ((firm_wr _ _ _ _).trans ((firm_reserve _ _ _ _ _ _ _ _).trans (.each (fun t u => firm_startLoad t u) _ _)))
  simp only [State.makeTwinsIn]
  split
  · exact .refl s
  · split
    · exact .refl s
    · have h1 := hA ((x.inRegion g).filter fun (i, u, _) => u / 512 % 2 == 0 && (s.twinOf n i u).isNone).length
      split
      · rename_i t ht
        rw [ht] at h1
        exact h1
      · rename_i a b t ht
        rw [ht] at h1
        exact h1.trans ((firm_setSlot t j ⟨_, _, _, rfl⟩).trans (.each (hone a b) _ _))

theorem firm_makeTwins (j : Nat) : Firm s (s.makeTwins j).2 := by
  unfold State.makeTwins
  split
  · exact .refl s
  · generalize ((s.slot j).tensors.map fun t => (List.range 16).map fun g => (t.1, g)).flatten = l
    suffices h : ∀ p : Bool × State, Firm s p.2 → Firm s (l.foldl (fun r (x : Nat × Nat) =>
        match r.2.tensor x.1 with
        | some y => if y.state = 5 then let (ok, s) := r.2.makeTwinsIn j x.1 x.2 y; (r.1 && ok, s) else r
        | none => r) p).2 from h _ (.refl s)
    induction l with
    | nil => exact fun _ h => h
    | cons x l ih =>
      refine fun p hp => ih _ ?_
      dsimp only
      split
      · split
        · exact hp.trans (firm_makeTwinsIn _ _ _ _ _)
        · exact hp
      · exact hp
end
end Sys2Proof.Machine
end

section
namespace Sys2Proof.Machine

/-! ### Bytes of host memory and of the device (R12, R453) -/

/-- The two memories are different ones: host memory, one block store, one stack. -/
def Space.apart : Space → Space → Bool
  | .host, .host => false
  | .bs _, .bs _ => false
  | .hbm _, .hbm _ => false
  | _, _ => true

section
variable (s : State) {sp sp' : Space} (h : sp.apart sp' = true)
include h

theorem State.wrByte_rdByte_apart (a b : Nat) (v : Byte) : (s.wrByte sp a v).rdByte sp' b = s.rdByte sp' b := by
  cases sp <;> cases sp' <;> simp [Space.apart] at h <;> rfl

theorem State.wrBytes_rdByte_apart (a b : Nat) (l : List Byte) : (s.wrBytes sp a l).rdByte sp' b = s.rdByte sp' b := by
  induction l generalizing s a with
  | nil => rfl
  | cons v r ih => rw [State.wrBytes, ih, State.wrByte_rdByte_apart s h]

/-- A store changes no byte of another kind of memory. -/
theorem State.wr_rdByte_apart (a b : Nat) (l : List Byte) : (s.wr sp a l).rdByte sp' b = s.rdByte sp' b := by
  rw [State.wr, State.unpoison_rdByte, State.wrBytes_rdByte_apart s h]
end

section
variable (s : State) (sp : Space)

theorem State.wr_rdByte_out (a b : Nat) (l : List Byte) (h : b < a ∨ a + l.length ≤ b) : (s.wr sp a l).rdByte sp b = s.rdByte sp b := by
  rw [State.wr, State.unpoison_rdByte, State.wrBytes_rdByte_out _ _ _ _ _ h]

theorem State.wr_rdByte_in (a i : Nat) (l : List Byte) (h : i < l.length) : (s.wr sp a l).rdByte sp (a + i) = l.getD i 0 := by
  rw [State.wr, State.unpoison_rdByte, State.wrBytes_rdByte_in _ _ _ _ _ h]

theorem State.rdBytes_congr {t : State} {a n : Nat} (h : ∀ i < n, t.rdByte sp (a + i) = s.rdByte sp (a + i)) :
    t.rdBytes sp a n = s.rdBytes sp a n := by
  induction n generalizing a with
  | zero => rfl
  | succ n ih =>
    rw [State.rdBytes, State.rdBytes, ih fun i hi => ?_, show t.rdByte sp a = s.rdByte sp a from h 0 (by omega)]
    rw [show a + 1 + i = a + (i + 1) by omega]
    exact h (i + 1) (by omega)

theorem State.rdN_congr {t : State} {a n : Nat} (h : ∀ i < n, t.rdByte sp (a + i) = s.rdByte sp (a + i)) : t.rdN sp a n = s.rdN sp a n := by
  rw [State.rdN, State.rdBytes_congr s sp h]
  rfl
end

/-! ### A step's commit (R14, R427) -/

/-- Copying a job's journal segments writes host memory and the place of the next one, and raises events in regions. -/
structure Copied (j : Nat) (s t : State) : Prop where
  part  : t.part = s.part
  log   : t.fw.commitLog = s.fw.commitLog ∧ t.fw.commitMs = s.fw.commitMs
  low   : ∀ a < 0x2000000, t.reg a = s.reg a
  cells : ∀ k, t.cell k = s.cell k
  bytes : ∀ sp, Space.apart .host sp = true → ∀ a, t.rdByte sp a = s.rdByte sp a
  slots : ∀ k, ∃ o, t.slot k = if k = j then { s.slot k with segOff := o } else s.slot k

namespace Copied
variable {j : Nat}

theorem refl (s : State) : Copied j s s :=
  ⟨rfl, ⟨rfl, rfl⟩, fun _ _ => rfl, fun _ => rfl, fun _ _ _ => rfl, fun k => ⟨(s.slot k).segOff, by split <;> rfl⟩⟩

theorem trans {s t u : State} (h : Copied j s t) (h' : Copied j t u) : Copied j s u := by
  refine ⟨h'.part.trans h.part, ⟨h'.log.1.trans h.log.1, h'.log.2.trans h.log.2⟩, fun a ha => (h'.low a ha).trans (h.low a ha),
    fun k => (h'.cells k).trans (h.cells k), fun sp hs a => (h'.bytes sp hs a).trans (h.bytes sp hs a), fun k => ?_⟩
  obtain ⟨o, h1⟩ := h.slots k
  obtain ⟨o', h2⟩ := h'.slots k
  refine ⟨o', ?_⟩
  rw [h2, h1]
  split <;> rfl

theorem copySegment (s : State) (x : Nat × Nat × Bool × List Nat) : Copied j s (s.copySegment j x) := by
  simp only [State.copySegment]
  split
  · refine ⟨by simp, by simp, fun a ha => State.report_reg_low s _ ha, fun _ => by simp, fun _ _ _ => by simp, fun k => ⟨(s.slot k).segOff, ?_⟩⟩
    rw [State.raiseJ_slot]
    split <;> rfl
  · refine ⟨by simp, by simp, fun _ _ => by simp, fun _ => by simp, fun sp hs a => ?_, fun k => ?_⟩
    · rw [State.setSlot_rdByte]
      exact State.wr_rdByte_apart s hs _ _ _
    · rw [State.setSlot_get, State.wr_slot]
      by_cases hk : k = j
      · simp only [hk, if_true]
        exact ⟨_, rfl⟩
      · simp only [if_neg hk]
        exact ⟨0, trivial⟩

theorem copySegments (s : State) (n : Nat) : Copied j s (s.copySegments j n) := by
  unfold State.copySegments
  split
  · exact refl s
  · exact State.each_pred (fun t => Copied j s t) _ (fun t x ht => ht.trans (copySegment t x)) _ s (refl s)
end Copied

theorem State.copySegments_eq_self {s : State} {j n : Nat} (h : s.ucieUp = false ∨ ∀ y ∈ (s.slot j).segs, y.1 ≠ n) : s.copySegments j n = s := by
  unfold State.copySegments
  obtain h | h := h
  · rw [h]; rfl
  · have hnil : ((s.slot j).segs.filter fun (k, _, _, _) => k == n) = [] := by
      rw [List.filter_eq_nil_iff]
      exact fun y hy => by simpa using h y hy
    rw [hnil]
    simp

/-- A job's slot as its step commits (R14, R427). -/
def Slot.commits (sl : Slot) (nf img : Bool) (units next full : List Nat) : Slot :=
  let n := sl.step
  { sl with
    committed := true
    epoch := if nf then sl.epoch else (sl.epoch + 1) % 2 ^ 32
    segs := sl.segs.map fun (k, g, c, l) => (k, g, c || k == n, l)
    openSeg := n + 1
    imgCopy := if img then units else sl.imgCopy
    imgFull := if img then full else sl.imgFull
    jmeth := if img then next else sl.jmeth
    carryN := if img then [] else sl.carryN }

theorem completes_stepCommit {s : State} {j : SlotId} {nf : Bool}
    (hv : ((s.slot j.val).verdicts.find? fun v => v.1 = (s.slot j.val).step) = some ((s.slot j.val).step, nf))
    (ha : (s.slot j.val).state.active = true) (hc : (s.slot j.val).committed = false)
    (hu : s.updatesDone j.val (s.slot j.val).step = true) : Completes (.stepCommit j) s fun t => (t.slot j.val).committed = true ∧ t.part = s.part ∧
        (s.ucieUp = false ∨ (∀ y ∈ (s.slot j.val).segs, y.1 ≠ (s.slot j.val).step) → t.store = s.store) ∧
        (∀ k, t.cell k = s.cell k) ∧ (∀ c a, t.rdByte (.bs c) a = s.rdByte (.bs c) a) ∧ (∀ c a, t.rdByte (.hbm c) a = s.rdByte (.hbm c) a) ∧
        (t.slot j.val).epoch = (if nf then (s.slot j.val).epoch else ((s.slot j.val).epoch + 1) % 2 ^ 32) ∧
        (∃ m, t.fw.commitLog = s.fw.commitLog ++ [m] ∧ m.typ = (if nf then 2 else 1) ∧ m.job = j.val ∧ m.step = (s.slot j.val).step ∧
          m.epoch = (t.slot j.val).epoch ∧ m.lscale = s.rn (numReg j.val 8)) ∧
        (∀ y ∈ (t.slot j.val).segs, y.1 = (s.slot j.val).step → y.2.2.1 = true) ∧ ∀ k, k ≠ j.val → t.slot k = s.slot k := by
  obtain ⟨sl, hsl⟩ : ∃ sl, sl = (s.slot j.val).commits nf ((s.slot j.val).step % (s.slot j.val).imgInt == 0) (s.imageUnits j.val)
      ((s.slot j.val).writables.filter (s.journalMethod (s.slot j.val)))
      ((s.slot j.val).writables.filter fun x => (s.slot j.val).step % (s.slot j.val).baseInt == 0 || !((s.slot j.val).jmeth.contains x &&
        ((s.slot j.val).writables.filter (s.journalMethod (s.slot j.val))).contains x)) := ⟨_, rfl⟩
  obtain ⟨u, hcu⟩ : ∃ u, u = (s.setSlot j.val sl).copySegments j.val (s.slot j.val).step := ⟨_, rfl⟩
  have hk : Copied j.val (s.setSlot j.val sl) u := hcu ▸ .copySegments _ _
  have he : exec (.stepCommit j) s = .next { u with fw := { u.fw with
      commitLog := u.fw.commitLog ++ [u.marker (if nf then 2 else 1) j.val (s.slot j.val).step],
      commitMs := if u.fw.commitLog.isEmpty then 0 else u.fw.commitMs } } := by
    rw [show exec (.stepCommit j) s = execStepCommit j s from rfl, execStepCommit]
    simp only [hv, ha, hc, hu, Bool.not_false, Bool.and_true, whenever_true]
    rw [hcu, hsl]
    rfl
  obtain ⟨o, hslot⟩ := hk.slots j.val
  rw [if_pos rfl, State.setSlot_get, if_pos rfl] at hslot
  have hcells (k : Nat) : u.cell k = s.cell k := hk.cells k
  have hbytes (sp : Space) (hs : Space.apart .host sp = true) (a : Nat) : u.rdByte sp a = s.rdByte sp a :=
    (hk.bytes sp hs a).trans (by rw [State.setSlot_rdByte])
  have hnum : u.rn (numReg j.val 8) = s.rn (numReg j.val 8) := by
    have hj : j.val < 64 := j.isLt
    rw [State.rn, hk.low _ (by simp only [numReg]; omega)]
    rfl
  have hsegs : ∀ y ∈ sl.segs, y.1 = (s.slot j.val).step → y.2.2.1 = true := by
    rw [hsl]
    intro y hy
    obtain ⟨x, -, rfl⟩ := List.mem_map.mp hy
    intro hx
    simpa using Or.inr hx
  refine ⟨_, he, ?_, hk.part, fun hno => ?_, hcells, fun c => hbytes (.bs c) rfl, fun c => hbytes (.hbm c) rfl, ?_,
    ⟨u.marker (if nf then 2 else 1) j.val (s.slot j.val).step, ?_, rfl, rfl, rfl, rfl, hnum⟩, ?_, fun k hne => ?_⟩
  · change (u.slot j.val).committed = true
    rw [hslot, hsl]
    rfl
  · have hself : u = s.setSlot j.val sl := by
      rw [hcu]
      refine State.copySegments_eq_self (hno.imp_right fun hn y hy => ?_)
      rw [State.setSlot_get, if_pos rfl, hsl] at hy
      obtain ⟨x, hx, rfl⟩ := List.mem_map.mp hy
      exact hn x hx
    rw [hself]
    rfl
  · change (u.slot j.val).epoch = _
    rw [hslot, hsl]
    rfl
  · change u.fw.commitLog ++ _ = _
    rw [hk.log.1]
    rfl
  · change ∀ y ∈ (u.slot j.val).segs, _
    rw [hslot]
    exact hsegs
  · change u.slot k = _
    obtain ⟨_, h⟩ := hk.slots k
    rw [h, if_neg hne, State.setSlot_get, if_neg hne]

theorem completes_commitLogProgram {s : State} (h : s.fw.commitLog ≠ []) : Completes .commitLogProgram s fun t =>
    t.part = s.part.addMarkers s.fw.commitLog ∧ t.fw.commitLog = [] ∧ t.store = s.store ∧ t.slots = s.slots :=
  completes_of_whenever (b := !s.fw.commitLog.isEmpty) rfl (by simpa using h) ⟨rfl, rfl, rfl, rfl⟩
end Sys2Proof.Machine
end

section
namespace Sys2Proof.Machine

/-! ### Image copies (R426, R433) -/

theorem leNat_leBytes (n v : Nat) : leNat (leBytes n v) = v % 256 ^ n := by
  induction n generalizing v with
  | zero => simp [leBytes, leNat, Nat.mod_one]
  | succ n ih =>
    have h := Nat.mod_mul (x := v) (a := 256) (b := 256 ^ n)
    rw [leBytes, leNat, ih, BitVec.toNat_ofNat, pow_succ' 256 n, h]

/-- Blocks of one width, one after another. -/
theorem drop_take_flatten {α : Type} {w : Nat} {L : List (List α)} (h : ∀ l ∈ L, l.length = w) {c : Nat} (hc : c < L.length) :
    (L.flatten.drop (w * c)).take w = L.getD c [] := by
  induction L generalizing c with
  | nil => cases hc
  | cons l L ih =>
    have hl := h l List.mem_cons_self
    have hL : ∀ x ∈ L, x.length = w := fun x hx => h x (List.mem_cons_of_mem _ hx)
    cases c with
    | zero => simp [← hl]
    | succ c =>
      have he : w * (c + 1) = l.length + w * c := by rw [hl]; ring
      rw [List.flatten_cons, he, List.drop_append, List.drop_of_length_le (by omega), Nat.add_sub_cancel_left, List.nil_append,
        ih hL (by simpa using hc), List.getD_cons_succ]

theorem length_flatten_of_width {α : Type} {w : Nat} {L : List (List α)} (h : ∀ l ∈ L, l.length = w) : L.flatten.length = w * L.length := by
  induction L with
  | nil => simp
  | cons l L ih =>
    rw [List.flatten_cons, List.length_append, ih fun x hx => h x (List.mem_cons_of_mem _ hx), h l List.mem_cons_self, List.length_cons]
    ring

theorem State.rdBytes_eq_of_getD {s : State} {sp : Space} {a n : Nat} {l : List Byte} (hl : l.length = n)
    (h : ∀ i < n, s.rdByte sp (a + i) = l.getD i 0) : s.rdBytes sp a n = l := by
  induction n generalizing a l with
  | zero => rw [List.length_eq_zero_iff.mp hl]; rfl
  | succ n ih =>
    cases l with
    | nil => cases hl
    | cons b l =>
      rw [State.rdBytes, show s.rdByte sp a = b from h 0 (by omega), ih (l := l) (by simpa using hl) fun i hi => ?_]
      rw [show a + 1 + i = a + (i + 1) by omega, h (i + 1) (by omega), List.getD_cons_succ]

/-- A part of what was stored reads back. -/
theorem State.wr_rdBytes_in (s : State) (sp : Space) (a o n : Nat) (l : List Byte) (h : o + n ≤ l.length) :
    (s.wr sp a l).rdBytes sp (a + o) n = (l.drop o).take n := by
  refine State.rdBytes_eq_of_getD (by rw [List.length_take, List.length_drop]; omega) fun i hi => ?_
  rw [Nat.add_assoc, State.wr_rdByte_in _ _ _ _ _ (by omega)]
  simp [List.getD_eq_getElem?_getD, hi]

/-- The words of one row of a unit's image. -/
def State.imageRow (s : State) (I : TierInfo) (u : Nat) (full : Bool) (r : Nat) : List Byte :=
  ((List.range I.cols).map fun c => leBytes 4 (s.imageEntry I u r c full)).flatten

section
variable (s : State) (I : TierInfo) (u : Nat) (full : Bool) (h : Nat)

theorem State.imageRow_length (r : Nat) : (s.imageRow I u full r).length = 4 * I.cols := by
  rw [State.imageRow, length_flatten_of_width (w := 4), List.length_map, List.length_range]
  intro l hl
  obtain ⟨c, -, rfl⟩ := List.mem_map.mp hl
  exact leBytes_length _ _

theorem State.imageRow_word (r : Nat) {c : Nat} (hc : c < I.cols) :
    ((s.imageRow I u full r).drop (4 * c)).take 4 = leBytes 4 (s.imageEntry I u r c full) := by
  rw [State.imageRow, drop_take_flatten]
  · simp [List.getD_eq_getElem?_getD, hc]
  · intro l hl
    obtain ⟨c, -, rfl⟩ := List.mem_map.mp hl
    exact leBytes_length _ _
  · simpa using hc

/-- A unit's image comes from its stack. -/
theorem State.imageEntry_congr {t : State} (ht : ∀ g a, t.rdByte (.hbm g) a = s.rdByte (.hbm g) a) (r c : Nat) :
    t.imageEntry I u r c full = s.imageEntry I u r c full := by
  simp only [State.imageEntry, State.rdRec, State.rdFold]
  rw [State.rdN_congr s _ fun i _ => ht _ _, State.rdN_congr s _ fun i _ => ht _ _]

theorem State.imageRow_congr {t : State} (ht : ∀ g a, t.rdByte (.hbm g) a = s.rdByte (.hbm g) a) (r : Nat) :
    t.imageRow I u full r = s.imageRow I u full r := by
  simp only [State.imageRow, State.imageEntry_congr s I u full ht]

/-- Changes one after another, as one list. -/
theorem State.each_append {α : Type} (s : State) (f : State → α → State) (l l' : List α) : s.each f (l ++ l') = (s.each f l).each f l' := by
  induction l generalizing s with
  | nil => rfl
  | cons x l ih => exact ih (f s x)

/-- Row by row, a unit's image comes to stand in host memory. -/
theorem State.each_imageRow (n : Nat) (hc : I.cols ≤ 1024) :
    let t := s.each (fun s r => s.wr .host (h + 4096 * r) (s.imageRow I u full r)) (List.range n)
    (∀ g a, t.rdByte (.hbm g) a = s.rdByte (.hbm g) a) ∧ ∀ r < n, ∀ c < I.cols,
      t.rdBytes .host (h + 4096 * r + 4 * c) 4 = leBytes 4 (s.imageEntry I u r c full) := by
  induction n with
  | zero => exact ⟨fun _ _ => rfl, fun r hr => by omega⟩
  | succ n ih =>
    obtain ⟨hhbm, hrows⟩ := ih
    rw [List.range_succ, State.each_append, State.each_cons, State.each_nil]
    generalize s.each (fun s r => s.wr .host (h + 4096 * r) (s.imageRow I u full r)) (List.range n) = t at *
    rw [State.imageRow_congr s I u full hhbm]
    refine ⟨fun g a => (State.wr_rdByte_apart t rfl _ _ _).trans (hhbm g a), fun r hr c hcc => ?_⟩
    have hlen := s.imageRow_length I u full n
    by_cases hrn : r = n
    · rw [hrn, State.wr_rdBytes_in _ _ _ _ _ _ (by omega), State.imageRow_word _ _ _ _ _ hcc]
    · rw [← hrows r (by omega) c hcc]
      exact State.rdBytes_congr t _ fun i hi => State.wr_rdByte_out t _ _ _ _ (by omega)
end

/-! ### Deferred folds after a copy (R432) -/

/-- Folding a unit's rows leaves host memory and the pieces still to be copied as they were. -/
structure Folds (s t : State) : Prop where
  host   : ∀ a, t.rdByte .host a = s.rdByte .host a
  copies : ∀ k, (t.slot k).imgCopy = (s.slot k).imgCopy

theorem Folds.refl (s : State) : Folds s s := ⟨fun _ => rfl, fun _ => rfl⟩
theorem Folds.trans {s t u : State} (h : Folds s t) (h' : Folds t u) : Folds s u :=
  ⟨fun a => (h'.host a).trans (h.host a), fun k => (h'.copies k).trans (h.copies k)⟩
theorem Folds.of_eq {s t : State} (h : t.store.host = s.store.host) (hs : t.slots = s.slots) : Folds s t :=
  ⟨fun a => by simp only [State.rdByte, h], fun k => by rw [State.slot, hs]; rfl⟩

section
variable (s : State)

theorem folds_report (r : Report) : Folds s (s.report r) := .of_eq (by simp) (by simp)
theorem folds_setRn (a n : Nat) : Folds s (s.setRn a n) := .of_eq rfl rfl

theorem folds_wrLe (g a n v : Nat) : Folds s (s.wrLe (.hbm g) a n v) :=
  ⟨fun _ => State.wr_rdByte_apart s rfl _ _ _, fun _ => by simp⟩

theorem folds_setSlot (j : Nat) {x : Slot} (h : x.imgCopy = (s.slot j).imgCopy) : Folds s (s.setSlot j x) := by
  refine ⟨fun _ => rfl, fun k => ?_⟩
  rw [State.setSlot_get]
  split
  · rw [‹k = j›, h]
  · rfl

theorem folds_journalCode (I : TierInfo) (u r c : Nat) (pre post : Int) : Folds s (s.journalCode I u r c pre post) := by
  unfold State.journalCode
  split
  · exact .refl s
  · split
    · exact .refl s
    · dsimp only
      split
      · exact .refl s
      · exact folds_setSlot s _ rfl

theorem folds_badEvent (u ev : Nat) : Folds s (s.badEvent u ev) := by
  unfold State.badEvent
  split
  · exact folds_report s _
  · exact .refl s

theorem folds_foldOne (I : TierInfo) (q : FoldReq) (acc : Nat × Nat) (c : Nat) : Folds s (s.foldOne I q acc c).1 := by
  have hwr (t : State) (v w : Nat) (x : Int) : Folds t ((t.wrRec I q.unit q.row c v).wrFold I q.unit q.row w x) :=
    (folds_wrLe t _ _ _ _).trans (folds_wrLe _ _ _ _ _)
  simp only [State.foldOne]
  split
  · exact folds_badEvent s _ _
  · split
    · exact .refl s
    · dsimp only
      split
      · exact (hwr s _ _ _).trans (folds_journalCode _ _ _ _ _ _ _)
      · exact hwr s _ _ _

theorem folds_foldRow (q : FoldReq) : Folds s (s.foldRow q) := by
  have hall (l : List Nat) : ∀ p : State × (Nat × Nat), Folds s p.1 →
      Folds s (l.foldl (fun (st : State × (Nat × Nat)) c => st.1.foldOne (s.tier q.unit) q st.2 c) p).1 := by
    induction l with
    | nil => exact fun _ hp => hp
    | cons c l ih => exact fun p hp => ih _ (hp.trans (folds_foldOne _ _ _ _ _))
  have h := hall ((List.range 1024).filter ((s.tier q.unit).holds q.row)) (s, (0, 0)) (.refl s)
  simp only [State.foldRow]
  generalize List.foldl _ (s, (0, 0)) _ = p at h ⊢
  have hb : Folds s (p.1.bump (blockReg (q.unit / 512) 0x2014) 31 0 p.2.1) := h.trans (folds_setRn _ _ _)
  split
  · exact hb
  · exact hb.trans ((folds_setRn _ _ _).trans (folds_report _ _))

theorem folds_endInPlace (t k : Nat) : Folds s (s.endInPlace t k) := by
  have hhead (t : State) (u v : Nat) : Folds t (t.setHeadroom u v) := by
    simp only [State.setHeadroom]
    split
    · exact (folds_setRn t _ _).trans (folds_report _ _)
    · exact folds_setRn t _ _
  have hres (t : State) (u h : Nat) : Folds t (t.makeResident u h) := by
    simp only [State.makeResident]
    refine .trans ?_ (hhead _ _ _)
    exact .of_eq rfl rfl
  unfold State.endInPlace
  split
  · exact .refl s
  · refine .trans (t := s.setProcs t _) (.of_eq rfl rfl) ((hres _ _ _).trans (folds_setRn _ _ _))

theorem folds_finishInPlace (t : Nat) : Folds s (s.finishInPlace t) := by
  unfold State.finishInPlace
  split
  · dsimp only
    split
    · exact .refl s
    · split
      · exact (folds_endInPlace s _ _).trans (folds_endInPlace _ _ _)
      · exact folds_endInPlace s _ _
  · exact .refl s

/-- A unit whose copy is done folds what waited for it. -/
def State.foldDeferred (u : Nat) : State :=
  let b := u / 512
  let B := s.block b
  let mine := B.deferred.filter fun q => q.unit == u
  if s.imageHeld u || !s.carryTokens b then s
  else
    let s := s.setBlock b { B with deferred := B.deferred.filter fun q => q.unit != u }
    (s.each (fun s q => s.foldRow q) mine).finishInPlace (u / 8)

theorem folds_foldDeferred (u : Nat) : Folds s (s.foldDeferred u) := by
  have heach (t : State) (l : List FoldReq) : Folds t (t.each (fun s q => s.foldRow q) l) :=
    State.each_pred (fun v => Folds t v) _ (fun v q hv => hv.trans (folds_foldRow v q)) l t (.refl t)
  simp only [State.foldDeferred]
  split
  · exact .refl s
  · exact .trans (t := s.setBlock _ _) (.of_eq rfl rfl) ((heach _ _).trans (folds_finishInPlace _ _))
end

/-- A unit's image holds whole records, not their low parts only (R433). -/
def State.fullImage (s : State) (j u : Nat) : Bool := match (s.tier u).tensor with | some n => (s.slot j).imgFull.contains n | none => true

/-- Where a unit's image lies in the job's image window. -/
def State.imageOff (s : State) (j u : Nat) : Nat := imageBytes ((firstIdx (fun v => v == u) (s.imageUnits j)).getD 0)

/-- The host accesses of a unit's image copy. -/
def State.imageAcc (s : State) (j u : Nat) : HostAcc :=
  s.hostAcc j kindImage 0 (s.imageOff j u) (4 * (1024 * ((s.tier u).rows - 1) + (s.tier u).cols))

theorem State.copyImage_eq (s : State) (j u : Nat) : s.copyImage j u = match s.imageAcc j u with
    | .err ev => s.raiseJ ev 3 (unitStack u) j 0
    | .at h => s.each (fun t r => t.wr .host (h + 4096 * r) (t.imageRow (s.tier u) u (s.fullImage j u) r)) (List.range (s.tier u).rows) := rfl

theorem State.copyImage_slot (s : State) (j u k : Nat) : (s.copyImage j u).slot k = s.slot k := by
  rw [State.copyImage_eq]
  split
  · rw [State.raiseJ_slot]
  · exact State.each_keeps (fun t => t.slot k) _ (fun t r => by simp) _ s

theorem completes_imageCopyDone {s : State} {j : SlotId} {u : TileTierId} (hc : (s.slot j.val).imgCopy.contains u.val = true)
    (hu : s.ucieUp = true) :
    let I := s.tier u.val
    let full := match I.tensor with | some n => (s.slot j.val).imgFull.contains n | none => true
    let off := imageBytes ((firstIdx (fun v => v == u.val) (s.imageUnits j.val)).getD 0)
    Completes (.imageCopyDone { what := j, errs := [] } u) s fun t =>
      (t.slot j.val).imgCopy = (s.slot j.val).imgCopy.filter (fun v => v != u.val) ∧
      ∀ h, s.hostAcc j.val kindImage 0 off (4 * (1024 * (I.rows - 1) + I.cols)) = .at h → I.cols ≤ 1024 → ∀ r < I.rows, ∀ c < I.cols,
        t.rdN .host (h + 4096 * r + 4 * c) 4 = s.imageEntry I u.val r c full % 2 ^ 32 := by
  intro I full off
  obtain ⟨v, hv⟩ : ∃ v, v = s.setSlot j.val { s.slot j.val with imgCopy := (s.slot j.val).imgCopy.filter fun w => w != u.val } := ⟨_, rfl⟩
  have he : exec (.imageCopyDone { what := j, errs := [] } u) s = whenever ((s.slot j.val).imgCopy.contains u.val && s.ucieUp) s
      ((v.copyImage j.val u.val).foldDeferred u.val) := by rw [hv]; rfl
  have hf := folds_foldDeferred (v.copyImage j.val u.val) u.val
  have hslot : v.slot j.val = { s.slot j.val with imgCopy := (s.slot j.val).imgCopy.filter fun w => w != u.val } := by
    rw [hv, State.setSlot_get, if_pos rfl]
  have hfull : v.fullImage j.val u.val = full := by
    rw [State.fullImage, hslot, hv]
    rfl
  have hacc : v.imageAcc j.val u.val = s.hostAcc j.val kindImage 0 off (4 * (1024 * (I.rows - 1) + I.cols)) := by
    rw [State.imageAcc, State.imageOff, State.imageUnits, hslot, hv]
    rfl
  refine completes_of_whenever he (by rw [hc, hu]; rfl) ⟨?_, fun h hh hcols r hr c hcc => ?_⟩
  · rw [hf.copies, State.copyImage_slot, hslot]
  · have hcopy := v.copyImage_eq j.val u.val
    rw [hacc, hh, hfull, show v.tier u.val = I by rw [hv]; rfl] at hcopy
    obtain ⟨-, hrows⟩ := State.each_imageRow v I u.val full h I.rows hcols
    rw [State.rdN_congr (v.copyImage j.val u.val) _ fun i _ => hf.host _, State.rdN, hcopy]
    dsimp only
    rw [hrows r hr c hcc, leNat_leBytes, State.imageEntry_congr s I u.val full (fun g a => by rw [hv, State.setSlot_rdByte])]
    rfl

/-! ### Operations that end (R475, R482) -/

/-- Telling those who asked changes what has gone out, notices, reports and the pending bits of the interrupt. -/
structure Told (s t : State) : Prop where
  regs  : ∀ a, a ≠ 0x78000 → t.reg a = s.reg a
  mem   : SameMem s t
  units : SameUnits s t
  fw    : ∃ r n, t.fw = { s.fw with reports := r, notices := n }

theorem Told.refl (s : State) : Told s s := ⟨fun _ _ => rfl, .refl s, .refl s, ⟨_, _, rfl⟩⟩
theorem Told.trans {s t u : State} (h : Told s t) (h' : Told t u) : Told s u := by
  refine ⟨fun a ha => (h'.regs a ha).trans (h.regs a ha), h.mem.trans h'.mem, h.units.trans h'.units, ?_⟩
  obtain ⟨r, n, h1⟩ := h.fw
  obtain ⟨r', n', h2⟩ := h'.fw
  exact ⟨r', n', by rw [h2, h1]⟩
theorem Told.slot {s t : State} (h : Told s t) (k : Nat) : t.slot k = s.slot k := by rw [State.slot, h.units.slots]; rfl

theorem Sent.told {s t : State} (h : Sent s t) : Told s t := by
  refine ⟨fun a _ => State.reg_of_store h.store a, h.mem, h.units, ?_⟩
  obtain ⟨p, q, l, r, rfl⟩ := h
  exact ⟨_, _, rfl⟩

section
variable (s : State)

theorem told_notices (l : List Notice) : Told s { s with fw := { s.fw with notices := l } } :=
  ⟨fun _ _ => rfl, .of_store rfl, by constructor <;> rfl, ⟨_, _, rfl⟩⟩

theorem told_msix {v : Nat} (hv : v < 32) : Told s (s.msix v) := by
  unfold State.msix
  split
  · refine ⟨fun a ha => State.setBit_reg_ne s _ _ _ ?_, sameMem_setRn s _ _, by constructor <;> rfl, ⟨_, _, rfl⟩⟩
    rw [Nat.div_eq_of_lt hv]
    exact ha
  · exact (sent_emit s _).told

theorem sent_sendMgmt (link : Option Nat) (dst tag : Nat) (l : List Byte) : Sent s (s.sendMgmt link dst tag l).2 := by
  unfold State.sendMgmt
  split
  · exact sent_sendMsg s _ _ _ _ _
  · split
    · exact sent_sendOn s _ _ _ _
    · exact .refl s

/-- An operation as it ends. -/
def Op.ended (o : Op) (status detail : Nat) (result : List Byte) : Op :=
  { o with done := true, status := status, detail := detail, progress := 1000, result := result }

/-- The operations once one has ended: the running ones, and of those that are done the newest 16 (R482). -/
def endOp (l : List Op) (oph : Nat) (o' : Op) : List Op :=
  let rest := l.filter fun x => x.oph != oph
  let doneOps := (rest.filter fun x => x.done) ++ [o']
  (rest.filter fun x => !x.done) ++ doneOps.drop (doneOps.length - 16)

theorem mem_endOp (l : List Op) (oph : Nat) (o' : Op) : o' ∈ endOp l oph o' := by
  rw [endOp]
  generalize ((l.filter fun x => x.oph != oph).filter fun x => x.done) = d
  have h0 : (d ++ [o']).drop ((d ++ [o']).length - 16) = d.drop (d.length + 1 - 16) ++ [o'] := by
    rw [List.length_append, List.length_singleton, List.drop_append_of_le_length (by omega)]
  rw [h0]
  simp

/-- The notice of an operation's end goes to the path that it came by (R482). -/
def State.tellOp (o : Op) (oph : Nat) : State :=
  if o.notify then
    let bytes := leBytes 2 0x0472 ++ leBytes 1 0 ++ leBytes 1 255 ++ leBytes 4 oph ++ leBytes 8 s.time
    let n : Notice := { event := 0x0472, kind := 0, job := 255, unit := oph, time := s.time }
    match o.path with
    | 0 =>
      let q := s.fw.notices ++ [n]
      { s with fw := { s.fw with notices := q.drop (q.length - 256) } }.msix 8
    | 1 => s.emit (.mctp o.dst bytes)
    | _ => (s.sendMgmt o.link o.dst 4 bytes).2
  else s

theorem told_tellOp (o : Op) (oph : Nat) : Told s (s.tellOp o oph) := by
  unfold State.tellOp
  split
  · split
    · exact (told_notices s _).trans (told_msix _ (by decide))
    · exact (sent_emit s _).told
    · exact (sent_sendMgmt s _ _ _ _).told
  · exact .refl s

/-- The operations are these. -/
def State.setOps (l : List Op) : State := { s with fw := { s.fw with ops := l } }

/-- An operation that ends stands among those that are done, and those who asked are told. -/
theorem State.opDone_eq {oph : Nat} {o : Op} (h : (s.fw.ops.find? fun x => x.oph = oph ∧ ¬ x.done) = some o) (status detail : Nat) (result : List Byte) :
    s.opDone oph status detail result = (s.setOps (endOp s.fw.ops oph (o.ended status detail result))).tellOp o oph := by
  unfold State.opDone
  rw [h]
  rfl
end

/-- A job's slot as it stands at the step after its restart step (R436). -/
def Slot.resumed (sl : Slot) : Slot :=
  { sl with
    restOrd := 5, step := sl.rests + 1, vstep := sl.rests + 1, openSeg := sl.rests + 1, committed := false, verdicts := [],
    skipped := [], gradDone := [], stepS := [],
    lists := sl.lists.map fun (g, l) => (g, { l with pos := List.range l.records.length, pass := sl.rests + 1 }) }

/-- A tensor is resident again. -/
def State.thawTensor (s : State) (n : Nat) : State :=
  match s.tensor n with
  | some x => s.setTensor n (some { x with state := 5 })
  | none => s

theorem completes_restoreComplete {s : State} {j : SlotId} {o : Op} (hord : (s.slot j.val).restOrd = 4) (hr : (s.slot j.val).restored = true)
    (hun : ∀ u ∈ s.jobUnits j.val, s.tierState u = stResident ∨ s.tierState u = stRetired ∧ (s.tier u).tensor ≠ none)
    (hop : s.opsOf [0x0C04] (fun a => a == j.val) = [o])
    (ho : (s.fw.ops.find? fun x => x.oph = (s.slot j.val).restOp ∧ ¬ x.done) = some o) :
    Completes (.restoreComplete j) s fun t => (t.slot j.val).restOrd = 5 ∧ (t.slot j.val).step = (s.slot j.val).rests + 1 ∧
        (t.slot j.val).vstep = (s.slot j.val).rests + 1 ∧ (t.slot j.val).verdicts = [] ∧
        ∃ x ∈ t.fw.ops, x.oph = o.oph ∧ x.done = true ∧ x.status = 0 := by
  obtain ⟨v, hv⟩ : ∃ v, v = s.setSlot j.val (s.slot j.val).resumed := ⟨_, rfl⟩
  obtain ⟨u, hu⟩ : ∃ u, u = v.each State.thawTensor (s.slot j.val).writables := ⟨_, rfl⟩
  have he : exec (.restoreComplete j) s = whenever ((s.slot j.val).restOrd == 4 && (s.slot j.val).restored &&
      ((s.jobUnits j.val).all fun u => s.tierState u == stResident || (s.tierState u == stRetired && (s.tier u).tensor.isSome)) &&
      (s.opsOf [0x0C04] fun a => a == j.val).length == 1) s ((u.makeTwins j.val).2.opDone (s.slot j.val).restOp 0 0 []) := by
    rw [hu, hv]
    rfl
  have hthaw (t : State) (n : Nat) : (t.thawTensor n).fw.ops = t.fw.ops ∧ (t.thawTensor n).slots = t.slots := by
    unfold State.thawTensor
    split <;> exact ⟨rfl, rfl⟩
  have hops : u.fw.ops = s.fw.ops := by
    rw [hu, State.each_keeps (fun t => t.fw.ops) _ (fun t n => (hthaw t n).1), hv]
    rfl
  have hslot : u.slot j.val = (s.slot j.val).resumed := by
    rw [State.slot, hu, State.each_keeps State.slots _ (fun t n => (hthaw t n).2), ← State.slot, hv, State.setSlot_get, if_pos rfl]
  have hf := firm_makeTwins u j.val
  obtain ⟨r, hfw⟩ := hf.fw
  obtain ⟨x, a, w, hsl⟩ := hf.slots j.val
  have hfind : ((u.makeTwins j.val).2.fw.ops.find? fun x => x.oph = (s.slot j.val).restOp ∧ ¬ x.done) = some o := by
    rw [hfw]
    exact hops ▸ ho
  refine completes_of_whenever he ?_ ?_
  · have hall : ((s.jobUnits j.val).all fun u => s.tierState u == stResident || (s.tierState u == stRetired && (s.tier u).tensor.isSome)) = true := by
      rw [List.all_eq_true]
      intro w hw
      simpa [Option.isSome_iff_ne_none] using hun w hw
    simp [hord, hr, hall, hop]
  · rw [State.opDone_eq _ hfind]
    have htold := told_tellOp ((u.makeTwins j.val).2.setOps (endOp (u.makeTwins j.val).2.fw.ops (s.slot j.val).restOp (o.ended 0 0 []))) o (s.slot j.val).restOp
    obtain ⟨r', n', hfw'⟩ := htold.fw
    generalize State.tellOp _ o _ = t at htold hfw' ⊢
    have hs : t.slot j.val = (u.makeTwins j.val).2.slot j.val := htold.slot j.val
    rw [hs, hsl, hslot, hfw']
    exact ⟨rfl, rfl, rfl, rfl, _, mem_endOp _ _ _, rfl, rfl, rfl⟩

/-- Settles O50: segments and images go to host memory only, folds and twins leave slots and operations as they were. -/
theorem commitsAndRestart : Obligations.CommitsAndRestart :=
  fun _ => ⟨fun _ _ hv ha hc hu => completes_stepCommit hv ha hc hu, completes_commitLogProgram,
    fun _ _ hc hu => completes_imageCopyDone hc hu, fun _ _ hord hr hun hop ho => completes_restoreComplete hord hr hun hop ho⟩
end Sys2Proof.Machine
end

section
namespace Sys2Proof.Machine

/-! ### Bytes of two stacks (R12) -/

theorem State.wrByte_rdByte_stack (s : State) {g g' a b : Nat} (v : Byte) (h : g ≠ g') (ha : a < 2 ^ 37) (hb : b < 2 ^ 37) :
    (s.wrByte (.hbm g) a v).rdByte (.hbm g') b = s.rdByte (.hbm g') b := by
  have hne : g' * 2 ^ 37 + b ≠ g * 2 ^ 37 + a := by omega
  exact (SMap.get_set _ _ _ _ _).trans (if_neg hne)

/-- A store in a stack changes no byte of another one. -/
theorem State.wr_rdByte_stack (s : State) {g g' a b : Nat} (l : List Byte) (h : g ≠ g') (ha : a + l.length ≤ 2 ^ 37) (hb : b < 2 ^ 37) :
    (s.wr (.hbm g) a l).rdByte (.hbm g') b = s.rdByte (.hbm g') b := by
  rw [State.wr, State.unpoison_rdByte]
  induction l generalizing s a with
  | nil => rfl
  | cons v l ih =>
    simp only [List.length_cons] at ha
    rw [State.wrBytes, ih _ (by omega), State.wrByte_rdByte_stack s v h (by omega) hb]

theorem State.rdRec_wrRec (s : State) (I : TierInfo) (u r c : Nat) {v : Nat} (hv : v < 2 ^ 24) : (s.wrRec I u r c v).rdRec I u r c = v := by
  have h := State.wr_rdBytes_in s (.hbm (unitStack u)) (recAddr I.shadow r c) 0 3 (leBytes 3 v) (by rw [leBytes_length])
  rw [Nat.add_zero, List.drop_zero, List.take_of_length_le (by rw [leBytes_length])] at h
  rw [State.rdRec, State.rdN, State.wrRec, State.wrLe, h, leNat_leBytes]
  exact Nat.mod_eq_of_lt hv

/-- Records of different places in a piece do not meet. -/
theorem recAddr_apart {sh r c r' c' : Nat} (hc : c < 1024) (hc' : c' < 1024) (h : (r, c) ≠ (r', c')) :
    recAddr sh r c + 3 ≤ recAddr sh r' c' ∨ recAddr sh r' c' + 3 ≤ recAddr sh r c := by
  have hne : 1024 * r + c ≠ 1024 * r' + c' := by
    intro he
    have h1 : r = r' := by omega
    exact h (by rw [h1, show c = c' by omega])
  simp only [recAddr]
  omega

theorem State.rdRec_wrRec_ne (s : State) (I : TierInfo) (u : Nat) {r c r' c' : Nat} (v : Nat) (hc : c < 1024) (hc' : c' < 1024)
    (h : (r, c) ≠ (r', c')) : (s.wrRec I u r c v).rdRec I u r' c' = s.rdRec I u r' c' := by
  have hd := recAddr_apart (sh := I.shadow) hc hc' h
  refine State.rdN_congr s _ fun i hi => ?_
  rw [State.wrRec, State.wrLe, State.wr_rdByte_out _ _ _ _ _ (by rw [leBytes_length]; omega)]

/-! ### Carry records (R106, R615) -/

theorem mkRec_lt (ds : Bool) (h mn l : Int) : mkRec ds h mn l < 2 ^ 24 := by
  have h1 := enc2c_lt 5 h
  have h2 := enc2c_lt 5 mn
  have h3 := enc2c_lt 14 l
  have h4 := enc2c_lt 19 l
  unfold mkRec
  split <;> omega

theorem carryUpdate_lt (ds : Bool) (r : Nat) (di : Int) (thr : Nat) : (carryUpdate ds r di thr).1 < 2 ^ 24 := by
  simp only [carryUpdate, setCode]
  split <;> exact mkRec_lt _ _ _ _

/-! ### The elements of a piece (R103) -/

theorem mem_pieceElems {rows cols r c : Nat} : (r, c) ∈ pieceElems rows cols ↔ r < rows ∧ c < cols := by
  simp [pieceElems]

theorem nodup_pieceElems (rows cols : Nat) : (pieceElems rows cols).Nodup := by
  rw [pieceElems, ← List.flatMap_def]
  exact List.nodup_range.product List.nodup_range

/-! ### What an element's update leaves alone (R103, R453) -/

/-- Only bytes of the records of a piece have changed. -/
structure InPiece (u : Nat) (I : TierInfo) (s t : State) : Prop where
  cells : ∀ k, t.cell k = s.cell k
  bs    : ∀ c a, t.rdByte (.bs c) a = s.rdByte (.bs c) a
  host  : ∀ a, t.rdByte .host a = s.rdByte .host a
  hbm   : ∀ g a, a < hbmSize → (g = unitStack u → ∀ row < I.rows, ∀ col < I.cols,
    a < recAddr I.shadow row col ∨ recAddr I.shadow row col + 3 ≤ a) → t.rdByte (.hbm g) a = s.rdByte (.hbm g) a

section
variable {u : Nat} {I : TierInfo}

theorem SameMem.inPiece {s t : State} (h : SameMem s t) : InPiece u I s t := ⟨h.cells, fun _ => h.bytes _, h.bytes _, fun _ a _ _ => h.bytes _ a⟩
theorem InPiece.refl (s : State) : InPiece u I s s := (SameMem.refl s).inPiece
theorem InPiece.trans {s t v : State} (h : InPiece u I s t) (h' : InPiece u I t v) : InPiece u I s v :=
  ⟨fun k => (h'.cells k).trans (h.cells k), fun c a => (h'.bs c a).trans (h.bs c a), fun a => (h'.host a).trans (h.host a),
    fun g a ha ho => (h'.hbm g a ha ho).trans (h.hbm g a ha ho)⟩

theorem inPiece_wrRec (s : State) {r c : Nat} (v : Nat) (hr : r < I.rows) (hc : c < I.cols) (hrows : I.rows ≤ 1024) (hcols : I.cols ≤ 1024)
    (hsh : I.shadow + 3145728 ≤ hbmSize) : InPiece u I s (s.wrRec I u r c v) := by
  have hs : hbmSize ≤ 2 ^ 37 := by decide
  have he : recAddr I.shadow r c + 3 ≤ I.shadow + 3145728 := by simp only [recAddr]; omega
  refine ⟨fun k => by simp [State.wrRec], fun b a => State.wr_rdByte_apart s (sp := .hbm _) (sp' := .bs b) rfl _ _ _,
    fun a => State.wr_rdByte_apart s (sp := .hbm _) (sp' := .host) rfl _ _ _,
    fun g a ha ho => ?_⟩
  by_cases hg : g = unitStack u
  · have hd := ho hg r hr c hc
    rw [hg, State.wrRec, State.wrLe, State.wr_rdByte_out _ _ _ _ _ (by rw [leBytes_length]; exact hd)]
  · exact State.wr_rdByte_stack s _ (Ne.symm hg) (by rw [leBytes_length]; omega) (by omega)
end

section
variable (s : State)

theorem sameMem_report (r : Report) : SameMem s (s.report r) := ⟨fun _ => by simp, fun _ _ => by simp, fun _ => by simp⟩
theorem sameMem_flushed (j : Nat) : SameMem s (s.flushed j) := sameMem_setRn s _ _
theorem sameMem_badEvent (u ev : Nat) : SameMem s (s.badEvent u ev) := by
  unfold State.badEvent
  split
  · exact sameMem_report s _
  · exact .refl s

theorem State.drawRound_store (b num n : Nat) : (s.drawRound b num n).2.store = s.store := by
  unfold State.drawRound
  split <;> rfl

theorem State.queueCarry_store (I : TierInfo) (u r c : Nat) (tag job : Option Nat) (old new : Nat) :
    (s.queueCarry I u r c tag job old new).store = s.store := by
  unfold State.queueCarry
  split <;> rfl

theorem State.journalCode_store (I : TierInfo) (u r c : Nat) (pre post : Int) : (s.journalCode I u r c pre post).store = s.store := by
  unfold State.journalCode
  split
  · rfl
  · split
    · rfl
    · dsimp only
      split <;> rfl

theorem sameMem_memErrs (l : List MemErr) : SameMem s (s.memErrs l) := by
  refine SameMem.each (fun s e => ?_) l s
  split
  · exact sameMem_setRn s _ _
  · exact ⟨fun _ => by simp, fun _ _ => by simp, fun _ => by simp⟩

/-- A new record is stored, with its change of the code for the cells and the journal (R106, R110). -/
def State.putCarry (I : TierInfo) (u row col j old : Nat) (x : Nat × Int × Bool) : State :=
  let s := if x.2.1 ≠ 0 then s.queueCarry I u row col (some ((s.slot j).epoch + 1)) (some j) old x.1 else s
  let s := s.wrRec I u row col x.1
  if x.2.1 ≠ 0 then s.journalCode I u row col (recCode I.dslice old) (recCode I.dslice x.1) else s

/-- A finite delta meets a valid record (R104 to R106). -/
def State.addDelta (b : Nat) (r : RTask) (u : Nat) (I : TierInfo) (acc : UpdAcc) (row col : Nat) (d : FpNum) : State × UpdAcc :=
  let (g, s) := s.drawRound b r.num 1
  let (di, c1) := intDelta I.dslice (s.sums r.task.job) I.sigma (g 0) d
  let old := s.rdRec I u row col
  if r.reran then (s, { acc with sumDi := acc.sumDi + di }) else
  let x := carryUpdate I.dslice old di (s.rf (blockReg b 0x2000) 3 0)
  (s.putCarry I u row col r.task.job old x, { acc with clamps := acc.clamps + b2n (c1 || x.2.2), sumDi := acc.sumDi + di })

/-- The width of a delta. -/
def deltaW (r : RTask) : Nat := if upBf16 r.task.record then 2 else 4

/-- The place of an element's delta. -/
def deltaAt (r : RTask) (row col : Nat) : BAddr := (addrAt r.addrs 0).plus ((1024 * row + col) * deltaW r)

/-- An element's delta, and whether a subnormal was flushed in it. -/
def State.deltaIn (r : RTask) (row col : Nat) : FpNum × Bool :=
  (if upBf16 r.task.record then bf16 else fp32).input (s.denorm r.task.job)
    (s.rdNAt (deltaAt r row col) (deltaW r))

theorem State.updateOne_eq (b : Nat) (r : RTask) (u : Nat) (I : TierInfo) (acc : UpdAcc) (row col : Nat) :
    s.updateOne b r u I acc row col =
      if acc.stop then (s, acc)
      else if s.poisonedAt (deltaAt r row col) (deltaW r) then (s, { acc with stop := true })
      else
        let t := if (s.deltaIn r row col).2 then s.flushed r.task.job else s
        if !(s.deltaIn r row col).1.isFinite then (t, { acc with nf := acc.nf + 1 })
        else
          match t.recBad I u row col with
          | some ev => (t.badEvent u ev, acc)
          | none => t.addDelta b r u I acc row col (s.deltaIn r row col).1 := rfl

section
variable {u : Nat} {I : TierInfo} {row col : Nat} (hr : row < I.rows) (hc : col < I.cols)
  (hrows : I.rows ≤ 1024) (hcols : I.cols ≤ 1024) (hsh : I.shadow + 3145728 ≤ hbmSize)
include hr hc hrows hcols hsh

theorem inPiece_putCarry (j old : Nat) (x : Nat × Int × Bool) : InPiece u I s (s.putCarry I u row col j old x) := by
  have hq (t t' : State) (h : t'.store = t.store) : InPiece u I t t' := (SameMem.of_store h).inPiece
  simp only [State.putCarry]
  split
  · exact (hq _ _ (State.queueCarry_store s _ _ _ _ _ _ _ _)).trans ((inPiece_wrRec _ _ hr hc hrows hcols hsh).trans
      (hq _ _ (State.journalCode_store _ _ _ _ _ _ _)))
  · exact inPiece_wrRec _ _ hr hc hrows hcols hsh

theorem inPiece_updateOne (b : Nat) (r : RTask) (acc : UpdAcc) : InPiece u I s (s.updateOne b r u I acc row col).1 := by
  have hadd (t : State) (d : FpNum) : InPiece u I t (t.addDelta b r u I acc row col d).1 := by
    have hd := (SameMem.of_store (State.drawRound_store t b r.num 1)).inPiece (u := u) (I := I)
    simp only [State.addDelta]
    split
    · exact hd
    · exact hd.trans (inPiece_putCarry _ hr hc hrows hcols hsh _ _ _)
  have hfl : InPiece u I s (if (s.deltaIn r row col).2 then s.flushed r.task.job else s) := by
    split
    · exact (sameMem_flushed s _).inPiece
    · exact .refl s
  rw [State.updateOne_eq]
  generalize (if (s.deltaIn r row col).2 then s.flushed r.task.job else s) = t at hfl
  split
  · exact .refl s
  · split
    · exact .refl s
    · dsimp only
      split
      · exact hfl
      · split
        · exact hfl.trans (sameMem_badEvent t _ _).inPiece
        · exact hfl.trans (hadd t _)
end

/-- A piece's elements one after another. -/
def updateAll (b : Nat) (r : RTask) (u : Nat) (I : TierInfo) (l : List (Nat × Nat)) (st : State × UpdAcc) : State × UpdAcc :=
  l.foldl (fun st rc => st.1.updateOne b r u I st.2 rc.1 rc.2) st

theorem inPiece_updateAll (b : Nat) (r : RTask) {u : Nat} {I : TierInfo} (hrows : I.rows ≤ 1024) (hcols : I.cols ≤ 1024)
    (hsh : I.shadow + 3145728 ≤ hbmSize) (l : List (Nat × Nat)) (hl : ∀ x ∈ l, x.1 < I.rows ∧ x.2 < I.cols) (st : State × UpdAcc) :
    InPiece u I st.1 (updateAll b r u I l st).1 := by
  induction l generalizing st with
  | nil => exact .refl _
  | cons x l ih =>
    obtain ⟨hr, hc⟩ := hl x List.mem_cons_self
    exact (inPiece_updateOne st.1 hr hc hrows hcols hsh b r st.2).trans (ih (fun y hy => hl y (List.mem_cons_of_mem _ hy)) _)
end

/-! ### What an element's update adds to its record (R104 to R106) -/

/-- What the updates of other elements leave of an element's inputs: delta vector, its poison, controls and poison of the stacks. -/
structure Steady (b j : Nat) (s t : State) : Prop where
  bs     : ∀ c a, t.rdByte (.bs c) a = s.rdByte (.bs c) a
  bsMark : t.bsPoison = s.bsPoison
  hbMark : t.hbmPoison ⊆ s.hbmPoison
  ctl    : t.reg (numReg j 0) = s.reg (numReg j 0)
  thr    : t.reg (blockReg b 0x2000) = s.reg (blockReg b 0x2000)

theorem Steady.refl (b j : Nat) (s : State) : Steady b j s s := ⟨fun _ _ => rfl, rfl, List.Subset.refl _, rfl, rfl⟩
theorem Steady.trans {b j : Nat} {s t u : State} (h : Steady b j s t) (h' : Steady b j t u) : Steady b j s u :=
  ⟨fun c a => (h'.bs c a).trans (h.bs c a), h'.bsMark.trans h.bsMark, List.Subset.trans h'.hbMark h.hbMark, h'.ctl.trans h.ctl, h'.thr.trans h.thr⟩

section
variable {b j : Nat}

theorem Steady.of_eq {s t : State} (h : t.store = s.store) (h1 : t.bsPoison = s.bsPoison) (h2 : t.hbmPoison = s.hbmPoison) : Steady b j s t :=
  ⟨fun c => (SameMem.of_store h).bytes _, h1, by rw [h2]; exact List.Subset.refl _, State.reg_of_store h _, State.reg_of_store h _⟩

variable (s : State)

theorem steady_flushed (hj : j < 64) : Steady b j s (s.flushed j) := by
  refine ⟨fun _ _ => rfl, rfl, List.Subset.refl _, State.setBit_reg_ne s _ _ _ (numReg_ne (by decide)), State.setBit_reg_ne s _ _ _ ?_⟩
  have := blockReg_ge b 0x2000
  simp only [numReg]
  omega

theorem steady_wrRec (I : TierInfo) (u r c v : Nat) : Steady b j s (s.wrRec I u r c v) := by
  refine ⟨fun c a => State.wr_rdByte_apart s (sp := .hbm _) (sp' := .bs c) rfl _ _ _, ?_, ?_, by simp [State.wrRec], by simp [State.wrRec]⟩
  · rw [State.wrRec, State.wrLe, State.wr, State.unpoison, State.setMarks, State.wrBytes_bsPoison]
  · rw [State.wrRec, State.wrLe, State.wr, State.unpoison, State.setMarks, State.marks, State.wrBytes_hbmPoison]
    exact List.filter_subset_self _

theorem steady_putCarry (I : TierInfo) (u row col old : Nat) (x : Nat × Int × Bool) : Steady b j s (s.putCarry I u row col j old x) := by
  have hq (t : State) (tag job : Option Nat) (o n : Nat) : Steady b j t (t.queueCarry I u row col tag job o n) := by
    refine .of_eq (State.queueCarry_store _ _ _ _ _ _ _ _ _) ?_ ?_ <;> (unfold State.queueCarry; split <;> rfl)
  have hjn (t : State) (p q : Int) : Steady b j t (t.journalCode I u row col p q) := by
    refine .of_eq (State.journalCode_store _ _ _ _ _ _ _) ?_ ?_ <;>
      (unfold State.journalCode; dsimp only; repeat' split) <;> rfl
  simp only [State.putCarry]
  split
  · exact (hq _ _ _ _ _).trans ((steady_wrRec _ _ _ _ _ _).trans (hjn _ _ _))
  · exact steady_wrRec _ _ _ _ _ _

/-- A delta vector in a block store lies at one address after another. -/
theorem deltaAt_at {r : RTask} (hp : (addrAt r.addrs 0).pool = 0) (row col i : Nat) : ∃ a, (deltaAt r row col).at i = (.bs (addrAt r.addrs 0).unit, a) := by
  refine ⟨(addrAt r.addrs 0).base + ((deltaAt r row col).off + i), ?_⟩
  rw [BAddr.at, show (deltaAt r row col).pool = 0 from hp]
  rfl

/-- A delta reads the same. -/
theorem Steady.deltaIn {s t : State} {r : RTask} (h : Steady b r.task.job s t) (hp : (addrAt r.addrs 0).pool = 0) (row col : Nat) :
    t.deltaIn r row col = s.deltaIn r row col := by
  have hrd : t.rdNAt (deltaAt r row col) (deltaW r) = s.rdNAt (deltaAt r row col) (deltaW r) := by
    refine congrArg leNat (List.map_congr_left fun i _ => ?_)
    obtain ⟨a, ha⟩ := deltaAt_at hp row col i
    rw [ha]
    exact h.bs _ _
  rw [State.deltaIn, hrd, State.denorm, State.rbit_congr h.ctl]
  rfl

theorem Steady.poisonedAt {s t : State} {r : RTask} (h : Steady b j s t) (hp : (addrAt r.addrs 0).pool = 0) (row col : Nat) :
    t.poisonedAt (deltaAt r row col) (deltaW r) = s.poisonedAt (deltaAt r row col) (deltaW r) := by
  have hi (i : Nat) : t.poisoned ((deltaAt r row col).at i).1 ((deltaAt r row col).at i).2 1 =
      s.poisoned ((deltaAt r row col).at i).1 ((deltaAt r row col).at i).2 1 := by
    obtain ⟨a, ha⟩ := deltaAt_at hp row col i
    rw [ha, State.poisoned, State.marks, h.bsMark]
    rfl
  simp only [State.poisonedAt, hi]

/-- A record that is valid and unpoisoned stays so while it is not written. -/
theorem Steady.recBad {s t : State} (h : Steady b j s t) {I : TierInfo} {u row col : Nat} (hrec : t.rdRec I u row col = s.rdRec I u row col)
    (hs : s.recBad I u row col = none) : t.recBad I u row col = none := by
  have hp (a n : Nat) (hn : s.poisoned (.hbm (unitStack u)) a n = false) : t.poisoned (.hbm (unitStack u)) a n = false := by
    by_contra hc
    simp only [State.poisoned, State.marks, Bool.not_eq_false, Bool.and_eq_true, List.any_eq_true] at hc
    obtain ⟨h0, k, hk, hr⟩ := hc
    have : s.poisoned (.hbm (unitStack u)) a n = true := by
      simp only [State.poisoned, State.marks, Bool.and_eq_true, List.any_eq_true]
      exact ⟨h0, k, h.hbMark hk, hr⟩
    rw [hn] at this
    cases this
  unfold State.recBad at hs ⊢
  split at hs
  · rw [if_pos ‹_›]
  · rw [if_neg ‹_›]
    split at hs
    · cases hs
    · rename_i hq
      simp only [State.recPoisoned, Bool.or_eq_true, not_or, Bool.not_eq_true] at hq
      rw [if_neg (by simp only [State.recPoisoned, hp _ _ hq.1, hp _ _ hq.2]; decide), hrec]
      exact hs
end

theorem State.rdRec_congr {s t : State} (h : t.store = s.store) {I : TierInfo} {u row col : Nat} : t.rdRec I u row col = s.rdRec I u row col :=
  State.rdN_congr s _ fun _ _ => (SameMem.of_store h).bytes _ _

/-- Records after one is stored with its changes: those after a plain store of it. -/
theorem State.putCarry_rdRec (v : State) (I : TierInfo) (u row col j old : Nat) (x : Nat × Int × Bool) : ∃ q : State, q.store = v.store ∧
    ∀ row' col', (v.putCarry I u row col j old x).rdRec I u row' col' = (q.wrRec I u row col x.1).rdRec I u row' col' := by
  simp only [State.putCarry]
  split
  · exact ⟨_, State.queueCarry_store _ _ _ _ _ _ _ _ _, fun _ _ => State.rdRec_congr (State.journalCode_store _ _ _ _ _ _ _)⟩
  · exact ⟨v, rfl, fun _ _ => rfl⟩

/-- The record of an element as its delta leaves it, under given rounding bits. -/
def State.carried (s : State) (b : Nat) (r : RTask) (u : Nat) (I : TierInfo) (row col g : Nat) : Nat :=
  (carryUpdate I.dslice (s.rdRec I u row col) (intDelta I.dslice (s.sums r.task.job) I.sigma g (s.deltaIn r row col).1).1
    (s.rf (blockReg b 0x2000) 3 0)).1

/-- An element whose delta is finite and whose record is valid. -/
def State.deltaReady (s : State) (r : RTask) (u : Nat) (I : TierInfo) (row col : Nat) : Prop :=
  s.poisonedAt (deltaAt r row col) (deltaW r) = false ∧ (s.deltaIn r row col).1.isFinite = true ∧ s.recBad I u row col = none

section
variable {s : State} {b : Nat} {r : RTask} {u : Nat} {I : TierInfo} {acc : UpdAcc} {row col : Nat}
  (hj : r.task.job < 64) (hre : r.reran = false) (hcol : col < 1024)
include hj hre hcol

/-- An element's update carries its delta into its record, and no other record changes. -/
theorem State.updateOne_carries (hrd : s.deltaReady r u I row col) (ha : acc.stop = false) :
    let p := s.updateOne b r u I acc row col
    p.2.stop = false ∧ Steady b r.task.job s p.1 ∧ (∃ g, p.1.rdRec I u row col = s.carried b r u I row col g) ∧
    ∀ row' col', col' < 1024 → (row, col) ≠ (row', col') → p.1.rdRec I u row' col' = s.rdRec I u row' col' := by
  obtain ⟨hp, hf, hb⟩ := hrd
  obtain ⟨t, ht⟩ : ∃ t, t = if (s.deltaIn r row col).2 = true then s.flushed r.task.job else s := ⟨_, rfl⟩
  have hst : Steady b r.task.job s t ∧ SameMem s t := by
    rw [ht]
    split
    · exact ⟨steady_flushed s hj, sameMem_flushed s _⟩
    · exact ⟨.refl _ _ s, .refl s⟩
  have hrec (row' col' : Nat) : t.rdRec I u row' col' = s.rdRec I u row' col' := State.rdN_congr s _ fun i _ => hst.2.bytes _ _
  have htb : t.recBad I u row col = none := hst.1.recBad (hrec row col) hb
  rw [State.updateOne_eq]
  dsimp only
  rw [ha, hp, hf, ← ht, htb]
  dsimp only
  simp only [Bool.false_eq_true, if_false, Bool.not_true]
  obtain ⟨v, hv⟩ : ∃ v, v = (t.drawRound b r.num 1).2 := ⟨_, rfl⟩
  have hdraw : Steady b r.task.job t v := by
    rw [hv]
    refine .of_eq (State.drawRound_store _ _ _ _) ?_ ?_ <;> (unfold State.drawRound; split <;> rfl)
  have hsv := hst.1.trans hdraw
  have hrecv (row' col' : Nat) : v.rdRec I u row' col' = s.rdRec I u row' col' :=
    (State.rdN_congr t _ fun i _ => (SameMem.of_store (hv ▸ State.drawRound_store t b r.num 1)).bytes _ _).trans (hrec row' col')
  have hadd : t.addDelta b r u I acc row col (s.deltaIn r row col).1 =
      let di := intDelta I.dslice (v.sums r.task.job) I.sigma ((t.drawRound b r.num 1).1 0) (s.deltaIn r row col).1
      let x := carryUpdate I.dslice (v.rdRec I u row col) di.1 (v.rf (blockReg b 0x2000) 3 0)
      (v.putCarry I u row col r.task.job (v.rdRec I u row col) x,
        { acc with clamps := acc.clamps + b2n (di.2 || x.2.2), sumDi := acc.sumDi + di.1 }) := by
    simp only [State.addDelta, hre, Bool.false_eq_true, if_false]
    rw [hv]
  rw [hadd]
  dsimp only
  rw [hrecv, State.rf_congr hsv.thr, State.sums, State.rbit_congr hsv.ctl, ← State.sums]
  obtain ⟨x, hx⟩ : ∃ x, x = carryUpdate I.dslice (s.rdRec I u row col)
    (intDelta I.dslice (s.sums r.task.job) I.sigma ((t.drawRound b r.num 1).1 0) (s.deltaIn r row col).1).1 (s.rf (blockReg b 0x2000) 3 0) := ⟨_, rfl⟩
  have hlt : x.1 < 2 ^ 24 := hx ▸ carryUpdate_lt _ _ _ _
  obtain ⟨q, hq, hput⟩ := v.putCarry_rdRec I u row col r.task.job (s.rdRec I u row col) x
  rw [← hx]
  refine ⟨ha, hsv.trans (steady_putCarry v _ _ _ _ _ _), ⟨(t.drawRound b r.num 1).1 0, ?_⟩, fun row' col' hcol' hne => ?_⟩
  · rw [hput, State.rdRec_wrRec _ _ _ _ _ hlt, State.carried, hx]
  · rw [hput, State.rdRec_wrRec_ne _ _ _ _ hcol hcol' hne, State.rdRec_congr hq, hrecv]
end

section
variable {s : State} {b : Nat} {r : RTask} {u : Nat} {I : TierInfo} (hj : r.task.job < 64) (hre : r.reran = false)
  (hp : (addrAt r.addrs 0).pool = 0)
include hj hre hp

/-- Elements one after another: each one's delta goes into its own record. -/
theorem updateAll_carries (l : List (Nat × Nat)) (hl : l.Nodup) (hcol : ∀ x ∈ l, x.2 < 1024) (st : State × UpdAcc)
    (hst : st.2.stop = false) (hs : Steady b r.task.job s st.1)
    (hrd : ∀ x ∈ l, s.deltaReady r u I x.1 x.2 ∧ st.1.rdRec I u x.1 x.2 = s.rdRec I u x.1 x.2) :
    (updateAll b r u I l st).2.stop = false ∧
    (∀ x ∈ l, ∃ g, (updateAll b r u I l st).1.rdRec I u x.1 x.2 = s.carried b r u I x.1 x.2 g) ∧
    ∀ row col, col < 1024 → (row, col) ∉ l → (updateAll b r u I l st).1.rdRec I u row col = st.1.rdRec I u row col := by
  induction l generalizing st with
  | nil => exact ⟨hst, fun _ hx => absurd hx List.not_mem_nil, fun _ _ _ _ => rfl⟩
  | cons x l ih =>
    obtain ⟨hx, hl⟩ := List.nodup_cons.mp hl
    obtain ⟨⟨hpo, hfin, hbad⟩, hrec⟩ := hrd x List.mem_cons_self
    have hready : st.1.deltaReady r u I x.1 x.2 := ⟨(hs.poisonedAt hp _ _).trans hpo, by rw [hs.deltaIn hp]; exact hfin, hs.recBad hrec hbad⟩
    obtain ⟨h1, h2, ⟨g, h3⟩, h4⟩ := State.updateOne_carries (b := b) (acc := st.2) hj hre (hcol x List.mem_cons_self) hready hst
    have hg : st.1.carried b r u I x.1 x.2 g = s.carried b r u I x.1 x.2 g := by
      rw [State.carried, hrec, State.sums, State.rbit_congr hs.ctl, ← State.sums, hs.deltaIn hp, State.rf_congr hs.thr]
      rfl
    rw [hg] at h3
    obtain ⟨k1, k2, k3⟩ := ih hl (fun y hy => hcol y (List.mem_cons_of_mem _ hy)) _ h1 (hs.trans h2) fun y hy => by
      obtain ⟨hy1, hy2⟩ := hrd y (List.mem_cons_of_mem _ hy)
      refine ⟨hy1, (h4 y.1 y.2 (hcol y (List.mem_cons_of_mem _ hy)) ?_).trans hy2⟩
      rintro he
      exact hx (by rw [show x = y from he]; exact hy)
    refine ⟨k1, fun y hy => ?_, fun row col hc hn => ?_⟩
    · obtain rfl | hy := List.mem_cons.mp hy
      · exact ⟨g, (k3 y.1 y.2 (hcol y List.mem_cons_self) hx).trans h3⟩
      · exact k2 y hy
    · rw [List.mem_cons, not_or] at hn
      exact (k3 row col hc hn.2).trans (h4 row col hc fun he => hn.1 he.symm)
end
end Sys2Proof.Machine
end

section
namespace Sys2Proof.Machine

/-! ### The command UPDATE_TASK -/

section
variable (s : State) (b : Nat)

/-- Losses of an update are counted and reported (R105, R110). -/
def State.tellUpdate (j id code bit n : Nat) : State :=
  if n = 0 then s
  else (s.setBit (blockReg b 0x200C) bit).report { code := code, kind := 2, unit := b, job := j, task := id, count := n }

/-- The end of an update over a whole piece, with its losses and its sum. -/
def State.noteUpdate (r : RTask) (acc : UpdAcc) : State :=
  let s := (s.tellUpdate b r.task.job (recId r.task.record) 0x0931 2 acc.clamps).tellUpdate b r.task.job (recId r.task.record) 0x0930 4 acc.nf
  s.modRun b r.num fun x => { x with sumDi := acc.sumDi }

theorem sameMem_tellUpdate (j id code bit n : Nat) : SameMem s (s.tellUpdate b j id code bit n) := by
  unfold State.tellUpdate
  split
  · exact .refl s
  · exact (sameMem_setRn s _ _).trans (sameMem_report _ _)

theorem sameMem_noteUpdate (r : RTask) (acc : UpdAcc) : SameMem s (s.noteUpdate b r acc) :=
  (sameMem_tellUpdate s b r.task.job (recId r.task.record) 0x0931 2 acc.clamps).trans
    ((sameMem_tellUpdate _ b r.task.job (recId r.task.record) 0x0930 4 acc.nf).trans (.of_store rfl))

theorem sameMem_partDone (num : Nat) : SameMem s (s.partDone b num) := .of_store rfl

/-- An event of a block changes the overflow count of its region at most. -/
theorem State.raiseJ_block_reg (c j t : Nat) {a : Nat} (h : a ≠ regionReg (b / 16) 0x5004) : (s.raiseJ c 2 b j t).reg a = s.reg a := by
  simp only [State.raiseJ, State.report, unitRegion]
  split
  · rfl
  · split
    · rw [State.bump_reg_ne _ _ _ _ _ _ h]; rfl
    · rfl

/-- A task that fails marks its block (R138, R322). -/
theorem State.failTask_marks {num : Nat} (h : s.run b num ≠ none) : (s.failTask b num).rbit (blockReg b 0xC304) 24 = true := by
  unfold State.failTask
  split
  · exact absurd ‹_› h
  · refine (State.rbit_congr (State.report_reg_of_ne _ _ fun g => ?_) 24).trans (State.setBit_rbit _ _ _ (by decide))
    exact blockReg_ne_regionReg (by decide) (by decide) (by decide)

variable {s b}

/-- A task that an engine works on is in progress. -/
theorem State.run_of_working {e kind : Nat} {p : Nat → Bool} {r : RTask} (h : s.working b e kind p = some r) : s.run b r.num ≠ none := by
  have hm := List.mem_of_find?_eq_some h
  have hr : r ∈ (s.block b).running := (List.mem_filter.mp hm).1
  intro hn
  have := List.find?_eq_none.mp hn r hr
  simp at this
end

/-- The unit of an UPDATE task: its own, or its twin's when it runs as the odd copy. -/
def updUnit (r : RTask) : Nat := upTier r.task.record + if r.odd then 512 else 0

/-- Whether the task's job may write the unit's tensor, if it names it (R15). -/
def State.updNamed (s : State) (r : RTask) : Option Bool :=
  match (s.tier (updUnit r)).tensor with
  | some n => ((s.slot r.task.job).tensors.find? fun x => x.1 = n).map fun x => x.2
  | none => none

section
variable {s : State} {b : BlockId} {errs : List MemErr} {r : RTask} (h : s.working b.val engCarry 6 (fun _ => true) = some r)
include h

theorem exec_updateTask : exec (.updateTask b errs) s =
    match s.updNamed r with
    | none => .next (s.failTask b.val r.num)
    | some writable =>
      if updUnit r / 512 ≠ b.val ∨ ((s.tier (updUnit r)).dslice ∧ updUnit r / 8 % 2 = 1) then .next (s.failTask b.val r.num)
      else if (s.slot r.task.job).skipped.contains r.task.step then .next (s.partDone b.val r.num)
      else if !writable then
        .next (((s.setBit (blockReg b.val 0x200C) 5).raiseJ 0x0932 2 b.val r.task.job (recId r.task.record)).partDone b.val r.num)
      else
        let p := updateAll b.val r (updUnit r) (s.tier (updUnit r)) (pieceElems (s.tier (updUnit r)).rows (s.tier (updUnit r)).cols)
          (s.memErrs errs, { nf := 0, clamps := 0, sumDi := 0, stop := false })
        if p.2.stop then .next ((p.1.noteUpdate b.val r p.2).failTask b.val r.num) else .next ((p.1.noteUpdate b.val r p.2).partDone b.val r.num) := by
  rw [show exec (.updateTask b errs) s = execUpdateTask b errs s from rfl, execUpdateTask, h]
  rfl

theorem completes_updateTask_fails (hf : s.updNamed r = none ∨ ¬ (updUnit r / 512 = b.val ∧ ¬ ((s.tier (updUnit r)).dslice = true ∧ updUnit r / 8 % 2 = 1))) :
    Completes (.updateTask b errs) s fun t => SameMem s t ∧ t.rbit (blockReg b.val 0xC304) 24 = true := by
  refine ⟨s.failTask b.val r.num, ?_, (still_failTask s _ _).mem, State.failTask_marks s b.val (State.run_of_working h)⟩
  rw [exec_updateTask h]
  split
  · rfl
  · rw [if_pos]
    obtain hf | hf := hf
    · rename_i hn
      rw [hf] at hn
      cases hn
    · exact or_iff_not_imp_left.mpr fun hb => by
        by_contra hc
        exact hf ⟨not_not.mp hb, hc⟩

variable (hmine : updUnit r / 512 = b.val ∧ ¬ ((s.tier (updUnit r)).dslice = true ∧ updUnit r / 8 % 2 = 1))
include hmine

theorem completes_updateTask_skipped (hn : (s.updNamed r).isSome = true) (hs : (s.slot r.task.job).skipped.contains r.task.step = true) :
    Completes (.updateTask b errs) s fun t => SameMem s t ∧ SameManagement s t ∧ SameRegs s t [] ∧ t.tiles = s.tiles := by
  refine ⟨s.partDone b.val r.num, ?_, .of_store rfl, ⟨rfl, rfl, rfl, rfl, rfl⟩, fun _ _ => rfl, rfl⟩
  rw [exec_updateTask h]
  split
  · rename_i h0
    rw [h0] at hn
    cases hn
  · rw [if_neg (by rw [not_or, not_not]; exact hmine), if_pos hs]

theorem completes_updateTask_readOnly (hn : s.updNamed r = some false) (hs : ¬ (s.slot r.task.job).skipped.contains r.task.step = true) :
    Completes (.updateTask b errs) s fun t => SameMem s t ∧ SameManagement s t ∧ t.tiles = s.tiles ∧ t.rbit (blockReg b.val 0x200C) 5 = true ∧
      SameRegs s t [blockReg b.val 0x200C, regionReg (b.val / 16) 0x5004] := by
  refine ⟨((s.setBit (blockReg b.val 0x200C) 5).raiseJ 0x0932 2 b.val r.task.job (recId r.task.record)).partDone b.val r.num, ?_,
    (sameMem_setRn s _ _).trans ((sameMem_report _ _).trans (.of_store rfl)), ?_, ?_, ?_, fun a ha => ?_⟩
  · rw [exec_updateTask h, hn]
    dsimp only
    rw [if_neg (by rw [not_or, not_not]; exact hmine), if_neg hs]
    rfl
  · constructor <;> simp [State.partDone, State.modRun]
  · simp [State.partDone, State.modRun]
  · refine (State.rbit_congr (State.raiseJ_block_reg _ _ _ _ _ ?_) 5).trans (State.setBit_rbit _ _ _ (by decide))
    exact blockReg_ne_regionReg (by decide) (by decide) (by decide)
  · simp only [List.mem_cons, List.not_mem_nil, or_false, not_or] at ha
    exact (State.raiseJ_block_reg _ _ _ _ _ ha.2).trans (State.setBit_reg_ne s _ _ _ ha.1)

theorem exec_updateTask_writes (hn : s.updNamed r = some true) (hs : ¬ (s.slot r.task.job).skipped.contains r.task.step = true) :
    let p := updateAll b.val r (updUnit r) (s.tier (updUnit r)) (pieceElems (s.tier (updUnit r)).rows (s.tier (updUnit r)).cols)
      (s.memErrs errs, { nf := 0, clamps := 0, sumDi := 0, stop := false })
    exec (.updateTask b errs) s =
      if p.2.stop then .next ((p.1.noteUpdate b.val r p.2).failTask b.val r.num) else .next ((p.1.noteUpdate b.val r p.2).partDone b.val r.num) := by
  rw [exec_updateTask h, hn]
  dsimp only
  rw [if_neg (by rw [not_or, not_not]; exact hmine), if_neg hs]
  rfl

theorem completes_updateTask_inPiece (hn : s.updNamed r = some true) (hs : ¬ (s.slot r.task.job).skipped.contains r.task.step = true)
    (hrows : (s.tier (updUnit r)).rows ≤ 1024) (hcols : (s.tier (updUnit r)).cols ≤ 1024)
    (hsh : (s.tier (updUnit r)).shadow + 3145728 ≤ hbmSize) :
    Completes (.updateTask b errs) s (InPiece (updUnit r) (s.tier (updUnit r)) s) := by
  have hex := exec_updateTask_writes (errs := errs) h hmine hn hs
  have hall := inPiece_updateAll b.val r hrows hcols hsh (pieceElems (s.tier (updUnit r)).rows (s.tier (updUnit r)).cols)
    (fun x hx => mem_pieceElems.mp hx) (s.memErrs errs, { nf := 0, clamps := 0, sumDi := 0, stop := false }) (u := updUnit r)
  dsimp only at hex
  generalize updateAll b.val r (updUnit r) _ _ _ = p at hex hall
  have hp : InPiece (updUnit r) (s.tier (updUnit r)) s (p.1.noteUpdate b.val r p.2) :=
    (sameMem_memErrs s errs).inPiece.trans (hall.trans (sameMem_noteUpdate p.1 b.val r p.2).inPiece)
  split at hex
  · exact ⟨_, hex, hp.trans (still_failTask _ _ _).mem.inPiece⟩
  · exact ⟨_, hex, hp.trans (sameMem_partDone _ _ _).inPiece⟩

theorem completes_updateTask_carries (hn : s.updNamed r = some true) (hs : ¬ (s.slot r.task.job).skipped.contains r.task.step = true)
    (hcols : (s.tier (updUnit r)).cols ≤ 1024) (hj : r.task.job < 64) (hre : r.reran = false) (hp : (addrAt r.addrs 0).pool = 0)
    (hrd : ∀ row < (s.tier (updUnit r)).rows, ∀ col < (s.tier (updUnit r)).cols, s.deltaReady r (updUnit r) (s.tier (updUnit r)) row col) :
    Completes (.updateTask b []) s fun t => ∀ row < (s.tier (updUnit r)).rows, ∀ col < (s.tier (updUnit r)).cols, ∃ g,
      t.rdRec (s.tier (updUnit r)) (updUnit r) row col = s.carried b.val r (updUnit r) (s.tier (updUnit r)) row col g := by
  have hex := exec_updateTask_writes (errs := []) h hmine hn hs
  obtain ⟨hstop, hlaw, -⟩ := updateAll_carries (b := b.val) (u := updUnit r) hj hre hp _ (nodup_pieceElems (s.tier (updUnit r)).rows (s.tier (updUnit r)).cols)
    (fun x hx => lt_of_lt_of_le (mem_pieceElems.mp hx).2 hcols) (s.memErrs [], { nf := 0, clamps := 0, sumDi := 0, stop := false }) rfl
    (.refl _ _ s) fun x hx => ⟨hrd x.1 (mem_pieceElems.mp hx).1 x.2 (mem_pieceElems.mp hx).2, rfl⟩
  dsimp only at hex
  rw [if_neg (by rw [hstop]; decide)] at hex
  refine ⟨_, hex, fun row hrow col hcol => ?_⟩
  obtain ⟨g, hg⟩ := hlaw (row, col) (mem_pieceElems.mpr ⟨hrow, hcol⟩)
  refine ⟨g, Eq.trans ?_ hg⟩
  exact State.rdN_congr _ _ fun i _ => ((sameMem_noteUpdate _ b.val r _).trans (sameMem_partDone _ _ _)).bytes _ _
end

/-- Settles O15: element by element, an update stores into its own record and no other. -/
theorem updateTaskChangesOnlyItsPiece : Obligations.UpdateTaskChangesOnlyItsPiece := by
  intro s b errs r h u I j sl named mine skip w delta d
  refine ⟨completes_updateTask_fails h, fun hn hm hs => completes_updateTask_skipped h hm hn hs,
    fun hn hm hs => completes_updateTask_readOnly h hm hn hs, fun hn hm hs hrows hcols hsh => ?_,
    fun hn hm hs hrows hcols hsh hj hre hp hrd => ?_⟩
  · obtain ⟨t, ht, hin⟩ := completes_updateTask_inPiece (errs := errs) h hm hn hs hrows hcols hsh
    exact ⟨t, ht, hin.cells, hin.bs, hin.host, hin.hbm⟩
  · exact completes_updateTask_carries h hm hn hs hcols hj hre hp hrd
end Sys2Proof.Machine
end

section
namespace Sys2Proof.Machine

/-! ### A request served (R464, R465, R467 to R469) -/

/-- What taking a request from mailbox m and answering it change: the mailbox, firmware's pointer, the pending bits of the
interrupt, notices and reports. -/
structure Replied (m : Nat) (s t : State) : Prop where
  regs  : ∀ a, a ≠ mbReg m 4 → a ≠ 0x78000 → t.reg a = s.reg a
  mem   : SameMem s t
  units : SameUnits s t
  fw    : ∃ b r n p, t.fw = { s.fw with boxes := b, reports := r, notices := n, ptr := p }

namespace Replied
variable {m : Nat} {s t u : State}

theorem refl (m : Nat) (s : State) : Replied m s s := ⟨fun _ _ _ => rfl, .refl s, .refl s, ⟨_, _, _, _, rfl⟩⟩
theorem trans (h : Replied m s t) (h' : Replied m t u) : Replied m s u := by
  refine ⟨fun a h1 h2 => (h'.regs a h1 h2).trans (h.regs a h1 h2), h.mem.trans h'.mem, h.units.trans h'.units, ?_⟩
  obtain ⟨b, r, n, p, h1⟩ := h.fw
  obtain ⟨b', r', n', p', h2⟩ := h'.fw
  exact ⟨b', r', n', p', by rw [h2, h1]⟩

theorem setRf (m : Nat) (s : State) (hi lo v : Nat) : Replied m s (s.setRf (mbReg m 4) hi lo v) :=
  ⟨fun a h _ => State.setRf_reg_ne s _ _ _ _ a h, sameMem_setRf s _ _ _ _, by constructor <;> rfl, ⟨_, _, _, _, rfl⟩⟩
theorem setMb (m : Nat) (s : State) (st : Nat) : Replied m s (s.setMb m st) := (setRf m s _ _ _).trans (setRf m _ _ _ _)
theorem setBox (m k : Nat) (s : State) (x : Mailbox) : Replied m s (s.setBox k x) :=
  ⟨fun _ _ _ => rfl, .of_store rfl, by constructor <;> rfl, ⟨_, _, _, _, rfl⟩⟩
theorem begun (m : Nat) (s : State) : Replied m s (s.begun m) :=
  (setMb m s mbBusy).trans ⟨fun _ _ _ => rfl, .of_store rfl, by constructor <;> rfl, ⟨_, _, _, _, rfl⟩⟩
theorem raiseFw (m : Nat) (s : State) (c k u : Nat) : Replied m s (s.raiseFw c k u) :=
  ⟨fun _ _ _ => rfl, .of_store rfl, by constructor <;> rfl, ⟨_, _, _, _, rfl⟩⟩

section
variable (h : Replied m s t)
include h
theorem slot (k : Nat) : t.slot k = s.slot k := by rw [State.slot, h.units.slots]; rfl
theorem tier (k : Nat) : t.tier k = s.tier k := by rw [State.tier, h.units.tiers]; rfl
theorem tile (k : Nat) : t.tile k = s.tile k := by rw [State.tile, h.units.tiles]; rfl
theorem tensor (k : Nat) : t.tensor k = s.tensor k := by
  obtain ⟨b, r, n, p, hfw⟩ := h.fw
  rw [State.tensor, hfw]
  rfl
theorem ops : t.fw.ops = s.fw.ops := by
  obtain ⟨b, r, n, p, hfw⟩ := h.fw
  rw [hfw]
theorem rn {a : Nat} (h1 : a ≠ mbReg m 4) (h2 : a ≠ 0x78000) : t.rn a = s.rn a := by rw [State.rn, h.regs a h1 h2]; rfl
theorem rf {a : Nat} (h1 : a ≠ mbReg m 4) (h2 : a ≠ 0x78000) (hi lo : Nat) : t.rf a hi lo = s.rf a hi lo := State.rf_congr (h.regs a h1 h2) hi lo
theorem rbit {a : Nat} (h1 : a ≠ mbReg m 4) (h2 : a ≠ 0x78000) (i : Nat) : t.rbit a i = s.rbit a i := State.rbit_congr (h.regs a h1 h2) i
end
end Replied

theorem Told.replied {m : Nat} {s t : State} (h : Told s t) : Replied m s t := by
  obtain ⟨r, n, hfw⟩ := h.fw
  exact ⟨fun a _ ha => h.regs a ha, h.mem, h.units, ⟨_, r, n, _, hfw⟩⟩

theorem State.setMb_mbState (s : State) (m : Nat) {st : Nat} (h : st < 8) : (s.setMb m st).mbState m = st := by
  rw [State.mbState, State.setMb, State.setRf_rf_other _ _ _ _ _ _ _ (by decide) (by decide) (by decide) (.inl (by decide)),
    State.setRf_rf_same _ _ _ _ _ (by decide) (by decide)]
  exact Nat.mod_eq_of_lt h

theorem sent_sendSegments (s : State) (link : Option Nat) (dst box n i : Nat) (l : List Byte) :
    Sent s (s.sendSegments link dst box n i l).2 := by
  induction n generalizing s i l with
  | zero => exact .refl s
  | succ n ih =>
    simp only [State.sendSegments]
    generalize box % 4 + (if (l.drop 4096).isEmpty then 4 else 0) + i * 8 = tag
    split
    · exact sent_sendMgmt s _ _ _ _
    · exact (sent_sendMgmt s _ _ _ _).trans (ih _ _ _)

/-- What firmware holds for mailbox m, and where its pointer stands, once the response is on its way. -/
structure Delivered (q : Req) (bytes : List Byte) (s t : State) : Prop where
  replied : Replied q.box s t
  ptr     : t.fw.ptr = s.fw.ptr
  others  : ∀ k, k ≠ q.box → t.box k = s.box k
  resp    : (t.box q.box).lastResp = (s.box q.box).lastResp
  key     : (t.box q.box).lastKey = (s.box q.box).lastKey
  host    : q.path = 0 → t.mbState q.box = mbDone ∧ ∀ i < bytes.length, (t.box q.box).byte i = bytes.getD i 0
  idle    : q.path ≠ 0 → t.mbState q.box = mbIdle
  sent    : q.path = 1 → .mctp q.src bytes ∈ t.fab.out

theorem State.box_congr {s t : State} (h : t.fw.boxes = s.fw.boxes) (k : Nat) : t.box k = s.box k := by rw [State.box, h]; rfl

theorem Told.boxes {s t : State} (h : Told s t) : t.fw.boxes = s.fw.boxes := by
  obtain ⟨r, n, hfw⟩ := h.fw
  rw [hfw]
theorem Told.ptr {s t : State} (h : Told s t) : t.fw.ptr = s.fw.ptr := by
  obtain ⟨r, n, hfw⟩ := h.fw
  rw [hfw]

theorem mbReg_ne_pending (m : Nat) : mbReg m 4 ≠ 0x78000 := by unfold mbReg; omega

/-- A response on the host path stands in the message area, and the mailbox is DONE. -/
theorem delivered_host (s : State) {q : Req} (hp : q.path = 0) (hb : q.box < 16) (bytes : List Byte) : Delivered q bytes s (s.deliver q bytes) := by
  obtain ⟨v, hv⟩ : ∃ v, v = (s.setRf (mbReg q.box 4) 31 16 q.seq).writeArea q.box 0 bytes := ⟨_, rfl⟩
  have he : s.deliver q bytes = (v.setMb q.box mbDone).msix q.box := by
    rw [hv, State.deliver, hp]
    rfl
  have ht : Told (v.setMb q.box mbDone) (s.deliver q bytes) := he ▸ told_msix _ (by omega)
  have hbox (k : Nat) : (s.deliver q bytes).box k = v.box k := State.box_congr ht.boxes k
  have hv' (k : Nat) : v.box k = if k = q.box then
      { s.box q.box with area := (bytes.zipIdx 0).foldl (fun m (v, i) => SMap.set (fun _ => 0#8) m i v) (s.box q.box).area } else s.box k := by
    rw [hv]
    exact State.setBox_get _ _ _ _
  refine ⟨?_, ht.ptr.trans (by rw [hv]; rfl), fun k hk => ?_, ?_, ?_, fun _ => ⟨?_, fun i hi => ?_⟩, fun h => absurd hp h, fun h => by omega⟩
  · refine .trans (hv ▸ ?_) (.trans (.setMb _ v mbDone) ht.replied)
    exact .trans (.setRf _ s _ _ _) (.setBox _ _ _ _)
  · rw [hbox, hv', if_neg hk]
  · rw [hbox, hv', if_pos rfl]
  · rw [hbox, hv', if_pos rfl]
  · rw [State.mbState, State.rf_congr (ht.regs _ (mbReg_ne_pending _))]
    exact State.setMb_mbState v _ (by decide)
  · rw [hbox, Mailbox.byte, hv, State.writeArea_area, if_pos ⟨rfl, Nat.zero_le _, by omega⟩, Nat.sub_zero]

/-- Off the host path the response leaves, and the mailbox is IDLE. -/
theorem delivered_away {s t : State} {q : Req} (hp : q.path ≠ 0) {bytes : List Byte}
    (h : Sent (s.setRf (mbReg q.box 4) 31 16 q.seq) t) (hm : q.path = 1 → .mctp q.src bytes ∈ t.fab.out) :
    Delivered q bytes s (t.setMb q.box mbIdle) := by
  have hbox (k : Nat) : (t.setMb q.box mbIdle).box k = s.box k := State.box_congr (t := t.setMb q.box mbIdle) h.told.boxes k
  refine ⟨?_, h.told.ptr, fun k _ => hbox k, by rw [hbox], by rw [hbox], fun h => absurd h hp, fun _ => ?_, hm⟩
  · exact .trans (.setRf _ s _ _ _) (.trans h.told.replied (.setMb _ t _))
  · exact State.setMb_mbState t _ (by decide)

theorem delivered (s : State) {q : Req} (hb : q.box < 16) (bytes : List Byte) : Delivered q bytes s (s.deliver q bytes) := by
  match hp : q.path with
  | 0 => exact delivered_host s hp hb bytes
  | 1 =>
    have he : s.deliver q bytes = ((s.setRf (mbReg q.box 4) 31 16 q.seq).emit (.mctp q.src bytes)).setMb q.box mbIdle := by
      rw [State.deliver, hp]
      rfl
    rw [he]
    exact delivered_away (by omega) (sent_emit _ _) fun _ => by simp [State.emit]
  | n + 2 =>
    have he : s.deliver q bytes = ((s.setRf (mbReg q.box 4) 31 16 q.seq).sendSegments q.link q.src q.box (bytes.length / 4096 + 1) 0 bytes).2.setMb
        q.box mbIdle := by
      rw [State.deliver, hp]
      rfl
    rw [he]
    exact delivered_away (by omega) (sent_sendSegments _ _ _ _ _ _ _) (by omega)

/-- Firmware hears of a response that is an error, but for one that says the mailbox is busy (R470). -/
def State.heard (s : State) (status : Nat) : State := if 0x0100 ≤ status ∧ status ≠ stMbBusy then s.raiseFw 0x0470 0 0 else s

/-- A request that is served runs its command; the response is kept and leaves. -/
theorem State.serveBox_eq {s : State} {m op : Nat} (h : Serving s m op) (hop : opcodeOk op = true) {r : Reply} {u : State}
    (hc : (s.begun m).command (s.request m) ServeIn.none = (r, u)) :
    let bytes := response op (s.request m).seq (bit (s.request m).flags 1) m r
    s.serveBox m ServeIn.none =
      (u.setBox m { u.box m with lastKey := some ((s.request m).seq, op), lastResp := bytes }).respondBox (s.request m) r.status bytes := by
  intro bytes
  have ha : (s.begun m).answer (s.request m) ServeIn.none = (r, u) := by
    have hs : (s.begun m).stateOk op = true := h.state
    have hp : pathOk op (s.request m).path = true := h.path
    rw [State.answer, h.code, hop, hp, hs]
    exact hc
  have hk : ((s.begun m).box m).lastKey ≠ some ((s.request m).seq, (s.request m).op) := by rw [h.code]; exact h.fresh
  have hh : (s.begun m).headerBad m = none := h.header
  simp only [State.serveBox, hh]
  rw [if_neg hk, ha, h.code]

section
variable {s : State} {m : MailboxId} {op : Nat} (h : Serving s m.val op) {c : Instr} (he : exec c s = s.ciand op m ServeIn.none)
  (hop : opcodeOk op = true) {r : Reply} {u : State} (hc : (s.begun m.val).command (s.request m.val) ServeIn.none = (r, u))
  (hr : r.status < 0x100) (hb : u.fw.boxes = s.fw.boxes) (hp : u.fw.ptr = (m.val + 1) % 16)
include h he hop hc hr hb hp

/-- A command that does not refuse its request is answered, and the response changes the mailbox only. -/
theorem Serving.completes {P : State → Prop} (hP : ∀ t, Replied m.val u t → P t) :
    Completes c s fun t => Answered s t m.val op r ∧ P t := by
  obtain ⟨bytes, hbytes⟩ : ∃ l, l = response op (s.request m.val).seq (bit (s.request m.val).flags 1) m.val r := ⟨_, rfl⟩
  obtain ⟨B, hB⟩ : ∃ B, B = { u.box m.val with lastKey := some ((s.request m.val).seq, op), lastResp := bytes } := ⟨_, rfl⟩
  have hserve : s.serveBox m.val ServeIn.none = (u.setBox m.val B).deliver (s.request m.val) bytes := by
    rw [State.serveBox_eq h hop hc, ← hbytes, ← hB, State.respondBox, if_neg fun hn => by omega]
  have hd := delivered (u.setBox m.val B) (q := s.request m.val) m.isLt bytes
  have hbox (k : Nat) : (u.setBox m.val B).box k = if k = m.val then B else s.box k := by
    rw [State.setBox_get, State.box_congr hb]
  have hresp : (((u.setBox m.val B).deliver (s.request m.val) bytes).box m.val).lastResp = bytes := by
    refine hd.resp.trans ?_
    rw [show (s.request m.val).box = m.val from rfl, hbox, if_pos rfl, hB]
  refine completes_of_whenever (by rw [he, State.ciand]) (by rw [h.up, h.next, h.code]; simp) ?_
  rw [hserve]
  refine ⟨⟨by rw [hresp, hbytes], hd.key.trans ?_, hd.ptr.trans hp, fun h0 => ⟨(hd.host h0).1, fun i hi => ?_⟩, hd.idle, fun h1 => ?_,
    fun k hk => (hd.others k hk).trans ((hbox k).trans (if_neg hk))⟩, hP _ (.trans (.setBox _ _ _ _) hd.replied)⟩
  · rw [show (s.request m.val).box = m.val from rfl, hbox, if_pos rfl, hB]
  · rw [hresp] at hi ⊢
    exact (hd.host h0).2 i hi
  · rw [hresp]
    exact hd.sent h1
end
end Sys2Proof.Machine
end

section
namespace Sys2Proof.Machine

/-! ### Requests whose payload is as long as their opcode says (R467) -/

/-- The payload of a request that is served has the length that its opcode asks for. -/
theorem Serving.length {s : State} {m op : Nat} (h : Serving s m op) (hop : opcodeOk op = true) :
    (s.request m).p.length = wantLen op (boxPath m) (s.request m).p := by
  have hlen : (s.request m).p.length = (s.box m).length := by simp [State.request, Mailbox.take]
  have hb := h.header
  have hc : (s.box m).num 0 2 = op := h.code
  simp only [State.headerBad, hc, hop] at hb
  split at hb
  · cases hb
  · split at hb
    · cases hb
    · rename_i hn
      obtain ⟨h1, h2⟩ := not_or.mp hn
      have h2 : (s.box m).num 8 4 = wantLen op (boxPath m) ((s.box m).take 32 (s.box m).length) := not_not.mp fun hc => h2 ⟨trivial, hc⟩
      rw [hlen, Mailbox.length, min_eq_right (by omega), h2]
      rfl

/-! ### Staging, local parameters, definitions (R475, R478, R479) -/

theorem good_status (l : List Byte) : (good l).status < 0x100 := by simp [good]

theorem checked_good {bad : List (Nat × Bool)} (h : firstBad bad = none) (s : State) (k : State → Ans) : checked bad s k = k s := by
  rw [checked, h]

theorem firstBad_none_iff (l : List (Nat × Bool)) : firstBad l = none ↔ ∀ x ∈ l, x.2 = false := by
  induction l with
  | nil => simp [firstBad]
  | cons x l ih =>
    obtain ⟨off, bad⟩ := x
    cases bad <;> simp [firstBad, ih]

/-- Bytes of a configuration block are staged from an offset on. -/
def State.stageBytes (s : State) (off : Nat) (l : List Byte) : State :=
  { s with fw := { s.fw with cfgStage := (l.zipIdx off).foldl (fun m (v, i) => SMap.set (fun _ => 0#8) m i v) s.fw.cfgStage } }

theorem does_cfgStage {s : State} {m : MailboxId} (hlen : s.arg m.val 0 4 + s.arg m.val 4 4 ≤ 65536) (h : Serving s m.val 0x0202) :
    Does (.cfgStage m) s m.val 0x0202 fun t => SameMem s t ∧ SameUnits s t ∧
      ∀ k, SMap.get (fun _ => 0#8) t.fw.cfgStage k = if s.arg m.val 0 4 ≤ k ∧ k < s.arg m.val 0 4 + s.arg m.val 4 4
        then (s.request m.val).p.getD (8 + (k - s.arg m.val 0 4)) 0 else SMap.get (fun _ => 0#8) s.fw.cfgStage k := by
  obtain ⟨u, hu⟩ : ∃ u, u = (s.begun m.val).stageBytes (s.arg m.val 0 4) ((s.request m.val).p.drop 8) := ⟨_, rfl⟩
  have hc : (s.begun m.val).command (s.request m.val) ServeIn.none = (good [], u) := by
    have h0 : (s.request m.val).u 0 4 + (s.request m.val).u 4 4 ≤ 65536 := hlen
    have hf : firstBad [(0, decide (65536 < (s.request m.val).u 0 4)), (4, decide (65536 < (s.request m.val).u 0 4 + (s.request m.val).u 4 4))] = none := by
      rw [firstBad_none_iff]
      simp
      omega
    simp only [State.command, h.code]
    rw [State.cfgStageCmd, checked_good hf, hu]
    rfl
  have hb := Replied.begun m.val s
  have hm : SameMem s u := hb.mem.trans (hu ▸ .of_store rfl)
  have hun : SameUnits s u := hb.units.trans (by rw [hu]; constructor <;> rfl)
  have hlen' : (s.request m.val).p.length = 8 + s.arg m.val 4 4 := h.length (by decide)
  refine h.completes rfl (by decide) hc (good_status _) (hu ▸ rfl) (hu ▸ rfl) fun t ht => ⟨hm.trans ht.mem, hun.trans ht.units, fun k => ?_⟩
  obtain ⟨b, r, n, p, hfw⟩ := ht.fw
  have hst : (s.begun m.val).fw.cfgStage = s.fw.cfgStage := rfl
  rw [hfw, hu, State.stageBytes, hst]
  dsimp only
  rw [get_foldl_zipIdx]
  refine if_congr ?_ ?_ rfl
  · rw [List.length_drop, hlen', Nat.add_sub_cancel_left]
  · simp [List.getD_eq_getElem?_getD]

/-- Firmware and every memory are as before. -/
def FwKept (s t : State) : Prop := SameMem s t ∧ t.fw = s.fw

namespace FwKept
theorem refl (s : State) : FwKept s s := ⟨.refl s, rfl⟩
theorem trans {s t u : State} (h : FwKept s t) (h' : FwKept t u) : FwKept s u := ⟨h.1.trans h'.1, h'.2.trans h.2⟩
theorem each {α : Type} {f : State → α → State} (h : ∀ s x, FwKept s (f s x)) (l : List α) (s : State) : FwKept s (s.each f l) :=
  State.each_pred (fun t => FwKept s t) f (fun t x ht => ht.trans (h t x)) l s (.refl s)
theorem setRn (s : State) (a v : Nat) : FwKept s (s.setRn a v) := ⟨sameMem_setRn s _ _, rfl⟩
theorem setRf (s : State) (a hi lo v : Nat) : FwKept s (s.setRf a hi lo v) := ⟨sameMem_setRf s _ _ _ _, rfl⟩
end FwKept

theorem fwKept_calCfgEffect (s : State) (old : Nat) : FwKept s (s.calCfgEffect old) := by
  have hcal (t : State) (g : Nat) (x : CalRegion) : FwKept t (t.setCal g x) := ⟨.of_store rfl, rfl⟩
  have hst (t : State) (g st : Nat) : FwKept t (t.setCalState g st) := .setRf _ _ _ _ _
  unfold State.calCfgEffect
  split
  · exact .refl s
  · refine .each (fun t g => ?_) _ s
    dsimp only
    generalize (List.range 16).any _ = lines
    by_cases hon : t.rbit 0x350000 8 = true
    · rw [if_pos hon]
      split
      · split
        · exact (hcal t _ _).trans (hst _ _ _)
        · exact hcal t _ _
      · exact .refl t
    · rw [if_neg hon]
      split
      · exact hst t _ _
      · exact .refl t

theorem fwKept_applyLocal (s : State) (k v : Nat) : FwKept s (s.applyLocal k v) := by
  unfold State.applyLocal
  split
  · exact .setRf _ _ _ _ _
  · exact .setRf _ _ _ _ _
  · exact .setRf _ _ _ _ _
  · exact .setRf _ _ _ _ _
  · exact .refl s

/-- The local parameters with one of them set. -/
def putLocal (l : SMap Nat) (k v : Nat) : SMap Nat := (l.filter fun x => decide (x.1 < k)) ++ [(k, v)] ++ l.filter fun x => decide (k < x.1)

theorem find_putLocal (l : SMap Nat) (k v i : Nat) :
    (putLocal l k v).find? (fun x => x.1 == i) = if i = k then some (k, v) else l.find? fun x => x.1 == i := by
  have hfilter (p : Nat → Bool) : (l.filter fun x => p x.1).find? (fun x => x.1 == i) = if p i then l.find? (fun x => x.1 == i) else none := by
    induction l with
    | nil => simp
    | cons x l ih =>
      by_cases hx : x.1 = i
      · by_cases hp : p i = true
        · simp [hx, hp]
        · simp [hx, hp, ih]
      · by_cases hp : p x.1 = true
        · simp [hx, hp, ih]
        · simp [hx, hp, ih]
  rw [putLocal, List.find?_append, List.find?_append, hfilter fun y => decide (y < k), hfilter fun y => decide (k < y)]
  rcases Nat.lt_trichotomy i k with hi | rfl | hi
  · have hne : ¬ k = i := by omega
    have hn : ¬ k < i := by omega
    have hne' : ¬ i = k := by omega
    simp [hi, hne, hn, hne']
  · simp
  · have hne : ¬ k = i := by omega
    have hn : ¬ i < k := by omega
    have hne' : ¬ i = k := by omega
    simp [hi, hne, hn, hne']

/-- The local parameters with one of them set stand in firmware's own values (R479). -/
def State.keepLocal (s : State) (k v : Nat) : State :=
  { s with part := s.part.putSettings (s.part.settings PartReads.none).1 (putLocal s.fw.locals k v), fw := { s.fw with locals := putLocal s.fw.locals k v } }

/-- A local parameter is kept and takes effect. -/
def State.setLocal (s : State) (k x : Nat) : State :=
  let v := s.keepLocal k x
  if k = 3 then (v.applyLocal k x).calCfgEffect (v.rn 0x350000) else v.applyLocal k x

section
variable (s : State)

theorem State.localSet_eq {q : Req} {lo hi dflt : Nat} (hk : localParam (q.u 0 2) = some (lo, hi, dflt)) (h2 : q.u 2 2 = 0)
    (hv : inR (q.u 4 4) lo hi = true) : s.localSet q = (good (leBytes 4 (s.localValue (q.u 0 2))), s.setLocal (q.u 0 2) (q.u 4 4)) := by
  have hf : firstBad [(2, q.u 2 2 != 0), (4, !inR (q.u 4 4) lo hi)] = none := by simp [firstBad, h2, hv]
  rw [State.localSet, hk]
  dsimp only
  rw [checked_good hf]
  rfl

theorem State.setLocal_keeps (k x : Nat) : FwKept (s.keepLocal k x) (s.setLocal k x) := by
  unfold State.setLocal
  dsimp only
  generalize s.keepLocal k x = v
  split
  · exact (fwKept_applyLocal v _ _).trans (fwKept_calCfgEffect _ _)
  · exact fwKept_applyLocal v _ _
end

theorem completes_localSet {s : State} {m : MailboxId} {lo hi dflt : Nat} (hk : localParam (s.arg m.val 0 2) = some (lo, hi, dflt))
    (h2 : s.arg m.val 2 2 = 0) (hlo : lo ≤ s.arg m.val 4 4) (hhi : s.arg m.val 4 4 ≤ hi) (h : Serving s m.val 0x0204) :
    Completes (.localSet m) s fun t => Answered s t m.val 0x0204 (good (leBytes 4 (s.localValue (s.arg m.val 0 2)))) ∧ SameMem s t ∧
      ∀ k, t.localValue k = if k = s.arg m.val 0 2 then s.arg m.val 4 4 else s.localValue k := by
  obtain ⟨k, hkd⟩ : ∃ k, k = s.arg m.val 0 2 := ⟨_, rfl⟩
  obtain ⟨x, hxd⟩ : ∃ x, x = s.arg m.val 4 4 := ⟨_, rfl⟩
  obtain ⟨v, hv⟩ : ∃ v, v = (s.begun m.val).keepLocal k x := ⟨_, rfl⟩
  obtain ⟨u, hu⟩ : ∃ u, u = (s.begun m.val).setLocal k x := ⟨_, rfl⟩
  have hc : (s.begun m.val).command (s.request m.val) ServeIn.none = (good (leBytes 4 (s.localValue k)), u) := by
    have hcmd : (s.begun m.val).command (s.request m.val) ServeIn.none = (s.begun m.val).localSet (s.request m.val) := by
      simp only [State.command, h.code]
    have hin : inR (s.arg m.val 4 4) lo hi = true := by
      simp [inR]
      exact ⟨hlo, hhi⟩
    have hloc : (s.begun m.val).localValue = s.localValue := rfl
    have hset := State.localSet_eq (s.begun m.val) (q := s.request m.val) hk h2 hin
    rw [hloc] at hset
    rw [hcmd, hset, hu, hkd, hxd]
    rfl
  have hvu : FwKept v u := by
    rw [hu, hv]
    exact State.setLocal_keeps _ k x
  have hm : SameMem s u := (Replied.begun m.val s).mem.trans (.trans (t := v) (hv ▸ .of_store rfl) hvu.1)
  rw [← hkd, ← hxd]
  refine h.completes rfl (by decide) hc (good_status _) (by rw [hvu.2, hv]; rfl) (by rw [hvu.2, hv]; rfl) fun t ht => ⟨hm.trans ht.mem, fun i => ?_⟩
  have hloc : t.fw.locals = putLocal s.fw.locals k x := by
    obtain ⟨b, r, n, p, hfw⟩ := ht.fw
    rw [hfw, hvu.2, hv]
    rfl
  by_cases hi : i = k
  · simp [State.localValue, hloc, find_putLocal, hi]
  · rw [State.localValue, hloc, find_putLocal, if_neg hi, if_neg hi]
    rfl

theorem does_resDefine {s : State} {m : MailboxId} (hn : s.tensor (s.arg m.val 0 4) = none) (h1 : 1 ≤ s.arg m.val 4 4) (h2 : s.arg m.val 4 4 ≤ 131072)
    (h3 : s.arg m.val 8 1 ≤ 1) (h4 : s.arg m.val 9 1 = 0) (h5 : s.arg m.val 10 2 = 0) (h : Serving s m.val 0x0301) :
    Does (.resDefine m) s m.val 0x0301 fun t => SameMem s t ∧ SameUnits s t ∧ (∀ k, k ≠ s.arg m.val 0 4 → t.tensor k = s.tensor k) ∧
      t.tensor (s.arg m.val 0 4) = some { state := 1, layout := s.arg m.val 8 1, count := s.arg m.val 4 4, pieces := [], handles := [] } := by
  obtain ⟨x, hx⟩ : ∃ x : Tensor, x = { state := 1, layout := s.arg m.val 8 1, count := s.arg m.val 4 4, pieces := [], handles := [] } := ⟨_, rfl⟩
  obtain ⟨u, hu⟩ : ∃ u, u = (s.begun m.val).setTensor (s.arg m.val 0 4) (some x) := ⟨_, rfl⟩
  have hc : (s.begun m.val).command (s.request m.val) ServeIn.none = (good [], u) := by
    have hf : firstBad [(4, !inR ((s.request m.val).u 4 4) 1 131072), (8, decide (1 < (s.request m.val).u 8 1)), (9, (s.request m.val).u 9 1 != 0),
        (10, (s.request m.val).u 10 2 != 0)] = none := by
      have h1' : inR ((s.request m.val).u 4 4) 1 131072 = true := by simp [inR]; exact ⟨h1, h2⟩
      have h3' : (s.request m.val).u 8 1 ≤ 1 := h3
      have h4' : (s.request m.val).u 9 1 = 0 := h4
      have h5' : (s.request m.val).u 10 2 = 0 := h5
      simp [firstBad, h1', h4', h5', h3']
    have hn' : (s.begun m.val).tensor ((s.request m.val).u 0 4) = none := hn
    simp only [State.command, h.code]
    rw [State.resDefine]
    rw [hn', if_neg (by simp), checked_good hf, hu, hx]
    rfl
  have hb := Replied.begun m.val s
  have hm : SameMem s u := hb.mem.trans (hu ▸ .of_store rfl)
  have hun : SameUnits s u := hb.units.trans (by rw [hu]; constructor <;> rfl)
  have hten (k : Nat) : u.tensor k = if k = s.arg m.val 0 4 then some x else s.tensor k := by rw [hu, State.setTensor_get, hb.tensor]
  refine h.completes rfl (by decide) hc (good_status _) (hu ▸ rfl) (hu ▸ rfl) fun t ht => ⟨hm.trans ht.mem, hun.trans ht.units, fun k hk => ?_, ?_⟩
  · rw [ht.tensor, hten, if_neg hk]
  · rw [ht.tensor, hten, if_pos rfl, hx]
end Sys2Proof.Machine
end

section
namespace Sys2Proof.Machine

/-! ### Operations that start (R471) -/

/-- An operation that a request starts. -/
def Req.opOf (q : Req) (oph arg : Nat) : Op :=
  { oph := oph, opcode := q.op, arg := arg, path := q.path, dst := if q.path = 0 then q.box else q.src, link := q.link, notify := bit q.flags 2,
    done := false, status := 0, detail := 0, progress := 0, result := [] }

/-- The operation stands among firmware's. -/
def State.withOp (s : State) (q : Req) (arg : Nat) : State :=
  { s with fw := { s.fw with ops := s.fw.ops ++ [q.opOf s.fw.nextOph arg], nextOph := s.fw.nextOph % (2 ^ 32 - 1) + 1 } }

/-- The reply of a command that started an operation. -/
def accepted (oph : Nat) : Reply := { status := stAccepted, detail := 0, oph := oph, data := [] }

theorem accepted_status (n : Nat) : (accepted n).status < 0x100 := by simp [accepted, stAccepted]

theorem State.startOp_eq {s : State} (h : s.opRoom = true) (q : Req) (arg : Nat) (k : Nat → State → State) :
    s.startOp q arg k = (accepted s.fw.nextOph, k s.fw.nextOph (s.withOp q arg)) := by
  have h' : ¬ 16 ≤ (s.fw.ops.filter fun o => !o.done).length := by simpa [State.opRoom] using h
  rw [State.startOp, if_neg h']
  rfl

/-- A command that starts an operation is answered with its handle; the operation stands as long as the command keeps it. -/
theorem Serving.starts {s : State} {m : MailboxId} {op : Nat} (h : Serving s m.val op) {c : Instr} (he : exec c s = s.ciand op m ServeIn.none)
    (hop : opcodeOk op = true) {arg : Nat} {u : State}
    (hc : (s.begun m.val).command (s.request m.val) ServeIn.none = (accepted s.fw.nextOph, u)) (hb : u.fw.boxes = s.fw.boxes)
    (hp : u.fw.ptr = (m.val + 1) % 16) (ho : u.fw.ops = s.fw.ops ++ [(s.request m.val).opOf s.fw.nextOph arg]) {P : State → Prop}
    (hP : ∀ t, Replied m.val u t → P t) : Starts c s m.val op arg P := by
  refine h.completes he hop hc (accepted_status _) hb hp fun t ht =>
    ⟨⟨(s.request m.val).opOf s.fw.nextOph arg, ?_, rfl, h.code, rfl⟩, hP t ht⟩
  rw [ht.ops, ho]
  exact List.mem_append_right _ (List.mem_singleton_self _)

/-! ### What a request leaves of a tier -/

theorem mbReg_lt {m x : Nat} (hm : m < 16) (hx : x < 0x10000) : mbReg m x < 0x2100000 := by unfold mbReg; omega

namespace Replied
variable {m : Nat} {s t : State} (h : Replied m s t) (hm : m < 16)
include h hm
theorem block (b x : Nat) : t.reg (blockReg b x) = s.reg (blockReg b x) := by
  have h1 := blockReg_ge b x
  have h2 := mbReg_lt (x := 4) hm (by decide)
  exact h.regs _ (by omega) (by omega)
theorem tierState (u : Nat) : t.tierState u = s.tierState u := State.rf_congr (h.block hm _ _) _ _
theorem holdsPiece (n u : Nat) : t.holdsPiece n u = s.holdsPiece n u := by
  simp only [State.holdsPiece, h.tierState hm, h.tier]
theorem takes (n : Nat) (ds : Bool) (i u : Nat) : t.takes n i ds u = s.takes n i ds u := by
  simp only [State.takes, State.underway, h.tierState hm, h.tier, h.tile]
theorem jobResident (j : Nat) : t.jobResident j = s.jobResident j := by
  have hp : t.holdsPiece = s.holdsPiece := by
    funext n u
    exact h.holdsPiece hm n u
  simp only [State.jobResident, State.allHeld, State.twinOf, h.slot, h.tensor, h.tier, hp]
end Replied

/-! ### Commands of an admitted job (R474, R477) -/

theorem State.onSlot_eq {s : State} {m : Nat} (hj : s.arg m 0 1 < 64) (ha : s.admitted (s.arg m 0 1) = true) (k : Nat → Ans) :
    (s.begun m).onSlot (s.request m) k = k (s.arg m 0 1) := by
  have ha' : (s.begun m).admitted ((s.request m).u 0 1) = true := ha
  rw [State.onSlot, if_neg (by show ¬ 64 ≤ s.arg m 0 1; omega), ha']
  rfl

section
variable {s : State} {m : MailboxId} (hj : s.arg m.val 0 1 < 64) (ha : s.admitted (s.arg m.val 0 1) = true)
include hj ha

theorem does_jobResume (h : Serving s m.val 0x0408) (hst : (s.slot (s.arg m.val 0 1)).state = .trapStopped) :
    Does (.jobResume m) s m.val 0x0408 fun t => SameMem s t ∧ (∀ i, i ≠ s.arg m.val 0 1 → t.slot i = s.slot i) ∧
      t.slot (s.arg m.val 0 1) = { s.slot (s.arg m.val 0 1) with state := .running, stopCause := 0 } := by
  obtain ⟨x, hx⟩ : ∃ x : Slot, x = { s.slot (s.arg m.val 0 1) with state := .running, stopCause := 0 } := ⟨_, rfl⟩
  obtain ⟨u, hu⟩ : ∃ u, u = (s.begun m.val).setSlot (s.arg m.val 0 1) x := ⟨_, rfl⟩
  have hc : (s.begun m.val).command (s.request m.val) ServeIn.none = (good [], u) := by
    have hst' : ((s.begun m.val).slot (s.arg m.val 0 1)).state = .trapStopped := hst
    simp only [State.command, h.code]
    rw [State.jobResume, State.onSlot_eq hj ha]
    dsimp only
    rw [if_pos hst', hu, hx]
    rfl
  have hb := Replied.begun m.val s
  have hm : SameMem s u := hb.mem.trans (hu ▸ .of_store rfl)
  have hslot (k : Nat) : u.slot k = if k = s.arg m.val 0 1 then x else s.slot k := by rw [hu, State.setSlot_get, hb.slot]
  refine h.completes rfl (by decide) hc (good_status _) (hu ▸ rfl) (hu ▸ rfl) fun t ht => ⟨hm.trans ht.mem, fun k hk => ?_, ?_⟩
  · rw [ht.slot, hslot, if_neg hk]
  · rw [ht.slot, hslot, if_pos rfl, hx]

theorem does_jobStart (h : Serving s m.val 0x0406) (hg : (s.slot (s.arg m.val 0 1)).graph = true)
    (hst : (s.slot (s.arg m.val 0 1)).state = .loaded ∨ (s.slot (s.arg m.val 0 1)).state = .stopped) (hr : s.jobResident (s.arg m.val 0 1) = true) :
    Does (.jobStart m) s m.val 0x0406 fun t => SameMem s t ∧ (∀ i, i ≠ s.arg m.val 0 1 → t.slot i = s.slot i) ∧
      (t.slot (s.arg m.val 0 1)).state = .running ∧ (t.slot (s.arg m.val 0 1)).step = (s.slot (s.arg m.val 0 1)).step ∧
      t.rbit (numReg (s.arg m.val 0 1) 4) 16 = true ∧ ∀ g l, (g, l) ∈ (t.slot (s.arg m.val 0 1)).lists →
        l.pos = List.range l.records.length ∧ l.pass = (s.slot (s.arg m.val 0 1)).step := by
  obtain ⟨j, hjd⟩ : ∃ j, j = s.arg m.val 0 1 := ⟨_, rfl⟩
  obtain ⟨x, hx⟩ : ∃ x : Slot, x = { s.slot j with
    state := .running, restored := false, stopCause := 0, stopEvt := 0, failTask := 0
    lists := (s.slot j).lists.map fun (g, l) => (g, { l with pos := List.range l.records.length, pass := (s.slot j).step }) } := ⟨_, rfl⟩
  obtain ⟨u, hu⟩ : ∃ u, u = ((s.begun m.val).setBit (numReg j 4) 16).setSlot j x := ⟨_, rfl⟩
  have hc : (s.begun m.val).command (s.request m.val) ServeIn.none = (good [], u) := by
    have hst' : (((s.begun m.val).slot (s.arg m.val 0 1)).graph && (((s.begun m.val).slot (s.arg m.val 0 1)).state == .loaded ||
        ((s.begun m.val).slot (s.arg m.val 0 1)).state == .stopped) && (s.begun m.val).jobResident (s.arg m.val 0 1)) = true := by
      have hr' : (s.begun m.val).jobResident (s.arg m.val 0 1) = true :=
        ((Replied.begun m.val s).jobResident m.isLt _).trans hr
      rw [hr', Bool.and_true, Bool.and_eq_true, Bool.or_eq_true, beq_iff_eq, beq_iff_eq]
      exact ⟨hg, hst⟩
    simp only [State.command, h.code]
    rw [State.jobStart, State.onSlot_eq hj ha]
    dsimp only
    rw [if_pos hst', hu, hx, hjd]
    rfl
  have hb := Replied.begun m.val s
  have hm : SameMem s u := hb.mem.trans (hu ▸ (sameMem_setRf _ _ _ _ _).trans (.of_store rfl))
  have hslot (k : Nat) : u.slot k = if k = j then x else s.slot k := by rw [hu, State.setSlot_get, State.setBit_slot, hb.slot]
  rw [← hjd]
  refine h.completes rfl (by decide) hc (good_status _) (hu ▸ rfl) (hu ▸ rfl) fun t ht => ⟨hm.trans ht.mem, fun k hk => ?_, ?_⟩
  · rw [ht.slot, hslot, if_neg hk]
  · rw [ht.slot, hslot, if_pos rfl]
    refine ⟨by rw [hx], by rw [hx], ?_, fun g l hl => ?_⟩
    · rw [ht.rbit (by unfold numReg mbReg; omega) (by unfold numReg; omega), hu]
      exact State.setBit_rbit _ _ _ (by decide)
    · rw [hx] at hl
      obtain ⟨⟨g', l'⟩, -, he⟩ := List.mem_map.mp hl
      cases he
      exact ⟨rfl, rfl⟩
end
end Sys2Proof.Machine
end

section
namespace Sys2Proof.Machine

/-! ### Firmware while a job stops (R302, R322) -/

/-- Firmware but hears reports. -/
def Heard (s t : State) : Prop := ∃ r, t.fw = { s.fw with reports := r }

namespace Heard
theorem of_eq {s t : State} (h : t.fw = s.fw) : Heard s t := ⟨s.fw.reports, by rw [h]⟩
theorem refl (s : State) : Heard s s := of_eq rfl
theorem trans {s t u : State} (h : Heard s t) (h' : Heard t u) : Heard s u := by
  obtain ⟨r, h1⟩ := h
  obtain ⟨r', h2⟩ := h'
  exact ⟨r', by rw [h2, h1]⟩
theorem each {α : Type} {f : State → α → State} (h : ∀ s x, Heard s (f s x)) (l : List α) (s : State) : Heard s (s.each f l) :=
  State.each_pred (fun t => Heard s t) f (fun t x ht => ht.trans (h t x)) l s (.refl s)
theorem boxes {s t : State} (h : Heard s t) : t.fw.boxes = s.fw.boxes := by
  obtain ⟨r, h1⟩ := h
  rw [h1]
theorem ptr {s t : State} (h : Heard s t) : t.fw.ptr = s.fw.ptr := by
  obtain ⟨r, h1⟩ := h
  rw [h1]
theorem tensor {s t : State} (h : Heard s t) (n : Nat) : t.tensor n = s.tensor n := by
  obtain ⟨r, h1⟩ := h
  rw [State.tensor, h1]
  rfl
end Heard

section
variable (s : State)

theorem heard_poison (sp : Space) (a n : Nat) : Heard s (s.poison sp a n) := .of_eq (by simp)
theorem heard_setSlot (j : Nat) (x : Slot) : Heard s (s.setSlot j x) := .of_eq rfl

theorem heard_pageOut (u : State) (j : Nat) (r : ActRec) (x : Nat × Nat) : Heard s (u.pageOut j r s x) := by
  have hwr (l : List Byte) : Heard s (match u.pageAcc j r x.1 with | .at h => s.wr .host h l | .err _ => s) := by
    split
    · exact (firm_wr s _ _ _).fw
    · exact .refl s
  simp only [State.pageOut]
  split
  · exact hwr _
  · exact (hwr _).trans (firm_wr _ _ _ _).fw

theorem heard_pageIn (u : State) (j : Nat) (r : ActRec) (x : Nat × Nat) : Heard s (u.pageIn j r s x) := by
  have hwr (sp : Space) (b : Nat) : Heard s (match u.pageAcc j r x.1 with | .at h => s.wr sp b (u.rdBytes .host h 4096) | .err _ => s) := by
    split
    · exact (firm_wr s _ _ _).fw
    · exact .refl s
  simp only [State.pageIn]
  split
  · exact (hwr _ _).trans (heard_poison _ _ _ _)
  · exact hwr _ _

theorem heard_offloadDone (j : Nat) (r : ActRec) : Heard s (s.offloadDone j r []) := by
  obtain ⟨u, hu⟩ : ∃ u, u = s.dropTokens r.region (pagerReq r.handle) := ⟨_, rfl⟩
  have hsu : Heard s u := hu ▸ .of_eq rfl
  have hout : Heard u (u.each (u.pageOut j r) r.pages.zipIdx) := .each (fun t x => heard_pageOut t u j r x) _ u
  unfold State.offloadDone
  rw [show s.memErrs [] = s from rfl, ← hu]
  refine hsu.trans ?_
  dsimp only
  split
  · exact .trans (t := u.modAct j r.handle fun r => { r with state := 2, pages := [] }) (.of_eq rfl) (firm_report _ _).fw
  · by_cases h6 : r.state = 6
    · rw [if_pos h6]
      exact hout.trans (.of_eq rfl)
    · rw [if_neg h6]
      exact hout.trans (.of_eq rfl)

theorem heard_prefetchDone (j : Nat) (r : ActRec) : Heard s (s.prefetchDone j r []) := by
  obtain ⟨u, hu⟩ : ∃ u, u = s.dropTokens r.region (pagerReq r.handle) := ⟨_, rfl⟩
  have hsu : Heard s u := hu ▸ .of_eq rfl
  have hin : Heard u (u.each (u.pageIn j r) r.pages.zipIdx) := .each (fun t x => heard_pageIn t u j r x) _ u
  unfold State.prefetchDone
  rw [show s.memErrs [] = s from rfl, ← hu]
  refine hsu.trans ?_
  dsimp only
  split
  · refine .trans (t := (u.setHentry r.handle { u.hentry r.handle with zeroing := false }).modAct j r.handle fun r => { r with state := 3 }) (.of_eq rfl) ?_
    exact (firm_report _ _).fw
  · exact hin.trans (.of_eq rfl)

theorem heard_finishTransfers (j : Nat) (p : ActRec → Bool) : Heard s (s.finishTransfers j p) := by
  unfold State.finishTransfers
  split
  · exact .refl s
  · refine .each (fun s r => ?_) _ s
    split
    · exact heard_offloadDone s j r
    · split
      · exact heard_prefetchDone s j r
      · exact .refl s

theorem State.decUse_fw (h : Nat) : (s.decUse h).fw = s.fw := by
  simp only [State.decUse, State.freeEntry]
  split
  · split <;> rfl
  · rfl

theorem State.dropRun_fw (b num : Nat) : (s.dropRun b num).fw = s.fw := by
  unfold State.dropRun State.returnTokens
  split
  · rfl
  · have h (t : State) (l : List Nat) : (t.each (fun s h => s.decUse h) l).fw = t.fw :=
      State.each_keeps State.fw _ (fun t h => t.decUse_fw h) l t
    dsimp only
    split
    · exact h _ _
    · exact h _ _

theorem State.quieted_fw (j : Nat) : (s.quieted j).fw = s.fw := by
  have hquiet (s : State) (b : Nat) : (s.quietBlock j b).fw = s.fw :=
    State.each_keeps State.fw _ (fun t (r : RTask) => t.dropRun_fw b r.num) _ _
  have htrim (s : State) (b : Nat) : (s.trimBlock b).fw = s.fw := 
    State.each_keeps State.fw (fun s req => s.trimTokens b req) (fun _ _ => rfl) _ s
  have hopen (s : State) (o : OpenMb) : (s.closeTiles j o o.tiles).fw = s.fw :=
    State.each_keeps State.fw (fun s t => s.setTile t ((s.tile t).closeFence o.epoch)) (fun _ _ => rfl) _ s
  have hpager (s : State) : (s.dropPager j).fw = s.fw :=
    State.each_keeps State.fw (fun s (r : ActRec) => s.dropTokens r.region (pagerReq r.handle)) (fun _ _ => rfl) _ s
  unfold State.quieted State.closeOpen
  rw [hpager, State.each_keeps State.fw _ hopen]
  exact (State.each_keeps State.fw _ htrim _ _).trans (State.each_keeps State.fw _ hquiet _ s)

theorem State.freeJobHandles_fw (j : Nat) : (s.freeJobHandles j).fw = s.fw := by
  have hfree (s : State) (h : Nat) : (s.freeEntry h).fw = s.fw := by
    simp only [State.freeEntry]
    split <;> rfl
  have howner (s : State) (o : Nat) : (s.freeOwner j o).fw = s.fw := by
    unfold State.freeOwner
    refine State.each_keeps State.fw (fun s (x : Nat × HEntry) => if x.2.job = j ∧ x.2.fw = false ∧ x.2.state ≠ .free then
      let h := mkHandle x.1 o x.2.pool x.2.gen
      if x.2.inuse = 0 then s.freeEntry h else s.setHentry h { x.2 with state := .freeing, zeroing := false } else s) (fun s x => ?_) _ _
    dsimp only
    split
    · split
      · exact hfree _ _
      · rfl
    · rfl
  have h := State.each_keeps State.fw (fun s o => s.freeOwner j o) howner (List.range 17) s
  rw [State.freeJobHandles_eq]
  generalize s.each (fun s o => s.freeOwner j o) (List.range 17) = u at h ⊢
  exact h

theorem heard_stopJob (j : Nat) : Heard s (s.stopJob j) := by
  have h1 : Heard s ((s.quieted j).finishTransfers j fun _ => true) := (Heard.of_eq (s.quieted_fw j)).trans (heard_finishTransfers _ _ _)
  rw [State.stopJob_eq]
  generalize (s.quieted j).finishTransfers j (fun _ => true) = v at h1 ⊢
  exact h1.trans ((Heard.of_eq (v.freeJobHandles_fw j)).trans (heard_setSlot _ _ _))

theorem heard_haltJob (j cause evt task : Nat) : Heard s (s.haltJob j cause evt task) := by
  have h := heard_stopJob s j
  unfold State.haltJob
  generalize s.stopJob j = v at h ⊢
  exact h.trans (heard_setSlot _ _ _)

/-- A job that stops stands at no record of its lists (R322). -/
theorem State.haltJob_lists_pos (j cause evt task : Nat) {g : Nat} {l : DList} (h : (g, l) ∈ ((s.haltJob j cause evt task).slot j).lists) :
    l.pos = [] := by
  have hstop : ∃ x : Slot, (s.stopJob j).slot j = x.stopped := by
    rw [State.stopJob_eq]
    generalize ((s.quieted j).finishTransfers j fun _ => true).freeJobHandles j = v
    exact ⟨v.slot j, by simp⟩
  obtain ⟨x, hx⟩ := hstop
  have hl : ((s.haltJob j cause evt task).slot j).lists = x.stopped.lists := by
    unfold State.haltJob
    generalize s.stopJob j = v at hx ⊢
    dsimp only
    rw [State.setSlot_get, if_pos rfl, hx]
  rw [hl] at h
  obtain ⟨⟨g', l'⟩, -, he⟩ := List.mem_map.mp h
  cases he
  rfl
end

section
variable {s : State} {m : MailboxId} (hj : s.arg m.val 0 1 < 64) (ha : s.admitted (s.arg m.val 0 1) = true)
include hj ha

theorem does_jobStop (h : Serving s m.val 0x0407) (hst : (s.slot (s.arg m.val 0 1)).state.active = true) :
    Does (.jobStop m) s m.val 0x0407 fun t => (∀ k, t.cell k = s.cell k) ∧ (t.slot (s.arg m.val 0 1)).state = .stopped ∧
      (t.slot (s.arg m.val 0 1)).stopCause = 1 ∧ ∀ g l, (g, l) ∈ (t.slot (s.arg m.val 0 1)).lists → l.pos = [] := by
  obtain ⟨u, hu⟩ : ∃ u, u = (s.begun m.val).haltJob (s.arg m.val 0 1) 1 0 0 := ⟨_, rfl⟩
  have hc : (s.begun m.val).command (s.request m.val) ServeIn.none = (good [], u) := by
    have hst' : ((s.begun m.val).slot (s.arg m.val 0 1)).state.active = true := hst
    simp only [State.command, h.code]
    rw [State.jobStop, State.onSlot_eq hj ha, if_pos hst', hu]
    rfl
  have hh : Halted (s.arg m.val 0 1) (s.begun m.val) u := hu ▸ halted_haltJob _ _ _ _ _
  have hf : Heard (s.begun m.val) u := hu ▸ heard_haltJob _ _ _ _ _
  refine h.completes rfl (by decide) hc (good_status _) hf.boxes hf.ptr fun t ht => ⟨fun k => ?_, ?_, ?_, fun g l hl => ?_⟩
  · rw [ht.mem.cells, hh.cells, (Replied.begun m.val s).mem.cells]
  · rw [ht.slot, hh.jobs, if_pos rfl]
  · rw [ht.slot, hu]
    exact State.haltJob_stopCause _ _ _ _ _
  · rw [ht.slot, hu] at hl
    exact State.haltJob_lists_pos _ _ _ _ _ hl
end
end Sys2Proof.Machine
end

section
namespace Sys2Proof.Machine

/-! ### Graphs, windows and tensors of a job (R287 to R289, R396, R477) -/

section
variable {s : State} {m : MailboxId} (hj : s.arg m.val 0 1 < 64) (ha : s.admitted (s.arg m.val 0 1) = true)
include hj ha

theorem does_jobGraphStage (h : Serving s m.val 0x0404) (hg : s.arg m.val 1 1 ≤ 15) (h2 : s.arg m.val 2 2 = 0)
    (hlen : s.arg m.val 4 4 + s.arg m.val 8 4 ≤ 2 ^ 30) :
    Does (.jobGraphStage m) s m.val 0x0404 fun t => SameMem s t ∧ (∀ i, i ≠ s.arg m.val 0 1 → t.slot i = s.slot i) ∧
      ((t.slot (s.arg m.val 0 1)).list (s.arg m.val 1 1)).len =
        max ((s.slot (s.arg m.val 0 1)).list (s.arg m.val 1 1)).len (s.arg m.val 4 4 + s.arg m.val 8 4) ∧
      (∀ g, g ≠ s.arg m.val 1 1 → (t.slot (s.arg m.val 0 1)).list g = (s.slot (s.arg m.val 0 1)).list g) ∧
      ∀ k, SMap.get (fun _ => 0#8) ((t.slot (s.arg m.val 0 1)).list (s.arg m.val 1 1)).bytes k =
        if s.arg m.val 4 4 ≤ k ∧ k < s.arg m.val 4 4 + s.arg m.val 8 4 then (s.request m.val).p.getD (12 + (k - s.arg m.val 4 4)) 0
        else SMap.get (fun _ => 0#8) ((s.slot (s.arg m.val 0 1)).list (s.arg m.val 1 1)).bytes k := by
  obtain ⟨j, hjd⟩ : ∃ j, j = s.arg m.val 0 1 := ⟨_, rfl⟩
  obtain ⟨g, hgd⟩ : ∃ g, g = s.arg m.val 1 1 := ⟨_, rfl⟩
  obtain ⟨o, hod⟩ : ∃ o, o = s.arg m.val 4 4 := ⟨_, rfl⟩
  obtain ⟨n, hnd⟩ : ∃ n, n = s.arg m.val 8 4 := ⟨_, rfl⟩
  obtain ⟨L, hL⟩ : ∃ L : DList, L = { (s.slot j).list g with
    bytes := (((s.request m.val).p.drop 12).zipIdx o).foldl (fun m (v, i) => SMap.set (fun _ => 0#8) m i v) ((s.slot j).list g).bytes
    len := max ((s.slot j).list g).len (o + n) } := ⟨_, rfl⟩
  obtain ⟨u, hu⟩ : ∃ u, u = (s.begun m.val).setList j g L := ⟨_, rfl⟩
  have hc : (s.begun m.val).command (s.request m.val) ServeIn.none = (good [], u) := by
    have hf : firstBad [(1, decide (15 < (s.request m.val).u 1 1)), (2, (s.request m.val).u 2 2 != 0),
        (8, decide (2 ^ 30 < (s.request m.val).u 4 4 + (s.request m.val).u 8 4))] = none := by
      have h1 : (s.request m.val).u 1 1 ≤ 15 := hg
      have h2' : (s.request m.val).u 2 2 = 0 := h2
      have h3 : (s.request m.val).u 4 4 + (s.request m.val).u 8 4 ≤ 2 ^ 30 := hlen
      simp only [firstBad_none_iff, List.forall_mem_cons, List.not_mem_nil, false_imp_iff, implies_true, and_true, decide_eq_false_iff_not, h2']
      exact ⟨by omega, rfl, by omega⟩
    simp only [State.command, h.code]
    rw [State.jobGraphStage, State.onSlot_eq hj ha]
    dsimp only
    rw [checked_good hf, hu, hL, hjd, hgd, hod, hnd]
    rfl
  have hb := Replied.begun m.val s
  have hm : SameMem s u := hb.mem.trans (hu ▸ .of_store rfl)
  have hlen' : (s.request m.val).p.length = 12 + n := by rw [hnd]; exact h.length (by decide)
  have hslot (k : Nat) : u.slot k = if k = j then { s.slot j with lists := SMap.set (fun _ => DList.init) (s.slot j).lists g L } else s.slot k := by
    rw [hu, State.setList, State.setSlot_get, hb.slot, hb.slot]
  have hlist (k : Nat) : (u.slot j).list k = if k = g then L else (s.slot j).list k := by
    rw [hslot, if_pos rfl, Slot.list, SMap.get_set]
    rfl
  rw [← hjd, ← hgd, ← hod, ← hnd]
  refine h.completes rfl (by decide) hc (good_status _) (hu ▸ rfl) (hu ▸ rfl) fun t ht => ⟨hm.trans ht.mem, fun k hk => ?_, ?_, fun k hk => ?_, fun k => ?_⟩
  · rw [ht.slot, hslot, if_neg hk]
  · rw [ht.slot, hlist, if_pos rfl, hL]
  · rw [ht.slot, hlist, if_neg hk]
  · rw [ht.slot, hlist, if_pos rfl, hL]
    dsimp only
    rw [get_foldl_zipIdx]
    refine if_congr ?_ ?_ rfl
    · rw [List.length_drop, hlen', Nat.add_sub_cancel_left]
    · simp [List.getD_eq_getElem?_getD]

theorem starts_jobGraphLoad (h : Serving s m.val 0x0405) (hroom : s.opRoom = true) :
    ((s.slot (s.arg m.val 0 1)).state = .admitted ∨ (s.slot (s.arg m.val 0 1)).state = .loaded →
      Starts (.jobGraphLoad m) s m.val 0x0405 (s.arg m.val 0 1) fun t =>
        SameMem s t ∧ (∀ i, i ≠ s.arg m.val 0 1 → t.slot i = s.slot i) ∧ (t.slot (s.arg m.val 0 1)).state = .loading) ∧
    ((s.slot (s.arg m.val 0 1)).state = .stopped → (s.opsOf [0x0405] fun i => i == s.arg m.val 0 1) = [] →
      Starts (.jobGraphLoad m) s m.val 0x0405 (s.arg m.val 0 1) fun t =>
        SameMem s t ∧ (∀ i, i ≠ s.arg m.val 0 1 → t.slot i = s.slot i) ∧ t.slot (s.arg m.val 0 1) = s.slot (s.arg m.val 0 1)) := by
  obtain ⟨j, hjd⟩ : ∃ j, j = s.arg m.val 0 1 := ⟨_, rfl⟩
  obtain ⟨v, hv⟩ : ∃ v, v = (s.begun m.val).withOp (s.request m.val) j := ⟨_, rfl⟩
  have hroom' : (s.begun m.val).opRoom = true := hroom
  have hb := Replied.begun m.val s
  have hm : SameMem s v := hb.mem.trans (hv ▸ .of_store rfl)
  have hslot (k : Nat) : v.slot k = s.slot k := by
    rw [← hb.slot k, hv]
    rfl
  have hcmd : (s.begun m.val).command (s.request m.val) ServeIn.none = (s.begun m.val).jobGraphLoad (s.request m.val) := by
    simp only [State.command, h.code]
  rw [← hjd]
  refine ⟨fun hst => ?_, fun hst hops => ?_⟩
  · obtain ⟨u, hu⟩ : ∃ u, u = v.setSlot j { s.slot j with state := .loading } := ⟨_, rfl⟩
    have hc : (s.begun m.val).command (s.request m.val) ServeIn.none = (accepted s.fw.nextOph, u) := by
      rw [hcmd, State.jobGraphLoad, State.onSlot_eq hj ha, ← hjd, hu, hv]
      dsimp only
      rw [hb.slot]
      obtain hst | hst := hst <;> rw [hst] <;> exact State.startOp_eq hroom' _ _ _
    have huslot (k : Nat) : u.slot k = if k = j then { s.slot j with state := .loading } else s.slot k := by rw [hu, State.setSlot_get, hslot]
    refine h.starts rfl (by decide) (arg := j) hc (by rw [hu, hv]; rfl) (by rw [hu, hv]; rfl) (by rw [hu, hv]; rfl) fun t ht =>
      ⟨hm.trans (.trans (t := u) (hu ▸ .of_store rfl) ht.mem), fun k hk => ?_, ?_⟩
    · rw [ht.slot, huslot, if_neg hk]
    · rw [ht.slot, huslot, if_pos rfl]
  · have hc : (s.begun m.val).command (s.request m.val) ServeIn.none = (accepted s.fw.nextOph, v) := by
      have hops' : ((s.begun m.val).opsOf [0x0405] fun i => i == j) = [] := hjd ▸ hops
      rw [hcmd, State.jobGraphLoad, State.onSlot_eq hj ha, ← hjd, hv]
      dsimp only
      rw [hb.slot, hst]
      dsimp only
      rw [hops']
      exact (if_pos rfl).trans (State.startOp_eq hroom' _ _ _)
    refine h.starts rfl (by decide) (arg := j) hc (by rw [hv]; rfl) (by rw [hv]; rfl) (by rw [hv]; rfl) fun t ht =>
      ⟨hm.trans ht.mem, fun k _ => (ht.slot k).trans (hslot k), (ht.slot j).trans (hslot j)⟩
end
end Sys2Proof.Machine
end

section
namespace Sys2Proof.Machine

/-! ### Host windows (R287 to R289) -/

theorem hwinReg_lt {w x : Nat} (hw : w < 16) (hx : x < 16) : hwinReg w x < 0x7000 := by unfold hwinReg; omega

namespace Replied
variable {m : Nat} {s t : State} (h : Replied m s t)
include h
theorem low {a : Nat} (ha : a < 0x78000) : t.reg a = s.reg a := h.regs a (by unfold mbReg; omega) (by omega)
theorem windows (j k : Nat) : t.windows j k = s.windows j k := by
  unfold State.windows
  refine List.filter_congr fun w hw => ?_
  have hlow := h.low (a := hwinReg w 0xC) (by have := hwinReg_lt (List.mem_range.mp hw) (x := 0xC) (by decide); omega)
  rw [State.rbit_congr hlow, State.rf_congr hlow, State.rf_congr hlow]
theorem actTotal : t.actTotal = s.actTotal := by
  unfold State.actTotal
  refine congrArg List.sum (List.map_congr_left fun w hw => ?_)
  have hw' := List.mem_range.mp hw
  have hlow (x : Nat) (hx : x < 16) := h.low (a := hwinReg w x) (by have := hwinReg_lt hw' hx; omega)
  rw [State.rbit_congr (hlow 0xC (by decide)), State.rf_congr (hlow 0xC (by decide)), State.rf_congr (hlow 8 (by decide))]
theorem freeWindow : ((List.range 16).find? fun w => !t.rbit (hwinReg w 0xC) 0 && !t.rbit (hwinReg w 0xC) 16) =
    (List.range 16).find? fun w => !s.rbit (hwinReg w 0xC) 0 && !s.rbit (hwinReg w 0xC) 16 := by
  refine List.find?_congr fun w hw => ?_
  have hlow := h.low (a := hwinReg w 0xC) (by have := hwinReg_lt (List.mem_range.mp hw) (x := 0xC) (by decide); omega)
  rw [State.rbit_congr hlow, State.rbit_congr hlow]
end Replied

/-- A window's four registers are written. -/
def State.setWindow (s : State) (w base hi size ctl : Nat) : State :=
  (((s.setRn (hwinReg w 0) base).setRn (hwinReg w 4) hi).setRn (hwinReg w 8) size).setRn (hwinReg w 0xC) ctl

section
variable (s : State) (w base hi size ctl : Nat)
theorem fwKept_setWindow : FwKept s (s.setWindow w base hi size ctl) :=
  (FwKept.setRn s _ _).trans ((FwKept.setRn _ _ _).trans ((FwKept.setRn _ _ _).trans (.setRn _ _ _)))

theorem sameUnits_setWindow : SameUnits s (s.setWindow w base hi size ctl) := by constructor <;> rfl

theorem State.setWindow_rn (a : Nat) : (s.setWindow w base hi size ctl).rn a =
    if a = hwinReg w 0xC then ctl % 2 ^ 32 else if a = hwinReg w 8 then size % 2 ^ 32 else if a = hwinReg w 4 then hi % 2 ^ 32
    else if a = hwinReg w 0 then base % 2 ^ 32 else s.rn a := by
  simp only [State.setWindow, State.setRn_rn]

theorem State.setWindow_reg_ne {a : Nat} (h : a ∉ [hwinReg w 0, hwinReg w 4, hwinReg w 8, hwinReg w 0xC]) :
    (s.setWindow w base hi size ctl).reg a = s.reg a := by
  simp only [List.mem_cons, List.not_mem_nil, or_false, not_or] at h
  obtain ⟨h0, h4, h8, hC⟩ := h
  simp only [State.setWindow, State.setRn_reg, if_neg h0, if_neg h4, if_neg h8, if_neg hC]
end

theorem byteN_lt (l : List Byte) (off n : Nat) : byteN l off n < 256 ^ n := by
  have h (l : List Byte) : leNat l < 256 ^ l.length := by
    induction l with
    | nil => simp [leNat]
    | cons b l ih =>
      have hb := b.isLt
      rw [leNat, List.length_cons, pow_succ]
      omega
  exact lt_of_lt_of_le (h _) (Nat.pow_le_pow_right (by decide) (by simp))

theorem completes_jobWindow {s : State} {m : MailboxId} (hj : s.arg m.val 0 1 < 64) (ha : s.admitted (s.arg m.val 0 1) = true) {w : Nat}
    (h : Serving s m.val 0x0403) (h1 : s.arg m.val 1 1 ≤ 2) (h2 : s.arg m.val 2 2 = 0) (h4 : s.arg m.val 4 8 % 2097152 = 0)
    (h12 : 1 ≤ s.arg m.val 12 4) (h12' : s.arg m.val 12 4 ≤ 262144) (h16 : s.arg m.val 1 1 = 0 → s.arg m.val 12 4 % 16 = 0)
    (hend : s.arg m.val 4 8 + s.arg m.val 12 4 * 2097152 ≤ 2 ^ 64)
    (hwin : (s.windows (s.arg m.val 0 1) (s.arg m.val 1 1)).length < (if s.arg m.val 1 1 = 2 then 2 else 1))
    (hact : s.arg m.val 1 1 = 0 → s.actTotal + s.arg m.val 12 4 ≤ 262144)
    (hw : ((List.range 16).find? fun w => !s.rbit (hwinReg w 0xC) 0 && !s.rbit (hwinReg w 0xC) 16) = some w) :
    Completes (.jobWindow m) s fun t => Answered s t m.val 0x0403 (good [BitVec.ofNat 8 w]) ∧ SameMem s t ∧ SameUnits s t ∧
      t.rn (hwinReg w 0) = s.arg m.val 4 4 ∧ t.rn (hwinReg w 4) = s.arg m.val 8 4 ∧ t.rn (hwinReg w 8) = s.arg m.val 12 4 ∧
      t.rn (hwinReg w 0xC) = 1 + s.arg m.val 1 1 * 2 + s.arg m.val 0 1 * 8 ∧
      SameRegs s t [mbReg m.val 4, 0x78000, hwinReg w 0, hwinReg w 4, hwinReg w 8, hwinReg w 0xC] := by
  obtain ⟨u, hu⟩ : ∃ u, u = (s.begun m.val).setWindow w (s.arg m.val 4 4) (s.arg m.val 8 4) (s.arg m.val 12 4)
    (1 + s.arg m.val 1 1 * 2 + s.arg m.val 0 1 * 8) := ⟨_, rfl⟩
  have hb := Replied.begun m.val s
  have hw16 : w < 16 := List.mem_range.mp (List.mem_of_find?_eq_some hw)
  have hc : (s.begun m.val).command (s.request m.val) ServeIn.none = (good [BitVec.ofNat 8 w], u) := by
    have hf : firstBad [(1, decide (2 < s.arg m.val 1 1)), (2, s.arg m.val 2 2 != 0), (4, s.arg m.val 4 8 % 2097152 != 0),
        (12, !inR (s.arg m.val 12 4) 1 262144 || (s.arg m.val 1 1 == 0 && s.arg m.val 12 4 % 16 != 0) ||
          decide (2 ^ 64 < s.arg m.val 4 8 + s.arg m.val 12 4 * 2097152))] = none := by
      rw [firstBad_none_iff]
      simp [inR, h2, h4, h12, h12']
      exact ⟨h1, h16, hend⟩
    have hroom : ¬ ((if s.arg m.val 1 1 = 2 then 2 else 1) ≤ ((s.begun m.val).windows (s.arg m.val 0 1) (s.arg m.val 1 1)).length ∨
        (s.arg m.val 1 1 = 0 ∧ 262144 < (s.begun m.val).actTotal + s.arg m.val 12 4)) := by
      rw [hb.windows, hb.actTotal]
      rintro (h' | ⟨h0, h'⟩)
      · omega
      · exact absurd (hact h0) (by omega)
    have hfree := hb.freeWindow.trans hw
    simp only [State.command, h.code]
    rw [State.jobWindow, State.onSlot_eq hj ha]
    refine (checked_good hf _ _).trans ?_
    dsimp only
    rw [hfree]
    refine (if_neg hroom).trans ?_
    rw [hu]
    rfl
  have hk := fwKept_setWindow (s.begun m.val) w (s.arg m.val 4 4) (s.arg m.val 8 4) (s.arg m.val 12 4) (1 + s.arg m.val 1 1 * 2 + s.arg m.val 0 1 * 8)
  rw [← hu] at hk
  have hun : SameUnits s u := hb.units.trans (hu ▸ sameUnits_setWindow _ _ _ _ _ _)
  refine h.completes rfl (by decide) hc (good_status _) (congrArg Firmware.boxes hk.2 :) (congrArg Firmware.ptr hk.2 :) fun t ht => ?_
  have hlow (x : Nat) (hx : x < 16) : t.rn (hwinReg w x) = u.rn (hwinReg w x) := by
    rw [State.rn, ht.low (by have := hwinReg_lt hw16 hx; omega)]
    rfl
  refine ⟨hb.mem.trans (hk.1.trans ht.mem), hun.trans ht.units, ?_, ?_, ?_, ?_, fun a ha => ?_⟩
  · rw [hlow 0 (by decide), hu, State.setWindow_rn]
    have := byteN_lt (s.request m.val).p 4 4
    simp [hwinReg]
    exact this
  · rw [hlow 4 (by decide), hu, State.setWindow_rn]
    have := byteN_lt (s.request m.val).p 8 4
    simp [hwinReg]
    exact this
  · rw [hlow 8 (by decide), hu, State.setWindow_rn]
    simp [hwinReg]
    omega
  · rw [hlow 0xC (by decide), hu, State.setWindow_rn]
    simp [hwinReg]
    omega
  · simp only [List.mem_cons, not_or] at ha
    obtain ⟨h1, h2, h3⟩ := ha
    rw [ht.regs a h1 h2, hu, State.setWindow_reg_ne, hb.regs a h1 h2]
    simpa using h3
end Sys2Proof.Machine
end

section
namespace Sys2Proof.Machine

/-! ### Tensors that a job names (R396, R426) -/

/-- A list of named tensors with those of a request put last. -/
def nameTensors (l : List (Nat × Bool)) (es : List (Nat × Nat)) : List (Nat × Bool) :=
  es.foldl (fun l e => (l.filter fun x => x.1 != e.1) ++ [(e.1, e.2 == 1)]) l

theorem mem_nameTensors_of_old {l : List (Nat × Bool)} {es : List (Nat × Nat)} {x : Nat × Bool} (hx : x ∈ l)
    (hn : x.1 ∉ es.map fun e => e.1) : x ∈ nameTensors l es := by
  induction es generalizing l with
  | nil => exact hx
  | cons e es ih =>
    rw [List.map_cons, List.mem_cons, not_or] at hn
    refine ih (List.mem_append_left _ (List.mem_filter.mpr ⟨hx, ?_⟩)) hn.2
    simpa using hn.1

theorem mem_nameTensors_of_new {l : List (Nat × Bool)} {es : List (Nat × Nat)} (hd : (es.map fun e => e.1).Nodup) {e : Nat × Nat} (he : e ∈ es) :
    (e.1, e.2 == 1) ∈ nameTensors l es := by
  induction es generalizing l with
  | nil => cases he
  | cons y es ih =>
    rw [List.map_cons, List.nodup_cons] at hd
    obtain rfl | he := List.mem_cons.mp he
    · exact mem_nameTensors_of_old (l := (l.filter fun x => x.1 != e.1) ++ [(e.1, e.2 == 1)]) (es := es) (List.mem_append_right _ (List.mem_singleton_self _)) hd.1
    · exact ih hd.2 he

theorem of_mem_nameTensors {l : List (Nat × Bool)} {es : List (Nat × Nat)} {x : Nat × Bool} (hx : x ∈ nameTensors l es) :
    x.1 ∈ es.map (fun e => e.1) ∨ x ∈ l := by
  induction es generalizing l with
  | nil => exact .inr hx
  | cons e es ih =>
    obtain h | h := ih (l := (l.filter fun x => x.1 != e.1) ++ [(e.1, e.2 == 1)]) hx
    · exact .inl (List.mem_cons_of_mem _ h)
    · obtain h | h := List.mem_append.mp h
      · exact .inr (List.mem_filter.mp h).1
      · rw [List.mem_singleton.mp h]
        exact .inl List.mem_cons_self

/-- A job none of whose tensors is resident makes no twins. -/
theorem State.makeTwins_eq_self {s : State} {j : Nat} (h : bit (s.slot j).flags 1 = true → ∀ x ∈ (s.slot j).tensors, ∀ y, s.tensor x.1 = some y → y.state ≠ 5) :
    s.makeTwins j = (true, s) := by
  have hnone (l : List (Nat × Nat)) (hl : ∀ x ∈ l, ∀ y, s.tensor x.1 = some y → y.state ≠ 5) : l.foldl (fun (r : Bool × State) (n, g) =>
      match r.2.tensor n with
      | some x => if x.state = 5 then let (ok, s) := r.2.makeTwinsIn j n g x; (r.1 && ok, s) else r
      | none => r) (true, s) = (true, s) := by
    induction l with
    | nil => rfl
    | cons x l ih =>
      rw [List.foldl_cons]
      refine .trans (congrArg (List.foldl _ · l) ?_) (ih fun y hy => hl y (List.mem_cons_of_mem _ hy))
      dsimp only
      split
      · rename_i y hy
        rw [if_neg (hl x List.mem_cons_self y hy)]
      · rfl
  unfold State.makeTwins
  split
  · rfl
  · rename_i hb
    refine hnone _ fun x hx y hy => ?_
    obtain ⟨l, hl, hxl⟩ := List.mem_flatten.mp hx
    obtain ⟨z, hz, rfl⟩ := List.mem_map.mp hl
    obtain ⟨g, -, rfl⟩ := List.mem_map.mp hxl
    exact h (by simpa using hb) z hz y hy

theorem does_jobTensors {s : State} {m : MailboxId} (hj : s.arg m.val 0 1 < 64) (ha : s.admitted (s.arg m.val 0 1) = true)
    (h : Serving s m.val 0x0402) (hst : (s.slot (s.arg m.val 0 1)).state.started = false) (h1 : s.arg m.val 1 3 = 0)
    {es : List (Nat × Nat)} (hes : es = (List.range (s.arg m.val 4 4)).map fun k => (s.arg m.val (8 + 8 * k) 4, s.arg m.val (12 + 8 * k) 4))
    (hd : (es.map fun e => e.1).Nodup)
    (hgood : ∀ e ∈ es, e.2 ≤ 1 ∧ s.tensor e.1 ≠ none ∧ (e.2 = 1 → ∀ i, s.writerOf e.1 = some i → i = s.arg m.val 0 1))
    (htwin : bit (s.slot (s.arg m.val 0 1)).flags 1 = true → ∀ x y, (x ∈ es.map (fun e => e.1) ∨ ∃ w, (x, w) ∈ (s.slot (s.arg m.val 0 1)).tensors) →
      s.tensor x = some y → y.state ≠ 5) :
    Does (.jobTensors m) s m.val 0x0402 fun t => SameMem s t ∧ (∀ i, i ≠ s.arg m.val 0 1 → t.slot i = s.slot i) ∧
      (∀ e ∈ es, (e.1, e.2 == 1) ∈ (t.slot (s.arg m.val 0 1)).tensors) ∧
      ∀ x ∈ (s.slot (s.arg m.val 0 1)).tensors, x.1 ∉ es.map (fun e => e.1) → x ∈ (t.slot (s.arg m.val 0 1)).tensors := by
  obtain ⟨j, hjd⟩ : ∃ j, j = s.arg m.val 0 1 := ⟨_, rfl⟩
  rw [← hjd] at hst htwin hgood
  obtain ⟨x, hx⟩ : ∃ x : Slot, x = { s.slot j with tensors := nameTensors (s.slot j).tensors es } := ⟨_, rfl⟩
  obtain ⟨y, hy⟩ : ∃ y : Slot, y = { x with jmeth := x.writables.filter ((s.begun m.val).bigTensor x) } := ⟨_, rfl⟩
  obtain ⟨u, hu⟩ : ∃ u, u = (s.begun m.val).setSlot j y := ⟨_, rfl⟩
  have hb := Replied.begun m.val s
  have hslot (k : Nat) : u.slot k = if k = j then y else s.slot k := by rw [hu, State.setSlot_get, hb.slot]
  have hten : (u.slot j).tensors = nameTensors (s.slot j).tensors es := by rw [hslot, if_pos rfl, hy, hx]
  have htensor (n : Nat) : u.tensor n = s.tensor n := by
    rw [← hb.tensor n, hu]
    rfl
  have hmake : u.makeTwins j = (true, u) := by
    refine State.makeTwins_eq_self fun hflag z hz w hw => ?_
    have hflag' : bit (s.slot j).flags 1 = true := by
      rw [hslot, if_pos rfl, hy, hx] at hflag
      exact hflag
    rw [htensor] at hw
    rw [hten] at hz
    obtain hz | hz := of_mem_nameTensors hz
    · exact htwin hflag' z.1 w (.inl hz) hw
    · exact htwin hflag' z.1 w (.inr ⟨z.2, hz⟩) hw
  have hc : (s.begun m.val).command (s.request m.val) ServeIn.none = (good [], u) := by
    have hes' : ((List.range ((s.request m.val).u 4 4)).map fun k => ((s.request m.val).u (8 + 8 * k) 4, (s.request m.val).u (12 + 8 * k) 4)) = es := hes.symm
    have hf : firstBad ((1, (s.request m.val).u 1 3 != 0) :: es.zipIdx.map fun (e, k) => (12 + 8 * k, decide (1 < e.2))) = none := by
      have h1' : (s.request m.val).u 1 3 = 0 := h1
      rw [firstBad_none_iff, List.forall_mem_cons]
      refine ⟨by simp [h1'], fun z hz => ?_⟩
      obtain ⟨⟨e, k⟩, he, rfl⟩ := List.mem_map.mp hz
      have := (hgood e (List.fst_mem_of_mem_zipIdx he)).1
      exact decide_eq_false (by omega)
    have h2 : ¬ (es.any fun e => ((s.begun m.val).tensor e.1).isNone) = true := by
      rw [List.any_eq_true]
      rintro ⟨e, he, hn⟩
      rw [hb.tensor, Option.isNone_iff_eq_none] at hn
      exact (hgood e he).2.1 hn
    have h3 : ¬ (es.any fun e => e.2 == 1 && (match (s.begun m.val).writerOf e.1 with | some i => i != j | none => false)) = true := by
      rw [List.any_eq_true]
      rintro ⟨e, he, hn⟩
      obtain ⟨he1, hn⟩ := Bool.and_eq_true_iff.mp hn
      have hw : (s.begun m.val).writerOf e.1 = s.writerOf e.1 := rfl
      rw [hw] at hn
      cases hwr : s.writerOf e.1 with
      | none => rw [hwr] at hn; cases hn
      | some i =>
        rw [hwr] at hn
        have := (hgood e he).2.2 (by simpa using he1) i hwr
        simp [this] at hn
    simp only [State.command, h.code]
    rw [State.jobTensors, State.onSlot_eq hj ha, ← hjd]
    dsimp only
    rw [hb.slot, hes']
    refine (checked_good hf _ _).trans ?_
    rw [hst, if_neg (by simp), if_neg h2]
    refine (if_neg h3).trans ?_
    have hset : (s.begun m.val).setSlot j y = u := hu.symm
    rw [hy, hx] at hset
    unfold nameTensors at hset
    rw [hset, hmake]
    rfl
  have hm : SameMem s u := hb.mem.trans (hu ▸ .of_store rfl)
  rw [← hjd]
  refine h.completes rfl (by decide) hc (good_status _) (hu ▸ rfl) (hu ▸ rfl) fun t ht =>
    ⟨hm.trans ht.mem, fun k hk => ?_, fun e he => ?_, fun z hz hn => ?_⟩
  · rw [ht.slot, hslot, if_neg hk]
  · rw [ht.slot, hten]
    exact mem_nameTensors_of_new hd he
  · rw [ht.slot, hten]
    exact mem_nameTensors_of_old hz hn
end Sys2Proof.Machine
end

section
namespace Sys2Proof.Machine

/-! ### Units and areas that are given back (R137, R303, R609) -/

/-- Work on units and areas: no cell, register of the chip or device state changes, job slots keep all but handles, records
and twin areas, and firmware but hears reports. -/
structure Placed (s t : State) : Prop extends Calm s t, Firm s t

theorem Placed.refl (s : State) : Placed s s := ⟨.refl s, .refl s⟩
theorem Placed.trans {s t u : State} (h : Placed s t) (h' : Placed t u) : Placed s u := ⟨h.toCalm.trans h'.toCalm, h.toFirm.trans h'.toFirm⟩
theorem Placed.each {α : Type} {f : State → α → State} (h : ∀ s x, Placed s (f s x)) (l : List α) (s : State) : Placed s (s.each f l) :=
  State.each_pred (fun t => Placed s t) f (fun t x ht => ht.trans (h t x)) l s (.refl s)
theorem Placed.of_eq {s t : State} (hst : t.store = s.store) (hsl : t.slots = s.slots) (hd : t.dev = s.dev) (he : t.sec = s.sec)
    (hf : t.fw = s.fw) : Placed s t := ⟨(Still.of_eq hst hsl hd he).toCalm, .of_eq hsl hf⟩

theorem Placed.heard {s t : State} (h : Placed s t) : Heard s t := h.fw

/-- Tiers go free, or keep what they name. -/
def Freed (s t : State) : Prop := ∀ u, (t.tier u).tensor = (s.tier u).tensor ∨ (t.tier u).tensor = none

namespace Freed
theorem refl (s : State) : Freed s s := fun _ => .inl rfl
theorem trans {s t u : State} (h : Freed s t) (h' : Freed t u) : Freed s u := fun k => by
  obtain h1 | h1 := h' k
  · rw [h1]; exact h k
  · exact .inr h1
theorem each {α : Type} {f : State → α → State} (h : ∀ s x, Freed s (f s x)) (l : List α) (s : State) : Freed s (s.each f l) :=
  State.each_pred (fun t => Freed s t) f (fun t x ht => ht.trans (h t x)) l s (.refl s)
theorem of_tiers {s t : State} (h : t.tiers = s.tiers) : Freed s t := fun u => .inl (by rw [State.tier, h]; rfl)
theorem none {s t : State} (h : Freed s t) {u : Nat} (hu : (s.tier u).tensor = .none) : (t.tier u).tensor = .none := by
  obtain h1 | h1 := h u
  · rw [h1, hu]
  · exact h1
end Freed

section
variable (s : State)

theorem placed_setRn {a : Nat} (n : Nat) (h : 0x50000 ≤ a) : Placed s (s.setRn a n) := ⟨(still_setRn s a n h).toCalm, firm_setRn s a n⟩
theorem placed_setRf {a : Nat} (hi lo v : Nat) (h : 0x50000 ≤ a) : Placed s (s.setRf a hi lo v) := placed_setRn s _ h
theorem placed_setBlockReg (b x n : Nat) : Placed s (s.setRn (blockReg b x) n) := placed_setRn s n (by have := blockReg_ge b x; omega)
theorem placed_setTier (u : Nat) (x : TierInfo) : Placed s (s.setTier u x) := .of_eq rfl rfl rfl rfl rfl
theorem placed_setTile (t : Nat) (x : Tile) : Placed s (s.setTile t x) := .of_eq rfl rfl rfl rfl rfl
theorem placed_setBlock (b : Nat) (x : Block) : Placed s (s.setBlock b x) := .of_eq rfl rfl rfl rfl rfl
theorem placed_writeResidency (u : Nat) : Placed s (s.writeResidency u) := .of_eq rfl rfl rfl rfl rfl

theorem tileReg_ge (t x : Nat) : 0x50000 ≤ tileReg t x := by unfold tileReg blockBase; omega

theorem placed_setTierReadEn (u : Nat) (on : Bool) : Placed s (s.setTierReadEn u on) := placed_setRn s _ (tileReg_ge _ _)

/-- What a free tier's record holds. -/
def TierInfo.freed (I : TierInfo) : TierInfo :=
  { I with tensor := none, piece := 0, dslice := false, rows := 0, cols := 0, sigma := 0, shadow := 0, fold := 0 }

theorem State.makeFree_eq (u : Nat) : s.makeFree u =
    ((((s.setTierReadEn u false).setRf (tileReg (u / 8) 0xC) (8 + u % 8) (8 + u % 8) 0).setRn (tierReg u)
      ((if 10000 ≤ (s.tier u).erases then stRetired else stFree) * 65536)).setTier u (s.tier u).freed).writeResidency u := rfl

theorem placed_makeFree (u : Nat) : Placed s (s.makeFree u) := by
  rw [State.makeFree_eq]
  exact (placed_setTierReadEn s u false).trans ((placed_setRf _ _ _ _ (tileReg_ge _ _)).trans
    ((placed_setBlockReg _ _ _ _).trans ((placed_setTier _ _ _).trans (placed_writeResidency _ _))))

theorem State.makeFree_tier (u v : Nat) : (s.makeFree u).tier v = if v = u then (s.tier u).freed else s.tier v := by
  rw [State.makeFree_eq]
  exact State.setTier_get _ _ _ _

theorem freed_makeFree (u : Nat) : Freed s (s.makeFree u) := fun v => by
  rw [State.makeFree_tier]
  split
  · exact .inr rfl
  · exact .inl rfl

theorem placed_quietTier (u : Nat) : Placed s (s.quietTier u) := by
  unfold State.quietTier
  refine .trans ?_ (.each (fun t v => placed_makeFree t v) _ _)
  refine .trans ?_ (placed_setTierReadEn _ _ _)
  refine .trans ?_ (placed_setBlockReg _ _ _ _)
  exact .trans (placed_setTile s _ _) (placed_setBlock _ _ _)

theorem freed_quietTier (u : Nat) : Freed s (s.quietTier u) := by
  unfold State.quietTier
  refine .trans ?_ (.each (fun t v => freed_makeFree t v) _ _)
  exact .of_tiers rfl

theorem placed_dropTier (u : Nat) : Placed s (s.dropTier u) := (placed_quietTier s u).trans (placed_makeFree _ u)
theorem freed_dropTier (u : Nat) : Freed s (s.dropTier u) := (freed_quietTier s u).trans (freed_makeFree _ u)
theorem State.dropTier_tensor (u : Nat) : ((s.dropTier u).tier u).tensor = none := by
  rw [State.dropTier, State.makeFree_tier, if_pos rfl]
  rfl

theorem placed_freeEntry (h : Nat) : Placed s (s.freeEntry h) := ⟨(still_freeEntry s h).toCalm, firm_freeEntry s h⟩
theorem placed_raiseJ (c k u j n : Nat) : Placed s (s.raiseJ c k u j n) := ⟨(still_raiseJ s c k u j n).toCalm, firm_report s _⟩

theorem regionReg_ge (g x : Nat) : 0x50000 ≤ regionReg g x := by unfold regionReg; omega

theorem placed_respond (q : AllocReq) (status h : Nat) (hq : q.by_ = .firmware) : Placed s (s.respond q status h) := by
  simp only [State.respond, hq]
  exact .of_eq rfl rfl rfl rfl rfl

theorem placed_refuse (q : AllocReq) (status : Nat) (hq : q.by_ = .firmware) : Placed s (s.refuse q status) := by
  have hrep (t : State) (g x i c k u j n : Nat) : Placed t ((t.setBit (regionReg g x) i).raiseJ c k u j n) :=
    (placed_setRn t _ (regionReg_ge g x)).trans (placed_raiseJ _ _ _ _ _ _)
  simp only [State.refuse]
  refine .trans ?_ (placed_respond _ q status 0 hq)
  generalize ht : (s.setRn (regionReg q.region 0x200C) _).setRn _ _ = t
  have hst : Placed s t := ht ▸ (placed_setRn s _ (regionReg_ge _ _)).trans (placed_setRn _ _ (regionReg_ge _ _))
  refine hst.trans ?_
  split
  · exact hrep _ _ _ _ _ _ _ _ _
  · exact hrep _ _ _ _ _ _ _ _ _
  · exact hrep _ _ _ _ _ _ _ _ _
  · exact .refl _

theorem placed_release (q : AllocReq) (hq : q.by_ = .firmware) : Placed s (s.release q) := by
  have hfree (t : State) : Placed t (if (s.hentry q.handle).inuse = 0 then t.freeEntry q.handle
      else t.setHentry q.handle { s.hentry q.handle with state := .freeing }) := by
    split
    · exact placed_freeEntry t _
    · exact .of_eq rfl rfl rfl rfl rfl
  simp only [State.release]
  split
  · exact placed_refuse s q 3 hq
  · split
    · exact placed_refuse s q 4 hq
    · exact placed_refuse s q 4 hq
    · exact (hfree s).trans (placed_respond _ q 0 _ hq)

theorem State.release_tiers (q : AllocReq) (hq : q.by_ = .firmware) : (s.release q).tiers = s.tiers := by
  have hrefuse (n : Nat) : (s.refuse q n).tiers = s.tiers := by
    simp only [State.refuse, State.respond, hq]
    split <;> simp
  simp only [State.release]
  split
  · exact hrefuse 3
  · split
    · exact hrefuse 4
    · exact hrefuse 4
    · simp only [State.respond, hq, State.freeEntry]
      split
      · split <;> rfl
      · rfl

theorem placed_areaFree (g : Nat) (x : Nat × Nat) : Placed s (s.areaFree g x) := (placed_release s _ rfl).trans (placed_release _ _ rfl)
theorem freed_areaFree (g : Nat) (x : Nat × Nat) : Freed s (s.areaFree g x) :=
  .of_tiers ((State.release_tiers _ _ rfl).trans (State.release_tiers s _ rfl))

theorem placed_dropCopies (n g a b : Nat) : Placed s (s.dropCopies n g a b) := by
  unfold State.dropCopies
  exact (Placed.each (fun t (z : Nat × TierInfo) => placed_dropTier t z.1) _ _).trans (placed_areaFree _ _ _)
theorem placed_twinH (j : Nat) (w : List (Nat × Nat × Nat × Nat)) : Placed s (s.setSlot j { s.slot j with twinH := w }) :=
  ⟨calm_setSlot s j _ rfl, firm_setSlot s j ⟨_, _, _, rfl⟩⟩

theorem placed_releaseCopies (n : Nat) : Placed s (s.releaseCopies n) := by
  unfold State.releaseCopies
  refine .each (fun t j => ?_) _ s
  exact .trans (placed_twinH t j _) (.each (fun t (y : Nat × Nat × Nat × Nat) => placed_dropCopies t n y.2.1 y.2.2.1 y.2.2.2) _ _)
theorem placed_dropTwins (j : Nat) : Placed s (s.dropTwins j) := by
  unfold State.dropTwins
  refine .trans (placed_twinH s j _) (.each (fun t y => ?_) _ _)
  dsimp only
  split
  · exact placed_twinH t _ _
  · exact placed_dropCopies t _ _ _ _
end
end Sys2Proof.Machine
end

section
namespace Sys2Proof.Machine

/-! ### Releasing and discarding (R137, R303, R476, R609) -/

theorem does_resRelease {s : State} {m : MailboxId} {x : Tensor} (hx : s.tensor (s.arg m.val 0 4) = some x) (h3 : x.state ≠ 3) (h4 : x.state ≠ 4)
    (h : Serving s m.val 0x0306) : Does (.resRelease m) s m.val 0x0306 fun t =>
      (∀ k, t.cell k = s.cell k) ∧ t.tensor (s.arg m.val 0 4) = none ∧ (∀ k, k ≠ s.arg m.val 0 4 → t.tensor k = s.tensor k) ∧
      ∀ u ∈ x.units, x.state ≠ 1 → (s.tier u).tensor = some (s.arg m.val 0 4) → (t.tier u).tensor = none := by
  obtain ⟨n, hn⟩ : ∃ n, n = s.arg m.val 0 4 := ⟨_, rfl⟩
  rw [← hn] at hx ⊢
  obtain ⟨b, hbd⟩ : ∃ b, b = s.begun m.val := ⟨_, rfl⟩
  have hb : Replied m.val s b := hbd ▸ Replied.begun m.val s
  obtain ⟨mine, hmine⟩ : ∃ l, l = x.units.filter fun u => x.state != 1 && (b.tier u).tensor == some n := ⟨_, rfl⟩
  obtain ⟨v, hv⟩ : ∃ v, v = (b.releaseCopies n).each (fun s u => s.dropTier u) mine := ⟨_, rfl⟩
  obtain ⟨w, hw⟩ : ∃ w, w = v.each (fun s (h : Nat × Nat × Nat × Nat) => s.areaFree h.1 (h.2.1, h.2.2.1)) x.handles := ⟨_, rfl⟩
  have hc : (s.begun m.val).command (s.request m.val) ServeIn.none = (good [], w.setTensor n none) := by
    simp only [State.command, h.code]
    rw [← hbd, State.resRelease, show (s.request m.val).u 0 4 = n from hn.symm]
    dsimp only
    rw [hb.tensor, hx, hw, hv, hmine]
    dsimp only
    rw [if_neg (by tauto)]
    rfl
  have hbv : Placed b v := hv ▸ (placed_releaseCopies b n).trans (.each (fun t u => placed_dropTier t u) _ _)
  have hvw : Placed v w := hw ▸ .each (fun t h => placed_areaFree t _ _) _ _
  have hbw := hbv.trans hvw
  have hfree : Freed v w := hw ▸ .each (fun t h => freed_areaFree t _ _) _ _
  have hboxes : (w.setTensor n none).fw.boxes = s.fw.boxes := by
    refine hbw.heard.boxes.trans ?_
    rw [hbd]
    rfl
  have hptr : (w.setTensor n none).fw.ptr = (m.val + 1) % 16 := by
    refine hbw.heard.ptr.trans ?_
    rw [hbd]
    rfl
  refine h.completes rfl (by decide) hc (good_status _) hboxes hptr fun t ht => ⟨fun k => ?_, ?_, fun k hk => ?_, fun u hu h1 hten => ?_⟩
  · exact (ht.mem.cells k).trans ((hbw.cells k).trans (hb.mem.cells k))
  · rw [ht.tensor, State.setTensor_get, if_pos rfl]
  · rw [ht.tensor, State.setTensor_get, if_neg hk, hbw.heard.tensor, hb.tensor]
  · have hmem : u ∈ mine := by
      rw [hmine]
      exact List.mem_filter.mpr ⟨hu, by rw [hb.tier, hten]; simpa using h1⟩
    have hvu : (v.tier u).tensor = none := by
      rw [hv]
      exact State.each_mem (P := fun u t => (t.tier u).tensor = none) (fun s u => s.dropTier_tensor u)
        (fun s z y hy => (freed_dropTier s z).none hy) hmem _
    rw [ht.tier]
    exact hfree.none (s := v) hvu

/-- The registers of a tile and of its tiers are apart. -/
theorem tierReg_ne_tileReg (u t x : Nat) (hx : x < 0x100) : tierReg u ≠ tileReg t x := by
  unfold tierReg blockReg tileReg blockBase
  omega

theorem tierReg_inj {u v : Nat} (h : tierReg u = tierReg v) : u = v := by
  unfold tierReg blockReg blockBase at h
  omega

theorem State.makeFree_tierState (s : State) (u v : Nat) : (s.makeFree u).tierState v =
    if v = u then (if 10000 ≤ (s.tier u).erases then stRetired else stFree) else s.tierState v := by
  rw [State.makeFree_eq]
  by_cases hv : v = u
  · rw [if_pos hv, hv]
    obtain ⟨r, hr⟩ : ∃ r, r = (s.setTierReadEn u false).setRf (tileReg (u / 8) 0xC) (8 + u % 8) (8 + u % 8) 0 := ⟨_, rfl⟩
    rw [← hr]
    have hst : (r.setRn (tierReg u) ((if 10000 ≤ (s.tier u).erases then stRetired else stFree) * 65536)).tierState u =
        if 10000 ≤ (s.tier u).erases then stRetired else stFree := by
      rw [State.tierState, State.rf, State.setRn_rn, if_pos rfl]
      split <;> rfl
    exact hst
  · rw [if_neg hv]
    have hne : tierReg v ≠ tierReg u := fun h => hv (tierReg_inj h)
    have hne' := tierReg_ne_tileReg v (u / 8) 0xC (by decide)
    refine State.rf_congr (t := ((s.setTierReadEn u false).setRf (tileReg (u / 8) 0xC) (8 + u % 8) (8 + u % 8) 0).setRn (tierReg u) _) ?_ _ _
    rw [State.setRn_reg, if_neg hne, State.setRf_reg_ne _ _ _ _ _ _ hne']
    exact State.setRf_reg_ne _ _ _ _ _ _ hne'

/-- Units made free one after another: each is FREE, or RETIRED when worn out. -/
theorem State.each_makeFree (s : State) (l : List Nat) :
    (∀ u, ((s.each (fun s u => s.makeFree u) l).tier u).erases = (s.tier u).erases) ∧
    ∀ u, (s.each (fun s u => s.makeFree u) l).tierState u =
      if u ∈ l then (if 10000 ≤ (s.tier u).erases then stRetired else stFree) else s.tierState u := by
  induction l generalizing s with
  | nil => exact ⟨fun _ => rfl, fun _ => by simp [State.each]⟩
  | cons v l ih =>
    obtain ⟨h1, h2⟩ := ih (s.makeFree v)
    have herases (u : Nat) : ((s.makeFree v).tier u).erases = (s.tier u).erases := by
      rw [State.makeFree_tier]
      split
      · rw [‹u = v›]; rfl
      · rfl
    rw [State.each_cons]
    refine ⟨fun u => (h1 u).trans (herases u), fun u => ?_⟩
    rw [h2, herases, State.makeFree_tierState]
    by_cases hu : u ∈ l
    · rw [if_pos hu, if_pos (List.mem_cons_of_mem _ hu)]
    · rw [if_neg hu]
      by_cases huv : u = v
      · rw [if_pos huv, huv, if_pos List.mem_cons_self]
      · rw [if_neg huv, if_neg (by simp [hu, huv])]

theorem completes_resDiscard {s : State} {m : MailboxId} (h1 : s.arg m.val 0 4 < 131072) (h2 : 1 ≤ s.arg m.val 4 4)
    (h3 : s.arg m.val 0 4 + s.arg m.val 4 4 ≤ 131072) (h : Serving s m.val 0x0307) :
    Completes (.resDiscard m) s fun t => (∀ k, t.cell k = s.cell k) ∧
      let us := ((List.range (s.arg m.val 4 4)).map fun i => s.arg m.val 0 4 + i).filter fun u => s.tierState u == stDormant && !s.underway u
      Answered s t m.val 0x0307 (good (leBytes 4 us.length)) ∧ ∀ u < 131072,
        t.tierState u = if u ∈ us then (if 10000 ≤ (s.tier u).erases then stRetired else stFree) else s.tierState u := by
  have hb := Replied.begun m.val s
  obtain ⟨us, hus⟩ : ∃ us, us = ((List.range (s.arg m.val 4 4)).map fun i => s.arg m.val 0 4 + i).filter fun u => s.tierState u == stDormant && !s.underway u :=
    ⟨_, rfl⟩
  obtain ⟨u, hu⟩ : ∃ u, u = (s.begun m.val).each (fun s u => s.makeFree u) us := ⟨_, rfl⟩
  have hc : (s.begun m.val).command (s.request m.val) ServeIn.none = (good (leBytes 4 us.length), u) := by
    have hf : firstBad [(0, decide (131072 ≤ (s.request m.val).u 0 4)), (4, !inR ((s.request m.val).u 4 4) 1 131072 ||
        decide (131072 < (s.request m.val).u 0 4 + (s.request m.val).u 4 4))] = none := by
      simp only [State.arg] at h1 h2 h3
      rw [firstBad_none_iff]
      simp [inR, h1, h2, h3]
      omega
    have hus' : (((List.range (s.arg m.val 4 4)).map fun i => s.arg m.val 0 4 + i).filter fun u => (s.begun m.val).tierState u == stDormant &&
        !(s.begun m.val).underway u) = us := by
      have hst : (s.begun m.val).tierState = s.tierState := by
        funext u
        exact hb.tierState m.isLt u
      rw [hus, hst]
      rfl
    have hcmd : (s.begun m.val).command (s.request m.val) ServeIn.none = (s.begun m.val).resDiscard (s.request m.val) := by
      simp only [State.command, h.code]
    rw [hcmd, State.resDiscard]
    dsimp only
    rw [checked_good hf, hu, ← hus']
    rfl
  have hp : Placed (s.begun m.val) u := hu ▸ .each (fun t u => placed_makeFree t u) _ _
  obtain ⟨-, hst⟩ := State.each_makeFree (s.begun m.val) us
  rw [← hu] at hst
  obtain ⟨t, ht, hans, hcell, hP⟩ := h.completes (c := .resDiscard m) rfl (by decide) hc (good_status _) hp.heard.boxes hp.heard.ptr
    (P := fun t => (∀ k, t.cell k = s.cell k) ∧ ∀ v < 131072, t.tierState v =
      if v ∈ us then (if 10000 ≤ (s.tier v).erases then stRetired else stFree) else s.tierState v) fun t ht => by
    refine ⟨fun k => (ht.mem.cells k).trans ((hp.cells k).trans (hb.mem.cells k)), fun v _ => ?_⟩
    rw [ht.tierState m.isLt, hst, hb.tierState m.isLt, hb.tier]
  exact ⟨t, ht, hcell, by rw [← hus]; exact ⟨hans, hP⟩⟩
end Sys2Proof.Machine
end

section
namespace Sys2Proof.Machine

/-! ### The end of a job (R240, R302, R322, R474) -/

/-- Operations end and are told of: no memory, no unit and no mailbox changes. -/
structure Quiet (s t : State) : Prop where
  mem   : SameMem s t
  units : SameUnits s t
  boxes : t.fw.boxes = s.fw.boxes
  ptr   : t.fw.ptr = s.fw.ptr

theorem Quiet.refl (s : State) : Quiet s s := ⟨.refl s, .refl s, rfl, rfl⟩
theorem Quiet.trans {s t u : State} (h : Quiet s t) (h' : Quiet t u) : Quiet s u :=
  ⟨h.mem.trans h'.mem, h.units.trans h'.units, h'.boxes.trans h.boxes, h'.ptr.trans h.ptr⟩
theorem Told.quiet {s t : State} (h : Told s t) : Quiet s t := ⟨h.mem, h.units, h.boxes, h.ptr⟩

theorem quiet_opDone (s : State) (oph status detail : Nat) (result : List Byte) : Quiet s (s.opDone oph status detail result) := by
  cases h : s.fw.ops.find? fun x => x.oph = oph ∧ ¬ x.done with
  | none =>
    unfold State.opDone
    rw [h]
    exact .refl s
  | some o =>
    have hset (l : List Op) : Quiet s (s.setOps l) := ⟨.of_store rfl, by constructor <;> rfl, rfl, rfl⟩
    rw [State.opDone_eq s h]
    exact (hset _).trans (told_tellOp _ o oph).quiet

/-- Lines stay with a job that stops, until it is ended. -/
theorem State.stopJob_lines (s : State) (j k : Nat) : ((s.stopJob j).slot k).lines = (s.slot k).lines := by
  have hset (t : State) (i : Nat) (x : Slot) (hx : x.lines = (t.slot i).lines) : ((t.setSlot i x).slot k).lines = (t.slot k).lines := by
    rw [State.setSlot_get]
    split
    · rw [‹k = i›, hx]
    · rfl
  have hfree (t : State) (h : Nat) : ((t.freeEntry h).slot k).lines = (t.slot k).lines := by
    obtain ⟨x, a, w, hs⟩ := (firm_freeEntry t h).slots k
    rw [hs]
  have hdec (t : State) (h : Nat) : ((t.decUse h).slot k).lines = (t.slot k).lines := by
    simp only [State.decUse]
    split
    · exact hfree _ h
    · rfl
  have hdrop (t : State) (b num : Nat) : ((t.dropRun b num).slot k).lines = (t.slot k).lines := by
    unfold State.dropRun State.returnTokens
    split
    · rfl
    · have h (t : State) (l : List Nat) : ((t.each (fun s h => s.decUse h) l).slot k).lines = (t.slot k).lines :=
        State.each_keeps (fun t => (t.slot k).lines) _ (fun t h => hdec t h) l t
      dsimp only
      split
      · exact h _ _
      · exact h _ _
  have hquiet (t : State) (b : Nat) : ((t.quietBlock j b).slot k).lines = (t.slot k).lines :=
    State.each_keeps (fun t => (t.slot k).lines) _ (fun t (r : RTask) => hdrop t b r.num) _ _
  have htrim (t : State) (b : Nat) : ((t.trimBlock b).slot k).lines = (t.slot k).lines :=
    State.each_keeps (fun t => (t.slot k).lines) (fun s req => s.trimTokens b req) (fun _ _ => rfl) _ t
  have hopen (t : State) (o : OpenMb) : ((t.closeTiles j o o.tiles).slot k).lines = (t.slot k).lines := by
    unfold State.closeTiles
    dsimp only
    rw [hset _ _ _ (by rfl)]
    exact State.each_keeps (fun t => (t.slot k).lines) (fun s t => s.setTile t ((s.tile t).closeFence o.epoch)) (fun _ _ => rfl) _ t
  have hpager (t : State) : ((t.dropPager j).slot k).lines = (t.slot k).lines :=
    State.each_keeps (fun t => (t.slot k).lines) (fun s (r : ActRec) => s.dropTokens r.region (pagerReq r.handle)) (fun _ _ => rfl) _ t
  have hq : ((s.quieted j).slot k).lines = (s.slot k).lines := by
    unfold State.quieted State.closeOpen
    rw [hpager, State.each_keeps (fun t => (t.slot k).lines) _ hopen]
    exact (State.each_keeps (fun t => (t.slot k).lines) _ htrim _ _).trans (State.each_keeps (fun t => (t.slot k).lines) _ hquiet _ s)
  have hhandles (t : State) : ((t.freeJobHandles j).slot k).lines = (t.slot k).lines := by
    have howner (s : State) (o : Nat) : ((s.freeOwner j o).slot k).lines = (s.slot k).lines := by
      unfold State.freeOwner
      refine State.each_keeps (fun t => (t.slot k).lines) (fun s (x : Nat × HEntry) => if x.2.job = j ∧ x.2.fw = false ∧ x.2.state ≠ .free then
        let h := mkHandle x.1 o x.2.pool x.2.gen
        if x.2.inuse = 0 then s.freeEntry h else s.setHentry h { x.2 with state := .freeing, zeroing := false } else s) (fun s x => ?_) _ _
      dsimp only
      split
      · split
        · exact hfree _ _
        · rfl
      · rfl
    have h := State.each_keeps (fun t => (t.slot k).lines) (fun s o => s.freeOwner j o) howner (List.range 17) t
    rw [State.freeJobHandles_eq]
    generalize t.each (fun s o => s.freeOwner j o) (List.range 17) = u at h ⊢
    dsimp only
    rw [hset _ _ _ (by rfl)]
    exact h
  have hf : (((s.quieted j).finishTransfers j fun _ => true).slot k).lines = (s.slot k).lines := by
    obtain ⟨l, hl⟩ := (paged_finishTransfers (s.quieted j) j fun _ => true).slots k
    rw [hl]
    exact hq
  rw [State.stopJob_eq]
  generalize (s.quieted j).finishTransfers j (fun _ => true) = v at hf ⊢
  have hv := hhandles v
  generalize v.freeJobHandles j = w at hv ⊢
  exact (hset w j (w.slot j).stopped rfl).trans (hv.trans hf)
end Sys2Proof.Machine
end

section
namespace Sys2Proof.Machine

/-- Registers are written, but for those that K names; memories, firmware, job slots and device state stay. -/
structure Wired (K : Nat → Prop) (s t : State) : Prop where
  kept  : FwKept s t
  slots : t.slots = s.slots
  dev   : t.dev = s.dev
  regs  : ∀ a, K a → t.reg a = s.reg a

namespace Wired
variable {K : Nat → Prop} {s t u : State}
theorem refl (K : Nat → Prop) (s : State) : Wired K s s := ⟨.refl s, rfl, rfl, fun _ _ => rfl⟩
theorem trans (h : Wired K s t) (h' : Wired K t u) : Wired K s u :=
  ⟨h.kept.trans h'.kept, h'.slots.trans h.slots, h'.dev.trans h.dev, fun a ha => (h'.regs a ha).trans (h.regs a ha)⟩
theorem each {α : Type} {f : State → α → State} (l : List α) (h : ∀ s, ∀ x ∈ l, Wired K s (f s x)) (s : State) : Wired K s (s.each f l) :=
  State.each_pred_mem (fun t => Wired K s t) f l (fun t x hx ht => ht.trans (h t x hx)) s (.refl K s)
theorem setRn (s : State) {a : Nat} (v : Nat) (h : ¬ K a) : Wired K s (s.setRn a v) :=
  ⟨.setRn s _ _, rfl, rfl, fun b hb => by
    rw [State.setRn_reg, if_neg]
    rintro rfl
    exact h hb⟩
theorem setRf (s : State) {a : Nat} (hi lo v : Nat) (h : ¬ K a) : Wired K s (s.setRf a hi lo v) := setRn s _ h
theorem ite {c : Prop} [Decidable c] {a b : State} (ha : Wired K s a) (hb : Wired K s b) : Wired K s (if c then a else b) := by
  split
  · exact ha
  · exact hb
theorem mono {L : Nat → Prop} (h : Wired K s t) (hL : ∀ a, L a → K a) : Wired L s t := ⟨h.kept, h.slots, h.dev, fun a ha => h.regs a (hL a ha)⟩
theorem slot (h : Wired K s t) (k : Nat) : t.slot k = s.slot k := by rw [State.slot, h.slots]; rfl
end Wired

/-! ### What admission assigned is given back (R240, R290) -/

/-- A register of a clearing line. -/
def isLineReg (a : Nat) : Prop := ∃ l < 32, a = clReg l 0

theorem not_isLineReg_of_lt {a : Nat} (h : a < 0x20100) : ¬ isLineReg a := by
  rintro ⟨l, -, rfl⟩
  unfold clReg at h
  omega
theorem not_isLineReg_of_ge {a : Nat} (h : 0x20200 ≤ a) : ¬ isLineReg a := by
  rintro ⟨l, hl, rfl⟩
  unfold clReg at h
  omega
theorem not_isLineReg_block (b x : Nat) : ¬ isLineReg (blockReg b x) := not_isLineReg_of_ge (by have := blockReg_ge b x; omega)

/-- A job's clearing lines are free. -/
def State.freeLines (s : State) (l : List Nat) : State := s.each (fun s l => s.setRf (clReg l 0) 9 0 0) l
/-- Its counters and pairs are free. -/
def State.freeBlocks (s : State) (sl : Slot) : State :=
  s.each (fun s b =>
    let s := s.each (fun s c => s.setRf (ccCtl b c) 28 22 0) (bitsOf 64 sl.counters)
    if bit sl.flags 1 then (s.setRf (blockReg b 0x800) 0 0 0).setRf (blockReg (b + 1) 0x800) 0 0 0 else s) (bitsOf 256 sl.blocks)
/-- Its host windows are free. -/
def State.freeWindows (s : State) (j : Nat) : State :=
  s.each (fun s w =>
    if (s.rbit (hwinReg w 0xC) 0 ∨ s.rbit (hwinReg w 0xC) 16) ∧ s.rf (hwinReg w 0xC) 8 3 = j then (s.setRf (hwinReg w 0xC) 0 0 0).setRf (hwinReg w 0xC) 16 16 0 else s) (List.range 16)
/-- Its gradient windows are free. -/
def State.freeGradWindows (s : State) (j : Nat) : State :=
  s.each (fun s e =>
    if s.rbit (zgwReg e 4) 0 ∧ s.rf (zgwReg e 4) 11 6 = j then (s.setRf (zgwReg e 4) 0 0 0).setRn (zgwReg e 8) 0 else s) (List.range 4096)

section
variable (s : State)

theorem State.unassign_eq (j : Nat) : s.unassign j =
    ((((s.freeLines (bitsOf 32 (s.slot j).lines)).freeBlocks (s.slot j)).freeWindows j).freeGradWindows j).setRf (numReg j 4) 16 16 0 := rfl

theorem wired_freeLines (l : List Nat) : Wired (fun _ => False) s (s.freeLines l) := .each _ (fun s _ _ => .setRf s _ _ _ id) s

theorem wired_freeBlocks (sl : Slot) : Wired isLineReg s (s.freeBlocks sl) := by
  have hctr (t : State) (b : Nat) : Wired isLineReg t (t.each (fun s c => s.setRf (ccCtl b c) 28 22 0) (bitsOf 64 sl.counters)) :=
    .each _ (fun s _ _ => .setRf s _ _ _ (not_isLineReg_block _ _)) t
  refine .each _ (fun t b _ => ?_) s
  refine (hctr t b).trans (.ite ?_ (.refl _ _))
  exact (Wired.setRf _ _ _ _ (not_isLineReg_block _ _)).trans (.setRf _ _ _ _ (not_isLineReg_block _ _))

theorem wired_freeWindows (j : Nat) : Wired isLineReg s (s.freeWindows j) := by
  refine .each _ (fun t w hw => .ite ?_ (.refl _ _)) s
  have hlt : hwinReg w 0xC < 0x20100 := by have := hwinReg_lt (List.mem_range.mp hw) (x := 0xC) (by decide); omega
  exact (Wired.setRf _ _ _ _ (not_isLineReg_of_lt hlt)).trans (.setRf _ _ _ _ (not_isLineReg_of_lt hlt))

theorem wired_freeGradWindows (j : Nat) : Wired isLineReg s (s.freeGradWindows j) := by
  refine .each _ (fun t e he => .ite ?_ (.refl _ _)) s
  have hlt (x : Nat) (hx : x < 16) : zgwReg e x < 0x20100 := by
    have := List.mem_range.mp he
    unfold zgwReg
    omega
  exact (Wired.setRf _ _ _ _ (not_isLineReg_of_lt (hlt 4 (by decide)))).trans (.setRn _ _ (not_isLineReg_of_lt (hlt 8 (by decide))))

theorem wired_unassign {j : Nat} : Wired (fun _ => False) s (s.unassign j) := by
  rw [State.unassign_eq]
  refine .trans ?_ (.setRf _ _ _ _ id)
  exact (wired_freeLines s _).trans (.mono (.trans (wired_freeBlocks _ _) (.trans (wired_freeWindows _ _) (wired_freeGradWindows _ _))) fun _ h => h.elim)

theorem State.unassign_off (j : Nat) : (s.unassign j).rbit (numReg j 4) 16 = false := by
  rw [State.unassign_eq, State.setRf_rbit_same _ _ _ (by decide)]
  rfl

theorem State.unassign_line {j l : Nat} (hj : j < 64) (hl : l ∈ bitsOf 32 (s.slot j).lines) : (s.unassign j).rf (clReg l 0) 9 0 = 0 := by
  have hl32 : l < 32 := List.mem_range.mp (List.mem_filter.mp hl).1
  have hfree : (s.freeLines (bitsOf 32 (s.slot j).lines)).rf (clReg l 0) 9 0 = 0 := by
    refine State.each_mem (P := fun l t => t.rf (clReg l 0) 9 0 = 0) (fun t l => ?_) (fun t x y hy => ?_) hl s
    · exact State.setRf_rf_same _ _ _ _ _ (by decide) (by decide)
    · by_cases hxy : y = x
      · rw [hxy]
        exact State.setRf_rf_same _ _ _ _ _ (by decide) (by decide)
      · rw [State.setRf_rf_ne _ _ _ _ _ _ _ _ (by unfold clReg; omega), hy]
  have hlater := (wired_freeBlocks (s.freeLines (bitsOf 32 (s.slot j).lines)) (s.slot j)).trans
    ((wired_freeWindows _ j).trans ((wired_freeGradWindows _ j).trans
      (.setRf _ 16 16 0 (a := numReg j 4) (not_isLineReg_of_lt (by unfold numReg; omega)))))
  rw [State.unassign_eq, State.rf_congr (hlater.regs _ ⟨l, hl32, rfl⟩), hfree]
end

theorem Firm.lines {s t : State} (h : Firm s t) (k : Nat) : (t.slot k).lines = (s.slot k).lines := by
  obtain ⟨x, a, w, hs⟩ := h.slots k
  rw [hs]

/-- A job's slot and norms are cleared. -/
def State.clearJob (s : State) (j : Nat) : State := (s.setSlot j Slot.init).clearNorms j

section
variable (s : State) (j : Nat)
theorem State.clearJob_slot (k : Nat) : (s.clearJob j).slot k = if k = j then Slot.init else s.slot k := State.setSlot_get s j _ k
theorem State.clearJob_norm {k : Nat} (h : k / 4096 % 64 = j) : (s.clearJob j).norm k = 0 := by
  rw [State.clearJob, State.clearNorms_norm, if_pos h]
theorem State.clearJob_reg (a : Nat) : (s.clearJob j).reg a = s.reg a := rfl
theorem State.clearJob_fw : (s.clearJob j).fw = s.fw := rfl
theorem State.clearJob_dev : (s.clearJob j).dev = s.dev := rfl
theorem State.clearJob_cell (k : Nat) : (s.clearJob j).cell k = s.cell k := rfl
end

/-- A device without jobs is ready again. -/
def State.readied (s : State) : State := if s.dev = .running ∧ (List.range 64).all (fun i => !s.admitted i) then s.setDev .ready else s

theorem fwKept_readied (s : State) : FwKept s s.readied := by
  unfold State.readied
  split
  · exact ⟨sameMem_setDev s _, State.setDev_fw s _⟩
  · exact .refl s

theorem State.readied_slots (s : State) : s.readied.slots = s.slots := by
  unfold State.readied
  split
  · exact State.setDev_slots s _
  · rfl

theorem State.readied_store (s : State) : s.readied.store = s.store := by
  unfold State.readied
  split
  · exact State.setDev_store s _
  · rfl

theorem does_jobEnd {s : State} {m : MailboxId} (hj : s.arg m.val 0 1 < 64) (ha : s.admitted (s.arg m.val 0 1) = true)
    (h : Serving s m.val 0x040A) : Does (.jobEnd m) s m.val 0x040A fun t =>
      (∀ k, t.cell k = s.cell k) ∧ t.slot (s.arg m.val 0 1) = Slot.init ∧ t.rbit (numReg (s.arg m.val 0 1) 4) 16 = false ∧
      (∀ l ∈ bitsOf 32 (s.slot (s.arg m.val 0 1)).lines, t.rf (clReg l 0) 9 0 = 0) ∧
      (∀ k, k / 4096 % 64 = s.arg m.val 0 1 → t.norm k = 0) ∧
      (s.dev = .running → (∀ i < 64, i ≠ s.arg m.val 0 1 → s.admitted i = false) → t.dev = .ready) := by
  obtain ⟨j, hjd⟩ : ∃ j, j = s.arg m.val 0 1 := ⟨_, rfl⟩
  have hj64 : j < 64 := hjd ▸ hj
  obtain ⟨b, hbd⟩ : ∃ b, b = s.begun m.val := ⟨_, rfl⟩
  obtain ⟨o, ho⟩ : ∃ o, o = b.each (fun s (o : Op) => s.opDone o.oph stWrongState 0 []) (b.opsOf [0x0405, 0x0C04] fun a => a == j) := ⟨_, rfl⟩
  obtain ⟨v, hv⟩ : ∃ v, v = (o.stopJob j).dropTwins j := ⟨_, rfl⟩
  obtain ⟨w, hw⟩ : ∃ w, w = (v.unassign j).clearJob j := ⟨_, rfl⟩
  have hc : (s.begun m.val).command (s.request m.val) ServeIn.none = (good [], w.readied) := by
    have hcmd : (s.begun m.val).command (s.request m.val) ServeIn.none = (s.begun m.val).jobEnd (s.request m.val) := by
      simp only [State.command, h.code]
    rw [hcmd, State.jobEnd, State.onSlot_eq hj ha, ← hjd, hw, hv, ho, hbd]
    rfl
  have hb : Replied m.val s b := hbd ▸ Replied.begun m.val s
  have hbo : Quiet b o := ho ▸ State.each_pred (fun t => Quiet b t) _ (fun t o ht => ht.trans (quiet_opDone t _ _ _ _)) _ b (.refl b)
  have hstop := halted_stopJob o j
  have htwin := placed_dropTwins (o.stopJob j) j
  rw [← hv] at htwin
  have hun := wired_unassign v (j := j)
  have hso (k : Nat) : o.slot k = s.slot k := by
    rw [State.slot, hbo.units.slots, ← State.slot, hb.slot]
  have hvstate (k : Nat) : (v.slot k).state = if k = j then .stopped else (s.slot k).state := by rw [htwin.jobs, hstop.jobs, hso]
  have hvlines : (v.slot j).lines = (s.slot j).lines := by rw [htwin.lines, State.stopJob_lines, hso]
  have hwslot (k : Nat) : w.slot k = if k = j then Slot.init else v.slot k := by rw [hw, State.clearJob_slot, hun.slot]
  have hwreg (a : Nat) : w.reg a = (v.unassign j).reg a := by rw [hw, State.clearJob_reg]
  have hwfw : w.fw = v.fw := by rw [hw, State.clearJob_fw, hun.kept.2]
  have hdev : w.dev = s.dev := by
    rw [hw, State.clearJob_dev, hun.dev, htwin.dev, hstop.dev, hbo.units.dev, hb.units.dev]
  have hcell (k : Nat) : w.cell k = s.cell k := by
    rw [hw, State.clearJob_cell, hun.kept.1.cells, htwin.cells, hstop.cells, hbo.mem.cells, hb.mem.cells]
  have hheard : Heard o w := (heard_stopJob o j).trans (htwin.heard.trans (.of_eq hwfw))
  have hk := fwKept_readied w
  have hboxes : w.readied.fw.boxes = s.fw.boxes := by
    rw [hk.2, hheard.boxes, hbo.boxes, hbd]
    rfl
  have hptr : w.readied.fw.ptr = (m.val + 1) % 16 := by
    rw [hk.2, hheard.ptr, hbo.ptr, hbd]
    rfl
  have hreg (t : State) (ht : Replied m.val w.readied t) (a : Nat) (ha : a < 0x78000) : t.reg a = (v.unassign j).reg a := by
    rw [ht.low ha, ← hwreg]
    exact State.reg_of_store w.readied_store a
  rw [← hjd]
  refine h.completes rfl (by decide) hc (good_status _) hboxes hptr fun t ht => ⟨fun k => ?_, ?_, ?_, fun l hl => ?_, fun k hk' => ?_, fun hrun hall => ?_⟩
  · rw [ht.mem.cells, hk.1.cells, hcell]
  · rw [ht.slot, State.slot, w.readied_slots, ← State.slot, hwslot, if_pos rfl]
  · rw [State.rbit_congr (hreg t ht _ (by unfold numReg; omega))]
    exact v.unassign_off j
  · have hl32 : l < 32 := List.mem_range.mp (List.mem_filter.mp hl).1
    rw [State.rf_congr (hreg t ht _ (by unfold clReg; omega))]
    exact v.unassign_line hj64 (hvlines ▸ hl)
  · rw [ht.mem.norms, hk.1.norms, hw, State.clearJob_norm _ _ hk']
  · have hfree : (List.range 64).all (fun i => !w.admitted i) = true := by
      rw [List.all_eq_true]
      intro i hi
      rw [State.admitted, hwslot]
      by_cases hij : i = j
      · rw [if_pos hij]; rfl
      · rw [if_neg hij, hvstate, if_neg hij]
        have hno := hall i (List.mem_range.mp hi) hij
        rw [State.admitted] at hno
        rw [hno]
        rfl
    have hready : w.readied.dev = .ready := by
      rw [State.readied, if_pos ⟨hdev.trans hrun, hfree⟩, State.setDev_dev]
    rw [ht.units.dev, hready]
end Sys2Proof.Machine
end

section
namespace Sys2Proof.Machine

/-! ### Loads that start (R134, R135) -/

/-- No cell changes, and firmware but hears reports. -/
structure Worked (s t : State) : Prop where
  cells : ∀ k, t.cell k = s.cell k
  heard : Heard s t

namespace Worked
theorem refl (s : State) : Worked s s := ⟨fun _ => rfl, .refl s⟩
theorem trans {s t u : State} (h : Worked s t) (h' : Worked t u) : Worked s u := ⟨fun k => (h'.cells k).trans (h.cells k), h.heard.trans h'.heard⟩
theorem each {α : Type} {f : State → α → State} (h : ∀ s x, Worked s (f s x)) (l : List α) (s : State) : Worked s (s.each f l) :=
  State.each_pred (fun t => Worked s t) f (fun t x ht => ht.trans (h t x)) l s (.refl s)
theorem of_eq {s t : State} (hst : t.store.cells = s.store.cells) (hf : t.fw = s.fw) : Worked s t :=
  ⟨fun k => by rw [State.cell, hst]; rfl, .of_eq hf⟩
theorem ite {s a b : State} {c : Prop} [Decidable c] (ha : Worked s a) (hb : Worked s b) : Worked s (if c then a else b) := by
  split
  · exact ha
  · exact hb
end Worked

theorem Placed.worked {s t : State} (h : Placed s t) : Worked s t := ⟨h.cells, h.heard⟩

/-- Tiles stay, and tiers show what they showed, but for those that begin to load. -/
structure Loading (s t : State) : Prop where
  worked : Worked s t
  shows  : ∀ v, t.tierState v = s.tierState v ∨ t.tierState v = stLoading

theorem Loading.refl (s : State) : Loading s s := ⟨.refl s, fun _ => .inl rfl⟩
theorem Loading.trans {s t u : State} (h : Loading s t) (h' : Loading t u) : Loading s u := by
  refine ⟨h.worked.trans h'.worked, fun v => ?_⟩
  obtain h1 | h1 := h'.shows v
  · rw [h1]; exact h.shows v
  · exact .inr h1

/-- A unit's tier is being loaded. -/
def State.loads (s : State) (v : Nat) : Prop := ∃ q ∈ (s.tile (v / 8)).procs, q.kind = .load ∧ q.tier = v % 8 ∧
  (q.stage = .erasing ∨ q.stage = .writing ∧ s.tierState v = stLoading)

section
variable (s : State)

theorem worked_setTierState (u v : Nat) : Worked s (s.setTierState u v) := .of_eq rfl rfl

theorem State.setTierState_get (u v w : Nat) (hv : v < 8) : (s.setTierState u v).tierState w = if w = u then v else s.tierState w := by
  by_cases h : w = u
  · rw [if_pos h, h]
    exact (State.setRf_rf_same _ _ _ _ _ (by decide) (by decide)).trans (Nat.mod_eq_of_lt hv)
  · rw [if_neg h]
    exact State.setRf_rf_ne _ _ _ _ _ _ _ _ fun he => h (tierReg_inj he)

/-- A report leaves what tiers show. -/
theorem State.report_tierState (r : Report) (w : Nat) : (s.report r).tierState w = s.tierState w :=
  State.rf_congr (s.report_reg_of_ne r fun _ => blockReg_ne_regionReg (by omega) (by decide) (by omega)) _ _

theorem State.jWrite_tierState (r : JRec) (w : Nat) : (s.jWrite r).tierState w = s.tierState w := by
  have hbump : (s.bump 0x41000 31 0 1).tierState w = s.tierState w := by
    refine State.rf_congr (State.bump_reg_ne _ _ _ _ _ _ ?_) _ _
    have := blockReg_ge (w / 512) (0x3000 + w % 512 * 4)
    rw [tierReg]
    omega
  unfold State.jWrite
  split
  · simp only [State.jWithheld]
    split
    · exact hbump
    · exact (State.report_tierState _ _ w).trans hbump
  · rfl

theorem worked_jWrite (r : JRec) : Worked s (s.jWrite r) := ⟨fun _ => by simp, (firm_jWrite s r).fw⟩
theorem worked_jErase (u n : Nat) (d : Bool) : Worked s (s.jErase u n d) := worked_jWrite s _
theorem worked_raiseFull (x : Journal) (c k u : Nat) : Worked s ((s.setJrn x).raise c k u) :=
  .trans (t := s.setJrn x) (.of_eq rfl rfl) (placed_raiseJ _ c k u 255 0).worked
theorem worked_raise (c k u : Nat) : Worked s (s.raise c k u) := (placed_raiseJ s c k u 255 0).worked

/-- Starting an erase counts it, journals it and may warn. -/
theorem State.commitErase_keeps (u : Nat) : Worked s (s.commitErase u) ∧ (s.commitErase u).tiles = s.tiles ∧
    ∀ w, (s.commitErase u).tierState w = s.tierState w := by
  obtain ⟨t, ht⟩ : ∃ t, t = (s.setTier u { s.tier u with erases := (s.tier u).erases + 1, eraseOpen := true, lastErase := true }).jErase u ((s.tier u).erases + 1) false :=
    ⟨_, rfl⟩
  have hw : Worked s t := ht ▸ (placed_setTier s u _).worked.trans (worked_jErase _ _ _ _)
  have htiles : t.tiles = s.tiles := by rw [ht]; exact State.jWrite_tiles _ _
  have hshow (w : Nat) : t.tierState w = s.tierState w := by rw [ht]; exact State.jWrite_tierState _ _ w
  unfold State.commitErase
  dsimp only
  rw [← ht]
  split
  · exact ⟨hw.trans (worked_raiseFull _ _ _ _ _), by simpa using htiles,
      fun w => (State.report_tierState _ _ w).trans (hshow w)⟩
  · exact ⟨hw, htiles, hshow⟩

/-- A load's write begins: its tier shows LOADING, or is erased first. -/
theorem State.beginWrite_load (u : Nat) : ∃ q t, s.beginWrite (u / 8) (newProc .load (u % 8) .writing) = (q, t) ∧ q.kind = .load ∧ q.tier = u % 8 ∧
    Loading s t ∧ t.tiles = s.tiles ∧ (q.stage = .erasing ∨ q.stage = .writing ∧ t.tierState u = stLoading) := by
  have hu : (newProc .load (u % 8) .writing).eraseUnit (u / 8) = u := by
    show u / 8 * 8 + u % 8 = u
    omega
  obtain ⟨hc, htiles, hshow⟩ := s.commitErase_keeps u
  have hcases : s.beginWrite (u / 8) (newProc .load (u % 8) .writing) =
        ({ newProc .load (u % 8) .writing with stage := .writing, row := 0 }, s.showLoading (u / 8) (newProc .load (u % 8) .writing)) ∨
      s.beginWrite (u / 8) (newProc .load (u % 8) .writing) =
        ({ newProc .load (u % 8) .writing with stage := .erasing, row := 0, pulses := 0, extra := 0, verify := false }, s.commitErase u) := by
    rw [State.beginWrite, hu]
    exact ite_eq_or_eq _ _ _
  have hload : s.showLoading (u / 8) (newProc .load (u % 8) .writing) = s.setTierState u stLoading := by
    rw [State.showLoading, hu]
    rfl
  obtain he | he := hcases
  · rw [hload] at he
    refine ⟨_, _, he, rfl, rfl, ⟨worked_setTierState s _ _, fun v => ?_⟩, rfl, .inr ⟨rfl, ?_⟩⟩
    · rw [State.setTierState_get _ _ _ _ (by decide)]
      split
      · exact .inr rfl
      · exact .inl rfl
    · rw [State.setTierState_get _ _ _ _ (by decide), if_pos rfl]
  · exact ⟨_, _, he, rfl, rfl, ⟨hc, fun v => .inl (hshow v)⟩, htiles, .inl rfl⟩

/-- A load that starts joins its tile's procedures. -/
theorem State.startLoad_spec (u : Nat) : Loading s (s.startLoad u) ∧ (s.startLoad u).loads u ∧ ∀ w, s.loads w → (s.startLoad u).loads w := by
  obtain ⟨q, t, hbegin, hkind, htier, hl, htiles, hstage⟩ := s.beginWrite_load u
  have he : s.startLoad u = t.setProcs (u / 8) ((t.tile (u / 8)).procs ++ [q]) := by
    unfold State.startLoad
    dsimp only
    rw [hbegin]
  have htile (k : Nat) : t.tile k = s.tile k := by rw [State.tile, htiles]; rfl
  have hget (k : Nat) : ((s.startLoad u).tile k).procs = if k = u / 8 then (s.tile k).procs ++ [q] else (s.tile k).procs := by
    rw [he, State.setProcs, State.setTile_get]
    split
    · rw [‹k = u / 8›, htile]
    · rw [htile]
  have hstate (w : Nat) : (s.startLoad u).tierState w = t.tierState w := by rw [he]; rfl
  refine ⟨⟨hl.worked.trans (he ▸ .of_eq rfl rfl), fun v => (hstate v).symm ▸ hl.shows v⟩, ?_, ?_⟩
  · refine ⟨q, ?_, hkind, htier, ?_⟩
    · rw [hget, if_pos rfl]
      exact List.mem_append_right _ (List.mem_singleton_self q)
    · rw [hstate]
      exact hstage
  · rintro w ⟨p, hp, h1, h2, h3⟩
    refine ⟨p, ?_, h1, h2, h3.imp_right fun ⟨h4, h5⟩ => ⟨h4, ?_⟩⟩
    · rw [hget]
      split
      · exact List.mem_append_left _ hp
      · exact hp
    · rw [hstate]
      obtain h | h := hl.shows w
      · rw [h, h5]
      · exact h
end

/-! ### Residency operations (R134, R136, R475) -/

/-- A tier that is free, dormant or loading holds no piece. -/
theorem State.not_holdsPiece {s : State} {n v : Nat} (h : s.tierState v = stFree ∨ s.tierState v = stDormant ∨ s.tierState v = stLoading) :
    s.holdsPiece n v = false := by
  rw [State.holdsPiece]
  obtain h | h | h := h <;> rw [h] <;> rfl

/-- What a residency operation starts on a unit. -/
def State.startUnit (s : State) (n : Nat) (adopt ds : Bool) (v : Nat) : State :=
  if s.holdsPiece n v then s
  else if adopt && s.tierState v == stDormant then
    (if ds && s.tierState (twinUnit v) != stDormant then s.adoptAlone v else s.startAdopt v)
  else s.startLoad v

/-- Units started in turn, none of them for adoption: each that was free or dormant is being loaded. -/
theorem State.each_startUnit (s : State) (n : Nat) (adopt ds : Bool) (l : List Nat) (hl : adopt = true → ∀ v ∈ l, s.tierState v ≠ stDormant)
    (t : State) (ht : Loading s t) :
    Loading s (t.each (fun s v => s.startUnit n adopt ds v) l) ∧ (∀ w, t.loads w → (t.each (fun s v => s.startUnit n adopt ds v) l).loads w) ∧
    ∀ v ∈ l, s.tierState v = stFree ∨ s.tierState v = stDormant → (t.each (fun s v => s.startUnit n adopt ds v) l).loads v := by
  induction l generalizing t with
  | nil => exact ⟨ht, fun _ h => h, fun _ h => by cases h⟩
  | cons v l ih =>
    have hstep : (t.startUnit n adopt ds v = t ∧ t.holdsPiece n v = true) ∨ t.startUnit n adopt ds v = t.startLoad v := by
      have hnot : ¬ (adopt && t.tierState v == stDormant) = true := by
        intro h
        obtain ⟨h1, h2⟩ := Bool.and_eq_true_iff.mp h
        have h3 := hl h1 v List.mem_cons_self
        obtain h4 | h4 := ht.shows v
        · exact h3 (h4.symm.trans (beq_iff_eq.mp h2))
        · rw [h4] at h2
          exact absurd h2 (by decide)
      unfold State.startUnit
      split
      · exact .inl ⟨rfl, ‹_›⟩
      · exact .inr rfl
    have hload := t.startLoad_spec v
    have hl' : adopt = true → ∀ v ∈ l, s.tierState v ≠ stDormant := fun ha w hw => hl ha w (List.mem_cons_of_mem _ hw)
    rw [State.each_cons]
    obtain ⟨hs, hh⟩ | hs := hstep
    · rw [hs]
      obtain ⟨h1, h2, h3⟩ := ih hl' t ht
      refine ⟨h1, h2, fun w hw hst => ?_⟩
      obtain rfl | hw := List.mem_cons.mp hw
      · have hno : t.holdsPiece n w = false := by
          refine State.not_holdsPiece ?_
          obtain h4 | h4 := ht.shows w
          · rw [h4]; tauto
          · exact .inr (.inr h4)
        rw [hno] at hh
        cases hh
      · exact h3 w hw hst
    · rw [hs]
      obtain ⟨hl1, hl2, hl3⟩ := hload
      obtain ⟨h1, h2, h3⟩ := ih hl' _ (ht.trans hl1)
      refine ⟨h1, fun w hw => h2 w (hl3 w hw), fun w hw hst => ?_⟩
      obtain rfl | hw := List.mem_cons.mp hw
      · exact h2 _ hl2
      · exact h3 w hw hst
end Sys2Proof.Machine
end

section
namespace Sys2Proof.Machine

section
variable (s : State)

theorem worked_setProcs (t : Nat) (l : List TierProc) : Worked s (s.setProcs t l) := .of_eq rfl rfl

theorem worked_beginWrite (t : Nat) (p : TierProc) : Worked s (s.beginWrite t p).2 := by
  have hshow : Worked s (s.showLoading t p) := by
    unfold State.showLoading
    split
    · exact .refl s
    · exact worked_setTierState s _ _
  rw [State.beginWrite, apply_ite Prod.snd]
  exact .ite hshow (s.commitErase_keeps _).1

theorem worked_pushCoppice (u : Nat) (free : Option Nat) (skip : Bool) : Worked s (s.pushCoppice u free skip) := by
  cases free with
  | some k => 
    simp only [State.pushCoppice]
    exact .ite ((worked_beginWrite s _ _).trans (worked_setProcs _ _ _)) (worked_setProcs s _ _)
  | none =>
    have hbase : Worked s (((s.setHold u true).setTierState u stRenewing).writeResidency u) := .of_eq rfl rfl
    simp only [State.pushCoppice]
    generalize ((s.setHold u true).setTierState u stRenewing).writeResidency u = v at hbase ⊢
    exact .ite (hbase.trans ((placed_setTierReadEn v u false).worked.trans ((worked_beginWrite _ _ _).trans (worked_setProcs _ _ _))))
      (hbase.trans (worked_setProcs _ _ _))

theorem worked_startCoppice (u : Nat) (skip inPlace : Bool) : Worked s (s.startCoppice u skip inPlace) := by
  simp only [State.startCoppice]
  generalize (if inPlace then none else s.freeTier (evenUnit (s.tier u).dslice u / 8) (s.tier u).dslice) = free
  split
  · exact .refl s
  · split
    · exact worked_raise s _ _ _
    · exact .ite ((worked_pushCoppice s _ _ _).trans (worked_pushCoppice _ _ _ _)) (worked_pushCoppice s _ _ _)

theorem worked_startUnit (n : Nat) (adopt ds : Bool) (v : Nat) : Worked s (s.startUnit n adopt ds v) := by
  have hadopt : Worked s (s.startAdopt v) := .ite (worked_startCoppice s _ _ _) (worked_setProcs s _ _)
  exact .ite (.refl s) (.ite (.ite (worked_pushCoppice s _ _ _) hadopt) (s.startLoad_spec v).1.worked)

/-- Units that are reserved again show what they showed. -/
theorem State.reReserve_keeps (n : Nat) (x : Tensor) : (s.reReserve n x).store = s.store ∧ (s.reReserve n x).fw = s.fw := by
  have hres (t : State) (i : Nat) (ds : Bool) (u : Nat) (p : Nat × Nat × Int) (a b : Nat) :
      (t.reserve n i ds u p a b).store = t.store ∧ (t.reserve n i ds u p a b).fw = t.fw := by
    unfold State.reserve
    refine State.each_pred (fun v => v.store = t.store ∧ v.fw = t.fw) _ (fun v w hv => ?_) _ t ⟨rfl, rfl⟩
    exact hv
  unfold State.reReserve
  refine State.each_pred (fun v => v.store = s.store ∧ v.fw = s.fw) _ (fun t g ht => ?_) _ s ⟨rfl, rfl⟩
  split
  · exact ht
  · refine State.each_pred (fun v => v.store = s.store ∧ v.fw = s.fw) _ (fun v y hv => ?_) _ t ht
    dsimp only
    split
    · exact hv
    · exact ⟨(hres v _ _ _ _ _ _).1.trans hv.1, (hres v _ _ _ _ _ _).2.trans hv.2⟩

theorem loading_reReserve (n : Nat) (x : Tensor) : Loading s (s.reReserve n x) := by
  obtain ⟨h1, h2⟩ := s.reReserve_keeps n x
  exact ⟨⟨State.cell_of_store h1, .of_eq h2⟩, fun v => .inl (State.rf_congr (State.reg_of_store h1 _) _ _)⟩

/-- A unit that may take a piece is free or dormant. -/
theorem State.takes_state {n i : Nat} {ds : Bool} {u : Nat} (h : s.takes n i ds u = true) : s.tierState u = stFree ∨ s.tierState u = stDormant := by
  rw [State.takes, Bool.or_eq_true] at h
  obtain h | h := h
  · exact .inl (beq_iff_eq.mp (Bool.and_eq_true_iff.mp h).1)
  · simp only [Bool.and_eq_true, beq_iff_eq] at h
    exact .inr h.1.1.1
end

theorem Tensor.mem_units {x : Tensor} {v : Nat} : v ∈ x.units ↔ ∃ y ∈ x.pieces, v ∈ pieceUnits (x.layout == 1) y.2.1 := by
  simp [Tensor.units]

/-- A residency operation starts, and every unit that holds no piece is being loaded, unless dormant ones are to be adopted. -/
theorem State.resStart_spec {b : State} {q : Req} {n : Nat} {x : Tensor} (hn : q.u 0 4 = n) (hx : b.tensor n = some x)
    (hst : x.state = 2 ∨ x.state = 6) (hroom : b.opRoom = true)
    (hp : ∀ y ∈ x.pieces, ∀ v ∈ pieceUnits (x.layout == 1) y.2.1, b.takes n y.1 (x.layout == 1) v = true ∨ b.holdsPiece n v = true) (adopt : Bool) :
    ∃ u, b.resStart q adopt = (accepted b.fw.nextOph, u) ∧
      Worked ((b.withOp q n).setTensor n (some { x with state := if adopt then 4 else 3 })) u ∧
      ((adopt = true → ∀ v ∈ x.units, b.tierState v ≠ stDormant) → ∀ v ∈ x.units, b.holdsPiece n v = false → u.loads v) := by
  obtain ⟨w, hw⟩ : ∃ w, w = (b.withOp q n).setTensor n (some { x with state := if adopt then 4 else 3 }) := ⟨_, rfl⟩
  obtain ⟨todo, htodo⟩ : ∃ l, l = x.pieces.filter fun y => !(pieceUnits (x.layout == 1) y.2.1).all (b.holdsPiece n) := ⟨_, rfl⟩
  obtain ⟨l, hl⟩ : ∃ l, l = (todo.map fun y => pieceUnits (x.layout == 1) y.2.1).flatten := ⟨_, rfl⟩
  obtain ⟨u, hu⟩ : ∃ u, u = (w.reReserve n x).each (fun s v => s.startUnit n adopt (x.layout == 1) v) l := ⟨_, rfl⟩
  have hcmd : b.resStart q adopt = (accepted b.fw.nextOph, u) := by
    unfold State.resStart
    rw [hn]
    dsimp only
    rw [hx]
    dsimp only
    rw [if_neg (by omega), if_neg (by omega)]
    split
    · rename_i i y hfind
      have hy := (List.mem_filter.mp (List.mem_of_find?_eq_some hfind)).1
      have hbad := List.find?_some hfind
      simp only [Bool.not_eq_true', List.all_eq_false, Bool.or_eq_true] at hbad
      obtain ⟨v, hv, hno⟩ := hbad
      exact absurd (hp _ hy v hv) hno
    · rw [State.startOp_eq hroom, hu, hl, htodo, hw]
      rfl
  have hmem (v : Nat) (hv : v ∈ l) : v ∈ x.units := by
    rw [hl] at hv
    obtain ⟨us, hus, hvu⟩ := List.mem_flatten.mp hv
    obtain ⟨y, hy, rfl⟩ := List.mem_map.mp hus
    rw [htodo] at hy
    exact Tensor.mem_units.mpr ⟨y, (List.mem_filter.mp hy).1, hvu⟩
  have hload := loading_reReserve w n x
  have hbw (v : Nat) : w.tierState v = b.tierState v := by rw [hw]; rfl
  refine ⟨u, hcmd, ?_, fun had v hv hno => ?_⟩
  · rw [hu, ← hw]
    exact hload.worked.trans (.each (fun s v => worked_startUnit s n adopt _ v) _ _)
  · obtain ⟨y, hy, hvy⟩ := Tensor.mem_units.mp hv
    have hvl : v ∈ l := by
      rw [hl, htodo]
      refine List.mem_flatten.mpr ⟨_, List.mem_map.mpr ⟨y, List.mem_filter.mpr ⟨hy, ?_⟩, rfl⟩, hvy⟩
      rw [Bool.not_eq_true', List.all_eq_false]
      exact ⟨v, hvy, by rw [hno]; decide⟩
    have htakes : b.takes n y.1 (x.layout == 1) v = true := (hp y hy v hvy).resolve_right (by rw [hno]; decide)
    have hstart := State.each_startUnit w n adopt (x.layout == 1) l (fun ha w' hw' => by rw [hbw]; exact had ha w' (hmem w' hw')) _ hload
    rw [hu]
    refine hstart.2.2 v hvl ?_
    rw [hbw]
    exact b.takes_state htakes

section
variable {s : State} {m : MailboxId} {x : Tensor} (hx : s.tensor (s.arg m.val 0 4) = some x) (hst : x.state = 2 ∨ x.state = 6)
  (hp : ∀ y ∈ x.pieces, ∀ v ∈ pieceUnits (x.layout == 1) y.2.1,
    s.takes (s.arg m.val 0 4) y.1 (x.layout == 1) v = true ∨ s.holdsPiece (s.arg m.val 0 4) v = true) (hroom : s.opRoom = true)
include hx hst hp hroom

/-- RES_LOAD and RES_ADOPT. -/
theorem starts_resStart {op : Nat} {c : Instr} (adopt : Bool) (h : Serving s m.val op) (he : exec c s = s.ciand op m ServeIn.none) (hop : opcodeOk op = true)
    (hcmd : (s.begun m.val).command (s.request m.val) ServeIn.none = (s.begun m.val).resStart (s.request m.val) adopt) :
    Starts c s m.val op (s.arg m.val 0 4) fun t => (∀ k, t.cell k = s.cell k) ∧
      (t.tensor (s.arg m.val 0 4)).map (fun y => y.state) = some (if adopt then 4 else 3) ∧
      ((adopt = true → ∀ v ∈ x.units, s.tierState v ≠ stDormant) → ∀ v ∈ x.units, s.holdsPiece (s.arg m.val 0 4) v = false → t.loads v) := by
  obtain ⟨n, hn⟩ : ∃ n, n = s.arg m.val 0 4 := ⟨_, rfl⟩
  rw [← hn] at hx hp ⊢
  have hb := Replied.begun m.val s
  have hstate (v : Nat) := hb.tierState m.isLt v
  have hholds (v : Nat) := hb.holdsPiece m.isLt n v
  obtain ⟨u, hres, hw, hloads⟩ := State.resStart_spec (b := s.begun m.val) (q := s.request m.val) (n := n) hn.symm ((hb.tensor _).trans hx) hst hroom
    (fun y hy v hv => by rw [hb.takes m.isLt, hholds]; exact hp y hy v hv) adopt
  obtain ⟨w, hwd⟩ : ∃ w, w = ((s.begun m.val).withOp (s.request m.val) n).setTensor n (some { x with state := if adopt then 4 else 3 }) := ⟨_, rfl⟩
  rw [← hwd] at hw
  have hops : u.fw.ops = s.fw.ops ++ [(s.request m.val).opOf s.fw.nextOph n] := by
    obtain ⟨r, hr⟩ := hw.heard
    rw [hr, hwd]
    rfl
  refine h.starts he hop (arg := n) (hcmd.trans hres) (hw.heard.boxes.trans (hwd ▸ rfl)) (hw.heard.ptr.trans (hwd ▸ rfl)) hops fun t ht => ⟨fun k => ?_, ?_, fun had v hv hno => ?_⟩
  · rw [ht.mem.cells, hw.cells, ← hb.mem.cells, hwd]
    rfl
  · rw [ht.tensor, hw.heard.tensor, hwd, State.setTensor_get, if_pos rfl]
    rfl
  · obtain ⟨p, hp, h1, h2, h3⟩ := hloads (fun ha v hv => by rw [hstate]; exact had ha v hv) v hv (by rw [hholds]; exact hno)
    exact ⟨p, by rw [ht.tile]; exact hp, h1, h2, by rw [ht.tierState m.isLt]; exact h3⟩
end
end Sys2Proof.Machine
end

section
namespace Sys2Proof.Machine

/-! ### A tensor's areas (R303, R475) -/

section
variable (s : State)

theorem worked_scramble (sp : Space) (a n : Nat) : Worked s (s.scramble sp a n) := by
  refine ⟨fun k => ?_, .of_eq rfl⟩
  exact State.each_keeps (fun t : State => t.cell k) (fun t i => t.wrByte sp (a + i) (BitVec.ofNat 8 (Config.undefValue (s.draws + i))))
    (fun t i => State.wrByte_cell t _ _ _ k) (List.range n) s

theorem worked_grant (q : AllocReq) (base : Nat) (hq : q.by_ = .firmware) : Worked s (s.grant q base) := by
  have hscr (t : State) (x : Space × Nat × Nat) : Worked t (if q.zero then t else t.scramble x.1 x.2.1 x.2.2) :=
    .ite (.refl t) (worked_scramble t _ _ _)
  simp only [State.grant, hq]
  split
  · exact (placed_refuse s q 7 hq).worked
  · have h : ∀ a l, Worked s ((s.setAlloc q.owner a).each (fun s (x : Space × Nat × Nat) => if q.zero then s else s.scramble x.1 x.2.1 x.2.2) l) :=
      fun a l => (Worked.of_eq rfl rfl : Worked s (s.setAlloc q.owner a)).trans (.each hscr l _)
    exact .ite (h _ _) ((h _ _).trans (placed_respond _ q 0 _ hq).worked)

theorem worked_allocate (q : AllocReq) (hq : q.by_ = .firmware) : Worked s (s.allocate q) := by
  have hrefuse (n : Nat) : Worked s (s.refuse q n) := (placed_refuse s q n hq).worked
  simp only [State.allocate]
  exact .ite (worked_grant s q _ hq) (.ite (.ite (.of_eq rfl rfl) (hrefuse _)) (hrefuse _))

theorem worked_areaAlloc (g n : Nat) : Worked s (s.areaAlloc g n).2 := by
  have hfw (t : State) (k : Nat) : Worked t (t.fwAlloc g k).2 := worked_allocate t _ rfl
  have h1 := hfw s ((3 * n + 1) / 2)
  unfold State.areaAlloc
  generalize s.fwAlloc g ((3 * n + 1) / 2) = p at h1
  obtain ⟨a, t⟩ := p
  cases a with
  | none => exact h1
  | some a =>
    have h2 := hfw t ((n + 1) / 2)
    dsimp only
    generalize t.fwAlloc g ((n + 1) / 2) = p at h2
    obtain ⟨b, u⟩ := p
    cases b with
    | none => exact h1.trans (h2.trans (placed_release u _ rfl).worked)
    | some b => exact h1.trans h2

theorem worked_reserve (n i : Nat) (ds : Bool) (u : Nat) (p : Nat × Nat × Int) (sh fo : Nat) : Worked s (s.reserve n i ds u p sh fo) := by
  unfold State.reserve
  exact .each (fun s v => (placed_setTier s v _).worked) _ s

theorem worked_placeRegion (n g : Nat) (x : Tensor) : Worked s (s.placeRegion n g x).2 := by
  have h := worked_areaAlloc s g (x.inRegion g).length
  simp only [State.placeRegion]
  split
  · rename_i t ht
    rw [ht] at h
    exact h
  · rename_i a b t ht
    rw [ht] at h
    exact h.trans (.each (fun s y => worked_reserve s _ _ _ _ _ _ _) _ _)

theorem worked_place (n : Nat) (x : Tensor) (l : List Nat) : Worked s (s.place n x l).2 := by
  induction l generalizing s x with
  | nil => exact .refl s
  | cons g l ih =>
    have h := worked_placeRegion s n g x
    simp only [State.place]
    split
    · exact ih s x
    · split
      · rename_i t ht
        rw [ht] at h
        exact h
      · rename_i a t ht
        rw [ht] at h
        exact h.trans (ih _ _)
end

theorem State.badPiece_congr {s t : State} {n : Nat} {ds : Bool} (h : ∀ i u, t.takes n i ds u = s.takes n i ds u) (l : List (Nat × Nat)) (seen : List Nat) :
    t.badPiece n ds l seen = s.badPiece n ds l seen := by
  induction l generalizing seen with
  | nil => rfl
  | cons y l ih =>
    obtain ⟨i, u⟩ := y
    simp only [State.badPiece, h, ih]

section
variable {q : Req} {x : Tensor} (hfirst : q.u 4 4 < x.count) (h1 : 1 ≤ q.u 8 4) (h2 : q.u 8 4 ≤ 5116) (hend : q.u 4 4 + q.u 8 4 ≤ x.count)
  (hgood : ∀ k < q.u 8 4, let y := q.piece k
    y.1 < 131072 ∧ (x.layout = 1 → y.1 / 8 % 2 = 0) ∧ 1 ≤ y.2.1 ∧ y.2.1 ≤ 1024 ∧ 1 ≤ y.2.2.1 ∧ y.2.2.1 ≤ 1024 ∧ q.u (21 + 12 * k) 3 = 0)
include hfirst h1 h2 hend hgood

/-- The fields of RES_PIECES are good. -/
theorem firstBad_resPieces : firstBad ([(4, decide (x.count ≤ q.u 4 4)), (8, !inR (q.u 8 4) 1 5116 || decide (x.count < q.u 4 4 + q.u 8 4))] ++
    ((List.range (q.u 8 4)).map fun k =>
        let p := q.piece k
        let at_ := 12 + 12 * k
        [(at_, decide (131072 ≤ p.1) || ((x.layout == 1) && p.1 / 8 % 2 == 1)), (at_ + 4, !inR p.2.1 1 1024), (at_ + 6, !inR p.2.2.1 1 1024),
         (at_ + 9, q.u (at_ + 9) 3 != 0)]).flatten) = none := by
  rw [firstBad_none_iff]
  intro z hz
  obtain hz | hz := List.mem_append.mp hz
  · simp only [List.mem_cons, List.not_mem_nil, or_false] at hz
    obtain rfl | rfl := hz
    · simpa using hfirst
    · simp [inR, h1, h2]
      exact hend
  · obtain ⟨l, hl, hzl⟩ := List.mem_flatten.mp hz
    obtain ⟨k, hk, rfl⟩ := List.mem_map.mp hl
    obtain ⟨hu, hds, hr, hr', hc, hc', hres⟩ := hgood k (List.mem_range.mp hk)
    have hres' : q.u (12 + 12 * k + 9) 3 = 0 := by
      have : 12 + 12 * k + 9 = 21 + 12 * k := by omega
      rw [this]
      exact hres
    simp only [List.mem_cons, List.not_mem_nil, or_false] at hzl
    obtain rfl | rfl | rfl | rfl := hzl
    · simp only [Bool.or_eq_false_iff, decide_eq_false_iff_not, Bool.and_eq_false_iff, beq_eq_false_iff_ne]
      refine ⟨by omega, ?_⟩
      by_cases hlay : x.layout = 1
      · right
        rw [hds hlay]
        decide
      · exact .inl hlay
    · simp [inR, hr, hr']
    · simp [inR, hc, hc']
    · simp [hres']
end

/-- The end of RES_PIECES: the definition grows, or is complete and its areas are reserved. -/
def State.putPieces (s : State) (n : Nat) (x : Tensor) (ps : SMap (Nat × Nat × Nat × Int)) : Ans :=
  if ps.length ≠ x.count then ok [] (s.setTensor n (some { x with pieces := ps }))
  else
    match s.badPiece n (x.layout == 1) (ps.map fun (i, u, _) => (i, u)) [] with
    | some i => fail stBadField i s
    | none =>
      match s.place n { x with pieces := ps } (List.range 16) with
      | (some z, s) => ok [] (s.setTensor n (some { z with state := 2 }))
      | (none, _) => fail stNoResource 0 s

/-- Good entries are taken up. -/
theorem State.resPieces_eq {s : State} {q : Req} {x : Tensor} (hx : s.tensor (q.u 0 4) = some x) (hst : x.state = 1)
    (hf : firstBad ([(4, decide (x.count ≤ q.u 4 4)), (8, !inR (q.u 8 4) 1 5116 || decide (x.count < q.u 4 4 + q.u 8 4))] ++
      ((List.range (q.u 8 4)).map fun k =>
        let p := q.piece k
        let at_ := 12 + 12 * k
        [(at_, decide (131072 ≤ p.1) || ((x.layout == 1) && p.1 / 8 % 2 == 1)), (at_ + 4, !inR p.2.1 1 1024), (at_ + 6, !inR p.2.2.1 1 1024),
         (at_ + 9, q.u (at_ + 9) 3 != 0)]).flatten) = none)
    (hbad : s.badPiece (q.u 0 4) (x.layout == 1) ((List.range (q.u 8 4)).map fun k => (q.u 4 4 + k, (q.piece k).1)) [] = none) :
    s.resPieces q = s.putPieces (q.u 0 4) x ((List.range (q.u 8 4)).foldl
      (fun l k => SMap.set (fun _ => (0, 0, 0, 0)) l (q.u 4 4 + k) (q.piece k)) x.pieces) := by
  unfold State.resPieces
  generalize q.u 0 4 = n at *
  dsimp only
  rw [hx]
  dsimp only
  rw [if_neg (not_not.mpr hst), checked_good hf, hbad]
  rfl

theorem State.putPieces_more (s : State) (n : Nat) (x : Tensor) {ps : SMap (Nat × Nat × Nat × Int)} (h : ps.length ≠ x.count) :
    s.putPieces n x ps = (good [], s.setTensor n (some { x with pieces := ps })) := if_pos h

theorem State.putPieces_done {s : State} {n : Nat} {x z : Tensor} {ps : SMap (Nat × Nat × Nat × Int)} (h : ps.length = x.count)
    (hbad : s.badPiece n (x.layout == 1) (ps.map fun (i, u, _) => (i, u)) [] = none)
    (hz : (s.place n { x with pieces := ps } (List.range 16)).1 = some z) :
    ∃ t, s.putPieces n x ps = (good [], t.setTensor n (some { z with state := 2 })) ∧ Worked s t := by
  have hw := worked_place s n { x with pieces := ps } (List.range 16)
  unfold State.putPieces
  rw [if_neg (not_not.mpr h), hbad]
  dsimp only
  generalize s.place n { x with pieces := ps } (List.range 16) = r at hz hw ⊢
  obtain ⟨a, t⟩ := r
  obtain rfl : a = some z := hz
  exact ⟨t, rfl, hw⟩

section
variable {s : State} {m : MailboxId} {x : Tensor} (hx : s.tensor (s.arg m.val 0 4) = some x) (hst : x.state = 1)
  (hfirst : s.arg m.val 4 4 < x.count) (h1 : 1 ≤ s.arg m.val 8 4) (h2 : s.arg m.val 8 4 ≤ 5116)
  (hend : s.arg m.val 4 4 + s.arg m.val 8 4 ≤ x.count)
  (hgood : ∀ k < s.arg m.val 8 4, let y := (s.request m.val).piece k
    y.1 < 131072 ∧ (x.layout = 1 → y.1 / 8 % 2 = 0) ∧ 1 ≤ y.2.1 ∧ y.2.1 ≤ 1024 ∧ 1 ≤ y.2.2.1 ∧ y.2.2.1 ≤ 1024 ∧ s.arg m.val (21 + 12 * k) 3 = 0)
  (hbad : s.badPiece (s.arg m.val 0 4) (x.layout == 1)
    ((List.range (s.arg m.val 8 4)).map fun k => (s.arg m.val 4 4 + k, ((s.request m.val).piece k).1)) [] = none)
  (h : Serving s m.val 0x0302) {ps : SMap (Nat × Nat × Nat × Int)} (hps : ps = (List.range (s.arg m.val 8 4)).foldl
      (fun l k => SMap.set (fun _ => (0, 0, 0, 0)) l (s.arg m.val 4 4 + k) ((s.request m.val).piece k)) x.pieces)
include hx hst hfirst h1 h2 hend hgood hbad h hps

theorem command_resPieces : (s.begun m.val).command (s.request m.val) ServeIn.none = (s.begun m.val).putPieces (s.arg m.val 0 4) x ps := by
  have hb := Replied.begun m.val s
  have hcmd : (s.begun m.val).command (s.request m.val) ServeIn.none = (s.begun m.val).resPieces (s.request m.val) := by
    simp only [State.command, h.code]
  rw [hcmd, hps]
  exact State.resPieces_eq ((hb.tensor _).trans hx) hst (firstBad_resPieces hfirst h1 h2 hend hgood) ((State.badPiece_congr (hb.takes m.isLt _ _) _ _).trans hbad)

theorem does_resPieces_more (hne : ps.length ≠ x.count) : Does (.resPieces m) s m.val 0x0302 fun t => SameMem s t ∧ SameUnits s t ∧
      t.tensor (s.arg m.val 0 4) = some { x with pieces := ps } := by
  have hc := command_resPieces hx hst hfirst h1 h2 hend hgood hbad h hps
  rw [State.putPieces_more _ _ _ hne] at hc
  have hb := Replied.begun m.val s
  obtain ⟨u, hu⟩ : ∃ u, u = (s.begun m.val).setTensor (s.arg m.val 0 4) (some { x with pieces := ps }) := ⟨_, rfl⟩
  rw [← hu] at hc
  have hm : SameMem s u := hb.mem.trans (hu ▸ .of_store rfl)
  have hun : SameUnits s u := hb.units.trans (by rw [hu]; constructor <;> rfl)
  refine h.completes rfl (by decide) hc (good_status _) (hu ▸ rfl) (hu ▸ rfl) fun t ht => ⟨hm.trans ht.mem, hun.trans ht.units, ?_⟩
  rw [ht.tensor, hu, State.setTensor_get, if_pos rfl]

theorem does_resPieces_done {z : Tensor} (heq : ps.length = x.count)
    (hbad2 : s.badPiece (s.arg m.val 0 4) (x.layout == 1) (ps.map fun (i, u, _) => (i, u)) [] = none)
    (hz : ((s.begun m.val).place (s.arg m.val 0 4) { x with pieces := ps } (List.range 16)).1 = some z) :
    Does (.resPieces m) s m.val 0x0302 fun t => (∀ k, t.cell k = s.cell k) ∧ t.tensor (s.arg m.val 0 4) = some { z with state := 2 } := by
  have hb := Replied.begun m.val s
  have hc := command_resPieces hx hst hfirst h1 h2 hend hgood hbad h hps
  obtain ⟨v, hput, hw⟩ := State.putPieces_done heq ((State.badPiece_congr (hb.takes m.isLt _ _) _ _).trans hbad2) hz
  obtain ⟨u, hu⟩ : ∃ u, u = v.setTensor (s.arg m.val 0 4) (some { z with state := 2 }) := ⟨_, rfl⟩
  rw [hput, ← hu] at hc
  have hcell (k : Nat) : u.cell k = v.cell k := by
    rw [hu]
    rfl
  refine h.completes rfl (by decide) hc (good_status _) (hu ▸ hw.heard.boxes) (hu ▸ hw.heard.ptr) fun t ht => ⟨fun k => ?_, ?_⟩
  · rw [ht.mem.cells, hcell, hw.cells, hb.mem.cells]
  · rw [ht.tensor, hu, State.setTensor_get, if_pos rfl]
end
end Sys2Proof.Machine
end

section
namespace Sys2Proof.Machine

/-! ### Admission (R240, R255, R338, R396, R474) -/

/-- A field within one that was written holds its part of the value. -/
theorem State.rf_of_rf {s : State} {a hi lo v hi' lo' : Nat} (h : s.rf a hi lo = v) (h1 : lo ≤ lo') (h2 : hi' ≤ hi) (h3 : lo' ≤ hi') :
    s.rf a hi' lo' = v / 2 ^ (lo' - lo) % 2 ^ (hi' + 1 - lo') := by
  have hsplit : s.rn a / 2 ^ lo' = s.rn a / 2 ^ lo / 2 ^ (lo' - lo) := by
    rw [Nat.div_div_eq_div_mul, ← pow_add, Nat.add_sub_cancel' h1]
  have hwidth : hi + 1 - lo = (lo' - lo) + (hi + 1 - lo') := by omega
  rw [← h, State.rf, State.rf, fld, fld, hsplit, hwidth, pow_add, Nat.mod_mul_right_div_self,
    Nat.mod_mod_of_dvd _ (pow_dvd_pow 2 (by omega))]

/-- The numbers that a job's admission draws for its spore key. -/
def State.drawKey (s : State) (drawn : Bool) : Nat × State := (if drawn then s.reseedGenerators.drbgRequest else s.reseedGenerators).draw

theorem wired_drawKey (s : State) (drawn : Bool) : Wired (fun _ => True) s (s.drawKey drawn).2 := by
  cases drawn <;> exact ⟨⟨.of_store rfl, rfl⟩, rfl, rfl, fun _ _ => rfl⟩

/-- The counters and pairs of a block of an admitted job. -/
def State.assignBlock (s : State) (j flags ctrs b : Nat) : State :=
  let s := s.each (fun s c => s.setRf (ccCtl b c) 28 22 (1 + 2 * j)) (bitsOf 64 ctrs)
  let s := if bit flags 1 then (s.setRf (blockReg b 0x800) 0 0 1).setRf (blockReg (b + 1) 0x800) 0 0 1 else s
  if (List.range 5).any fun t => (s.test b t).due then s.setRf (blockReg b 0xC308) 0 0 1 else s

/-- What a clearing line of an admitted job holds. -/
def lineValue (j flags stepLine l : Nat) : Nat := j + 64 + (if l = stepLine then 128 + 256 + b2n (bit flags 3) * 512 else 0)

theorem ccCtl_ne {b b' x c : Nat} (hc : c < 64) (hx : x < 0x10000) (h : x < 0xC100 ∨ 0xC200 ≤ x) : blockReg b' x ≠ ccCtl b c := by
  intro he
  have := (blockReg_inj hx (by omega) he).2
  omega

theorem ccCtl_inj {b b' c c' : Nat} (hc : c < 64) (hc' : c' < 64) (h : ccCtl b c = ccCtl b' c') : b = b' ∧ c = c' := by
  obtain ⟨h1, h2⟩ := blockReg_inj (by omega) (by omega) h
  exact ⟨h1, by omega⟩

theorem mem_bitsOf_lt {n m i : Nat} (h : i ∈ bitsOf n m) : i < n := List.mem_range.mp (List.mem_filter.mp h).1

section
variable (s : State) (j flags ctrs : Nat)

theorem State.assign_eq (lines stepLine : Nat) (blocks : List Nat) : s.assign j flags lines stepLine ctrs blocks =
    (s.each (fun s l => s.setRf (clReg l 0) 9 0 (lineValue j flags stepLine l)) (bitsOf 32 lines)).each (fun s b => s.assignBlock j flags ctrs b) blocks := rfl

/-- What follows the counters in a block's assignment. -/
theorem wired_assignBlock {K : Nat → Prop} {b : Nat} (hctr : ∀ c < 64, ¬ K (ccCtl b c)) (hk : ∀ b x, x < 0x10000 → x < 0xC100 ∨ 0xC200 ≤ x → ¬ K (blockReg b x)) :
    Wired K s (s.assignBlock j flags ctrs b) := by
  unfold State.assignBlock
  refine .trans (.each (bitsOf 64 ctrs) (fun t c hc => Wired.setRf t 28 22 (1 + 2 * j) (hctr c (mem_bitsOf_lt hc))) s) ?_
  dsimp only
  generalize s.each (fun s c => s.setRf (ccCtl b c) 28 22 (1 + 2 * j)) (bitsOf 64 ctrs) = t
  have hpair : Wired K t (if bit flags 1 then (t.setRf (blockReg b 0x800) 0 0 1).setRf (blockReg (b + 1) 0x800) 0 0 1 else t) :=
    .ite ((Wired.setRf _ _ _ _ (hk _ _ (by decide) (by decide))).trans (.setRf _ _ _ _ (hk _ _ (by decide) (by decide)))) (.refl K t)
  exact .ite (hpair.trans (.setRf _ _ _ _ (hk _ _ (by decide) (by decide)))) hpair

theorem State.assignBlock_counter {b c : Nat} (hc : c ∈ bitsOf 64 ctrs) : (s.assignBlock j flags ctrs b).rf (ccCtl b c) 28 22 = (1 + 2 * j) % 128 := by
  have hc64 := mem_bitsOf_lt hc
  have hset : (s.each (fun s c => s.setRf (ccCtl b c) 28 22 (1 + 2 * j)) (bitsOf 64 ctrs)).rf (ccCtl b c) 28 22 = (1 + 2 * j) % 128 := by
    refine State.each_mem (P := fun c t => t.rf (ccCtl b c) 28 22 = (1 + 2 * j) % 128) (fun t c => ?_) (fun t x y hy => ?_) hc s
    · exact State.setRf_rf_same _ _ _ _ _ (by decide) (by decide)
    · by_cases hxy : ccCtl b y = ccCtl b x
      · rw [hxy]
        exact State.setRf_rf_same _ _ _ _ _ (by decide) (by decide)
      · rw [State.setRf_rf_ne _ _ _ _ _ _ _ _ hxy, hy]
  have hne {b' x : Nat} (hx : x < 0x10000) (h : x < 0xC100 ∨ 0xC200 ≤ x) : ccCtl b c ≠ blockReg b' x := (ccCtl_ne hc64 hx h).symm
  unfold State.assignBlock
  dsimp only
  generalize s.each (fun s c => s.setRf (ccCtl b c) 28 22 (1 + 2 * j)) (bitsOf 64 ctrs) = t at hset ⊢
  have hpair : (if bit flags 1 then (t.setRf (blockReg b 0x800) 0 0 1).setRf (blockReg (b + 1) 0x800) 0 0 1 else t).rf (ccCtl b c) 28 22 = (1 + 2 * j) % 128 := by
    split
    · rw [State.setRf_rf_ne _ _ _ _ _ _ _ _ (hne (by decide) (by decide)), State.setRf_rf_ne _ _ _ _ _ _ _ _ (hne (by decide) (by decide)), hset]
    · exact hset
  generalize (if bit flags 1 then (t.setRf (blockReg b 0x800) 0 0 1).setRf (blockReg (b + 1) 0x800) 0 0 1 else t) = v at hpair ⊢
  split
  · rw [State.setRf_rf_ne _ _ _ _ _ _ _ _ (hne (by decide) (by decide)), hpair]
  · exact hpair

theorem State.assign_counter (lines stepLine : Nat) {blocks : List Nat} {b c : Nat} (hb : b ∈ blocks) (hc : c ∈ bitsOf 64 ctrs) :
    (s.assign j flags lines stepLine ctrs blocks).rf (ccCtl b c) 28 22 = (1 + 2 * j) % 128 := by
  have hc64 := mem_bitsOf_lt hc
  rw [State.assign_eq]
  refine State.each_mem (P := fun b t => t.rf (ccCtl b c) 28 22 = (1 + 2 * j) % 128) (fun t b => t.assignBlock_counter j flags ctrs hc) (fun t x y hy => ?_) hb _
  by_cases hxy : y = x
  · rw [hxy]
    exact t.assignBlock_counter j flags ctrs hc
  · have hw := wired_assignBlock t j flags ctrs (K := fun a => a = ccCtl y c) (b := x) (fun c' hc' he => hxy (ccCtl_inj hc' hc64 he).1.symm)
      (fun b' x' hx' h' he => ccCtl_ne hc64 hx' h' he)
    rw [State.rf_congr (hw.regs _ rfl), hy]

theorem State.assign_line {lines l : Nat} (stepLine : Nat) (blocks : List Nat) (hl : l ∈ bitsOf 32 lines) :
    (s.assign j flags lines stepLine ctrs blocks).rf (clReg l 0) 9 0 = lineValue j flags stepLine l % 1024 := by
  have hset : (s.each (fun s l => s.setRf (clReg l 0) 9 0 (lineValue j flags stepLine l)) (bitsOf 32 lines)).rf (clReg l 0) 9 0 = lineValue j flags stepLine l % 1024 := by
    refine State.each_mem (P := fun l t => t.rf (clReg l 0) 9 0 = lineValue j flags stepLine l % 1024) (fun t l => ?_) (fun t x y hy => ?_) hl s
    · exact State.setRf_rf_same _ _ _ _ _ (by decide) (by decide)
    · by_cases hxy : y = x
      · rw [hxy]
        exact State.setRf_rf_same _ _ _ _ _ (by decide) (by decide)
      · rw [State.setRf_rf_ne _ _ _ _ _ _ _ _ (by unfold clReg; omega), hy]
  have hw := Wired.each (K := isLineReg) (f := fun s b => s.assignBlock j flags ctrs b) blocks
    (fun t b _ => wired_assignBlock t j flags ctrs (fun c _ => not_isLineReg_block _ _) (fun b x _ _ => not_isLineReg_block b x))
    (s.each (fun s l => s.setRf (clReg l 0) 9 0 (lineValue j flags stepLine l)) (bitsOf 32 lines))
  rw [State.assign_eq, State.rf_congr (hw.regs _ ⟨l, mem_bitsOf_lt hl, rfl⟩), hset]

theorem wired_assign (lines stepLine : Nat) (blocks : List Nat) : Wired (fun _ => False) s (s.assign j flags lines stepLine ctrs blocks) := by
  rw [State.assign_eq]
  exact (Wired.each _ (fun t l _ => .setRf t _ _ _ id) s).trans
    (.each _ (fun t b _ => wired_assignBlock t j flags ctrs (fun _ _ => id) (fun _ _ _ _ => id)) _)
end

/-! ### The contexts of an admitted job (R240, R255) -/

/-- Registers of one group are written in turn. -/
def State.setRegs (s : State) (base : Nat → Nat) (l : List (Nat × Nat)) : State := s.each (fun s x => s.setRn (base x.1) x.2) l

section
variable (s : State) (base : Nat → Nat)

theorem wired_setRegs {K : Nat → Prop} {l : List (Nat × Nat)} (h : ∀ x ∈ l, ¬ K (base x.1)) : Wired K s (s.setRegs base l) :=
  .each _ (fun t x hx => .setRn t _ (h x hx)) s

theorem State.setRegs_rn_ne {a : Nat} {l : List (Nat × Nat)} (h : ∀ x ∈ l, a ≠ base x.1) : (s.setRegs base l).rn a = s.rn a := by
  have hw := wired_setRegs s base (K := fun b => b = a) (l := l) fun x hx he => h x hx he.symm
  rw [State.rn, hw.regs a rfl]
  rfl

theorem State.setRegs_rn {k v : Nat} {l : List (Nat × Nat)} (h : ∀ x ∈ l, base k ≠ base x.1) : (s.setRegs base ((k, v) :: l)).rn (base k) = v % 2 ^ 32 := by
  refine (State.setRegs_rn_ne (s.setRn (base k) v) base h).trans ?_
  rw [State.setRn_rn, if_pos rfl]
end

/-- The numeric context of an admitted job but for ACTIVE. -/
def numContext (q : Req) : List (Nat × Nat) :=
  [(0, q.u 8 4), (4, 0), (8, bits (q.u 8 4) 9 4), (0xC, 0), (0x10, 0), (0x14, 0), (0x18, 0), (0x1C, 0), (0x20, 0)]
/-- Its training context. -/
def trainContext (q : Req) (k0 k1 : Nat) : List (Nat × Nat) :=
  [(0, k0), (4, k1), (8, 0), (0xC, q.u 0xC 4), (0x10, q.u 0x10 4), (0x14, q.u 0x14 4)]

section
variable (s : State) {j : Nat} (hj : j < 64) (q : Req) (k0 k1 : Nat)

theorem State.startContexts_eq : s.startContexts j q k0 k1 =
    let v := (s.setRegs (numReg j) (numContext q)).setRegs (tsReg j) (trainContext q k0 k1)
    if bit (q.u 4 4) 2 then v else v.setBit (numReg j 4) 16 := rfl

theorem numContext_lt : ∀ x ∈ numContext q, x.1 < 64 := by simp [numContext]
theorem trainContext_lt : ∀ x ∈ trainContext q k0 k1, x.1 < 64 := by simp [trainContext]

include hj in
theorem wired_startContexts : Wired (fun a => 0x20100 ≤ a) s (s.startContexts j q k0 k1) := by
  have hnum (x : Nat × Nat) (hx : x ∈ numContext q) : ¬ 0x20100 ≤ numReg j x.1 := by
    have := numContext_lt q x hx
    unfold numReg
    omega
  have hts (x : Nat × Nat) (hx : x ∈ trainContext q k0 k1) : ¬ 0x20100 ≤ tsReg j x.1 := by
    have := trainContext_lt q k0 k1 x hx
    unfold tsReg
    omega
  rw [State.startContexts_eq]
  exact (wired_setRegs s _ hnum).trans ((wired_setRegs _ _ hts).trans (.ite (.refl _ _) (.setRf _ _ _ _ (by unfold numReg; omega))))

/-- Where the contexts stand: mode, ACTIVE unless the job is a restart, spore key. -/
theorem State.startContexts_spec : (s.startContexts j q k0 k1).rn (numReg j 0) = q.u 8 4 % 2 ^ 32 ∧
    (s.startContexts j q k0 k1).rbit (numReg j 4) 16 = !bit (q.u 4 4) 2 ∧
    (s.startContexts j q k0 k1).rn (tsReg j 0) = k0 % 2 ^ 32 ∧ (s.startContexts j q k0 k1).rn (tsReg j 4) = k1 % 2 ^ 32 := by
  obtain ⟨n, hn⟩ : ∃ n, n = s.setRegs (numReg j) (numContext q) := ⟨_, rfl⟩
  obtain ⟨v, hv⟩ : ∃ v, v = n.setRegs (tsReg j) (trainContext q k0 k1) := ⟨_, rfl⟩
  have hnv {x : Nat} (hx : x < 64) : v.rn (numReg j x) = n.rn (numReg j x) := by
    rw [hv, State.setRegs_rn_ne]
    intro y hy
    have := trainContext_lt q k0 k1 y hy
    unfold numReg tsReg
    omega
  have h0 : v.rn (numReg j 0) = q.u 8 4 % 2 ^ 32 := by
    rw [hnv (by decide), hn, numContext, State.setRegs_rn]
    simp [numReg]
  have h4 : v.rn (numReg j 4) = 0 := by
    rw [hnv (by decide), hn]
    refine (State.setRegs_rn (s.setRn (numReg j 0) (q.u 8 4)) (numReg j) ?_).trans (Nat.zero_mod _)
    simp [numReg]
  have k0' : v.rn (tsReg j 0) = k0 % 2 ^ 32 := by
    rw [hv, trainContext, State.setRegs_rn]
    simp [tsReg]
  have k1' : v.rn (tsReg j 4) = k1 % 2 ^ 32 := by
    rw [hv]
    refine State.setRegs_rn (n.setRn (tsReg j 0) k0) (tsReg j) ?_
    simp [tsReg]
  have he : s.startContexts j q k0 k1 = if bit (q.u 4 4) 2 then v else v.setBit (numReg j 4) 16 := by rw [State.startContexts_eq, hv, hn]
  have hother {a : Nat} (ha : a ≠ numReg j 4) : (s.startContexts j q k0 k1).rn a = v.rn a := by
    rw [he]
    split
    · rfl
    · exact State.setRf_rn_ne _ _ _ _ _ _ ha
  refine ⟨?_, ?_, ?_, ?_⟩
  · rw [hother (by unfold numReg; omega), h0]
  · rw [he]
    by_cases hb : bit (q.u 4 4) 2 = true
    · rw [if_pos hb, hb, State.rbit, State.rf, h4]
      rfl
    · rw [if_neg hb, State.setBit_rbit _ _ _ (by decide)]
      simpa using hb
  · rw [hother (by unfold numReg tsReg; omega), k0']
  · rw [hother (by unfold numReg tsReg; omega), k1']
end
end Sys2Proof.Machine
end

section
namespace Sys2Proof.Machine

/-- The slot of a job as its admission leaves it. -/
def Req.admitted (q : Req) : Slot :=
  { Slot.init with
    state := .admitted, fjob := q.u 0 4, flags := q.u 4 4, lines := q.u 0x3C 4, stepLine := q.u 0x40 1, counters := q.u 0x44 8
    blocks := q.u 0x4C 32, bsQuota := q.u 0x30 2, hbmQuota := q.u 0x34 4, spQuota := q.u 0x38 4, imgInt := q.u 0x20 4
    baseInt := q.u 0x24 4, jrnMin := q.u 0x28 4, jrnRate := q.u 0x2C 4 }

/-- The spore key of a job: as the request says, or drawn. -/
def Req.sporeKey (q : Req) (d : Nat) : Nat × Nat :=
  (if q.u 0x18 8 == 0 then Config.undefValue d % 2 ^ 32 else q.u 0x18 4, if q.u 0x18 8 == 0 then Config.undefValue d / 2 ^ 32 % 2 ^ 32 else q.u 0x1C 4)

/-- A ready device runs once a job is admitted. -/
def State.runs (s : State) : State := if s.dev = .ready then s.setDev .running else s

/-- A job taken into slot j, with what it assigns. -/
def State.withJob (s : State) (j : Nat) (q : Req) (k : Nat × Nat) : State :=
  ((((s.setSlot j q.admitted).assign j (q.u 4 4) (q.u 0x3C 4) (q.u 0x40 1) (q.u 0x44 8) (bitsOf 256 (q.u 0x4C 32))).startContexts j q k.1 k.2)).runs

section
variable {s : State} {q : Req} {i : Nat}

/-- An admission that nothing hinders. -/
theorem State.jobAdmit_eq (hgood : firstBad (admitBad q) = none) (hsec : s.sec.state = .operational) (hi : ((List.range 64).find? fun k => !s.admitted k) = some i)
    (hfree : s.taken (q.u 0x3C 4) (q.u 0x44 8) (bitsOf 256 (q.u 0x4C 32)) = false) :
    let r := s.drawKey (q.u 0x18 8 == 0)
    let k := q.sporeKey r.1
    s.jobAdmit q = (good (leBytes 1 i ++ leBytes 3 0 ++ leBytes 4 k.1 ++ leBytes 4 k.2), r.2.withJob i q k) := by
  unfold State.jobAdmit
  rw [checked_good hgood, if_neg (not_not.mpr hsec)]
  dsimp only
  rw [hi]
  dsimp only
  rw [hfree, if_neg (by simp)]
  rfl
end

section
variable (s : State) {j : Nat} (hj : j < 64) (q : Req) (k : Nat × Nat)

theorem State.runs_keeps : SameMem s s.runs ∧ s.runs.fw = s.fw ∧ s.runs.slots = s.slots ∧ s.runs.store = s.store ∧
    s.runs.dev = if s.dev = .ready then .running else s.dev := by
  unfold State.runs
  split
  · exact ⟨sameMem_setDev s _, State.setDev_fw s _, State.setDev_slots s _, State.setDev_store s _, State.setDev_dev s _⟩
  · exact ⟨.refl s, rfl, rfl, rfl, rfl⟩

include hj

/-- What an admission leaves: its slot, lines, counters and contexts. -/
theorem State.withJob_spec : SameMem s (s.withJob j q k) ∧ (s.withJob j q k).fw = s.fw ∧
    (∀ i, (s.withJob j q k).slot i = if i = j then q.admitted else s.slot i) ∧
    (s.withJob j q k).dev = (if s.dev = .ready then .running else s.dev) ∧
    (s.withJob j q k).rn (numReg j 0) = q.u 8 4 % 2 ^ 32 ∧ (s.withJob j q k).rbit (numReg j 4) 16 = (!bit (q.u 4 4) 2) ∧
    (s.withJob j q k).rn (tsReg j 0) = k.1 % 2 ^ 32 ∧ (s.withJob j q k).rn (tsReg j 4) = k.2 % 2 ^ 32 ∧
    (∀ l ∈ bitsOf 32 (q.u 0x3C 4), (s.withJob j q k).rf (clReg l 0) 9 0 = lineValue j (q.u 4 4) (q.u 0x40 1) l % 1024) ∧
    ∀ b ∈ bitsOf 256 (q.u 0x4C 32), ∀ c ∈ bitsOf 64 (q.u 0x44 8), (s.withJob j q k).rf (ccCtl b c) 28 22 = (1 + 2 * j) % 128 := by
  obtain ⟨u, hu⟩ : ∃ u, u = (s.setSlot j q.admitted).assign j (q.u 4 4) (q.u 0x3C 4) (q.u 0x40 1) (q.u 0x44 8) (bitsOf 256 (q.u 0x4C 32)) := ⟨_, rfl⟩
  obtain ⟨v, hv⟩ : ∃ v, v = u.startContexts j q k.1 k.2 := ⟨_, rfl⟩
  have he : s.withJob j q k = v.runs := by rw [hv, hu]; rfl
  have hwu : Wired (fun _ => False) (s.setSlot j q.admitted) u := hu ▸ wired_assign _ _ _ _ _ _ _
  have hwv : Wired (fun a => 0x20100 ≤ a) u v := hv ▸ wired_startContexts u hj q k.1 k.2
  obtain ⟨h0, h4, hk0, hk1⟩ := u.startContexts_spec (j := j) q k.1 k.2
  rw [← hv] at h0 h4 hk0 hk1
  obtain ⟨hm, hfw, hsl, hst, hdev⟩ := v.runs_keeps
  have hrn (a : Nat) : v.runs.reg a = v.reg a := State.reg_of_store hst a
  rw [he]
  refine ⟨?_, ?_, fun i => ?_, ?_, ?_, ?_, ?_, ?_, fun l hl => ?_, fun b hb c hc => ?_⟩
  · exact .trans (t := s.setSlot j q.admitted) (.of_store rfl) (hwu.kept.1.trans (hwv.kept.1.trans hm))
  · rw [hfw, hwv.kept.2, hwu.kept.2]
    rfl
  · rw [State.slot, hsl, ← State.slot, hwv.slot, hwu.slot, State.setSlot_get]
  · rw [hdev, hwv.dev, hwu.dev]
    rfl
  · rw [State.rn, hrn, ← State.rn, h0]
  · rw [State.rbit_congr (hrn _), h4]
  · rw [State.rn, hrn, ← State.rn, hk0]
  · rw [State.rn, hrn, ← State.rn, hk1]
  · rw [State.rf_congr (hrn _), State.rf_congr (hwv.regs _ (by unfold clReg; omega)), hu]
    exact State.assign_line _ _ _ _ _ _ hl
  · rw [State.rf_congr (hrn _), State.rf_congr (hwv.regs _ (by have := blockReg_ge b (0xC100 + 4 * c); unfold ccCtl; omega)), hu]
    exact State.assign_counter _ _ _ _ _ _ hb hc
end
end Sys2Proof.Machine
end

section
namespace Sys2Proof.Machine

/-- A field of a reply reads back. -/
theorem byteN_field (a b : List Byte) (n v : Nat) : byteN (a ++ leBytes n v ++ b) a.length n = v % 256 ^ n := by
  have h : ((a ++ leBytes n v ++ b).drop a.length).take n = leBytes n v := by
    rw [List.append_assoc, List.drop_left, List.take_append_of_le_length (le_of_eq (leBytes_length n v).symm),
      List.take_of_length_le (le_of_eq (leBytes_length n v))]
  rw [byteN, h, leNat_leBytes]

theorem any_congr_mem {α : Type} {l : List α} {p q : α → Bool} (h : ∀ x ∈ l, p x = q x) : l.any p = l.any q := by
  rw [Bool.eq_iff_iff, List.any_eq_true, List.any_eq_true]
  exact exists_congr fun x => and_congr_right fun hx => by rw [h x hx]

theorem Replied.taken {m : Nat} {s t : State} (h : Replied m s t) (hm : m < 16) (lines ctrs : Nat) (blocks : List Nat) :
    t.taken lines ctrs blocks = s.taken lines ctrs blocks := by
  unfold State.taken
  congr 1
  · refine any_congr_mem fun l hl => ?_
    have := mem_bitsOf_lt hl
    exact State.rbit_congr (h.low (by unfold clReg; omega)) 6
  · refine any_congr_mem fun b _ => any_congr_mem fun c _ => ?_
    exact State.rbit_congr (h.block hm _ _) 22

theorem lineValue_bits {j : Nat} (hj : j < 64) (flags stepLine l : Nat) :
    lineValue j flags stepLine l % 1024 / 64 % 2 = 1 ∧ lineValue j flags stepLine l % 64 = j := by
  unfold lineValue
  split
  · cases bit flags 3
    · simp [b2n]; omega
    · simp [b2n]; omega
  · omega

/-- The reply of JOB_ADMIT: slot and spore key. -/
def admitReply (i : Nat) (k : Nat × Nat) : List Byte := leBytes 1 i ++ leBytes 3 0 ++ leBytes 4 k.1 ++ leBytes 4 k.2

theorem admitReply_fields (i : Nat) (k : Nat × Nat) : byteN (admitReply i k) 0 1 = i % 256 ∧ byteN (admitReply i k) 4 4 = k.1 % 2 ^ 32 ∧
    byteN (admitReply i k) 8 4 = k.2 % 2 ^ 32 := by
  refine ⟨?_, byteN_field (leBytes 1 i ++ leBytes 3 0) (leBytes 4 k.2) 4 k.1, ?_⟩
  · have h := byteN_field [] (leBytes 3 0 ++ leBytes 4 k.1 ++ leBytes 4 k.2) 1 i
    rwa [List.nil_append, ← List.append_assoc, ← List.append_assoc] at h
  · have h := byteN_field (leBytes 1 i ++ leBytes 3 0 ++ leBytes 4 k.1) [] 4 k.2
    rwa [List.append_nil] at h

theorem completes_jobAdmit {s : State} {m : MailboxId} {q : Req} (hq : q = s.request m.val) {i : Nat} (hgood : firstBad (admitBad q) = none) (hsec : s.sec.state = .operational)
    (hi : ((List.range 64).find? fun k => !s.admitted k) = some i)
    (hfree : s.taken (q.u 0x3C 4) (q.u 0x44 8) (bitsOf 256 (q.u 0x4C 32)) = false) (h : Serving s m.val 0x0401) :
    Completes (.jobAdmit m) s fun t =>
      SameMem s t ∧ (∃ d, Answered s t m.val 0x0401 (good d) ∧ byteN d 0 1 = i ∧ byteN d 4 4 = t.rn (tsReg i 0) ∧ byteN d 8 4 = t.rn (tsReg i 4)) ∧
      (q.u 0x18 8 ≠ 0 → t.rn (tsReg i 0) = q.u 0x18 4 ∧ t.rn (tsReg i 4) = q.u 0x1C 4) ∧ (∀ k, k ≠ i → t.slot k = s.slot k) ∧
      (t.slot i).state = .admitted ∧ (t.slot i).fjob = q.u 0 4 ∧ (t.slot i).flags = q.u 4 4 ∧
      t.rbit (numReg i 4) 16 = !bit (q.u 4 4) 2 ∧ t.rn (numReg i 0) = q.u 8 4 ∧
      (∀ l ∈ bitsOf 32 (q.u 0x3C 4), t.rbit (clReg l 0) 6 = true ∧ t.rf (clReg l 0) 5 0 = i) ∧
      (∀ b ∈ bitsOf 256 (q.u 0x4C 32), ∀ c ∈ bitsOf 64 (q.u 0x44 8), t.rbit (ccCtl b c) 22 = true ∧ t.rf (ccCtl b c) 28 23 = i) ∧
      t.dev = if s.dev = .ready then .running else s.dev := by
  have hi64 : i < 64 := List.mem_range.mp (List.mem_of_find?_eq_some hi)
  have hb := Replied.begun m.val s
  obtain ⟨b, hbd⟩ : ∃ b, b = s.begun m.val := ⟨_, rfl⟩
  obtain ⟨r, hr⟩ : ∃ r, r = b.drawKey (q.u 0x18 8 == 0) := ⟨_, rfl⟩
  obtain ⟨k, hk⟩ : ∃ k, k = q.sporeKey r.1 := ⟨_, rfl⟩
  obtain ⟨u, hu⟩ : ∃ u, u = r.2.withJob i q k := ⟨_, rfl⟩
  obtain ⟨d, hd⟩ : ∃ d, d = admitReply i k := ⟨_, rfl⟩
  have hfree' : b.taken (q.u 0x3C 4) (q.u 0x44 8) (bitsOf 256 (q.u 0x4C 32)) = false := by
    rw [hbd, hb.taken m.isLt]
    exact hfree
  have hc : (s.begun m.val).command (s.request m.val) ServeIn.none = (good d, u) := by
    have hcmd : (s.begun m.val).command (s.request m.val) ServeIn.none = b.jobAdmit q := by
      rw [hbd]
      simp only [State.command, h.code, hq]
    rw [hcmd, hd, hu, hk, hr]
    exact State.jobAdmit_eq hgood (by rw [hbd]; exact hsec) (by rw [hbd]; exact hi) hfree'
  obtain ⟨hm, hfw, hslot, hdev, hmode, hact, hk0, hk1, hline, hctr⟩ := r.2.withJob_spec hi64 q k
  rw [← hu] at hm hfw hslot hdev hmode hact hk0 hk1 hline hctr
  have hw : Wired (fun _ => True) b r.2 := hr ▸ wired_drawKey b _
  have hfw' : u.fw = b.fw := hfw.trans hw.kept.2
  have hlow4 (off : Nat) : q.u off 4 < 2 ^ 32 := byteN_lt _ _ _
  have hkey0 (h0 : q.u 0x18 8 ≠ 0) : k = (q.u 0x18 4, q.u 0x1C 4) := by
    have h0' : (q.u 0x18 8 == 0) = false := by simpa using h0
    rw [hk, Req.sporeKey, h0']
    rfl
  obtain ⟨t, hex, hans, hmem, hrest⟩ := h.completes (c := .jobAdmit m) rfl (by decide) hc (good_status _)
    (by rw [hfw', hbd]; rfl) (by rw [hfw', hbd]; rfl) (P := fun t => SameMem s t ∧ Replied m.val u t) fun t ht =>
      ⟨hb.mem.trans (.trans (t := r.2) (hbd ▸ hw.kept.1) (hm.trans ht.mem)), ht⟩
  have htk0 : t.rn (tsReg i 0) = k.1 % 2 ^ 32 := by
    rw [State.rn, hrest.low (by unfold tsReg; omega), ← State.rn, hk0]
  have htk1 : t.rn (tsReg i 4) = k.2 % 2 ^ 32 := by
    rw [State.rn, hrest.low (by unfold tsReg; omega), ← State.rn, hk1]
  refine ⟨t, hex, hmem, ⟨d, hans, ?_, ?_, ?_⟩, fun h0 => ?_, fun k hk => ?_, ?_, ?_, ?_, ?_, ?_, fun l hl => ?_, fun b' hb' c hc' => ?_, ?_⟩
  · rw [hd, (admitReply_fields i k).1, Nat.mod_eq_of_lt (by omega)]
  · rw [hd, (admitReply_fields i k).2.1, htk0]
  · rw [hd, (admitReply_fields i k).2.2, htk1]
  · rw [htk0, htk1, hkey0 h0]
    exact ⟨Nat.mod_eq_of_lt (hlow4 _), Nat.mod_eq_of_lt (hlow4 _)⟩
  · rw [hrest.slot, hslot, if_neg hk, hw.slot, hbd, hb.slot]
  · rw [hrest.slot, hslot, if_pos rfl]
    rfl
  · rw [hrest.slot, hslot, if_pos rfl]
    rfl
  · rw [hrest.slot, hslot, if_pos rfl]
    rfl
  · rw [State.rbit_congr (hrest.low (by unfold numReg; omega)), hact]
  · rw [State.rn, hrest.low (by unfold numReg; omega), ← State.rn, hmode]
    exact Nat.mod_eq_of_lt (hlow4 8)
  · have hl32 := mem_bitsOf_lt hl
    have hv : t.rf (clReg l 0) 9 0 = lineValue i (q.u 4 4) (q.u 0x40 1) l % 1024 := by
      rw [State.rf_congr (hrest.low (by unfold clReg; omega))]
      exact hline l hl
    obtain ⟨hbit6, hlow⟩ := lineValue_bits hi64 (q.u 4 4) (q.u 0x40 1) l
    rw [State.rbit, State.rf_of_rf hv (by decide) (by decide) (by decide), State.rf_of_rf hv (by decide) (by decide) (by decide), decide_eq_true_iff]
    norm_num
    exact ⟨hbit6, hlow⟩
  · have hv : t.rf (ccCtl b' c) 28 22 = (1 + 2 * i) % 128 := by
      rw [State.rf_congr (a := ccCtl b' c) (hrest.block m.isLt _ _)]
      exact hctr b' hb' c hc'
    rw [State.rbit, State.rf_of_rf hv (by decide) (by decide) (by decide), State.rf_of_rf hv (by decide) (by decide) (by decide), decide_eq_true_iff]
    norm_num
    omega
  · rw [hrest.units.dev, hdev, hw.dev, hbd]
    rfl
end Sys2Proof.Machine
end

section
namespace Sys2Proof.Machine

/-! ### Records in pages (R53, R381) -/

/-- Pieces of one width, in order, are the list. -/
theorem flatten_chunks {α : Type} (w n : Nat) (l : List α) : ((List.range n).map fun i => (l.drop (w * i)).take w).flatten = l.take (w * n) := by
  induction n with
  | zero => simp
  | succ n ih =>
    rw [List.range_succ, List.map_append, List.flatten_append, ih, Nat.mul_succ, List.take_add]
    simp

theorem leBytes_leNat (l : List Byte) : leBytes l.length (leNat l) = l := by
  induction l with
  | nil => rfl
  | cons b l ih =>
    have hb := b.isLt
    have h1 : (b.toNat + 256 * leNat l) / 256 = leNat l := by omega
    have h2 : BitVec.ofNat 8 (b.toNat + 256 * leNat l) = b := by
      apply BitVec.eq_of_toNat_eq
      rw [BitVec.toNat_ofNat]
      omega
    rw [List.length_cons, leNat, leBytes, h1, h2, ih]

theorem leNat_lt (l : List Byte) : leNat l < 256 ^ l.length := by
  have h := leNat_leBytes l.length (leNat l)
  rw [leBytes_leNat] at h
  rw [h]
  exact Nat.mod_lt _ (by positivity)

/-- Pages programmed in a copy that has room stand in one erase block, in order. -/
theorem PartArea.pages_block (l b : List PartPage) (f : Nat) (h : b.length + l.length ≤ 32) :
    (({ free := f, blocks := [b] } : PartArea).pages l).blocks = [b ++ l] := by
  induction l generalizing b f with
  | nil => simp [PartArea.pages]
  | cons p l ih =>
    rw [List.length_cons] at h
    have hpage : ({ free := f, blocks := [b] } : PartArea).page p = { free := f, blocks := [b ++ [p]] } := by
      simp only [PartArea.page, List.getLast?_singleton]
      rw [if_pos (by omega)]
      rfl
    have hih := ih (b ++ [p]) f (by rw [List.length_append, List.length_singleton]; omega)
    rw [List.append_assoc, List.singleton_append] at hih
    exact (congrArg (fun A => (PartArea.pages A l).blocks) hpage).trans hih

theorem PartArea.pages_fresh {l : List PartPage} (h : l.length ≤ 32) (hl : l ≠ []) (f : Nat) :
    (({ free := f, blocks := [] } : PartArea).pages l).blocks = [l] := by
  cases l with
  | nil => exact absurd rfl hl
  | cons p l =>
    rw [List.length_cons] at h
    exact PartArea.pages_block l [p] (f - 1) (by rw [List.length_singleton]; omega)

/-- An area all of whose pages return data. -/
theorem PartArea.readable_all (A : PartArea) (k : Nat) : A.readable k PartReads.none = A.blocks.flatten := by
  have hpage (x : List PartPage × Nat) : ((x.1.zipIdx.filterMap fun (p, n) => if PartReads.none.other.contains (k, x.2, n) then none else some p)) = x.1 := by
    have hf : (fun y : PartPage × Nat => if PartReads.none.other.contains (k, x.2, y.2) then none else some y.1) = fun y => some y.1 := by
      funext y
      exact if_neg (by simp [PartReads.none])
    have hfst : (fun y : PartPage × Nat => some y.1) = some ∘ Prod.fst := rfl
    refine (congrArg (fun f => List.filterMap f x.1.zipIdx) hf).trans ?_
    rw [hfst, List.filterMap_eq_map, List.zipIdx_map_fst]
  have hmap : (A.blocks.zipIdx.map fun x => x.1.zipIdx.filterMap fun (p, n) => if PartReads.none.other.contains (k, x.2, n) then none else some p) = A.blocks := by
    rw [List.map_congr_left fun x _ => hpage x]
    exact List.zipIdx_map_fst 0 A.blocks
  exact congrArg List.flatten hmap

/-- The first page of a number, among pages in order. -/
theorem findSome?_number {α : Type} (c : Nat → α) {i : Nat} {l : List Nat} (h : i ∈ l) :
    l.findSome? (fun j => if j = i then some (c j) else none) = some (c i) := by
  induction l with
  | nil => cases h
  | cons j l ih =>
    rw [List.findSome?_cons]
    by_cases hj : j = i
    · rw [if_pos hj, hj]
    · rw [if_neg hj]
      exact ih ((List.mem_cons.mp h).resolve_left fun he => hj he.symm)

/-- A part of a configuration copy with an epoch. -/
def pageOf (l : List PartPage) (e i : Nat) : Option (List Byte) :=
  l.findSome? fun p => match p with
    | .config e' i' _ b => if e' = e ∧ i' = i then some b else none
    | _ => none

theorem configOf_cons (e a n : Nat) (b : List Byte) (l : List PartPage) : configOf (.config e a n b :: l) =
    if (List.range n).all fun i => (pageOf (.config e a n b :: l) e i).isSome
    then some (e, ((List.range n).map fun i => (pageOf (.config e a n b :: l) e i).getD []).flatten) else none := rfl

/-- Number of pages of a configuration record. -/
def configCount (r : List Byte) : Nat := max 1 ((r.length + 4079) / 4080)

theorem configPages_length (e : Nat) (r : List Byte) : (configPages e r).length = configCount r := by simp [configPages, configCount]

theorem pageOf_configPages (e : Nat) (r : List Byte) {i : Nat} (hi : i < configCount r) :
    pageOf (configPages e r) e i = some ((r.drop (4080 * i)).take 4080) := by
  have h := findSome?_number (fun i => (r.drop (4080 * i)).take 4080) (List.mem_range.mpr hi)
  rw [pageOf, configPages, List.findSome?_map]
  simpa [Function.comp_def, configCount] using h

/-- A configuration record's pages give it back. -/
theorem configOf_configPages (e : Nat) (r : List Byte) : configOf (configPages e r) = some (e, r) := by
  obtain ⟨k, hk⟩ : ∃ k, configCount r = k + 1 := ⟨configCount r - 1, by have := le_max_left 1 ((r.length + 4079) / 4080); unfold configCount; omega⟩
  have hpages : ∃ l, configPages e r = .config e 0 (configCount r) ((r.drop (4080 * 0)).take 4080) :: l := by
    have hk' : max 1 ((r.length + 4079) / 4080) = k + 1 := hk
    rw [configPages, hk', List.range_succ_eq_map, hk]
    exact ⟨_, rfl⟩
  obtain ⟨l, hl⟩ := hpages
  have hpart {i : Nat} (hi : i < configCount r) := pageOf_configPages e r hi
  have hall : ((List.range (configCount r)).all fun i => (pageOf (configPages e r) e i).isSome) = true := by
    rw [List.all_eq_true]
    intro i hi
    rw [hpart (List.mem_range.mp hi)]
    rfl
  have hflat : ((List.range (configCount r)).map fun i => (pageOf (configPages e r) e i).getD []).flatten = r := by
    have hm : ((List.range (configCount r)).map fun i => (pageOf (configPages e r) e i).getD []) =
        (List.range (configCount r)).map fun i => (r.drop (4080 * i)).take 4080 := by
      refine List.map_congr_left fun i hi => ?_
      rw [hpart (List.mem_range.mp hi)]
      rfl
    rw [hm, flatten_chunks, List.take_of_length_le]
    unfold configCount
    omega
  rw [hl] at hall hflat ⊢
  rw [configOf_cons, hall, hflat]
  rfl

/-- A record put into an erased copy is read back from it. -/
theorem configOf_fresh (e k : Nat) {r : List Byte} (hr : r.length ≤ 4080 * 32) :
    configOf ((({ free := 32, blocks := [] } : PartArea).pages (configPages e r)).readable k PartReads.none) = some (e, r) := by
  have hlen : (configPages e r).length ≤ 32 := by
    rw [configPages_length, configCount]
    omega
  have hne : configPages e r ≠ [] := by
    rw [← List.length_pos_iff, configPages_length, configCount]
    omega
  rw [PartArea.readable_all, PartArea.pages_fresh hlen hne, List.flatten_singleton, configOf_configPages]

/-- A record goes into one copy of the configuration. -/
theorem Partition.putConfig_cases (P : Partition) (e : Nat) (r : List Byte) :
    P.putConfig e r = { P with cfgA := ({ free := 32, blocks := [] } : PartArea).pages (configPages e r) } ∨
    P.putConfig e r = { P with cfgB := ({ free := 32, blocks := [] } : PartArea).pages (configPages e r) } := by
  unfold Partition.putConfig
  exact ite_eq_or_eq _ _ _

theorem Partition.putConfig_keeps (P : Partition) (e : Nat) (r : List Byte) : (P.putConfig e r).cfgA = P.cfgA ∨ (P.putConfig e r).cfgB = P.cfgB := by
  obtain h | h := P.putConfig_cases e r
  · exact .inr (by rw [h])
  · exact .inl (by rw [h])

/-- A record of a later epoch than both copies is the latest. -/
theorem Partition.config_putConfig {P : Partition} {e : Nat} {r : List Byte} (hr : r.length ≤ 4080 * 32)
    (hold : ∀ e' r', configOf (P.cfgA.readable 1 PartReads.none) = some (e', r') ∨ configOf (P.cfgB.readable 2 PartReads.none) = some (e', r') → e' < e) :
    (P.putConfig e r).config PartReads.none = some (e, r) := by
  obtain h | h := P.putConfig_cases e r
  · rw [h, Partition.config]
    dsimp only
    rw [configOf_fresh e 1 hr]
    cases hb : configOf (P.cfgB.readable 2 PartReads.none) with
    | none => rfl
    | some b =>
      have := hold b.1 b.2 (.inr hb)
      exact if_neg (by omega)
  · rw [h, Partition.config]
    dsimp only
    rw [configOf_fresh e 2 hr]
    cases ha : configOf (P.cfgA.readable 1 PartReads.none) with
    | none => rfl
    | some a => exact if_pos (hold a.1 a.2 (.inl ha))

/-! ### Digests -/

theorem shaBlocks_length (n : Nat) (h : List (BitVec 64)) (l : List Byte) (hh : h.length = 8) : (shaBlocks n h l).length = 8 := by
  have hround (v : List (BitVec 64)) (k w : BitVec 64) (hv : v.length = 8) : (shaRound v k w).length = 8 := by
    unfold shaRound
    split
    · rfl
    · exact hv
  have hfold (ks : List (BitVec 64 × BitVec 64)) (v : List (BitVec 64)) (hv : v.length = 8) :
      (ks.foldl (fun v x => shaRound v x.1 x.2) v).length = 8 := by
    induction ks generalizing v with
    | nil => exact hv
    | cons x ks ih => exact ih _ (hround v _ _ hv)
  induction n generalizing h l with
  | zero => exact hh
  | succ n ih =>
    refine ih _ _ ?_
    rw [shaBlock, List.length_zipWith, hh, hfold _ h hh, Nat.min_self]

theorem sha384_length (l : List Byte) : (sha384 l).length = 48 := by
  have h8 := shaBlocks_length ((shaPad l).length / 128) sha384Init (shaPad l) rfl
  have hlen : ((shaBlocks ((shaPad l).length / 128) sha384Init (shaPad l)).take 6).length = 6 := by rw [List.length_take, h8]; rfl
  rw [sha384]
  generalize (shaBlocks ((shaPad l).length / 128) sha384Init (shaPad l)).take 6 = ws at hlen ⊢
  rw [List.flatMap_def, length_flatten_of_width (w := 8), List.length_map, hlen]
  intro b hb
  obtain ⟨x, -, rfl⟩ := List.mem_map.mp hb
  rw [beBytes, List.length_reverse, leBytes_length]
end Sys2Proof.Machine
end

section
namespace Sys2Proof.Machine

/-! ### The configuration takes effect (R381, R382, R387) -/

/-- The digest's registers are written. -/
def State.setDigest (s : State) (dig : List Byte) : State :=
  s.each (fun s i => s.setRn (0x34020 + 4 * i) (leNat ((dig.drop (4 * i)).take 4))) (List.range 12)

/-- A field of a configuration record. -/
def cfgField (r : List Byte) (off n : Nat) : Nat := leNat ((r.drop off).take n)

/-- The registers of the configuration are written. -/
def State.setConfig (s : State) (r : List Byte) (e : Nat) : State :=
  ((((s.setRn 0x34010 e).setDigest (sha384 r)).setRn 0x34004
    (cfgField r 5 1 + cfgField r 6 1 * 256 + cfgField r 7 1 * 4096 + cfgField r 8 1 * 65536)).setRn 0x34008 (cfgField r 12 4)).setRf 0x34088 15 8 (cfgField r 9 1)

section
variable (s : State) (r : List Byte) (e : Nat)

theorem State.applyConfig_eq : ∃ f, s.applyConfig r e = { s.setConfig r e with fab := f, fw := { s.fw with cfg := r } } := by
  obtain ⟨v, hv⟩ : ∃ v : State, v = { s.setConfig r e with fw := { s.fw with cfg := r } } := ⟨_, rfl⟩
  have he : s.applyConfig r e = v.helloChanged := by
    rw [hv]
    rfl
  obtain ⟨f, hf⟩ := v.helloChanged_eq
  exact ⟨f, by rw [he, hf, hv]⟩

theorem wired_setDigest {K : Nat → Prop} (dig : List Byte) (h : ∀ i < 12, ¬ K (0x34020 + 4 * i)) : Wired K s (s.setDigest dig) :=
  .each _ (fun t i hi => .setRn t _ (h i (List.mem_range.mp hi))) s

theorem State.setDigest_rn (dig : List Byte) {i : Nat} (hi : i < 12) :
    (s.setDigest dig).rn (0x34020 + 4 * i) = leNat ((dig.drop (4 * i)).take 4) % 2 ^ 32 := by
  refine State.each_mem (P := fun i t => t.rn (0x34020 + 4 * i) = leNat ((dig.drop (4 * i)).take 4) % 2 ^ 32) (fun t i => ?_) (fun t x y hy => ?_)
    (List.mem_range.mpr hi) s
  · rw [State.setRn_rn, if_pos rfl]
  · rw [State.setRn_rn]
    split
    · rw [show y = x by omega]
    · exact hy

theorem wired_setConfig : Wired (fun _ => False) s (s.setConfig r e) :=
  (Wired.setRn s _ id).trans ((wired_setDigest _ _ fun _ _ => id).trans ((Wired.setRn _ _ id).trans ((Wired.setRn _ _ id).trans (.setRf _ _ _ _ id))))

/-- Digest registers that hold a digest. -/
theorem State.cfgDigest_of_rn {t : State} {dig : List Byte} (hd : dig.length = 48)
    (h : ∀ i < 12, t.rn (0x34020 + 4 * i) = leNat ((dig.drop (4 * i)).take 4) % 2 ^ 32) : t.cfgDigest = dig := by
  have hm : ((List.range 12).map fun i => leBytes 4 (t.rn (0x34020 + 4 * i))) = (List.range 12).map fun i => (dig.drop (4 * i)).take 4 := by
    refine List.map_congr_left fun i hi => ?_
    have hi := List.mem_range.mp hi
    have hlen : ((dig.drop (4 * i)).take 4).length = 4 := by
      rw [List.length_take, List.length_drop]
      omega
    have hlt := leNat_lt ((dig.drop (4 * i)).take 4)
    have hle := leBytes_leNat ((dig.drop (4 * i)).take 4)
    rw [hlen] at hlt hle
    rw [h i hi, Nat.mod_eq_of_lt (lt_of_lt_of_eq hlt (by norm_num)), hle]
  rw [State.cfgDigest, hm, flatten_chunks, List.take_of_length_le (by omega)]

theorem cfgField_lt (off n : Nat) : cfgField r off n < 256 ^ n := byteN_lt r off n

/-- The registers as the configuration sets them. -/
theorem State.setConfig_spec : (s.setConfig r e).rn 0x34010 = e % 2 ^ 32 ∧ (s.setConfig r e).rn 0x34008 = cfgField r 12 4 ∧
    (s.setConfig r e).rf 0x34088 15 8 = cfgField r 9 1 ∧
    (s.setConfig r e).rn 0x34004 = (cfgField r 5 1 + cfgField r 6 1 * 256 + cfgField r 7 1 * 4096 + cfgField r 8 1 * 65536) % 2 ^ 32 ∧
    (s.setConfig r e).cfgDigest = sha384 r := by
  obtain ⟨v, hv⟩ : ∃ v, v = (s.setRn 0x34010 e).setDigest (sha384 r) := ⟨_, rfl⟩
  have he : s.setConfig r e = ((v.setRn 0x34004 (cfgField r 5 1 + cfgField r 6 1 * 256 + cfgField r 7 1 * 4096 + cfgField r 8 1 * 65536)).setRn 0x34008
    (cfgField r 12 4)).setRf 0x34088 15 8 (cfgField r 9 1) := by rw [hv]; rfl
  have h10 : v.rn 0x34010 = e % 2 ^ 32 := by
    have hw := wired_setDigest (s.setRn 0x34010 e) (K := fun a => a = 0x34010) (sha384 r) fun i _ => by omega
    rw [hv, State.rn, hw.regs _ rfl, ← State.rn, State.setRn_rn, if_pos rfl]
  have hother {a : Nat} (h1 : a ≠ 0x34088) (h2 : a ≠ 0x34008) (h3 : a ≠ 0x34004) : (s.setConfig r e).rn a = v.rn a := by
    rw [he, State.setRf_rn_ne _ _ _ _ _ _ h1, State.setRn_rn, if_neg h2, State.setRn_rn, if_neg h3]
  refine ⟨?_, ?_, ?_, ?_, State.cfgDigest_of_rn (sha384_length r) fun i hi => ?_⟩
  · rw [hother (by decide) (by decide) (by decide), h10]
  · rw [he, State.setRf_rn_ne _ _ _ _ _ _ (by decide), State.setRn_rn, if_pos rfl]
    exact Nat.mod_eq_of_lt (cfgField_lt r 12 4)
  · rw [he, State.setRf_rf_same _ _ _ _ _ (by decide) (by decide)]
    exact Nat.mod_eq_of_lt (cfgField_lt r 9 1)
  · rw [he, State.setRf_rn_ne _ _ _ _ _ _ (by decide), State.setRn_rn, if_neg (by decide), State.setRn_rn, if_pos rfl]
  · rw [hother (by omega) (by omega) (by omega), hv, State.setDigest_rn _ _ hi]
end

/-! ### CFG_COMMIT (R381, R382) -/

theorem State.measure_length (s : State) (typ ab : Nat) : (s.measure typ ab).length = 48 := by
  simp only [State.measure]
  split
  · exact leBytes_length _ _
  · rw [FwSlot.bytes, List.length_map, List.length_range]

/-- The staged block is cleared. -/
def State.unstaged (s : State) : State := { s with fw := { s.fw with cfgStage := [] } }

/-- The record that CFG_COMMIT keeps: its fields, the staged block, the measurements of the images. -/
def State.commitRecord (s : State) (q : Req) (staged : SMap Byte) : List Byte :=
  q.p.drop 4 ++ ((List.range (q.u 68 4)).map fun i => SMap.get (fun _ => 0#8) staged i) ++ s.measure 0 (s.sec.active.getD 0 0) ++
    s.measure 2 (s.sec.active.getD 2 0) ++ s.measure 1 (s.sec.active.getD 1 0) ++ leBytes 2 1

/-- The record is put in the copy that is not the latest, and applied. -/
def State.commitConfig (s : State) (r : List Byte) (e : Nat) : State := ({ s with part := s.part.putConfig e r } : State).applyConfig r e

/-- CFG_COMMIT once its fields are good. -/
def State.commitGood (s : State) (q : Req) (staged : SMap Byte) : Ans :=
  if q.u 0 4 ≠ s.rn 0x34010 then fail stConflict 0 s
  else if s.multiJob then fail stBusyJob 0 s
  else
    let e := (s.rn 0x34010 + 1) % 2 ^ 32
    let t := s.commitConfig (s.commitRecord q staged) e
    ok (leBytes 4 e ++ t.cfgDigest) t

theorem State.commitGood_eq {s : State} {q : Req} (hep : q.u 0 4 = s.rn 0x34010) (hmj : s.multiJob = false) (staged : SMap Byte) :
    let t := s.commitConfig (s.commitRecord q staged) ((q.u 0 4 + 1) % 2 ^ 32)
    s.commitGood q staged = (good (leBytes 4 ((q.u 0 4 + 1) % 2 ^ 32) ++ t.cfgDigest), t) := by
  rw [State.commitGood, hep, if_neg (by simp), hmj]
  rfl

section
variable {s : State} {q : Req} (h8 : q.u 8 1 ≤ 1) (h9 : 1 ≤ q.u 9 1) (h9' : q.u 9 1 ≤ 50) (h10 : 2 ≤ q.u 10 1) (h10' : q.u 10 1 ≤ 15)
  (h11 : q.u 11 1 ≤ 15) (h12 : q.u 12 1 ≤ 3) (h13 : q.u 13 1 ≠ 0) (h14 : q.u 14 2 = 0) (h16 : 1 ≤ q.u 16 4 % 65536) (h16' : q.u 16 4 % 65536 ≤ 60000)
  (h18 : 1 ≤ q.u 16 4 / 65536) (h18' : q.u 16 4 / 65536 ≤ 60000) (h68 : q.u 68 4 ≤ 65536)
include h8 h9 h9' h10 h10' h11 h12 h13 h14 h16 h16' h18 h18' h68

theorem State.cfgCommit_eq (hep : q.u 0 4 = s.rn 0x34010) (hmj : s.multiJob = false) :
    let r := s.commitRecord q s.fw.cfgStage
    let t := s.unstaged.commitConfig r ((q.u 0 4 + 1) % 2 ^ 32)
    s.cfgCommit q = (good (leBytes 4 ((q.u 0 4 + 1) % 2 ^ 32) ++ t.cfgDigest), t) := by
  have hgood : firstBad [(8, decide (1 < q.u 8 1)), (9, !inR (q.u 9 1) 1 50), (10, !inR (q.u 10 1) 2 15), (11, decide (15 < q.u 11 1)),
      (12, decide (3 < q.u 12 1)), (13, q.u 13 1 == 0), (14, q.u 14 2 != 0), (16, !inR (q.u 16 4 % 65536) 1 60000 || !inR (q.u 16 4 / 65536) 1 60000),
      (68, decide (65536 < q.u 68 4))] = none := by
    rw [firstBad_none_iff]
    simp [inR, h8, h9, h9', h10, h10', h11, h12, h13, h14, h16, h16', h18, h18', h68]
  have hcommit : s.cfgCommit q = checked [(8, decide (1 < q.u 8 1)), (9, !inR (q.u 9 1) 1 50), (10, !inR (q.u 10 1) 2 15), (11, decide (15 < q.u 11 1)),
      (12, decide (3 < q.u 12 1)), (13, q.u 13 1 == 0), (14, q.u 14 2 != 0), (16, !inR (q.u 16 4 % 65536) 1 60000 || !inR (q.u 16 4 / 65536) 1 60000),
      (68, decide (65536 < q.u 68 4))] s.unstaged fun w => w.commitGood q s.fw.cfgStage := rfl
  rw [hcommit, checked_good hgood]
  exact State.commitGood_eq (s := s.unstaged) hep hmj _
end
end Sys2Proof.Machine
end

section
namespace Sys2Proof.Machine

/-- A field of the request's payload, in the record. -/
theorem cfgField_commitRecord {s : State} {q : Req} {st : SMap Byte} (hp : q.p.length = 72) {off n : Nat} (h : off + n ≤ 68) :
    cfgField (s.commitRecord q st) off n = q.u (off + 4) n := by
  have hlen : (q.p.drop 4).length = 68 := by rw [List.length_drop, hp]
  have hpre (x : List Byte) : ((q.p.drop 4 ++ x).drop off).take n = (q.p.drop (off + 4)).take n := by
    rw [List.drop_append_of_le_length (by omega), List.take_append_of_le_length (by rw [List.length_drop]; omega), List.drop_drop, Nat.add_comm 4 off]
  unfold cfgField State.commitRecord
  simp only [List.append_assoc]
  rw [hpre]
  rfl

theorem commitRecord_length {s : State} {q : Req} {st : SMap Byte} (hp : q.p.length = 72) (h : q.u 68 4 ≤ 65536) :
    (s.commitRecord q st).length ≤ 4080 * 32 := by
  simp only [State.commitRecord, List.length_append, List.length_drop, hp, List.length_map, List.length_range, State.measure_length, leBytes_length]
  omega

theorem commitRecord_fields {s : State} {q : Req} {st : SMap Byte} (hp : q.p.length = 72) : (s.commitRecord q st).take 68 = q.p.drop 4 := by
  have hlen : (q.p.drop 4).length = 68 := by rw [List.length_drop, hp]
  unfold State.commitRecord
  simp only [List.append_assoc]
  rw [List.take_append_of_le_length (le_of_eq hlen.symm), List.take_of_length_le (le_of_eq hlen)]

/-- The state once a record is kept and applied. -/
theorem State.commitConfig_spec (s : State) (r : List Byte) (e : Nat) : SameMem s (s.commitConfig r e) ∧ (s.commitConfig r e).part = s.part.putConfig e r ∧
    (s.commitConfig r e).fw = { s.fw with cfg := r } ∧ (s.commitConfig r e).rn 0x34010 = e % 2 ^ 32 ∧ (s.commitConfig r e).rn 0x34008 = cfgField r 12 4 ∧
    (s.commitConfig r e).rf 0x34088 15 8 = cfgField r 9 1 ∧
    (s.commitConfig r e).rn 0x34004 = (cfgField r 5 1 + cfgField r 6 1 * 256 + cfgField r 7 1 * 4096 + cfgField r 8 1 * 65536) % 2 ^ 32 ∧
    (s.commitConfig r e).cfgDigest = sha384 r := by
  obtain ⟨v, hv⟩ : ∃ v : State, v = { s with part := s.part.putConfig e r } := ⟨_, rfl⟩
  obtain ⟨f, hf⟩ := v.applyConfig_eq r e
  have he : s.commitConfig r e = v.applyConfig r e := by rw [hv]; rfl
  have hreg (a : Nat) : (s.commitConfig r e).reg a = (v.setConfig r e).reg a := by
    rw [he, hf]
    rfl
  have hrn (a : Nat) : (s.commitConfig r e).rn a = (v.setConfig r e).rn a := by
    rw [State.rn, hreg]
    rfl
  obtain ⟨h1, h2, h3, h4, h5⟩ := v.setConfig_spec r e
  have hpart : (s.commitConfig r e).part = v.part := by
    rw [he]
    exact State.applyConfig_part v r e
  have hmem : SameMem v (s.commitConfig r e) := by
    rw [he, hf]
    exact (wired_setConfig v r e).kept.1.trans (.of_store rfl)
  refine ⟨.trans (t := v) (hv ▸ .of_store rfl) hmem, by rw [hpart, hv], ?_, by rw [hrn, h1], by rw [hrn, h2], by rw [State.rf_congr (hreg _), h3], by rw [hrn, h4], ?_⟩
  · rw [he, hf, hv]
  · rw [← h5, State.cfgDigest, State.cfgDigest]
    simp only [hrn]

section
variable {s : State} {m : MailboxId} {q : Req} (hq : q = s.request m.val) (h : Serving s m.val 0x0203) (h8 : q.u 8 1 ≤ 1) (h9 : 1 ≤ q.u 9 1) (h9' : q.u 9 1 ≤ 50)
  (h10 : 2 ≤ q.u 10 1) (h10' : q.u 10 1 ≤ 15) (h11 : q.u 11 1 ≤ 15) (h12 : q.u 12 1 ≤ 3) (h13 : q.u 13 1 ≠ 0) (h14 : q.u 14 2 = 0)
  (h16 : 1 ≤ q.u 16 4 % 65536) (h16' : q.u 16 4 % 65536 ≤ 60000) (h18 : 1 ≤ q.u 16 4 / 65536) (h18' : q.u 16 4 / 65536 ≤ 60000) (h68 : q.u 68 4 ≤ 65536)
include hq h h8 h9 h9' h10 h10' h11 h12 h13 h14 h16 h16' h18 h18' h68

theorem completes_cfgCommit (hep : q.u 0 4 = s.rn 0x34010) (hmj : s.multiJob = false) :
    Completes (.cfgCommit m) s fun t => SameMem s t ∧
      (∃ d, Answered s t m.val 0x0203 (good d) ∧ byteN d 0 4 = (q.u 0 4 + 1) % 2 ^ 32 ∧ d.drop 4 = t.cfgDigest) ∧ t.rn 0x34010 = (q.u 0 4 + 1) % 2 ^ 32 ∧
      (t.part.cfgA = s.part.cfgA ∨ t.part.cfgB = s.part.cfgB) ∧ (q.u 0 4 + 1 < 2 ^ 32 →
        (∀ e r, configOf (s.part.cfgA.readable 1 PartReads.none) = some (e, r) ∨ configOf (s.part.cfgB.readable 2 PartReads.none) = some (e, r) → e ≤ q.u 0 4) →
        ∃ r, t.part.config PartReads.none = some (q.u 0 4 + 1, r) ∧ r.take 68 = q.p.drop 4 ∧ t.cfgDigest = sha384 r) ∧ t.fw.cfgStage = [] ∧
      t.rn 0x34008 = q.u 16 4 ∧ t.rf 0x34088 15 8 = q.u 13 1 ∧ t.rn 0x34004 = q.u 9 1 + q.u 10 1 * 256 + q.u 11 1 * 4096 + q.u 12 1 * 65536 := by
  have hb := Replied.begun m.val s
  obtain ⟨b, hbd⟩ : ∃ b, b = s.begun m.val := ⟨_, rfl⟩
  obtain ⟨r, hr⟩ : ∃ r, r = b.commitRecord q b.fw.cfgStage := ⟨_, rfl⟩
  obtain ⟨e, he⟩ : ∃ e, e = (q.u 0 4 + 1) % 2 ^ 32 := ⟨_, rfl⟩
  obtain ⟨u, hu⟩ : ∃ u, u = b.unstaged.commitConfig r e := ⟨_, rfl⟩
  have hlen : q.p.length = 72 := by
    rw [hq]
    exact h.length (by decide)
  have hepb : q.u 0 4 = b.rn 0x34010 := by
    rw [hbd, State.rn, hb.low (by decide)]
    exact hep
  have hmjb : b.multiJob = false := by rw [hbd]; exact hmj
  have hc : (s.begun m.val).command (s.request m.val) ServeIn.none = (good (leBytes 4 e ++ u.cfgDigest), u) := by
    have hcmd : (s.begun m.val).command (s.request m.val) ServeIn.none = b.cfgCommit q := by
      rw [hbd, hq]
      simp only [State.command, h.code]
    rw [hcmd, hu, hr, he]
    exact State.cfgCommit_eq h8 h9 h9' h10 h10' h11 h12 h13 h14 h16 h16' h18 h18' h68 hepb hmjb
  obtain ⟨hm, hpart, hfw, h1, h2, h3, h4, h5⟩ := b.unstaged.commitConfig_spec r e
  rw [← hu] at hm hpart hfw h1 h2 h3 h4 h5
  have hfield {off n : Nat} (ho : off + n ≤ 68) : cfgField r off n = q.u (off + 4) n := hr ▸ cfgField_commitRecord hlen ho
  have hbm : SameMem s u := hb.mem.trans (.trans (t := b.unstaged) (hbd ▸ .of_store rfl) hm)
  have hboxes : u.fw.boxes = s.fw.boxes := by
    rw [hfw, hbd]
    rfl
  have hptr : u.fw.ptr = (m.val + 1) % 16 := by
    rw [hfw, hbd]
    rfl
  have hstage : u.fw.cfgStage = [] := by
    rw [hfw]
    rfl
  have hpartb : b.unstaged.part = s.part := by
    rw [hbd]
    rfl
  obtain ⟨t, hex, hans, ht⟩ := h.completes (c := .cfgCommit m) rfl (by decide) hc (good_status _) hboxes hptr (P := Replied m.val u) fun t ht => ht
  have hrn {a : Nat} (ha : a < 0x78000) : t.rn a = u.rn a := by
    rw [State.rn, ht.low ha]
    rfl
  have hdig : t.cfgDigest = u.cfgDigest := by
    rw [State.cfgDigest, State.cfgDigest]
    refine congrArg List.flatten (List.map_congr_left fun i hi => ?_)
    rw [hrn (by have := List.mem_range.mp hi; omega)]
  have hpt : t.part = s.part.putConfig e r := by rw [ht.units.part, hpart, hpartb]
  have he32 : e < 2 ^ 32 := he ▸ Nat.mod_lt _ (by decide)
  refine ⟨t, hex, hbm.trans ht.mem, ⟨_, hans, ?_, ?_⟩, ?_, ?_, fun hlt hold => ?_, ?_, ?_, ?_, ?_⟩
  · have hbyte := byteN_field [] u.cfgDigest 4 e
    rw [List.nil_append] at hbyte
    refine hbyte.trans ?_
    rw [← he]
    exact Nat.mod_eq_of_lt he32
  · rw [hdig]
    exact List.drop_left' (leBytes_length 4 e)
  · rw [hrn (by decide), h1, ← he]
    exact Nat.mod_eq_of_lt he32
  · rw [hpt]
    exact Partition.putConfig_keeps _ _ _
  · have hee : e = q.u 0 4 + 1 := by rw [he, Nat.mod_eq_of_lt hlt]
    refine ⟨r, ?_, hr ▸ commitRecord_fields hlen, hdig.trans h5⟩
    rw [hpt, hee]
    exact Partition.config_putConfig (hr ▸ commitRecord_length hlen h68) fun e' r' hor => Nat.lt_succ_of_le (hold e' r' hor)
  · obtain ⟨x, y, z, w, htfw⟩ := ht.fw
    rw [htfw]
    exact hstage
  · rw [hrn (by decide), h2, hfield (by decide)]
  · rw [State.rf_congr (ht.low (by decide)), h3, hfield (by decide)]
  · rw [hrn (by decide), h4, hfield (by decide), hfield (by decide), hfield (by decide), hfield (by decide)]
    exact Nat.mod_eq_of_lt (show q.u 9 1 + q.u 10 1 * 256 + q.u 11 1 * 4096 + q.u 12 1 * 65536 < 2 ^ 32 by omega)
end
end Sys2Proof.Machine
end

section
namespace Sys2Proof.Machine

theorem Starts.imp {c : Instr} {s : State} {m op arg : Nat} {P Q : State → Prop} (h : Starts c s m op arg P) (hPQ : ∀ t, P t → Q t) :
    Starts c s m op arg Q := by
  obtain ⟨t, hex, hans, hop, hP⟩ := h
  exact ⟨t, hex, hans, hop, hPQ t hP⟩

section
variable {s : State} {m : MailboxId} {x : Tensor} (hx : s.tensor (s.arg m.val 0 4) = some x) (hst : x.state = 2 ∨ x.state = 6)
  (hp : ∀ y ∈ x.pieces, ∀ v ∈ pieceUnits (x.layout == 1) y.2.1,
    s.takes (s.arg m.val 0 4) y.1 (x.layout == 1) v = true ∨ s.holdsPiece (s.arg m.val 0 4) v = true) (hroom : s.opRoom = true)
include hx hst hp hroom

theorem starts_resLoad (h : Serving s m.val 0x0304) : Starts (.resLoad m) s m.val 0x0304 (s.arg m.val 0 4) fun t => (∀ k, t.cell k = s.cell k) ∧
    (t.tensor (s.arg m.val 0 4)).map (fun y => y.state) = some 3 ∧
      ∀ v ∈ x.units, s.holdsPiece (s.arg m.val 0 4) v = false → t.loads v := by
  have hcmd : (s.begun m.val).command (s.request m.val) ServeIn.none = (s.begun m.val).resStart (s.request m.val) false := by
    simp only [State.command, h.code]
  refine (starts_resStart (c := .resLoad m) hx hst hp hroom false h rfl (by decide) hcmd).imp fun t ht => ?_
  obtain ⟨hcell, hten, hload⟩ := ht
  exact ⟨hcell, hten, hload fun hf => absurd hf (by decide)⟩

theorem starts_resAdopt (h : Serving s m.val 0x0305) : Starts (.resAdopt m) s m.val 0x0305 (s.arg m.val 0 4) fun t => (∀ k, t.cell k = s.cell k) ∧
    (t.tensor (s.arg m.val 0 4)).map (fun y => y.state) = some 4 ∧
      ((∀ v ∈ x.units, s.tierState v ≠ stDormant) → ∀ v ∈ x.units, s.holdsPiece (s.arg m.val 0 4) v = false → t.loads v) := by
  have hcmd : (s.begun m.val).command (s.request m.val) ServeIn.none = (s.begun m.val).resStart (s.request m.val) true := by
    simp only [State.command, h.code]
  refine (starts_resStart (c := .resAdopt m) hx hst hp hroom true h rfl (by decide) hcmd).imp fun t ht => ?_
  obtain ⟨hcell, hten, hload⟩ := ht
  exact ⟨hcell, hten, fun hd => hload fun _ => hd⟩
end

/-- Settles O59: each command's request is served as the framework says (`Serving.completes`, `Serving.starts`), from the state
that the command itself leaves. -/
theorem ciandConfigurationResidencyAndJobs : Obligations.CiandConfigurationResidencyAndJobs := by
  unfold Obligations.CiandConfigurationResidencyAndJobs
  intro s m a p j sl n mine alone loads
  refine ⟨does_cfgStage, ?cfgCommit, ?localSet, does_resDefine, ?resPieces, ?resStart, ?resRelease, completes_resDiscard, ?jobAdmit, ?jobTensors,
    ?jobWindow, ?jobGraphStage, ?jobGraphLoad, ?jobStart, ?jobStop, ?jobResume, ?jobEnd⟩
  case cfgCommit =>
    intro h h8 h9 h9' h10 h10' h11 h12 h13 h14 h16 h16' h18 h18' h68 hep hmj
    exact completes_cfgCommit rfl h h8 h9 h9' h10 h10' h11 h12 h13 h14 h16 h16' h18 h18' h68 hep hmj
  case localSet => exact fun lo hi dflt hk h2 hlo hhi h => completes_localSet hk h2 hlo hhi h
  case resPieces =>
    intro x hx hst hfirst h1 h2 hend hgood hbad h ps
    exact ⟨fun hne => does_resPieces_more hx hst hfirst h1 h2 hend hgood hbad h rfl hne,
      fun z heq hbad2 hz => does_resPieces_done hx hst hfirst h1 h2 hend hgood hbad h rfl heq hbad2 hz⟩
  case resStart =>
    intro x hx hst hp hroom
    have hheld : ∀ y ∈ x.pieces, ∀ v ∈ pieceUnits (x.layout == 1) y.2.1, s.takes n y.1 (x.layout == 1) v = true ∨ s.holdsPiece n v = true :=
      fun y hy v hv => ((hp y hy).2 v hv).2
    exact ⟨starts_resLoad hx hst hheld hroom, starts_resAdopt hx hst hheld hroom⟩
  case resRelease => exact fun x hx h3 h4 h => does_resRelease hx h3 h4 h
  case jobAdmit => exact fun i hgood hsec hi hfree h => completes_jobAdmit rfl hgood hsec hi hfree h
  case jobTensors => exact fun ⟨h, hj, ha⟩ hst h1 hd hgood htwin => does_jobTensors hj ha h hst h1 rfl hd hgood htwin
  case jobWindow =>
    exact fun w ⟨h, hj, ha⟩ h1 h2 h4 h12 h12' h16 hend hwin hact hw => completes_jobWindow hj ha h h1 h2 h4 h12 h12' h16 hend hwin hact hw
  case jobGraphStage => exact fun ⟨h, hj, ha⟩ hg h2 hlen => does_jobGraphStage hj ha h hg h2 hlen
  case jobGraphLoad => exact fun ⟨h, hj, ha⟩ hroom => starts_jobGraphLoad hj ha h hroom
  case jobStart => exact fun ⟨h, hj, ha⟩ hg hst hr => does_jobStart hj ha h hg hst hr
  case jobStop => exact fun ⟨h, hj, ha⟩ hst => does_jobStop hj ha h hst
  case jobResume => exact fun ⟨h, hj, ha⟩ hst => does_jobResume hj ha h hst
  case jobEnd => exact fun ⟨h, hj, ha⟩ => does_jobEnd hj ha h
end Sys2Proof.Machine
end

section
namespace Sys2Proof.Machine

/-! ### Events that an aggregator or firmware holds (R390, R412) -/

theorem mem_of_mergeHeld {r : Report} {l l' : List Report} (h : mergeHeld r l = some l') :
    ∃ x ∈ l', x.code = r.code ∧ x.kind = r.kind ∧ x.unit = r.unit := by
  induction l generalizing l' with
  | nil => exact absurd h (by simp [mergeHeld])
  | cons y l ih =>
    rw [mergeHeld] at h
    split at h
    · cases h
      exact ⟨_, List.mem_cons_self, ‹_›⟩
    · obtain ⟨l1, h1, rfl⟩ := Option.map_eq_some_iff.mp h
      obtain ⟨x, hx, hr⟩ := ih h1
      exact ⟨x, List.mem_cons_of_mem _ hx, hr⟩

/-- An event that is raised is held, by firmware or by an aggregator. -/
theorem State.report_heard (s : State) (r : Report) : (s.report r).Heard r.code r.kind r.unit := by
  have hdirect (t : State) : ({ t with fw := { t.fw with reports := t.fw.reports ++ [r] } } : State).Heard r.code r.kind r.unit :=
    .inl ⟨r, List.mem_append_right _ List.mem_cons_self, rfl, rfl, rfl⟩
  simp only [State.report]
  split
  · exact hdirect s
  · next g _ =>
    split
    · exact hdirect s
    · split
      · next l h =>
        obtain ⟨x, hx, hr⟩ := mem_of_mergeHeld h
        exact .inr ⟨g, x, by simpa using hx, hr⟩
      · exact .inr ⟨g, r, by simp, rfl, rfl, rfl⟩

theorem State.Heard.of_eq {s t : State} {c k u : Nat} (h : s.Heard c k u) (hf : t.fw = s.fw) (ha : t.aggs = s.aggs) : t.Heard c k u := by
  rw [State.Heard, hf, ha]
  exact h

/-! ### One change among many -/

/-- Of changes made in turn, each at its own place: what holds until the one at x, and what holds after it. -/
theorem State.each_at {α : Type} {f : State → α → State} {x : α} {P Q : State → Prop} {l : List α} (hl : l.Nodup) (hx : x ∈ l)
    (hbefore : ∀ s, ∀ y ∈ l, y ≠ x → P s → P (f s y)) (hself : ∀ s, P s → Q (f s x))
    (hafter : ∀ s, ∀ y ∈ l, y ≠ x → Q s → Q (f s y)) {s : State}
    (h : P s) : Q (s.each f l) := by
  induction l generalizing s with
  | nil => cases hx
  | cons y l ih =>
    obtain ⟨hy, hl⟩ := List.nodup_cons.mp hl
    rw [State.each_cons]
    by_cases hyx : y = x
    · subst hyx
      exact State.each_pred_mem Q f l (fun t z hz => hafter t z (List.mem_cons_of_mem _ hz) fun he => hy (he ▸ hz)) _ (hself s h)
    · exact ih hl ((List.mem_cons.mp hx).resolve_left (Ne.symm hyx)) (fun t z hz => hbefore t z (List.mem_cons_of_mem _ hz))
        (fun t z hz => hafter t z (List.mem_cons_of_mem _ hz)) (hbefore s y List.mem_cons_self hyx h)

end Sys2Proof.Machine
end

section
namespace Sys2Proof.Machine

/-! ### The clocks of blocks (R537, R550, R551) -/

/-- Of the registers of the blocks in B, clock status and stretch count have changed, and their stretching; nothing else. -/
structure Clocked (B : Nat → Prop) (s t : State) : Prop where
  rest  : ∃ r d, t = { s with store := { s.store with regs := r }, pwr := { s.pwr with droop := d } }
  regs  : ∀ a, (∀ b, B b → a ≠ clkReg b 4 ∧ a ≠ clkReg b 8) → t.reg a = s.reg a
  droop : ∀ b, ¬ B b → ∀ x : Nat × Nat × Nat, x.1 = b → (x ∈ t.pwr.droop ↔ x ∈ s.pwr.droop)

namespace Clocked
variable {B : Nat → Prop} {s t u : State}
theorem refl (B : Nat → Prop) (s : State) : Clocked B s s := ⟨⟨_, _, rfl⟩, fun _ _ => rfl, fun _ _ _ _ => .rfl⟩
theorem trans (h : Clocked B s t) (h' : Clocked B t u) : Clocked B s u := by
  obtain ⟨r, d, h1⟩ := h.rest
  obtain ⟨r', d', h2⟩ := h'.rest
  exact ⟨⟨r', d', by rw [h2, h1]⟩, fun a ha => (h'.regs a ha).trans (h.regs a ha),
    fun b hb x hx => (h'.droop b hb x hx).trans (h.droop b hb x hx)⟩
theorem mono {C : Nat → Prop} (h : Clocked B s t) (hC : ∀ b, B b → C b) : Clocked C s t :=
  ⟨h.rest, fun a ha => h.regs a fun b hb => ha b (hC b hb), fun b hb => h.droop b fun hB => hb (hC b hB)⟩
theorem each {α : Type} {f : State → α → State} {l : List α} (h : ∀ s, ∀ x ∈ l, Clocked B s (f s x)) (s : State) : Clocked B s (s.each f l) :=
  State.each_pred_mem (fun t => Clocked B s t) f l (fun t x hx ht => ht.trans (h t x hx)) s (refl B s)

section
variable (h : Clocked B s t)
include h
theorem mem : SameMem s t := by obtain ⟨_, _, rfl⟩ := h.rest; exact ⟨fun _ => rfl, fun sp _ => by cases sp <;> rfl, fun _ => rfl⟩
theorem supplies : t.pwr.supplies = s.pwr.supplies := by obtain ⟨_, _, rfl⟩ := h.rest; rfl
theorem supply (g : Nat) : t.supply g = s.supply g := by rw [State.supply, h.supplies]; rfl
theorem fw : t.fw = s.fw := by obtain ⟨_, _, rfl⟩ := h.rest; rfl
theorem aggs : t.aggs = s.aggs := by obtain ⟨_, _, rfl⟩ := h.rest; rfl
theorem tile (n : Nat) : t.tile n = s.tile n := by obtain ⟨_, _, rfl⟩ := h.rest; rfl
/-- Registers below the blocks' clocks, and those of regions and blocks, stay. -/
theorem regs_of {a : Nat} (ha : a < 0x330000) : t.reg a = s.reg a := h.regs a fun b _ => by simp only [clkReg]; omega
end
end Clocked

theorem clkReg_inj {b b' x x' : Nat} (hx : x < 0x100) (hx' : x' < 0x100) (h : clkReg b x = clkReg b' x') : b = b' ∧ x = x' := by
  simp only [clkReg] at h
  omega

section
variable (s : State) (b : Nat)

theorem clocked_setRn {x : Nat} (hx : x = 4 ∨ x = 8) (n : Nat) : Clocked (· = b) s (s.setRn (clkReg b x) n) := by
  refine ⟨⟨_, _, rfl⟩, fun a ha => ?_, fun _ _ _ _ => .rfl⟩
  rw [State.setRn_reg, if_neg]
  obtain rfl | rfl := hx
  · exact (ha b rfl).1
  · exact (ha b rfl).2

theorem clocked_clkMove (n : Nat) : Clocked (· = b) s (s.clkMove n b) := by
  simp only [State.clkMove]
  split
  · exact .refl _ s
  · exact clocked_setRn s b (.inl rfl) _

/-- The stretching of block b is written. -/
theorem clocked_droop {d : List (Nat × Nat × Nat)} (h : ∀ x : Nat × Nat × Nat, x.1 ≠ b → (x ∈ d ↔ x ∈ s.pwr.droop)) :
    Clocked (· = b) s { s with pwr := { s.pwr with droop := d } } :=
  ⟨⟨_, _, rfl⟩, fun _ _ => rfl, fun _ hc x hx => h x (hx ▸ hc)⟩

/-- The stretching of one block ends or goes on; that of the others stays. -/
theorem mem_restretched {b : Nat} {x : Nat × Nat × Nat} (hx : x.1 ≠ b) (l : List (Nat × Nat × Nat)) (c : Prop) [Decidable c] (e : Nat × Nat) :
    (x ∈ if c then l.filter fun x => x.1 != b else (l.filter fun x => x.1 != b) ++ [(b, e)]) ↔ x ∈ l := by
  have hl : x ∈ (l.filter fun x => x.1 != b) ↔ x ∈ l := List.mem_filter.trans (and_iff_left (bne_iff_ne.mpr hx))
  split
  · exact hl
  · exact List.mem_append.trans ((or_iff_left fun he => hx (congrArg Prod.fst (List.mem_singleton.mp he))).trans hl)

theorem clocked_stretch : Clocked (· = b) s (s.stretch b) := by
  simp only [State.stretch]
  split
  · exact .refl _ s
  · split
    · split
      · refine (clocked_droop s b fun x hx => ?_).trans (clocked_setRn _ b (.inl rfl) _)
        rw [List.mem_append, List.mem_singleton]
        exact or_iff_left fun he => hx (congrArg Prod.fst he)
      · exact .refl _ s
    · have hbit (t : State) (n : Nat) : Clocked (· = b) t (if n = 0 then t else t.setBit (clkReg b 4) 16) ∧
          (if n = 0 then t else t.setBit (clkReg b 4) 16).pwr.droop = t.pwr.droop := by
        split
        · exact ⟨.refl _ t, rfl⟩
        · exact ⟨clocked_setRn t b (.inl rfl) _, rfl⟩
      have hbump (n : Nat) : Clocked (· = b) s (s.bump (clkReg b 8) 31 0 n) := clocked_setRn s b (.inr rfl) _
      refine ((hbump _).trans (hbit _ _).1).trans (clocked_droop _ b fun x hx => (mem_restretched hx _ _ _).trans ?_)
      rw [(hbit _ _).2]

/-- One nanosecond of a block's clock: its stretching, and the limit of its voltage (R537, R551). -/
def State.sampleClock : State := (s.stretch b).clkMove 0 b

theorem clocked_sampleClock : Clocked (· = b) s (s.sampleClock b) := (clocked_stretch s b).trans (clocked_clkMove _ b 0)
end

section
variable {s : State} {b : Nat} (hon : s.bstate b = pdOn)
include hon

/-- Stretching leaves frequency and switch of the block. -/
theorem State.stretch_rf {hi lo : Nat} (h' : lo ≤ hi) (hd : hi < 16) : (s.stretch b).rf (clkReg b 4) hi lo = s.rf (clkReg b 4) hi lo := by
  have hbit (t : State) : (t.setBit (clkReg b 4) 16).rf (clkReg b 4) hi lo = t.rf (clkReg b 4) hi lo :=
    State.setRf_rf_other t _ _ _ _ _ _ (by decide) (by decide) h' (.inl hd)
  have hne : clkReg b 4 ≠ clkReg b 8 := fun h => by simp [clkReg] at h
  have hbump (t : State) (n : Nat) : (t.bump (clkReg b 8) 31 0 n).rf (clkReg b 4) hi lo = t.rf (clkReg b 4) hi lo :=
    State.setRf_rf_ne t _ _ _ _ _ _ _ hne
  simp only [State.stretch, hon]
  split
  · exact absurd rfl ‹_›
  · split
    · split
      · exact hbit _
      · rfl
    · split
      · exact hbump _ _
      · exact (hbit _).trans (hbump _ _)

/-- A block that was not stretching and reads low begins to (R551). -/
theorem State.stretch_begins (hd : ∀ x ∈ s.pwr.droop, x.1 ≠ b) (hlow : ∃ v ∈ s.blockVolts b, v + 40 < s.rf (railReg (b / 16) 0) 25 16) :
    (∃ x ∈ (s.stretch b).pwr.droop, x.1 = b) ∧ (s.stretch b).rbit (clkReg b 4) 16 = true := by
  have hnone : s.pwr.droop.find? (fun x => x.1 = b) = none := List.find?_eq_none.mpr fun x hx => by simpa using hd x hx
  have hany : (s.blockVolts b).any (fun v => decide (v + 40 < s.rf (railReg (b / 16) 0) 25 16)) = true := by simpa using hlow
  have he : s.stretch b = (({ s with pwr := { s.pwr with droop := s.pwr.droop ++ [(b, 0, 0)] } } : State).setBit (clkReg b 4) 16) := by
    simp only [State.stretch, hon, hnone, hany, ne_eq, not_true, if_false, if_true]
  rw [he]
  exact ⟨⟨(b, 0, 0), List.mem_append_right _ List.mem_cons_self, rfl⟩, State.setBit_rbit _ _ _ (by decide)⟩

/-- With no step allowed, a clock only falls to what its voltage allows (R537). -/
theorem State.clkMove_zero_rf {x : Nat} {l : List Nat} (hv : s.blockVolts b = x :: l) :
    (s.clkMove 0 b).rf (clkReg b 4) 5 0 = min (s.rf (clkReg b 4) 5 0) (vfAllowed (least x l)) := by
  have hf : s.rf (clkReg b 4) 5 0 < 64 := Nat.mod_lt _ (by decide)
  have hsame (f lim : Nat) : (if f < lim then min lim (f + 0) else max lim (f - 0)) = f := by
    split <;> omega
  simp only [State.clkMove, hon, hv, ne_eq, not_true, if_false, hsame]
  rw [State.setRf_rf_same _ _ _ _ _ (by decide) (by decide)]
  exact Nat.mod_eq_of_lt (lt_of_le_of_lt (min_le_left _ _) hf)
end

theorem State.clkMove_droop (s : State) (n b : Nat) : (s.clkMove n b).pwr.droop = s.pwr.droop := by
  simp only [State.clkMove]
  split <;> rfl

theorem State.clkMove_stretched (s : State) (n b : Nat) : (s.clkMove n b).rbit (clkReg b 4) 16 = s.rbit (clkReg b 4) 16 := by
  simp only [State.clkMove]
  split
  · rfl
  · rw [State.rbit, State.setRf_rf_other _ _ _ _ _ _ _ (by decide) (by decide) (le_refl 16) (.inr (by decide))]
    rfl
end Sys2Proof.Machine
end

section
namespace Sys2Proof.Machine

/-! ### VOLTAGE_SENSOR_SAMPLE (R537 to R539, R551) -/

section
variable (s : State) (g : Nat)

/-- A sample below RAIL_MIN lowers it and captures the time (R538, R539). -/
def State.lowerMin (m : Nat) : State :=
  if m < s.rf (railReg g 4) 15 0 then ((s.setRf (railReg g 4) 15 0 m).setRn (railReg g 8) (s.time % 2 ^ 32)).setRn (railReg g 12) (s.time / 2 ^ 32)
  else s

/-- A rail whose minimum is 60 mV under its setpoint is reported once (R538). -/
def State.warnMin : State :=
  if s.rf (railReg g 4) 15 0 + 60 < s.rf (railReg g 0) 25 16 ∧ !(s.supply g).warned then
    (s.setSupply g { s.supply g with warned := true }).raise 0x0702 3 g
  else s

/-- A region's readings are shown. -/
def State.sampleVolts (v : Nat) (l : List Nat) : State :=
  ((s.setSupply g { s.supply g with volts := v :: l }).lowerMin g (least v l)).warnMin g
end

theorem exec_voltageSensorSample {s : State} {g : RegionId} {v : Nat} {l : List Nat} (hon : s.railState g.val = pdOn) (hl : l.length = 63) :
    exec (.voltageSensorSample g (v :: l)) s =
      .next ((s.sampleVolts g.val v l).each (fun s i => s.sampleClock (g.val * 16 + i)) (List.range 16)) := by
  show execVoltageSensorSample g (v :: l) s = _
  simp only [execVoltageSensorSample, hon, hl, beq_self_eq_true, Bool.and_self, whenever_true]
  rfl

/-- What a region's readings leave: memories, the other registers of the chip, stretching, and the setpoint. -/
structure RailShown (g : Nat) (s t : State) : Prop where
  mem   : SameMem s t
  droop : t.pwr.droop = s.pwr.droop
  regs  : ∀ a, a ∉ [railReg g 4, railReg g 8, railReg g 12] → (∀ g, a ≠ regionReg g 0x5004) → t.reg a = s.reg a

section
variable {s : State} {g v : Nat} {l : List Nat}

theorem railReg_ne {x y : Nat} (h : x ≠ y) : railReg g x ≠ railReg g y := fun he => h (Nat.add_left_cancel he)

theorem railReg_ne_regionReg (hg : g < 16) {x : Nat} (hx : x < 0x1000) (k : Nat) : railReg g x ≠ regionReg k 0x5004 := by
  simp only [railReg, regionReg]
  omega

theorem State.lowerMin_spec (m : Nat) : let t := s.lowerMin g m
    RailShown g s t ∧ t.pwr = s.pwr ∧ t.rf (railReg g 4) 15 0 = min (s.rf (railReg g 4) 15 0) m ∧
    (m < s.rf (railReg g 4) 15 0 → t.rn (railReg g 8) = s.time % 2 ^ 32 ∧ t.rn (railReg g 12) = s.time / 2 ^ 32 % 2 ^ 32) ∧
    (s.rf (railReg g 4) 15 0 ≤ m → t = s) := by
  intro t
  by_cases h : m < s.rf (railReg g 4) 15 0
  · have ht : t = ((s.setRf (railReg g 4) 15 0 m).setRn (railReg g 8) (s.time % 2 ^ 32)).setRn (railReg g 12) (s.time / 2 ^ 32) := if_pos h
    have h16 : s.rf (railReg g 4) 15 0 < 2 ^ 16 := Nat.mod_lt _ (by decide)
    refine ⟨⟨?_, ?_, fun a ha _ => ?_⟩, ?_, ?_, fun _ => ⟨?_, ?_⟩, fun h' => absurd h (Nat.not_lt.mpr h')⟩
    · rw [ht]; exact (sameMem_setRf s _ _ _ _).trans ((sameMem_setRn _ _ _).trans (sameMem_setRn _ _ _))
    · rw [ht]; rfl
    · obtain ⟨h4, h8, h12⟩ : a ≠ railReg g 4 ∧ a ≠ railReg g 8 ∧ a ≠ railReg g 12 := by simpa using ha
      rw [ht, State.setRn_reg, if_neg h12, State.setRn_reg, if_neg h8, State.setRf_reg_ne _ _ _ _ _ _ h4]
    · rw [ht]; rfl
    · rw [ht, State.rf, State.setRn_rn, if_neg (railReg_ne (by decide)), State.setRn_rn, if_neg (railReg_ne (by decide))]
      refine (State.setRf_rf_same s _ _ _ _ (by decide) (by decide)).trans ?_
      rw [min_eq_right h.le]
      exact Nat.mod_eq_of_lt (h.trans h16)
    · rw [ht, State.setRn_rn, if_neg (railReg_ne (by decide)), State.setRn_rn, if_pos rfl, Nat.mod_mod]
    · rw [ht, State.setRn_rn, if_pos rfl]
  · have ht : t = s := if_neg h
    rw [ht]
    exact ⟨⟨.refl s, rfl, fun _ _ _ => rfl⟩, rfl, (min_eq_left (Nat.not_lt.mp h)).symm, fun h' => absurd h' h, fun _ => rfl⟩

theorem State.warnMin_spec : let t := s.warnMin g
    RailShown g s t ∧ (t.supply g).volts = (s.supply g).volts ∧ (∀ a, (∀ g, a ≠ regionReg g 0x5004) → t.reg a = s.reg a) ∧
    (s.rf (railReg g 4) 15 0 + 60 < s.rf (railReg g 0) 25 16 → (s.supply g).warned = false → t.Heard 0x0702 3 g ∧ (t.supply g).warned = true) := by
  intro t
  by_cases h : s.rf (railReg g 4) 15 0 + 60 < s.rf (railReg g 0) 25 16 ∧ (!(s.supply g).warned) = true
  · obtain ⟨u, hu⟩ : ∃ u, u = s.setSupply g { s.supply g with warned := true } := ⟨_, rfl⟩
    have hsu : u.supply g = { s.supply g with warned := true } := by rw [hu, State.setSupply_get, if_pos rfl]
    have ht : t = u.raise 0x0702 3 g := by rw [hu]; exact if_pos h
    have hmem : SameMem s u := hu ▸ .of_store rfl
    have hregs (a : Nat) (ha : ∀ g, a ≠ regionReg g 0x5004) : t.reg a = s.reg a := by
      rw [ht, State.raise, State.report_reg_of_ne _ _ ha, hu]; rfl
    refine ⟨⟨ht ▸ hmem.trans (sameMem_raise u _ _ _), ?_, fun a _ => hregs a⟩, ?_, hregs, fun _ _ => ⟨?_, ?_⟩⟩
    · rw [ht, State.raise_pwr, hu]; rfl
    · rw [ht, State.raise_supply, hsu]
    · rw [ht]; exact State.report_heard u _
    · rw [ht, State.raise_supply, hsu]
  · have ht : t = s := if_neg h
    rw [ht]
    exact ⟨⟨.refl s, rfl, fun _ _ _ => rfl⟩, rfl, fun _ _ => rfl, fun h1 h2 => absurd ⟨h1, by rw [h2]; rfl⟩ h⟩

/-- What a region's readings do before its clocks follow them (R538, R539). -/
theorem State.sampleVolts_spec (hg : g < 16) (v : Nat) (l : List Nat) : let t := s.sampleVolts g v l
    let old := s.rf (railReg g 4) 15 0
    RailShown g s t ∧ (t.supply g).volts = v :: l ∧ t.rf (railReg g 4) 15 0 = min old (least v l) ∧
    (least v l < old → t.rn (railReg g 8) = s.time % 2 ^ 32 ∧ t.rn (railReg g 12) = s.time / 2 ^ 32 % 2 ^ 32) ∧
    (old ≤ least v l → t.reg (railReg g 8) = s.reg (railReg g 8) ∧ t.reg (railReg g 12) = s.reg (railReg g 12)) ∧
    (min old (least v l) + 60 < s.rf (railReg g 0) 25 16 → (s.supply g).warned = false → t.Heard 0x0702 3 g ∧ (t.supply g).warned = true) := by
  intro t old
  obtain ⟨u, hu⟩ : ∃ u, u = s.setSupply g { s.supply g with volts := v :: l } := ⟨_, rfl⟩
  have hsup : u.supply g = { s.supply g with volts := v :: l } := by rw [hu, State.setSupply_get, if_pos rfl]
  have hreg (a : Nat) : u.reg a = s.reg a := by rw [hu]; rfl
  have htime : u.time = s.time := by rw [hu]; rfl
  have hold : u.rf (railReg g 4) 15 0 = old := State.rf_congr (hreg _) _ _
  obtain ⟨hlow, hpwr, hmin, htimes, hsame⟩ := u.lowerMin_spec (g := g) (least v l)
  obtain ⟨w, hw⟩ : ∃ w, w = u.lowerMin g (least v l) := ⟨_, rfl⟩
  rw [← hw] at hlow hpwr hmin htimes hsame
  have ht : t = w.warnMin g := by rw [hw, hu]; rfl
  have hwsup : w.supply g = u.supply g := by rw [State.supply, hpwr]; rfl
  obtain ⟨hwarn, hvolts, hregs, htell⟩ := w.warnMin_spec (g := g)
  rw [← ht] at hwarn hvolts hregs htell
  have hrail {x : Nat} (hx : x < 0x1000) : t.reg (railReg g x) = w.reg (railReg g x) := hregs _ (railReg_ne_regionReg hg hx)
  have hset : w.rf (railReg g 0) 25 16 = s.rf (railReg g 0) 25 16 :=
    State.rf_congr ((hlow.regs _ (by simp [railReg_ne]) (railReg_ne_regionReg hg (by decide))).trans (hreg _)) _ _
  rw [hold, htime] at htimes
  rw [hold] at hmin hsame
  rw [hmin, hset, hwsup, hsup] at htell
  refine ⟨⟨?_, ?_, fun a h1 h2 => ?_⟩, ?_, ?_, fun h => ?_, fun h => ?_, htell⟩
  · exact (SameMem.of_store (by rw [hu]; rfl)).trans (hlow.mem.trans hwarn.mem)
  · rw [hwarn.droop, hlow.droop, hu]; rfl
  · rw [hwarn.regs a h1 h2, hlow.regs a h1 h2, hreg]
  · rw [hvolts, hwsup, hsup]
  · rw [State.rf_congr (hrail (by decide)) _ _, hmin]
  · rw [State.rn, hrail (by decide), State.rn, hrail (by decide)]
    exact htimes h
  · rw [hrail (by decide), hrail (by decide), hsame h]
    exact ⟨hreg _, hreg _⟩
end

section
variable {s : State} {g i : Nat}

/-- The clock of block b has followed the readings of s (R537, R551). -/
structure ClockFollows (b : Nat) (s t : State) : Prop where
  limit   : ∀ x y, s.blockVolts b = x :: y → t.rf (clkReg b 4) 5 0 = min (s.rf (clkReg b 4) 5 0) (vfAllowed (least x y))
  stretch : (∀ x ∈ s.pwr.droop, x.1 ≠ b) → (∃ v ∈ s.blockVolts b, v + 40 < s.rf (railReg (b / 16) 0) 25 16) →
    (∃ x ∈ t.pwr.droop, x.1 = b) ∧ t.rbit (clkReg b 4) 16 = true

theorem clockFollows_sampleClock {t : State} {b : Nat} (hon : t.bstate b = pdOn) : ClockFollows b t (t.sampleClock b) := by
  have hon' : (t.stretch b).bstate b = pdOn := (State.stretch_rf hon (by decide) (by decide)).trans hon
  have hvolts : (t.stretch b).blockVolts b = t.blockVolts b := by
    simp only [State.blockVolts, (clocked_stretch t b).supply]
  refine ⟨fun x y hv => ?_, fun hd hlow => ?_⟩
  · rw [State.sampleClock, State.clkMove_zero_rf hon' (hvolts.trans hv), State.stretch_rf hon (by decide) (by decide)]
  · rw [State.sampleClock, State.clkMove_droop, State.clkMove_stretched]
    exact State.stretch_begins hon hd hlow

/-- The clocks of a region follow its sample, each on its own. -/
theorem clockFollows_each (hg : g < 16) (hi : i < 16) (hon : s.bstate (g * 16 + i) = pdOn) :
    ClockFollows (g * 16 + i) s (s.each (fun s i => s.sampleClock (g * 16 + i)) (List.range 16)) := by
  obtain ⟨b, hb⟩ : ∃ b, b = g * 16 + i := ⟨_, rfl⟩
  rw [← hb] at hon ⊢
  have hapart {y : Nat} (hy : y ≠ i) : b ≠ g * 16 + y := fun he => hy (by omega)
  refine State.each_at (x := i) (P := Clocked (· ≠ b) s) (Q := ClockFollows b s) List.nodup_range (List.mem_range.mpr hi)
    (fun t y _ hy ht => ?before) (fun t ht => ?self) (fun t y _ hy ht => ?after) (.refl _ s)
  case before => exact ht.trans ((clocked_sampleClock t _).mono fun c hc => hc ▸ (hapart hy).symm)
  case self =>
    have hreg : t.reg (clkReg b 4) = s.reg (clkReg b 4) :=
      ht.regs _ fun c hc => ⟨fun he => hc (clkReg_inj (by decide) (by decide) he).1.symm, fun he => hc (clkReg_inj (by decide) (by decide) he).1.symm⟩
    have hvolts : t.blockVolts b = s.blockVolts b := by simp only [State.blockVolts, ht.supply]
    obtain ⟨h1, h2⟩ := clockFollows_sampleClock (t := t) (b := b) ((State.rf_congr hreg _ _).trans hon)
    rw [hvolts, State.rf_congr hreg] at h1
    rw [hvolts, State.rf_congr (ht.regs_of (by simp only [railReg]; omega))] at h2
    show ClockFollows b s (t.sampleClock (g * 16 + i))
    rw [← hb]
    refine ⟨h1, fun hd => h2 fun x hx he => ?_⟩
    exact hd x ((ht.droop b (fun h => h rfl) x he).mp hx) he
  case after =>
    obtain ⟨h1, h2⟩ := ht
    have hc := clocked_sampleClock t (g * 16 + y)
    have hreg : (t.sampleClock (g * 16 + y)).reg (clkReg b 4) = t.reg (clkReg b 4) :=
      hc.regs _ fun c hc => ⟨fun he => hapart hy ((clkReg_inj (by decide) (by decide) he).1.trans hc),
        fun he => hapart hy ((clkReg_inj (by decide) (by decide) he).1.trans hc)⟩
    refine ⟨fun x l hv => (State.rf_congr hreg _ _).trans (h1 x l hv), fun hd hlow => ?_⟩
    rw [State.rbit_congr hreg]
    obtain ⟨⟨x, hx, he⟩, hbit⟩ := h2 hd hlow
    exact ⟨⟨x, (hc.droop b (hapart hy) x he).mpr hx, he⟩, hbit⟩
end

/-- VOLTAGE_SENSOR_SAMPLE. -/
theorem completes_voltageSensorSample {s : State} {g : RegionId} {v : Nat} {l : List Nat} (hon : s.railState g.val = pdOn) (hl : l.length = 63) :
    Completes (.voltageSensorSample g (v :: l)) s fun t =>
      let min' := railReg g.val 4
      SameMem s t ∧ (t.supply g.val).volts = v :: l ∧ t.rf min' 15 0 = min (s.rf min' 15 0) (least v l) ∧
      (least v l < s.rf min' 15 0 → t.rn (railReg g.val 8) = s.time % 2 ^ 32 ∧ t.rn (railReg g.val 12) = s.time / 2 ^ 32 % 2 ^ 32) ∧
      (s.rf min' 15 0 ≤ least v l → t.reg (railReg g.val 8) = s.reg (railReg g.val 8) ∧ t.reg (railReg g.val 12) = s.reg (railReg g.val 12)) ∧
      (min (s.rf min' 15 0) (least v l) + 60 < s.rf (railReg g.val 0) 25 16 → (s.supply g.val).warned = false →
        t.Heard 0x0702 3 g.val ∧ (t.supply g.val).warned = true) ∧
      ∀ i < 16, let b := g.val * 16 + i
        let four := ((v :: l).drop (4 * i)).take 4
        s.bstate b = pdOn → (∀ x y, four = x :: y → t.rf (clkReg b 4) 5 0 = min (s.rf (clkReg b 4) 5 0) (vfAllowed (least x y))) ∧
          ((∀ x ∈ s.pwr.droop, x.1 ≠ b) → (∃ x ∈ four, x + 40 < s.rf (railReg g.val 0) 25 16) →
            (∃ x ∈ t.pwr.droop, x.1 = b) ∧ t.rbit (clkReg b 4) 16 = true) := by
  obtain ⟨hshown, hvolts, hmin, htime, hsame, htell⟩ := s.sampleVolts_spec g.isLt v l
  refine ⟨_, exec_voltageSensorSample hon hl, ?_⟩
  generalize hu : s.sampleVolts g.val v l = u at *
  have hclk : Clocked (fun _ => True) u (u.each (fun s i => s.sampleClock (g.val * 16 + i)) (List.range 16)) :=
    .each (fun t i _ => (clocked_sampleClock t _).mono fun _ _ => trivial) u
  have hrail (x : Nat) (hx : x < 0x1000) := hclk.regs_of (a := railReg g.val x) (by have := g.isLt; simp only [railReg]; omega)
  refine ⟨hshown.mem.trans hclk.mem, ?_, ?_, fun h => ?_, fun h => ?_, fun h1 h2 => ?_, fun i hi => ?_⟩
  · rw [hclk.supply, hvolts]
  · rw [State.rf_congr (hrail 4 (by decide)), hmin]
  · rw [State.rn, hrail 8 (by decide), State.rn, hrail 12 (by decide)]
    exact htime h
  · rw [hrail 8 (by decide), hrail 12 (by decide)]
    exact hsame h
  · rw [hclk.supply]
    exact ⟨(htell h1 h2).1.of_eq hclk.fw hclk.aggs, (htell h1 h2).2⟩
  · intro b four hb
    have hreg {a : Nat} (ha : a ∉ [railReg g.val 4, railReg g.val 8, railReg g.val 12]) (ha' : a < 0x2000000) : u.reg a = s.reg a :=
      hshown.regs a ha fun k => by simp only [regionReg]; omega
    have hclk4 : u.reg (clkReg b 4) = s.reg (clkReg b 4) := hreg (by have := g.isLt; simp only [clkReg, railReg, List.mem_cons, List.not_mem_nil, or_false]; omega)
      (by have := g.isLt; simp only [b, clkReg]; omega)
    have hctl : u.reg (railReg g.val 0) = s.reg (railReg g.val 0) := hreg (by simp [railReg]) (by have := g.isLt; simp only [railReg]; omega)
    have hb16 : b / 16 = g.val ∧ b % 16 * 4 = 4 * i := by omega
    have hfour : u.blockVolts b = four := by rw [State.blockVolts, hb16.1, hb16.2, hvolts]
    obtain ⟨h1, h2⟩ := clockFollows_each (s := u) g.isLt hi ((State.rf_congr hclk4 _ _).trans hb)
    rw [hfour, State.rf_congr hclk4] at h1
    rw [hfour, hb16.1, State.rf_congr hctl, hshown.droop] at h2
    exact ⟨h1, h2⟩
end Sys2Proof.Machine
end

section
namespace Sys2Proof.Machine

/-! ### RAIL_MIN_CLEAR (R538, R539) -/

theorem Accepted.railMin_clears {s : State} {w : Writer} {a : Access} {v : Nat} {r : RegRef} (h : Accepted s w a v r)
    (hid : r.desc.id = .railMin) (hv : bit v 31 = true) :
    exec (.railMinClear w a v) s = .next (((s.keyUsed w r.desc).setReg a.off (s.newValue r a.off v)).railMinClear r.idx) := by
  have hw : exec (.railMinClear w a v) s = s.namedWrite [.railMin] w a v := rfl
  rw [hw, h.named (by rw [hid]; rfl)]
  simp only [State.applyWrite, State.regEffect, hid, hv, if_true, State.newValue, State.keyUsed_reg]

/-- RAIL_MIN_CLEAR. -/
theorem completes_railMinClear {s : State} {w : Writer} {a : Access} {v : Nat} {r : RegRef} (h : Accepted s w a v r)
    (hid : r.desc.id = .railMin) (ha : a.off = railReg r.idx 4) (hv : bit v 31 = true) :
    Completes (.railMinClear w a v) s fun t =>
      t.rn a.off = 0xFFFF ∧ t.rn (a.off + 4) = 0 ∧ t.rn (a.off + 8) = 0 ∧ (t.supply r.idx).warned = false ∧ SameMem s t ∧
      SameRegs s t [a.off, a.off + 4, a.off + 8] := by
  obtain ⟨u, hu⟩ : ∃ u, u = (s.keyUsed w r.desc).setReg a.off (s.newValue r a.off v) := ⟨_, rfl⟩
  obtain ⟨hregs, hmem, -⟩ : OnlyRegs s u [a.off] := hu ▸ (onlyRegs_keyUsed s w _ _).trans (onlyRegs_setReg _ _ List.mem_cons_self)
  have h8 : railReg r.idx 8 = a.off + 4 := by rw [ha, railReg, railReg]
  have h12 : railReg r.idx 12 = a.off + 8 := by rw [ha, railReg, railReg]
  have hrn (b : Nat) : (u.railMinClear r.idx).rn b = if b = a.off + 8 then 0 else if b = a.off + 4 then 0 else if b = a.off then 0xFFFF else u.rn b := by
    rw [← h12, ← h8, ha]
    show (((u.setRn (railReg r.idx 4) 0xFFFF).setRn (railReg r.idx 8) 0).setRn (railReg r.idx 12) 0).rn b = _
    simp only [State.setRn_rn]
    rfl
  refine ⟨_, h.railMin_clears hid hv, ?_⟩
  rw [← hu]
  refine ⟨by simp [hrn], by simp [hrn], by simp [hrn], ?_, ?_, fun b hb => ?_⟩
  · simp only [State.railMinClear, State.setSupply_get, if_true]
  · exact hmem.trans ((sameMem_setRn u _ _).trans ((sameMem_setRn _ _ _).trans ((sameMem_setRn _ _ _).trans (.of_store rfl))))
  · obtain ⟨h0, h4, h8'⟩ : b ≠ a.off ∧ b ≠ a.off + 4 ∧ b ≠ a.off + 8 := by simpa using hb
    refine BitVec.eq_of_toNat_eq ((hrn b).trans ?_)
    rw [if_neg h8', if_neg h4, if_neg h0, State.rn, hregs b (by simpa using h0)]

/-! ### COOLANT_SAMPLE (R555) -/

section
variable (s : State)

/-- Flow and temperatures are shown. -/
def State.showCoolant (flow : Nat) (inlet outlet : Int) : State :=
  (s.setRn 0x340000 (enc2c 16 inlet + enc2c 16 outlet * 65536)).setRf 0x340004 15 0 (min 65535 flow)

/-- Firmware notes whether flow is low and the inlet out of its range. -/
def State.noteCoolant (low out : Bool) : State := { s with pwr := { s.pwr with flowTold := low, inletTold := out } }

/-- A coolant warning: its bit, and its event. -/
def State.warnCoolant (tell : Bool) (i code : Nat) : State := if tell then (s.setBit 0x340004 i).raiseFw code 0 0 else s
end

theorem execCoolantSample_on {s : State} (h : s.dev ≠ .off) (flow : Nat) (inlet outlet : Int) :
    exec (.coolantSample flow inlet outlet) s = .next ((((s.showCoolant flow inlet outlet).noteCoolant (decide (flow < 400))
      (decide (inlet < 200) || decide (400 < inlet))).warnCoolant (decide (flow < 400) && !s.pwr.flowTold) 16 0x0730).warnCoolant
        ((decide (inlet < 200) || decide (400 < inlet)) && !s.pwr.inletTold) 17 0x0731) := by
  show execCoolantSample flow inlet outlet s = _
  rw [execCoolantSample, show (s.dev != .off) = true by simpa using h, whenever_true]
  rfl

/-- What a warning leaves as it was, and what it shows. -/
theorem State.warnCoolant_spec (s : State) (tell : Bool) {i : Nat} (hi : 15 < i) (hi' : i < 32) (code : Nat) : let t := s.warnCoolant tell i code
    SameMem s t ∧ SameRegs s t [0x340004] ∧ t.rf 0x340004 15 0 = s.rf 0x340004 15 0 ∧ t.pwr = s.pwr ∧
    (∀ k, s.rbit 0x340004 k = true → k < 32 → t.rbit 0x340004 k = true) ∧ (∀ c, s.Heard c 0 0 → t.Heard c 0 0) ∧
    (tell = true → t.rbit 0x340004 i = true ∧ t.Heard code 0 0) := by
  intro t
  cases htell : tell with
  | false =>
    have ht : t = s := by simp only [t, State.warnCoolant, htell]; rfl
    rw [ht]
    exact ⟨.refl s, fun _ _ => rfl, rfl, rfl, fun _ h _ => h, fun _ h => h, fun h => absurd h (by decide)⟩
  | true =>
    have ht : t = (s.setBit 0x340004 i).raiseFw code 0 0 := by simp only [t, State.warnCoolant, htell]; rfl
    rw [ht]
    refine ⟨(sameMem_setRf s _ _ _ _).trans (sameMem_raiseFw _ _ _ _), fun a ha => State.setBit_reg_ne s _ _ _ (by simpa using ha), ?_, rfl,
      fun k hk h32 => ?_, fun c hc => ?_, fun _ => ⟨State.setBit_rbit s _ _ hi', .inl ⟨_, List.mem_append_right _ List.mem_cons_self, rfl, rfl, rfl⟩⟩⟩
    · exact State.setRf_rf_other s _ i i 1 15 0 hi' (le_refl i) (by decide) (.inl hi)
    · by_cases hki : k = i
      · rw [hki]; exact State.setBit_rbit s _ _ hi'
      · exact (State.setRf_rbit_other s _ 1 hi' hki).trans hk
    · obtain ⟨r, hr, hc⟩ | hagg := hc
      · exact .inl ⟨r, List.mem_append_left _ hr, hc⟩
      · exact .inr hagg

/-- COOLANT_SAMPLE. -/
theorem completes_coolantSample {s : State} (h : s.dev ≠ .off) (flow : Nat) (inlet outlet : Int) :
    Completes (.coolantSample flow inlet outlet) s fun t =>
      SameMem s t ∧ SameRegs s t [0x340000, 0x340004] ∧ t.rn 0x340000 = enc2c 16 inlet + enc2c 16 outlet * 65536 ∧
      t.rf 0x340004 15 0 = min 65535 flow ∧ t.pwr.flowTold = decide (flow < 400) ∧ t.pwr.inletTold = decide (inlet < 200 ∨ 400 < inlet) ∧
      (flow < 400 → s.pwr.flowTold = false → t.rbit 0x340004 16 = true ∧ t.Heard 0x0730 0 0) ∧
      (inlet < 200 ∨ 400 < inlet → s.pwr.inletTold = false → t.rbit 0x340004 17 = true ∧ t.Heard 0x0731 0 0) := by
  refine ⟨_, execCoolantSample_on h flow inlet outlet, ?_⟩
  obtain ⟨u, hu⟩ : ∃ u, u = (s.showCoolant flow inlet outlet).noteCoolant (decide (flow < 400)) (decide (inlet < 200) || decide (400 < inlet)) := ⟨_, rfl⟩
  have humem : SameMem s u := hu ▸ (sameMem_setRn s _ _).trans ((sameMem_setRf _ _ _ _ _).trans (.of_store rfl))
  have hureg : SameRegs s u [0x340000, 0x340004] := fun a ha => by
    obtain ⟨h0, h4⟩ : a ≠ 0x340000 ∧ a ≠ 0x340004 := by simpa using ha
    rw [hu]
    exact (State.setRf_reg_ne _ _ _ _ _ _ h4).trans ((State.setRn_reg _ _ _ _).trans (if_neg h0))
  have htemp : u.rn 0x340000 = enc2c 16 inlet + enc2c 16 outlet * 65536 := by
    have h1 := enc2c_lt 16 inlet
    have h2 := enc2c_lt 16 outlet
    rw [hu]
    refine ((State.setRf_rn_ne _ _ _ _ _ _ (by decide)).trans ((State.setRn_rn s _ _ _).trans (if_pos rfl))).trans (Nat.mod_eq_of_lt ?_)
    omega
  have hflow : u.rf 0x340004 15 0 = min 65535 flow := by
    rw [hu]
    exact (State.setRf_rf_same _ _ _ _ _ (by decide) (by decide)).trans (Nat.mod_eq_of_lt (by omega))
  obtain ⟨v, hv⟩ : ∃ v, v = u.warnCoolant (decide (flow < 400) && !s.pwr.flowTold) 16 0x0730 := ⟨_, rfl⟩
  obtain ⟨hm1, hr1, hf1, hp1, -, -, ht1⟩ := u.warnCoolant_spec (decide (flow < 400) && !s.pwr.flowTold) (i := 16) (by decide) (by decide) 0x0730
  rw [← hv] at hm1 hr1 hf1 hp1 ht1
  obtain ⟨hm2, hr2, hf2, hp2, hb2, hh2, ht2⟩ :=
    v.warnCoolant_spec ((decide (inlet < 200) || decide (400 < inlet)) && !s.pwr.inletTold) (i := 17) (by decide) (by decide) 0x0731
  rw [← hu, ← hv]
  generalize v.warnCoolant _ 17 0x0731 = t at *
  have hpwr : t.pwr = u.pwr := hp2.trans hp1
  refine ⟨humem.trans (hm1.trans hm2), fun a ha => ?_, ?_, ?_, ?_, ?_, fun hlow hnot => ?_, fun hout hnot => ?_⟩
  · have h4 : a ∉ [0x340004] := fun hin => ha (List.mem_cons_of_mem _ hin)
    rw [hr2 a h4, hr1 a h4, hureg a ha]
  · rw [State.rn, hr2 _ (by decide), hr1 _ (by decide)]
    exact htemp
  · rw [hf2, hf1, hflow]
  · rw [hpwr, hu]; rfl
  · rw [hpwr, hu, Bool.decide_or]; rfl
  · obtain ⟨hbit, hheard⟩ := ht1 (by simp [hlow, hnot])
    exact ⟨hb2 16 hbit (by decide), hh2 _ hheard⟩
  · exact ht2 (by rw [← Bool.decide_or, decide_eq_true hout, hnot]; rfl)
end Sys2Proof.Machine
end

section
namespace Sys2Proof.Machine

/-! ### THERMAL_SENSOR_SAMPLE (R42, R43, R552 to R554) -/

section
variable (s : State) (g : Nat)

/-- The region's throttle begins, unless it holds already (R552). -/
def State.beginThrottle : State :=
  if s.rbit (thermReg g 0) 11 then s else ((s.setRf (thermReg g 0) 11 11 1).setBit (thermReg g 0) 16).raise 0x0720 3 g

/-- A reading of 102 °C or more (R553). -/
def State.overheat : State :=
  let r := thermReg g 0
  let u := ((s.setRf r 23 18 24).setRf r 12 12 1).setBit r 17
  let v := (u.setSupply g { u.supply g with heatUs := 0, coolUs := 0, cooled := false }).beginThrottle g
  if s.rbit r 12 then v else v.raise 0x0721 3 g

/-- What the hottest reading does to CEIL and its bits (R552, R553). -/
def State.thermalActs (tmax : Nat) : State :=
  if 1020 ≤ tmax then s.overheat g
  else if s.rbit (thermReg g 0) 12 then (if tmax < s.rf (thermReg g 4) 7 0 * 10 then s.setRf (thermReg g 0) 12 12 0 else s)
  else s.throttle g tmax

/-- The readings and the times at 105 °C are noted, and the hottest is shown. -/
def State.showTemps (readings hot : List Nat) : State :=
  (s.setSupply g { s.supply g with sensors := readings, hotUs := hot }).setRf (thermReg g 0) 10 0 (min 2047 (readings.foldl max 0))
end

/-- The µs that each sensor has spent at 105 °C (R554). -/
def hotTimes (readings before : List Nat) : List Nat :=
  readings.zipIdx.map fun (v, i) => if 1050 ≤ v then before.getD i 0 + 10 else 0

theorem hotTimes_trips {readings before : List Nat} (hl : readings.length = 16) :
    ((hotTimes readings before).any fun n => decide (100 ≤ n)) = true ↔ ∃ i < 16, 1050 ≤ readings.getD i 0 ∧ 90 ≤ before.getD i 0 := by
  have hhot (v i : Nat) : 100 ≤ (if 1050 ≤ v then before.getD i 0 + 10 else 0) ↔ 1050 ≤ v ∧ 90 ≤ before.getD i 0 := by
    split <;> omega
  simp only [hotTimes, List.any_map, List.any_eq_true, Function.comp, decide_eq_true_eq, hhot]
  constructor
  · rintro ⟨⟨v, i⟩, hm, hv, hb⟩
    have hi := List.mem_zipIdx_iff_getElem?.mp hm
    refine ⟨i, hl ▸ (List.getElem?_eq_some_iff.mp hi).1, ?_, hb⟩
    rwa [List.getD_eq_getElem?_getD, hi]
  · rintro ⟨i, hi, hv, hb⟩
    refine ⟨(readings.getD i 0, i), List.mem_zipIdx_iff_getElem?.mpr ?_, hv, hb⟩
    rw [List.getD_eq_getElem?_getD, List.getElem?_eq_getElem (hl ▸ hi)]
    rfl

theorem exec_thermalSensorSample {s : State} {g : RegionId} {readings : List Nat} (hon : s.dev ≠ .off) (hl : readings.length = 16) :
    exec (.thermalSensorSample g readings) s = .next
      (if (hotTimes readings (s.supply g.val).hotUs).any fun n => decide (100 ≤ n) then s.protect 0x0722
       else ((((s.showTemps g.val readings (hotTimes readings (s.supply g.val).hotUs)).each
          (fun s i => s.holdTiles (g.val * 16 + i) (readings.getD i 0)) (List.range 16)).thermalActs g.val (readings.foldl max 0)).each
          (fun s i => s.clkMove 0 (g.val * 16 + i)) (List.range 16))) := by
  show execThermalSensorSample g readings s = _
  rw [execThermalSensorSample, show (s.dev != .off && readings.length == 16) = true by simp [hon, hl], whenever_true]
  rfl

/-! What thermal control leaves of a region. -/

/-- Thermal control of region g has changed its status word but TMAX, and its times; and reported. -/
structure Thermal (g : Nat) (s t : State) : Prop where
  mem     : SameMem s t
  tiles   : t.tiles = s.tiles
  sensors : (t.supply g).sensors = (s.supply g).sensors
  shown   : t.rf (thermReg g 0) 10 0 = s.rf (thermReg g 0) 10 0

namespace Thermal
variable {s t u : State} {g : Nat}
theorem refl (g : Nat) (s : State) : Thermal g s s := ⟨.refl s, rfl, rfl, rfl⟩
theorem trans (h : Thermal g s t) (h' : Thermal g t u) : Thermal g s u :=
  ⟨h.mem.trans h'.mem, h'.tiles.trans h.tiles, h'.sensors.trans h.sensors, h'.shown.trans h.shown⟩
end Thermal

section
variable (s : State) (g : Nat)

theorem thermal_setRf {hi lo : Nat} (hlo : 10 < lo) (hle : lo ≤ hi) (hhi : hi < 32) (v : Nat) : Thermal g s (s.setRf (thermReg g 0) hi lo v) :=
  ⟨sameMem_setRf s _ _ _ _, rfl, rfl, State.setRf_rf_other s _ _ _ _ _ _ hhi hle (by decide) (.inl hlo)⟩

theorem sameMem_setSupply (n : Nat) (x : Supply) : SameMem s (s.setSupply n x) := .of_store rfl
theorem sameMem_setTile (n : Nat) (x : Tile) : SameMem s (s.setTile n x) := .of_store rfl

theorem thermal_setSupply {x : Supply} (h : x.sensors = (s.supply g).sensors) : Thermal g s (s.setSupply g x) :=
  ⟨.of_store rfl, rfl, by rw [State.setSupply_get, if_pos rfl, h], rfl⟩

theorem raise_thermReg (c k u x : Nat) (hg : g < 16) (hx : x < 0x1000) : (s.raise c k u).reg (thermReg g x) = s.reg (thermReg g x) :=
  State.report_reg_of_ne _ _ fun k => by simp only [thermReg, regionReg]; omega

theorem thermal_raise (hg : g < 16) (c k u : Nat) : Thermal g s (s.raise c k u) :=
  ⟨sameMem_raise s _ _ _, State.raise_tiles .., by rw [State.raise_supply], State.rf_congr (raise_thermReg s g c k u 0 hg (by decide)) _ _⟩

/-- A throttle that begins sets its bit and is reported; CEIL and the emergency stay. -/
theorem State.beginThrottle_spec (hg : g < 16) : let t := s.beginThrottle g
    let r := thermReg g 0
    Thermal g s t ∧ t.rbit r 11 = true ∧ t.rbit r 12 = s.rbit r 12 ∧ t.rf r 23 18 = s.rf r 23 18 ∧
    (s.rbit r 11 = false → t.Heard 0x0720 3 g) := by
  intro t r
  by_cases h : s.rbit r 11 = true
  · have ht : t = s := if_pos h
    rw [ht]
    exact ⟨.refl g s, h, rfl, rfl, fun h' => absurd (h.symm.trans h') (by decide)⟩
  · obtain ⟨u, hu⟩ : ∃ u, u = (s.setRf r 11 11 1).setBit r 16 := ⟨_, rfl⟩
    have ht : t = u.raise 0x0720 3 g := by rw [hu]; exact if_neg h
    have hr : t.reg r = u.reg r := ht ▸ raise_thermReg u g _ _ _ 0 hg (by decide)
    refine ⟨?_, ?_, ?_, ?_, fun _ => ht ▸ State.report_heard u _⟩
    · rw [ht, hu]
      exact ((thermal_setRf s g (by decide) (le_refl 11) (by decide) 1).trans (thermal_setRf _ g (by decide) (le_refl 16) (by decide) 1)).trans
        (thermal_raise _ g hg _ _ _)
    · rw [State.rbit_congr hr, hu]
      exact (State.setRf_rbit_other _ r 1 (by decide) (by decide)).trans (State.setRf_rbit_same s r 1 (by decide))
    · rw [State.rbit_congr hr, hu]
      exact (State.setRf_rbit_other _ r 1 (by decide) (by decide)).trans (State.setRf_rbit_other s r 1 (by decide) (by decide))
    · rw [State.rf_congr hr, hu]
      exact (State.setRf_rf_other _ r 16 16 1 23 18 (by decide) (le_refl 16) (by decide) (.inr (by decide))).trans
        (State.setRf_rf_other s r 11 11 1 23 18 (by decide) (le_refl 11) (by decide) (.inr (by decide)))

/-- 102 °C: CEIL is 24, and emergency and throttle hold (R553). -/
theorem State.overheat_spec (hg : g < 16) : let t := s.overheat g
    let r := thermReg g 0
    Thermal g s t ∧ t.rf r 23 18 = 24 ∧ t.rbit r 12 = true ∧ t.rbit r 11 = true ∧ (s.rbit r 12 = false → t.Heard 0x0721 3 g) := by
  intro t r
  obtain ⟨u, hu⟩ : ∃ u, u = ((s.setRf r 23 18 24).setRf r 12 12 1).setBit r 17 := ⟨_, rfl⟩
  obtain ⟨w, hw⟩ : ∃ w, w = u.setSupply g { u.supply g with heatUs := 0, coolUs := 0, cooled := false } := ⟨_, rfl⟩
  have ht : t = if s.rbit r 12 then w.beginThrottle g else (w.beginThrottle g).raise 0x0721 3 g := by rw [hw, hu]; rfl
  have hwreg : w.reg r = u.reg r := by rw [hw]; rfl
  have hTu : Thermal g s u := hu ▸ (thermal_setRf s g (by decide) (by decide) (by decide) 24).trans
    ((thermal_setRf _ g (by decide) (le_refl 12) (by decide) 1).trans (thermal_setRf _ g (by decide) (le_refl 17) (by decide) 1))
  have hTw : Thermal g s w := hTu.trans (hw ▸ thermal_setSupply u g rfl)
  have hceil : w.rf r 23 18 = 24 := by
    rw [State.rf_congr hwreg, hu]
    refine (State.setRf_rf_other _ r 17 17 1 23 18 (by decide) (le_refl 17) (by decide) (.inr (by decide))).trans ?_
    rw [State.setRf_rf_other _ r 12 12 1 23 18 (by decide) (le_refl 12) (by decide) (.inr (by decide))]
    exact State.setRf_rf_same _ _ _ _ _ (by decide) (by decide)
  have hemerg : w.rbit r 12 = true := by
    rw [State.rbit_congr hwreg, hu]
    exact (State.setRf_rbit_other _ r 1 (by decide) (by decide)).trans (State.setRf_rbit_same _ r 1 (by decide))
  obtain ⟨hT, h11, h12, hc, -⟩ := w.beginThrottle_spec g hg
  rw [hceil] at hc
  rw [hemerg] at h12
  by_cases h : s.rbit r 12 = true
  · rw [ht, if_pos h]
    exact ⟨hTw.trans hT, hc, h12, h11, fun h' => absurd (h.symm.trans h') (by decide)⟩
  · have hr := raise_thermReg (w.beginThrottle g) g 0x0721 3 g 0 hg (by decide)
    rw [ht, if_neg h]
    exact ⟨(hTw.trans hT).trans (thermal_raise _ g hg _ _ _), (State.rf_congr hr _ _).trans hc, (State.rbit_congr hr _).trans h12,
      (State.rbit_congr hr _).trans h11, fun _ => State.report_heard _ _⟩

/-- Above THROT the throttle holds, and CEIL falls one step per 100 µs (R552). -/
theorem State.throttle_hot (hg : g < 16) {tmax : Nat} (h : s.rf (thermReg g 4) 7 0 * 10 < tmax) : let t := s.throttle g tmax
    let r := thermReg g 0
    Thermal g s t ∧ t.rbit r 11 = true ∧ (s.rbit r 11 = false → t.Heard 0x0720 3 g) ∧
    t.rf r 23 18 = if 90 ≤ (s.supply g).heatUs then max 24 (s.rf r 23 18 - 1) else s.rf r 23 18 := by
  intro t r
  obtain ⟨n, hn⟩ : ∃ n, n = if 100 ≤ (s.supply g).heatUs + 10 then 0 else (s.supply g).heatUs + 10 := ⟨_, rfl⟩
  obtain ⟨u, hu⟩ : ∃ u, u = s.setSupply g { s.supply g with heatUs := n, coolUs := 0, cooled := false } := ⟨_, rfl⟩
  have ht : t = if 100 ≤ (s.supply g).heatUs + 10 then (u.beginThrottle g).setRf r 23 18 (max 24 (s.rf r 23 18 - 1)) else u.beginThrottle g := by
    rw [hu, hn]; exact if_pos h
  have hreg : u.reg r = s.reg r := by rw [hu]; rfl
  have hTu : Thermal g s u := hu ▸ thermal_setSupply s g rfl
  obtain ⟨hT, h11, -, hc, hh⟩ := u.beginThrottle_spec g hg
  rw [State.rf_congr hreg] at hc
  rw [State.rbit_congr hreg] at hh
  have hlt : s.rf r 23 18 < 64 := Nat.mod_lt _ (by decide)
  by_cases h100 : 100 ≤ (s.supply g).heatUs + 10
  · rw [ht, if_pos h100, if_pos (by omega)]
    refine ⟨(hTu.trans hT).trans (thermal_setRf _ g (by decide) (by decide) (by decide) _), ?_, fun h' => (hh h').of_eq rfl rfl, ?_⟩
    · rw [State.rbit, State.setRf_rf_other _ r 23 18 _ 11 11 (by decide) (by decide) (le_refl 11) (.inl (by decide))]
      exact h11
    · rw [State.setRf_rf_same _ _ _ _ _ (by decide) (by decide)]
      exact Nat.mod_eq_of_lt (by omega)
  · rw [ht, if_neg h100, if_neg (by omega)]
    exact ⟨hTu.trans hT, h11, hh, hc⟩

theorem thermal_throttle (hg : g < 16) (tmax : Nat) : Thermal g s (s.throttle g tmax) := by
  by_cases h : s.rf (thermReg g 4) 7 0 * 10 < tmax
  · exact (s.throttle_hot g hg h).1
  · have hset (t : State) {hi lo : Nat} (hlo : 10 < lo) (hle : lo ≤ hi) (hhi : hi < 32) (v : Nat) (c : Prop) [Decidable c] :
        Thermal g t (if c then t.setRf (thermReg g 0) hi lo v else t) := by
      split
      · exact thermal_setRf t g hlo hle hhi v
      · exact .refl g t
    simp only [State.throttle, if_neg h]
    refine (thermal_setSupply s g ?_).trans ((hset _ (by decide) (by decide) (by decide) _ _).trans (hset _ (by decide) (le_refl 11) (by decide) _ _))
    rfl

/-- What the hottest reading does (R552, R553). -/
theorem State.thermalActs_spec (hg : g < 16) (tmax : Nat) : let t := s.thermalActs g tmax
    let r := thermReg g 0
    let throt := s.rf (thermReg g 4) 7 0 * 10
    Thermal g s t ∧
    (1020 ≤ tmax → t.rf r 23 18 = 24 ∧ t.rbit r 12 = true ∧ t.rbit r 11 = true ∧ (s.rbit r 12 = false → t.Heard 0x0721 3 g)) ∧
    (tmax < 1020 → s.rbit r 12 = true → t.rbit r 12 = decide (throt ≤ tmax)) ∧
    (tmax < 1020 → s.rbit r 12 = false → throt < tmax → t.rbit r 11 = true ∧ (s.rbit r 11 = false → t.Heard 0x0720 3 g) ∧
      t.rf r 23 18 = if 90 ≤ (s.supply g).heatUs then max 24 (s.rf r 23 18 - 1) else s.rf r 23 18) := by
  intro t r throt
  by_cases h1020 : 1020 ≤ tmax
  · have ht : t = s.overheat g := if_pos h1020
    obtain ⟨hT, hfacts⟩ := s.overheat_spec g hg
    rw [ht]
    exact ⟨hT, fun _ => hfacts, fun h => absurd h (by omega), fun h => absurd h (by omega)⟩
  · by_cases h12 : s.rbit r 12 = true
    · have ht : t = if tmax < throt then s.setRf r 12 12 0 else s := (if_neg h1020).trans (if_pos h12)
      have hno : s.rbit r 12 ≠ false := by rw [h12]; decide
      by_cases hlt : tmax < throt
      · rw [ht, if_pos hlt]
        refine ⟨thermal_setRf s g (by decide) (le_refl 12) (by decide) 0, fun h => absurd h h1020, fun _ _ => ?_, fun _ h => absurd h hno⟩
        rw [State.setRf_rbit_same _ _ _ (by decide), decide_eq_false (by omega : ¬ throt ≤ tmax)]
        rfl
      · rw [ht, if_neg hlt]
        exact ⟨.refl g s, fun h => absurd h h1020, fun _ _ => by rw [h12, decide_eq_true (by omega)], fun _ h => absurd h hno⟩
    · have ht : t = s.throttle g tmax := (if_neg h1020).trans (if_neg h12)
      rw [ht]
      exact ⟨thermal_throttle s g hg tmax, fun h => absurd h h1020, fun _ h => absurd h h12, fun _ _ h => (s.throttle_hot g hg h).2⟩

/-! The programming hold of the tiles over one sensor (R42, R43). -/

/-- Whether a tile over a reading holds programming. -/
def holds (temp : Nat) (before : Bool) : Bool := if 950 < temp then true else if temp ≤ 920 then false else before

/-- The tile's hold, told once per excursion while it is programming. -/
def State.holdTile (b temp i : Nat) : State :=
  let T := s.tile (b * 64 + i)
  let on := holds temp T.tempHold
  let tell := on && T.programming && !T.holdTold
  let u := s.setTile (b * 64 + i) { T with tempHold := on, holdTold := on && (T.holdTold || tell) }
  if tell then u.raise 0x0124 2 b else u

theorem State.holdTiles_eq (b temp : Nat) : s.holdTiles b temp = s.each (fun s i => s.holdTile b temp i) (List.range 64) := rfl
end

/-- Holds have been set: memories, voltages and the registers of thermal control are as before. -/
structure Held (s t : State) : Prop where
  mem  : SameMem s t
  pwr  : t.pwr = s.pwr
  regs : ∀ g x, g < 16 → x < 0x1000 → t.reg (thermReg g x) = s.reg (thermReg g x)

namespace Held
variable {s t u : State}
theorem refl (s : State) : Held s s := ⟨.refl s, rfl, fun _ _ _ _ => rfl⟩
theorem trans (h : Held s t) (h' : Held t u) : Held s u :=
  ⟨h.mem.trans h'.mem, h'.pwr.trans h.pwr, fun g x hg hx => (h'.regs g x hg hx).trans (h.regs g x hg hx)⟩
theorem each {α : Type} {f : State → α → State} (h : ∀ s x, Held s (f s x)) (l : List α) (s : State) : Held s (s.each f l) :=
  State.each_pred_mem (fun t => Held s t) f l (fun t x _ ht => ht.trans (h t x)) s (refl s)
end Held

section
variable (s : State) (b temp i : Nat)

theorem held_holdTile : Held s (s.holdTile b temp i) := by
  simp only [State.holdTile]
  split
  · exact ⟨(sameMem_setTile s _ _).trans (sameMem_raise _ _ _ _), State.raise_pwr .., fun g x hg hx => raise_thermReg _ g _ _ _ x hg hx⟩
  · exact ⟨.of_store rfl, rfl, fun _ _ _ _ => rfl⟩

theorem held_holdTiles : Held s (s.holdTiles b temp) := .each (fun t i => held_holdTile t b temp i) _ s

theorem State.holdTile_tempHold (n : Nat) :
    ((s.holdTile b temp i).tile n).tempHold = if n = b * 64 + i then holds temp (s.tile n).tempHold else (s.tile n).tempHold := by
  simp only [State.holdTile, apply_ite (State.tile · n), State.raise_tile, State.setTile_get, ite_self]
  split <;> simp_all

theorem State.holdTiles_tempHold {k : Nat} (hk : k < 64) :
    ((s.holdTiles b temp).tile (b * 64 + k)).tempHold = holds temp (s.tile (b * 64 + k)).tempHold := by
  refine State.each_at (x := k) (P := fun t => (t.tile (b * 64 + k)).tempHold = (s.tile (b * 64 + k)).tempHold)
    (Q := fun t => (t.tile (b * 64 + k)).tempHold = holds temp (s.tile (b * 64 + k)).tempHold) List.nodup_range (List.mem_range.mpr hk)
    (fun t y _ hy ht => ?before) (fun t ht => ?self) (fun t y _ hy ht => ?after) rfl
  case before => exact ((t.holdTile_tempHold b temp y _).trans (if_neg (by omega))).trans ht
  case self => rw [← ht]; exact (t.holdTile_tempHold b temp k _).trans (if_pos rfl)
  case after => exact ((t.holdTile_tempHold b temp y _).trans (if_neg (by omega))).trans ht

theorem State.holdTiles_tempHold_other {n : Nat} (hn : n / 64 ≠ b) : ((s.holdTiles b temp).tile n).tempHold = (s.tile n).tempHold :=
  State.each_pred_mem (fun t => (t.tile n).tempHold = (s.tile n).tempHold) _ _
    (fun t y hy ht => ((t.holdTile_tempHold b temp y n).trans (if_neg (by have := List.mem_range.mp hy; omega))).trans ht) s rfl

/-- Each tile of a region follows the sensor over it. -/
theorem State.each_holdTiles_tempHold (g : Nat) (temps : Nat → Nat) {i k : Nat} (hi : i < 16) (hk : k < 64) :
    ((s.each (fun s i => s.holdTiles (g * 16 + i) (temps i)) (List.range 16)).tile ((g * 16 + i) * 64 + k)).tempHold =
      holds (temps i) (s.tile ((g * 16 + i) * 64 + k)).tempHold := by
  obtain ⟨n, hn⟩ : ∃ n, n = (g * 16 + i) * 64 + k := ⟨_, rfl⟩
  rw [← hn]
  refine State.each_at (x := i) (P := fun t => (t.tile n).tempHold = (s.tile n).tempHold)
    (Q := fun t => (t.tile n).tempHold = holds (temps i) (s.tile n).tempHold) List.nodup_range (List.mem_range.mpr hi)
    (fun t y _ hy ht => ?before) (fun t ht => ?self) (fun t y _ hy ht => ?after) rfl
  case before => exact (t.holdTiles_tempHold_other (g * 16 + y) _ (by omega)).trans ht
  case self => rw [← ht, hn]; exact t.holdTiles_tempHold (g * 16 + i) _ hk
  case after => exact (t.holdTiles_tempHold_other (g * 16 + y) _ (by omega)).trans ht
end

/-- THERMAL_SENSOR_SAMPLE. -/
theorem completes_thermalSensorSample {s : State} {g : RegionId} {readings : List Nat} (hon : s.dev ≠ .off) (hl : readings.length = 16) :
    let r := thermReg g.val 0
    let tmax := readings.foldl max 0
    let throt := s.rf (thermReg g.val 4) 7 0 * 10
    let trips := ∃ i < 16, 1050 ≤ readings.getD i 0 ∧ 90 ≤ (s.supply g.val).hotUs.getD i 0
    (trips → Completes (.thermalSensorSample g readings) s fun t => t.dev = .off ∧
      t.pwr.cause = if s.pwr.cause = 0 then 0x0722 else s.pwr.cause) ∧
    (¬ trips → Completes (.thermalSensorSample g readings) s fun t => SameMem s t ∧ t.rf r 10 0 = min 2047 tmax ∧
      (t.supply g.val).sensors = readings ∧
      (∀ i < 16, ∀ k < 64, let n := (g.val * 16 + i) * 64 + k
        (t.tile n).tempHold = if 950 < readings.getD i 0 then true else if readings.getD i 0 ≤ 920 then false else (s.tile n).tempHold) ∧
      (1020 ≤ tmax → t.rf r 23 18 = 24 ∧ t.rbit r 12 = true ∧ t.rbit r 11 = true ∧ (s.rbit r 12 = false → t.Heard 0x0721 3 g.val)) ∧
      (tmax < 1020 → s.rbit r 12 = true → t.rbit r 12 = decide (throt ≤ tmax)) ∧
      (tmax < 1020 → s.rbit r 12 = false → throt < tmax → t.rbit r 11 = true ∧ (s.rbit r 11 = false → t.Heard 0x0720 3 g.val) ∧
        t.rf r 23 18 = if 90 ≤ (s.supply g.val).heatUs then max 24 (s.rf r 23 18 - 1) else s.rf r 23 18)) := by
  intro r tmax throt trips
  have hg := g.isLt
  refine ⟨fun h => ⟨_, exec_thermalSensorSample hon hl, ?_⟩, fun h => ⟨_, exec_thermalSensorSample hon hl, ?_⟩⟩
  · rw [if_pos ((hotTimes_trips hl).mpr h)]
    obtain ⟨-, hoff, -, hcause⟩ := s.protect_down 0x0722
    exact ⟨hoff, hcause⟩
  rw [if_neg (fun he => h ((hotTimes_trips hl).mp he))]
  generalize hotTimes readings _ = hot
  obtain ⟨u, hu⟩ : ∃ u, u = s.showTemps g.val readings hot := ⟨_, rfl⟩
  obtain ⟨w, hw⟩ : ∃ w, w = u.each (fun s i => s.holdTiles (g.val * 16 + i) (readings.getD i 0)) (List.range 16) := ⟨_, rfl⟩
  rw [← hu, ← hw]
  obtain ⟨hT, hhot, hemerg, hthrot⟩ := w.thermalActs_spec g.val hg tmax
  have hclk : Clocked (fun _ => True) (w.thermalActs g.val tmax) ((w.thermalActs g.val tmax).each (fun s i => s.clkMove 0 (g.val * 16 + i)) (List.range 16)) :=
    .each (fun t i _ => (clocked_clkMove t _ 0).mono fun _ _ => trivial) _
  have hreg : ((w.thermalActs g.val tmax).each (fun s i => s.clkMove 0 (g.val * 16 + i)) (List.range 16)).reg r = (w.thermalActs g.val tmax).reg r :=
    hclk.regs_of (by simp only [r, thermReg]; omega)
  generalize hv : w.thermalActs g.val tmax = v at *
  generalize v.each _ (List.range 16) = t at *
  have hheld : Held u w := hw ▸ .each (fun t i => held_holdTiles t _ _) _ u
  have hr : w.reg r = u.reg r := hheld.regs g.val 0 hg (by decide)
  have hr4 : w.reg (thermReg g.val 4) = s.reg (thermReg g.val 4) := by
    rw [hheld.regs g.val 4 hg (by decide), hu]
    exact State.setRf_reg_ne _ _ _ _ _ _ (by simp [thermReg])
  have hsup : w.supply g.val = { s.supply g.val with sensors := readings, hotUs := hot } := by
    rw [State.supply, hheld.pwr, hu]
    exact (State.setSupply_get _ _ _ _).trans (if_pos rfl)
  have hfield {hi lo : Nat} (hlo : 10 < lo) (hle : lo ≤ hi) : w.rf r hi lo = s.rf r hi lo := by
    rw [State.rf_congr hr, hu]
    exact State.setRf_rf_other _ _ _ _ _ _ _ (by decide) (by decide) hle (.inr hlo)
  have hbit {i : Nat} (hi : 10 < i) : w.rbit r i = s.rbit r i := by rw [State.rbit, hfield hi (le_refl i)]; rfl
  rw [hbit (by decide : 10 < 12)] at hhot hemerg hthrot
  rw [hbit (by decide : 10 < 11), hfield (by decide : 10 < 18) (by decide), hsup] at hthrot
  rw [State.rf_congr hr4] at hemerg hthrot
  rw [State.rf_congr hreg, State.rf_congr hreg, State.rbit_congr hreg, State.rbit_congr hreg]
  refine ⟨?_, ?_, ?_, fun i hi k hk => ?_, fun h1 => ?_, hemerg, fun h1 h2 h3 => ?_⟩
  · exact (hu ▸ (sameMem_setSupply s _ _).trans (sameMem_setRf _ _ _ _ _) : SameMem s u).trans (hheld.mem.trans (hT.mem.trans hclk.mem))
  · rw [hT.shown, State.rf_congr hr, hu]
    exact (State.setRf_rf_same _ _ _ _ _ (by decide) (by decide)).trans (Nat.mod_eq_of_lt (by omega))
  · rw [hclk.supply, hT.sensors, hsup]
  · intro n
    rw [hclk.tile, State.tile, hT.tiles, hw]
    refine (u.each_holdTiles_tempHold g.val (fun i => readings.getD i 0) hi hk).trans ?_
    rw [hu]
    rfl
  · obtain ⟨hc, h12, h11, hh⟩ := hhot h1
    exact ⟨hc, h12, h11, fun h' => (hh h').of_eq hclk.fw hclk.aggs⟩
  · obtain ⟨h11, hh, hc⟩ := hthrot h1 h2 h3
    exact ⟨h11, fun h' => (hh h').of_eq hclk.fw hclk.aggs, hc⟩

/-- Settles O56: each sample by the lemma of its command, which goes through what is shown, what is told, and how the clocks follow. -/
theorem sensorSamples : Obligations.SensorSamples := by
  unfold Obligations.SensorSamples
  exact fun s => ⟨fun _ _ _ hon hl => completes_voltageSensorSample hon hl, fun _ _ _ _ h hid ha hv => completes_railMinClear h hid ha hv,
    fun _ _ hon hl => completes_thermalSensorSample hon hl, fun flow inlet outlet hon => completes_coolantSample hon flow inlet outlet⟩
end Sys2Proof.Machine
end

section
namespace Sys2Proof.Machine

/-! ### What follows a tile's command (R62, R326) -/

/-- Tasks have sent requests and idle tiles have returned their tokens: memories, tiers, what the tiers show, and all of a tile but
its read queue and tokens are as before. -/
structure Refilled (s t : State) : Prop where
  mem    : SameMem s t
  tiers  : t.tiers = s.tiers
  tile   : ∀ x, ∃ q k, t.tile x = { s.tile x with readQ := q, tokens := k }
  upkeep : ∀ u, t.reg (tierReg u) = s.reg (tierReg u)
  layout : ∀ x, t.reg (tileReg x 0xC) = s.reg (tileReg x 0xC)

namespace Refilled
variable {s t u : State}
theorem refl (s : State) : Refilled s s := ⟨.refl s, rfl, fun _ => ⟨_, _, rfl⟩, fun _ => rfl, fun _ => rfl⟩
theorem trans (h : Refilled s t) (h' : Refilled t u) : Refilled s u := by
  refine ⟨h.mem.trans h'.mem, h'.tiers.trans h.tiers, fun x => ?_, fun v => (h'.upkeep v).trans (h.upkeep v), fun x => (h'.layout x).trans (h.layout x)⟩
  obtain ⟨_, _, h1⟩ := h.tile x
  obtain ⟨_, _, h2⟩ := h'.tile x
  exact ⟨_, _, by rw [h2, h1]⟩
theorem each {α : Type} {f : State → α → State} (h : ∀ s x, Refilled s (f s x)) (l : List α) (s : State) : Refilled s (s.each f l) :=
  State.each_pred (fun t => Refilled s t) f (fun t x ht => ht.trans (h t x)) l s (.refl s)
theorem of_eq (hst : t.store = s.store) (htier : t.tiers = s.tiers) (htile : t.tiles = s.tiles) : Refilled s t :=
  ⟨.of_store hst, htier, fun x => ⟨(s.tile x).readQ, (s.tile x).tokens, by rw [State.tile, htile]; rfl⟩,
    fun _ => State.reg_of_store hst _, fun _ => State.reg_of_store hst _⟩

section
variable (h : Refilled s t)
include h
theorem tier (u : Nat) : t.tier u = s.tier u := by rw [State.tier, h.tiers]; rfl
theorem row (x : Nat) : (t.tile x).row = (s.tile x).row := by obtain ⟨_, _, hx⟩ := h.tile x; rw [hx]
theorem procs (x : Nat) : (t.tile x).procs = (s.tile x).procs := by obtain ⟨_, _, hx⟩ := h.tile x; rw [hx]
theorem carries (x : Nat) : (t.tile x).carries = (s.tile x).carries := by obtain ⟨_, _, hx⟩ := h.tile x; rw [hx]
theorem tierState (u : Nat) : t.tierState u = s.tierState u := State.rf_congr (h.upkeep u) _ _
theorem readEn (x k : Nat) : t.readEn x k = s.readEn x k := State.rbit_congr (h.layout x) _
end
end Refilled

theorem tileReg_ne (t t' : Nat) {x x' : Nat} (hx : x < 0x100) (hx' : x' < 0x100) (h : x ≠ x') : tileReg t x ≠ tileReg t' x' := by
  unfold tileReg blockBase
  omega

theorem blockReg_ne_tileReg (b t : Nat) {x x' : Nat} (hx : 0xC000 ≤ x) (hx2 : x < 0x10000) (hx' : x' < 0x100) : tileReg t x' ≠ blockReg b x := by
  unfold tileReg blockReg blockBase
  omega

theorem blockReg_ne_tierReg (b u : Nat) {x : Nat} (hx : 0xC000 ≤ x) (hx2 : x < 0x10000) : tierReg u ≠ blockReg b x := by
  unfold tierReg blockReg blockBase
  omega

theorem tileReg_ne_regionReg (t g : Nat) {x : Nat} (hx : x < 0x100) : tileReg t x ≠ regionReg g 0x5004 := by
  unfold tileReg regionReg blockBase
  omega

theorem tierReg_ne_regionReg (u g : Nat) : tierReg u ≠ regionReg g 0x5004 :=
  blockReg_ne_regionReg (by omega) (by decide) (by omega)

section
variable (s : State)

theorem refilled_setRn {a : Nat} (n : Nat) (ht : ∀ u, tierReg u ≠ a) (hl : ∀ x, tileReg x 0xC ≠ a) : Refilled s (s.setRn a n) :=
  ⟨sameMem_setRn s a n, rfl, fun _ => ⟨_, _, rfl⟩, fun u => (State.setRn_reg s a n _).trans (if_neg (ht u)),
    fun x => (State.setRn_reg s a n _).trans (if_neg (hl x))⟩

theorem refilled_report (r : Report) : Refilled s (s.report r) :=
  ⟨sameMem_report s r, State.report_tiers .., fun x => ⟨(s.tile x).readQ, (s.tile x).tokens, State.report_tile s r x⟩,
    fun u => s.report_reg_of_ne r (tierReg_ne_regionReg u), fun x => s.report_reg_of_ne r fun g => tileReg_ne_regionReg x g (by decide)⟩

theorem refilled_setBlock (b : Nat) (x : Block) : Refilled s (s.setBlock b x) := .of_eq rfl rfl rfl

theorem refilled_freeEntry (h : Nat) : Refilled s (s.freeEntry h) := by
  refine .of_eq (s.freeEntry_store h) ?_ ?_ <;>
  · simp only [State.freeEntry]
    split <;> rfl

theorem refilled_decUse (h : Nat) : Refilled s (s.decUse h) := by
  simp only [State.decUse]
  split
  · exact .trans (t := s.setHentry h _) (.of_eq rfl rfl rfl) (refilled_freeEntry _ h)
  · exact .of_eq rfl rfl rfl

theorem refilled_returnTokens (b r : Nat) : Refilled s (s.returnTokens b r) := by
  unfold State.returnTokens
  split
  · exact .refl s
  · exact .of_eq rfl rfl rfl

theorem refilled_dropRun (b num : Nat) : Refilled s (s.dropRun b num) := by
  unfold State.dropRun
  split
  · exact .refl s
  · exact (refilled_setBlock s b _).trans ((Refilled.each refilled_decUse _ _).trans (refilled_returnTokens _ _ _))

theorem refilled_failTask (b num : Nat) : Refilled s (s.failTask b num) := by
  have hbit (t : State) : Refilled t (t.setBit (blockReg b 0xC304) 24) :=
    refilled_setRn t _ (fun u => blockReg_ne_tierReg b u (by decide) (by decide)) fun x => blockReg_ne_tileReg b x (by decide) (by decide) (by decide)
  unfold State.failTask
  split
  · exact .refl s
  · refine .trans ?_ ((refilled_dropRun _ b num).trans ((hbit _).trans (refilled_report _ _)))
    split
    · exact refilled_dropRun s _ _
    · exact .refl s

theorem refilled_rejectRead (t : Nat) (q : ReadReq) (m : Bool) : Refilled s (s.rejectRead t q m) := by
  simp only [State.rejectRead]
  exact (refilled_setRn s _ (fun u => tierReg_ne_tileReg u t _ (by decide)) fun x => tileReg_ne x t (by decide) (by decide) (by decide)).trans
    ((refilled_report _ _).trans (refilled_failTask _ _ _))

/-- A tile changes in its read queue and tokens only. -/
theorem refilled_setTile (t : Nat) (q : List ReadReq) (k : Bool) : Refilled s (s.setTile t { s.tile t with readQ := q, tokens := k }) := by
  refine ⟨sameMem_setTile s t _, rfl, fun x => ?_, fun _ => rfl, fun _ => rfl⟩
  rw [State.setTile_get]
  split
  · exact ⟨q, k, by rw [‹x = t›]⟩
  · exact ⟨_, _, rfl⟩

theorem refilled_tileRequest (t : Nat) (q : ReadReq) : Refilled s (s.tileRequest t q) := by
  unfold State.tileRequest
  split
  · exact refilled_rejectRead s _ _ _
  · split
    · exact refilled_rejectRead s _ _ _
    · exact refilled_setTile s t _ (s.tile t).tokens

theorem refilled_feed (b num n : Nat) : Refilled s (s.feed b num n) := by
  induction n generalizing s with
  | zero => exact .refl s
  | succ n ih =>
    unfold State.feed
    split
    · exact .refl s
    · split
      · refine .trans ?_ (ih _)
        exact (refilled_setBlock s b _).trans (.each (fun s t => refilled_tileRequest s _ _) _ _)
      · exact .refl s

theorem refilled_tileIdle (t : Nat) : Refilled s (s.tileIdle t) := by
  simp only [State.tileIdle]
  split
  · exact refilled_setTile s t (s.tile t).readQ false
  · exact .refl s

theorem refilled_after (t t' : Nat) : Refilled s (((s.refill t).tileIdle t).tileIdle t') :=
  (Refilled.each (fun s (r : RTask) => refilled_feed s _ r.num _) _ s).trans ((refilled_tileIdle _ t).trans (refilled_tileIdle _ t'))
end

/-- A tile's command that ends in u ends in what refilling makes of u. -/
theorem completes_of_tileAfter {c : Instr} {s u : State} {t : Nat} {P : State → Prop} {o : Out} (he : exec c s = tileAfter t o) (ho : o = .next u)
    (hP : ∀ v, Refilled u v → P v) : Completes c s P := ⟨_, by rw [he, ho]; rfl, hP _ (refilled_after u t _)⟩
end Sys2Proof.Machine
end

section
namespace Sys2Proof.Machine

/-! ### Rows that are reported and folded (R121 to R123) -/

/-- Of the memories only stacks have changed: cells, block stores, host memory and norm tables are as before. -/
structure OnlyStacks (s t : State) : Prop where
  cells : ∀ k, t.cell k = s.cell k
  block : ∀ b a, t.rdByte (.bs b) a = s.rdByte (.bs b) a
  host  : ∀ a, t.rdByte .host a = s.rdByte .host a
  norms : ∀ k, t.norm k = s.norm k

theorem OnlyStacks.refl (s : State) : OnlyStacks s s := ⟨fun _ => rfl, fun _ _ => rfl, fun _ => rfl, fun _ => rfl⟩
theorem OnlyStacks.trans {s t u : State} (h : OnlyStacks s t) (h' : OnlyStacks t u) : OnlyStacks s u :=
  ⟨fun k => (h'.cells k).trans (h.cells k), fun b a => (h'.block b a).trans (h.block b a), fun a => (h'.host a).trans (h.host a),
    fun k => (h'.norms k).trans (h.norms k)⟩
theorem OnlyStacks.each {α : Type} {f : State → α → State} (h : ∀ s x, OnlyStacks s (f s x)) (l : List α) (s : State) : OnlyStacks s (s.each f l) :=
  State.each_pred (fun t => OnlyStacks s t) f (fun t x ht => ht.trans (h t x)) l s (.refl s)
theorem OnlyStacks.of_store {s t : State} (h : t.store = s.store) : OnlyStacks s t :=
  ⟨State.cell_of_store h, fun _ _ => (SameMem.of_store h).bytes _ _, fun _ => (SameMem.of_store h).bytes _ _, State.norm_of_store h⟩
theorem OnlyStacks.ite {s a b : State} {c : Prop} [Decidable c] (ha : OnlyStacks s a) (hb : OnlyStacks s b) : OnlyStacks s (if c then a else b) := by
  split
  · exact ha
  · exact hb
theorem SameMem.onlyStacks {s t : State} (h : SameMem s t) : OnlyStacks s t := ⟨h.cells, fun _ _ => h.bytes _ _, fun _ => h.bytes _ _, h.norms⟩

/-- Nor has any tile changed. -/
structure Reported (s t : State) : Prop extends OnlyStacks s t where
  tiles : t.tiles = s.tiles

namespace Reported
variable {s t u : State}
theorem refl (s : State) : Reported s s := ⟨.refl s, rfl⟩
theorem trans (h : Reported s t) (h' : Reported t u) : Reported s u := ⟨h.toOnlyStacks.trans h'.toOnlyStacks, h'.tiles.trans h.tiles⟩
theorem of_mem (h : SameMem s t) (ht : t.tiles = s.tiles) : Reported s t := ⟨h.onlyStacks, ht⟩
theorem tile (h : Reported s t) (x : Nat) : t.tile x = s.tile x := by rw [State.tile, h.tiles]; rfl
theorem each {α : Type} {f : State → α → State} (h : ∀ s x, Reported s (f s x)) (l : List α) (s : State) : Reported s (s.each f l) :=
  State.each_pred (fun t => Reported s t) f (fun t x ht => ht.trans (h t x)) l s (.refl s)
theorem ite {a b : State} {c : Prop} [Decidable c] (ha : Reported s a) (hb : Reported s b) : Reported s (if c then a else b) := by
  split
  · exact ha
  · exact hb
end Reported

section
variable (s : State)

theorem reported_memErrs (l : List MemErr) : Reported s (s.memErrs l) := by
  refine .of_mem (sameMem_memErrs s l) (State.each_keeps State.tiles _ (fun t e => ?_) l s)
  split
  · rfl
  · exact State.memFault_tiles ..

theorem reported_setRn (a n : Nat) : Reported s (s.setRn a n) := .of_mem (sameMem_setRn s a n) rfl
theorem reported_report (r : Report) : Reported s (s.report r) := .of_mem (sameMem_report s r) (State.report_tiles ..)
theorem reported_setBlock (b : Nat) (x : Block) : Reported s (s.setBlock b x) := .of_mem (.of_store rfl) rfl

theorem reported_badEvent (u ev : Nat) : Reported s (s.badEvent u ev) := .ite (reported_report s _) (.refl s)

theorem reported_wrLe (g a n v : Nat) : Reported s (s.wrLe (.hbm g) a n v) :=
  ⟨⟨fun _ => by simp, fun _ _ => State.wr_rdByte_apart s rfl _ _ _, fun _ => State.wr_rdByte_apart s rfl _ _ _, fun _ => by simp⟩, by simp⟩

theorem reported_journalCode (I : TierInfo) (u r c : Nat) (pre post : Int) : Reported s (s.journalCode I u r c pre post) := by
  refine .of_mem (.of_store (s.journalCode_store I u r c pre post)) ?_
  unfold State.journalCode
  split
  · rfl
  · split
    · rfl
    · dsimp only
      split <;> rfl

theorem reported_foldOne (I : TierInfo) (q : FoldReq) (acc : Nat × Nat) (c : Nat) : Reported s (s.foldOne I q acc c).1 := by
  have hwr (t : State) (v w : Nat) (x : Int) : Reported t ((t.wrRec I q.unit q.row c v).wrFold I q.unit q.row w x) :=
    (reported_wrLe t _ _ _ _).trans (reported_wrLe _ _ _ _ _)
  simp only [State.foldOne]
  split
  · exact reported_badEvent s _ _
  · split
    · exact .refl s
    · dsimp only
      split
      · exact (hwr s _ _ _).trans (reported_journalCode _ _ _ _ _ _ _)
      · exact hwr s _ _ _

theorem reported_foldRow (q : FoldReq) : Reported s (s.foldRow q) := by
  have hall (l : List Nat) : ∀ p : State × (Nat × Nat), Reported s p.1 →
      Reported s (l.foldl (fun (st : State × (Nat × Nat)) c => st.1.foldOne (s.tier q.unit) q st.2 c) p).1 := by
    induction l with
    | nil => exact fun _ hp => hp
    | cons c l ih => exact fun p hp => ih _ (hp.trans (reported_foldOne _ _ _ _ _))
  have h := hall ((List.range 1024).filter ((s.tier q.unit).holds q.row)) (s, (0, 0)) (.refl s)
  simp only [State.foldRow]
  generalize List.foldl _ (s, (0, 0)) _ = p at h ⊢
  have hb : Reported s (p.1.bump (blockReg (q.unit / 512) 0x2014) 31 0 p.2.1) := h.trans (reported_setRn _ _ _)
  split
  · exact hb
  · exact hb.trans ((reported_setRn _ _ _).trans (reported_report _ _))

theorem reported_foldOrDefer (q : FoldReq) : Reported s (s.foldOrDefer q) := .ite (reported_setBlock s _ _) (reported_foldRow s q)

theorem reported_reportRow (u row : Nat) (sweep : Bool) (devs : SMap Int) (blocked skip : List Nat) :
    Reported s (s.reportRow u row sweep devs blocked skip) := by
  unfold State.reportRow
  dsimp only
  split
  · exact reported_foldOrDefer s _
  · split
    · exact reported_setBlock s _ _
    · exact (reported_setBlock s _ _).trans (reported_foldOrDefer _ _)

theorem reported_setHeadroom (u v : Nat) : Reported s (s.setHeadroom u v) := .ite ((reported_setRn s _ _).trans (reported_report _ _)) (reported_setRn s _ _)

/-! ### Rows that are taken up (R25, R80, R119, R126) -/

theorem onlyStacks_discardBad (u row : Nat) : OnlyStacks s (s.discardBad u row) := by
  refine .each (fun s c => ?_) _ s
  split
  · exact .refl s
  · next ev _ =>
    have h := (reported_badEvent s u ev).toOnlyStacks
    generalize s.badEvent u ev = t at h
    exact h.trans (.ite (.of_store rfl) (.of_store rfl))

theorem onlyStacks_startCarry (t : Nat) (c : RowCarry) : OnlyStacks s (s.startCarry t c) := by
  have h := onlyStacks_discardBad s (t * 8 + c.tier) c.row
  unfold State.startCarry
  dsimp only
  generalize s.discardBad (t * 8 + c.tier) c.row = v at h ⊢
  split
  · exact h
  · exact h.trans (.ite ((sameMem_setTile _ _ _).trans ((sameMem_setTile _ _ _).trans (sameMem_setRf _ _ _ _ _))).onlyStacks (.of_store rfl))

theorem onlyStacks_startFresh (t src dst row : Nat) : OnlyStacks s (s.startFresh t src dst row) := by
  unfold State.startFresh
  dsimp only
  generalize hv : s.each _ (List.range 1024) = v
  have h : OnlyStacks s v := by
    rw [← hv]
    refine .each (fun s c => ?_) _ s
    exact .ite (.ite (reported_wrLe _ _ _ _ _).toOnlyStacks (.refl _)) (.refl _)
  generalize hw : v.each _ (v.badPairs _ row) = w
  have h' : OnlyStacks v w := by
    rw [← hw]
    refine .each (fun s c => ?_) _ v
    split
    · exact (reported_badEvent s _ _).toOnlyStacks
    · exact .refl s
  exact h.trans (h'.trans (.of_store rfl))

theorem onlyStacks_takeRow (t : Nat) : OnlyStacks s (s.takeRow t) := by
  unfold State.takeRow
  dsimp only
  split
  · exact .refl s
  · split
    · exact .ite (.refl s) (onlyStacks_startCarry s _ _)
    · split
      · exact .ite (onlyStacks_startFresh s _ _ _ _) (.refl s)
      · exact .refl s

/-- A tile that has its row takes up none. -/
theorem State.takeRow_of_row {t : Nat} {r : RowRun} (h : (s.tile t).row = some r) : s.takeRow t = s := by
  unfold State.takeRow
  simp only [h, Option.isSome_some, if_true]

theorem State.upkSpend_eq (t k : Nat) (free : Bool) : ∃ c n, s.upkSpend t k free = s.setTile t { s.tile t with credits := c, upkNext := n, curTier := k } := by
  unfold State.upkSpend
  dsimp only
  split
  · exact ⟨(s.tile t).credits, (s.tile t).upkNext, rfl⟩
  · exact ⟨_, _, rfl⟩
end

end Sys2Proof.Machine
end

section
namespace Sys2Proof.Machine

/-! ### Pulses on a row (R30, R31, R119) -/

/-- Cells of K have been lowered; nothing else but the draws has changed. -/
structure Pulsed (K : Nat → Prop) (s t : State) : Prop where
  rest : ∃ c d, t = { s with store := { s.store with cells := c }, draws := d }
  le   : ∀ k, t.cell k ≤ s.cell k
  out  : ∀ k, ¬ K k → t.cell k = s.cell k

namespace Pulsed
variable {K : Nat → Prop} {s t u : State}
theorem refl (K : Nat → Prop) (s : State) : Pulsed K s s := ⟨⟨_, _, rfl⟩, fun _ => le_refl _, fun _ _ => rfl⟩
theorem trans (h : Pulsed K s t) (h' : Pulsed K t u) : Pulsed K s u := by
  obtain ⟨_, _, h1⟩ := h.rest
  obtain ⟨_, _, h2⟩ := h'.rest
  exact ⟨⟨_, _, by rw [h2, h1]⟩, fun k => (h'.le k).trans (h.le k), fun k hk => (h'.out k hk).trans (h.out k hk)⟩
theorem each {α : Type} {f : State → α → State} {l : List α} (h : ∀ s, ∀ x ∈ l, Pulsed K s (f s x)) (s : State) : Pulsed K s (s.each f l) :=
  State.each_pred_mem (fun t => Pulsed K s t) f l (fun t x hx ht => ht.trans (h t x hx)) s (.refl K s)
theorem rdByte (h : Pulsed K s t) (sp : Space) (a : Nat) : t.rdByte sp a = s.rdByte sp a := by
  obtain ⟨_, _, rfl⟩ := h.rest
  cases sp <;> rfl
theorem norm (h : Pulsed K s t) (k : Nat) : t.norm k = s.norm k := by obtain ⟨_, _, rfl⟩ := h.rest; rfl
end Pulsed

theorem pulsed_pulseCell (s : State) (full : Bool) {K : Nat → Prop} {k : Nat} (hk : K k) : Pulsed K s (s.pulseCell full k) := by
  have hget (k' : Nat) : (s.pulseCell full k).cell k' = if k' = k then s.cell k - lowering full k s.draws else s.cell k' := State.setCell_get _ _ _ _
  refine ⟨⟨_, _, rfl⟩, fun k' => ?_, fun k' h => (hget k').trans (if_neg fun he : k' = k => h (he ▸ hk))⟩
  rw [hget]
  split
  · rw [‹k' = k›]; exact Nat.sub_le _ _
  · exact le_refl _

/-- The cells of a row's pairs. -/
def rowCells (u row k : Nat) : Prop := ∃ p < 1056, ∃ side < 2, k = cellKey u row p side

theorem rowCells_key {u row p side : Nat} (hp : p < 1056) (hs : side < 2) : rowCells u row (cellKey u row p side) := ⟨p, hp, side, hs, rfl⟩

section
variable (s : State)

theorem pulsed_fullRound (u row i : Nat) {m : SMap Int} (hm : ∀ x ∈ m, x.1 < 1056) : Pulsed (rowCells u row) s (s.fullRound u row i m) := by
  refine .each (fun s x hx => ?_) s
  obtain ⟨p, c⟩ := x
  dsimp only
  split
  · exact pulsed_pulseCell s true (rowCells_key (hm _ hx) (by split <;> decide))
  · exact .refl _ s

/-- Pairs outside the window are pairs of the last verify. -/
theorem State.outside_mem {u vwin : Nat} {r : RowRun} {x : Nat × Int} (h : x ∈ s.outside u vwin r) : ∃ y ∈ r.vals, y.1 = x.1 := by
  obtain ⟨⟨p, v, l⟩, hy, hx⟩ := List.mem_filterMap.mp h
  refine ⟨_, hy, ?_⟩
  dsimp only at hx
  split at hx
  · cases hx; rfl
  · cases hx

theorem pulsed_quarterRound (u row vwin : Nat) {r : RowRun} (hr : ∀ x ∈ r.vals, x.1 < 1056) : Pulsed (rowCells u row) s (s.quarterRound u row vwin r) := by
  refine .each (fun s' x hx => ?_) s
  obtain ⟨y, hy, he⟩ := s.outside_mem hx
  exact pulsed_pulseCell s' false (rowCells_key (he.symm.trans_lt (hr y hy)) (by split <;> decide))

/-- A pulse round on the tile's row, and the row after it (R31, R119). -/
def State.pulseRow (t vwin : Nat) (r : RowRun) : State :=
  if r.stage = .fullRounds then
    let v := s.fullRound (r.unit t) r.carry.row r.done r.carry.changes
    v.setTile t { v.tile t with row := some { r with done := r.done + 1, stage := if r.done + 1 = r.rounds then .verify else .fullRounds } }
  else
    let v := s.quarterRound (r.unit t) r.carry.row vwin r
    v.setTile t { v.tile t with row := some { r with trims := r.trims + 1, stage := .verify } }

theorem State.pulseRow_spec (t vwin : Nat) {r : RowRun} (hm : ∀ x ∈ r.carry.changes, x.1 < 1056) (hv : ∀ x ∈ r.vals, x.1 < 1056) :
    ∃ v T, Pulsed (rowCells (r.unit t) r.carry.row) s v ∧ s.pulseRow t vwin r = v.setTile t T ∧ ∃ r', T.row = some r' ∧ r'.carry = r.carry ∧
      (if r.stage = .fullRounds then r'.done = r.done + 1 else r'.trims = r.trims + 1 ∧ r'.stage = .verify) := by
  by_cases h : r.stage = .fullRounds
  · refine ⟨_, _, pulsed_fullRound s _ _ r.done hm, if_pos h, _, rfl, rfl, ?_⟩
    rw [if_pos h]
  · refine ⟨_, _, pulsed_quarterRound s _ _ vwin hv, if_neg h, _, rfl, rfl, ?_⟩
    rw [if_neg h]
    exact ⟨rfl, rfl⟩
end

section
variable {s : State} {t : TileId} {errs : List MemErr} {r : RowRun}

theorem execProgramPulse_eq (hr : ((s.memErrs errs).takeRow t.val).pulseNext t.val = some r) (hg : s.upkGrant t.val = true)
    (hh : (s.tile t.val).tempHold = false) : execProgramPulse { what := t, errs := errs } s =
      .next ((((s.memErrs errs).takeRow t.val).upkSpend t.val r.carry.tier (s.upkFree t.val)).pulseRow t.val (s.rf (blockReg (tileBlock t.val) 0x2000) 9 4) r) := by
  simp only [execProgramPulse, hr, hg, hh, Bool.not_false, Bool.and_self, whenever_true]
  refine congrArg Host.Outcome.next ?_
  unfold State.pulseRow
  cases r.stage <;> rfl

/-- The grant of a tile's row, before its pulses or its verify read. -/
theorem onlyStacks_rowGrant (s : State) (errs : List MemErr) (t k : Nat) (free : Bool) : OnlyStacks s (((s.memErrs errs).takeRow t).upkSpend t k free) := by
  obtain ⟨c, n, he⟩ := State.upkSpend_eq ((s.memErrs errs).takeRow t) t k free
  rw [he]
  exact (sameMem_memErrs s errs).onlyStacks.trans ((onlyStacks_takeRow _ t).trans (sameMem_setTile _ _ _).onlyStacks)

/-- PROGRAM_PULSE. -/
theorem completes_programPulse (hr : ((s.memErrs errs).takeRow t.val).pulseNext t.val = some r) (hg : s.upkGrant t.val = true)
    (hh : (s.tile t.val).tempHold = false) (hm : ∀ x ∈ r.carry.changes, x.1 < 1056) (hv : ∀ x ∈ r.vals, x.1 < 1056) :
    Completes (.programPulse { what := t, errs := errs }) s fun t' =>
      ((∀ b a, t'.rdByte (.bs b) a = s.rdByte (.bs b) a) ∧ (∀ a, t'.rdByte .host a = s.rdByte .host a) ∧ (∀ k, t'.norm k = s.norm k)) ∧
      (∀ k, t'.cell k ≤ s.cell k) ∧ (∀ k, (∀ p < 1056, ∀ side < 2, k ≠ cellKey (r.unit t.val) r.carry.row p side) → t'.cell k = s.cell k) ∧
      ((s.tile t.val).row = some r → ∃ r', (t'.tile t.val).row = some r' ∧ r'.carry = r.carry ∧
        (if r.stage = .fullRounds then r'.done = r.done + 1 else r'.trims = r.trims + 1 ∧ r'.stage = .verify)) := by
  refine completes_of_tileAfter rfl (execProgramPulse_eq hr hg hh) fun w hw => ?_
  have hgrant := onlyStacks_rowGrant s errs t.val r.carry.tier (s.upkFree t.val)
  generalize State.upkSpend _ _ _ _ = u at hgrant hw
  obtain ⟨v, T, hp, he, hrow⟩ := u.pulseRow_spec t.val (s.rf (blockReg (tileBlock t.val) 0x2000) 9 4) hm hv
  rw [he] at hw
  have hset := sameMem_setTile v t.val T
  have hcell (k : Nat) : w.cell k = v.cell k := (hw.mem.cells k).trans (hset.cells k)
  have hbyte (sp : Space) (a : Nat) : w.rdByte sp a = u.rdByte sp a := by rw [hw.mem.bytes, hset.bytes, hp.rdByte]
  refine ⟨⟨fun b a => ?_, fun a => ?_, fun k => ?_⟩, fun k => ?_, fun k hk => ?_, fun _ => ?_⟩
  · rw [hbyte, hgrant.block]
  · rw [hbyte, hgrant.host]
  · rw [hw.mem.norms, hset.norms, hp.norm, hgrant.norms]
  · rw [hcell, ← hgrant.cells k]
    exact hp.le k
  · rw [hcell, ← hgrant.cells k]
    refine hp.out k ?_
    rintro ⟨p, h1, side, h2, he⟩
    exact hk p h1 side h2 he
  · rwa [hw.row, State.setTile_get, if_pos rfl]
end

/-! ### The end of a row (R119 to R124, R127) -/

section
variable (s : State)

/-- What the last verify of a row found is told and counted (R120, R123, R124). -/
def State.noteRow (t : Nat) (r : RowRun) : State :=
  let b := tileBlock t
  let u := r.unit t
  let s1 := if (s.outside u (s.rf (blockReg b 0x2000) 9 4) r).isEmpty then s else (s.setBit (blockReg b 0x200C) 1).raise 0x0130 1 u
  let s2 := if r.blocked.isEmpty then s1 else ((s1.setBit (blockReg b 0x200C) 0).raise 0x0131 1 u).setHeadroom u 0
  let s3 := if !r.fresh && r.vals.any (fun (_, _, l) => decide (l ≤ s.rf (blockReg b 0x2000) 24 22)) then
    s2.setHeadroom u (s2.rf (tierReg u) 15 0 - 1) else s2
  if r.fresh then s3 else s3.bump (blockReg b 0x2010) 31 0 1

/-- The HOLD of a repair's row ends with it (R115). -/
def State.dropHold (t : Nat) (r : RowRun) : State :=
  if !r.fresh && r.carry.tag.isNone && !((s.tile t).procs.any (TierProc.inPlaceOf r.carry.tier)) then s.setRf (tierReg (r.unit t)) 19 19 0 else s

/-- The row has left the tile, and its deviations are reported. -/
def State.leaveRow (t : Nat) (r : RowRun) (T : Tile) : State :=
  let v := s.setTile t { T with row := none }
  v.reportRow (t * 8 + r.src) r.carry.row false (v.deviations (t * 8 + r.src) r.carry.row r.vals) r.blocked []

/-- A fresh write's procedure moves on to its next row. -/
def State.nextRow (t : Nat) (r : RowRun) : State :=
  if r.fresh then s.setTile t { s.tile t with procs := (s.tile t).procs.map fun p => if p.stage == .writing && p.tier == r.src then p.rowDone else p }
  else s

theorem State.finishRow_eq (t : Nat) (r : RowRun) : s.finishRow t r =
    let v := s.noteRow t r
    (((v.dropHold t r).leaveRow t r (v.tile t)).serveHeld t (v.tile t).headHeld).nextRow t r := rfl

theorem reported_noteRow (t : Nat) (r : RowRun) : Reported s (s.noteRow t r) := by
  unfold State.noteRow
  dsimp only
  refine .trans ?_ (.ite (.refl _) (reported_setRn _ _ _))
  refine .trans ?_ (.ite (reported_setHeadroom _ _ _) (.refl _))
  refine .trans ?_ (.ite (.refl _) ((reported_setRn _ _ _).trans ((reported_report _ _).trans (reported_setHeadroom _ _ _))))
  exact .ite (.refl s) ((reported_setRn s _ _).trans (reported_report _ _))

theorem reported_dropHold (t : Nat) (r : RowRun) : Reported s (s.dropHold t r) := by
  unfold State.dropHold
  exact .ite (reported_setRn s _ _) (.refl s)

/-- The tile has no row; of the memories only stacks have changed. -/
structure RowLeft (t : Nat) (s u : State) : Prop extends OnlyStacks s u where
  row : (u.tile t).row = none

theorem RowLeft.setTile {t : Nat} {s u : State} {T : Tile} (h : RowLeft t s u) (hT : T.row = (u.tile t).row) : RowLeft t s (u.setTile t T) :=
  ⟨h.toOnlyStacks.trans (sameMem_setTile u t T).onlyStacks, by rw [State.setTile_get, if_pos rfl, hT, h.row]⟩

theorem rowLeft_leaveRow (t : Nat) (r : RowRun) (T : Tile) : RowLeft t s (s.leaveRow t r T) := by
  unfold State.leaveRow
  dsimp only
  generalize hv : s.setTile t _ = v
  have hrow : (v.tile t).row = none := by rw [← hv, State.setTile_get, if_pos rfl]
  have hrep := reported_reportRow v (t * 8 + r.src) r.carry.row false (v.deviations (t * 8 + r.src) r.carry.row r.vals) r.blocked []
  exact ⟨(hv ▸ (sameMem_setTile s t _).onlyStacks : OnlyStacks s v).trans hrep.toOnlyStacks, by rw [hrep.tile, hrow]⟩

/-- A row that ends leaves the tile; of the memories only its piece's stack may change. -/
theorem rowLeft_finishRow (t : Nat) (r : RowRun) : RowLeft t s (s.finishRow t r) := by
  rw [State.finishRow_eq]
  have hnote := ((reported_noteRow s t r).trans (reported_dropHold _ t r)).toOnlyStacks
  obtain ⟨hstack, hrow⟩ := rowLeft_leaveRow ((s.noteRow t r).dropHold t r) t r ((s.noteRow t r).tile t)
  have hleft : RowLeft t s (((s.noteRow t r).dropHold t r).leaveRow t r ((s.noteRow t r).tile t)) := ⟨hnote.trans hstack, hrow⟩
  dsimp only
  generalize State.leaveRow _ t r _ = v at hleft ⊢
  have hserve (was : Bool) : RowLeft t s (v.serveHeld t was) := by
    unfold State.serveHeld
    dsimp only
    split
    · exact hleft.setTile rfl
    · exact hleft
  unfold State.nextRow
  split
  · exact (hserve _).setTile rfl
  · exact hserve _
end

/-! The end of a coppice in place. -/

section
variable (s : State)

theorem sameMem_setHeadroom (u v : Nat) : SameMem s (s.setHeadroom u v) := by
  simp only [State.setHeadroom]
  split
  · exact (sameMem_setRf s _ _ _ _).trans (sameMem_raise _ _ _ _)
  · exact sameMem_setRf s _ _ _ _

theorem State.setHeadroom_tiles (u v : Nat) : (s.setHeadroom u v).tiles = s.tiles := (reported_setHeadroom s u v).tiles

/-- What makes a tier RESIDENT, before its headroom is set. -/
def State.resume (u : Nat) : State :=
  let v := (s.setTierState u (if 10000 ≤ (s.tier u).erases then stRetired else stResident)).setTier u { s.tier u with sweepS := s.sweepInterval }
  ((v.writeResidency u).setRf (tileReg (u / 8) 0xC) (8 + u % 8) (8 + u % 8) (b2n (s.tier u).dslice)).setTierReadEn u true

theorem State.makeResident_eq (u h : Nat) : s.makeResident u h = (s.resume u).setHeadroom u h := rfl

theorem sameMem_setTier (u : Nat) (I : TierInfo) : SameMem s (s.setTier u I) := .of_store rfl
theorem sameMem_writeResidency (u : Nat) : SameMem s (s.writeResidency u) := .of_store rfl

theorem sameMem_resume (u : Nat) : SameMem s (s.resume u) := by
  unfold State.resume
  dsimp only
  exact (sameMem_setRf s _ _ _ _).trans ((sameMem_setTier _ _ _).trans ((sameMem_writeResidency _ _).trans ((sameMem_setRf _ _ _ _ _).trans (sameMem_setRf _ _ _ _ _))))

theorem sameMem_makeResident (u h : Nat) : SameMem s (s.makeResident u h) := by
  rw [State.makeResident_eq]
  exact (sameMem_resume s u).trans (sameMem_setHeadroom _ u h)

theorem State.makeResident_tiles (u h : Nat) : (s.makeResident u h).tiles = s.tiles := by
  rw [State.makeResident_eq, State.setHeadroom_tiles]
  rfl

theorem sameMem_setProcs (t : Nat) (l : List TierProc) : SameMem s (s.setProcs t l) := sameMem_setTile s t _

theorem State.setProcs_row (t : Nat) (l : List TierProc) (x : Nat) : ((s.setProcs t l).tile x).row = (s.tile x).row := by
  unfold State.setProcs
  rw [State.setTile_get]
  split
  · rw [‹x = t›]
  · rfl

theorem State.setProcs_procs (t : Nat) (l : List TierProc) (x : Nat) : ((s.setProcs t l).tile x).procs = if x = t then l else (s.tile x).procs := by
  unfold State.setProcs
  rw [State.setTile_get]
  split <;> rfl

/-- A coppice that ends in place changes no memory and no row. -/
theorem State.endInPlace_keeps (t k x : Nat) : SameMem s (s.endInPlace t k) ∧ ((s.endInPlace t k).tile x).row = (s.tile x).row := by
  unfold State.endInPlace
  split
  · exact ⟨.refl s, rfl⟩
  · next rest _ =>
    generalize hv : s.setProcs t rest = v
    refine ⟨(hv ▸ sameMem_setProcs s t rest : SameMem s v).trans ((sameMem_makeResident v _ _).trans (sameMem_setRf _ _ _ _ _)), ?_⟩
    have h (n : Nat) : (((v.makeResident (t * 8 + k) n).setHold (t * 8 + k) false).tile x) = v.tile x :=
      congrArg (SMap.get _ · x) (v.makeResident_tiles _ _)
    dsimp only
    rw [h, ← hv, State.setProcs_row]

theorem State.finishInPlace_keeps (t x : Nat) : SameMem s (s.finishInPlace t) ∧ ((s.finishInPlace t).tile x).row = (s.tile x).row := by
  unfold State.finishInPlace
  split
  · next p _ _ =>
    dsimp only
    obtain ⟨hm, hr⟩ := s.endInPlace_keeps t p.tier x
    split
    · exact ⟨.refl s, rfl⟩
    · split
      · obtain ⟨hm', hr'⟩ := (s.endInPlace t p.tier).endInPlace_keeps (twinUnit (t * 8) / 8) p.tier x
        exact ⟨hm.trans hm', hr'.trans hr⟩
      · exact ⟨hm, hr⟩
  · exact ⟨.refl s, rfl⟩
end

/-! ### VERIFY_READ (R33, R119 to R124) -/

theorem State.verifyRow_eq (s : State) (u row : Nat) : ∃ l, s.verifyRow u row = (l, { s with draws := s.draws + 1056 }) := ⟨_, rfl⟩

/-- A row whose verify is due either waits for a trim round or ends. -/
theorem execVerifyRead_row {s : State} {t : TileId} {errs : List MemErr} {r : RowRun} (hr : (((s.memErrs errs).takeRow t.val).tile t.val).row = some r)
    (hv : r.stage = .verify) (hg : s.upkGrant t.val = true) : ∃ u, execVerifyRead { what := t, errs := errs } s = .next u ∧ OnlyStacks s u ∧
      ((u.tile t.val).row = none ∨ ∃ r', (u.tile t.val).row = some r' ∧ r'.stage = .trimRound ∧ r'.carry = r.carry) := by
  simp only [execVerifyRead, hr, hv, hg, beq_self_eq_true, Bool.and_self, whenever_true]
  have hgrant := onlyStacks_rowGrant s errs t.val r.carry.tier (s.upkFree t.val)
  generalize State.upkSpend _ _ _ _ = u at hgrant ⊢
  obtain ⟨l, hl⟩ := u.verifyRow_eq (r.unit t.val) r.carry.row
  rw [hl]
  dsimp only
  have hdraw : OnlyStacks s { u with draws := u.draws + 1056 } := hgrant.trans (.of_store rfl)
  generalize ({ u with draws := u.draws + 1056 } : State) = w at hdraw ⊢
  split
  · refine ⟨_, rfl, hdraw.trans (sameMem_setTile w _ _).onlyStacks, .inr ?_⟩
    rw [State.setTile_get, if_pos rfl]
    exact ⟨_, rfl, rfl, rfl⟩
  · exact ⟨_, rfl, hdraw.trans (rowLeft_finishRow w _ _).toOnlyStacks, .inl (rowLeft_finishRow w _ _).row⟩

/-- VERIFY_READ. -/
theorem completes_verifyRead {s : State} {t : TileId} {errs : List MemErr} {r : RowRun} (hr : (((s.memErrs errs).takeRow t.val).tile t.val).row = some r)
    (hv : r.stage = .verify) (hg : s.upkGrant t.val = true) : Completes (.verifyRead { what := t, errs := errs }) s fun t' =>
      ((∀ b a, t'.rdByte (.bs b) a = s.rdByte (.bs b) a) ∧ (∀ a, t'.rdByte .host a = s.rdByte .host a) ∧ (∀ k, t'.norm k = s.norm k)) ∧
      (∀ k, t'.cell k = s.cell k) ∧
      ((t'.tile t.val).row = none ∨ ∃ r', (t'.tile t.val).row = some r' ∧ r'.stage = .trimRound ∧ r'.carry = r.carry) := by
  obtain ⟨u, hu, hstack, hrow⟩ := execVerifyRead_row hr hv hg
  refine completes_of_tileAfter (u := u.finishInPlace t.val) rfl (by rw [execVerify, hu]) fun w hw => ?_
  obtain ⟨hmem, hkeep⟩ := u.finishInPlace_keeps t.val t.val
  obtain ⟨hcells, hblock, hhost, hnorms⟩ := (hstack.trans hmem.onlyStacks).trans hw.mem.onlyStacks
  refine ⟨⟨hblock, hhost, hnorms⟩, hcells, ?_⟩
  rw [hw.row, hkeep]
  exact hrow
end Sys2Proof.Machine
end

section
namespace Sys2Proof.Machine

/-! ### Procedures of a tile (R34 to R39, R126 to R134) -/

section
variable (s : State)

theorem State.modHead_eq {t : Nat} {p : TierProc} {ps : List TierProc} (h : (s.tile t).procs = p :: ps) (f : TierProc → TierProc) :
    s.modHead t f = s.setProcs t (f p :: ps) := by
  unfold State.modHead
  rw [h]

theorem State.dropHead_eq {t : Nat} {p : TierProc} {ps : List TierProc} (h : (s.tile t).procs = p :: ps) : s.dropHead t = s.setProcs t ps := by
  unfold State.dropHead
  rw [h]
  rfl

theorem sameMem_jErase (u n : Nat) (d : Bool) : SameMem s (s.jErase u n d) := sameMem_jWrite s _

theorem sameMem_commitErase (u : Nat) : SameMem s (s.commitErase u) := by
  unfold State.commitErase
  dsimp only
  generalize hv : State.jErase _ u _ false = v
  have h : SameMem s v := hv ▸ (sameMem_setTier s u _).trans (sameMem_jErase _ _ _ _)
  split
  · exact h.trans ((sameMem_setJrn v _).trans (sameMem_raise _ _ _ _))
  · exact h

theorem State.commitErase_tiles (u : Nat) : (s.commitErase u).tiles = s.tiles := (s.commitErase_keeps u).2.1

theorem State.showLoading_keeps (t : Nat) (p : TierProc) : SameMem s (s.showLoading t p) ∧ (s.showLoading t p).tiles = s.tiles ∧
    (s.showLoading t p).tiers = s.tiers := by
  unfold State.showLoading
  split
  · exact ⟨.refl s, rfl, rfl⟩
  · exact ⟨sameMem_setRf s _ _ _ _, rfl, rfl⟩

theorem State.beginWrite_cases (t : Nat) (p : TierProc) : s.beginWrite t p = ({ p with stage := .writing, row := 0 }, s.showLoading t p) ∨
    s.beginWrite t p = ({ p with stage := .erasing, row := 0, pulses := 0, extra := 0, verify := false }, s.commitErase (p.eraseUnit t)) := by
  rw [State.beginWrite]
  exact ite_eq_or_eq _ _ _

/-- A procedure that goes on to write changes no memory and no tile; it erases or writes next. -/
theorem State.beginWrite_keeps (t : Nat) (p : TierProc) : SameMem s (s.beginWrite t p).2 ∧ (s.beginWrite t p).2.tiles = s.tiles ∧
    (s.beginWrite t p).1.stage ≠ .sweeping := by
  obtain ⟨hm, ht, -⟩ := s.showLoading_keeps t p
  obtain he | he := s.beginWrite_cases t p
  · rw [he]
    exact ⟨hm, ht, fun h => by cases h⟩
  · rw [he]
    exact ⟨sameMem_commitErase s _, s.commitErase_tiles _, fun h => by cases h⟩

/-- A repair that is queued changes the carries of tiles, and what a block has yet to fold. -/
structure Queued (s t : State) : Prop where
  store : t.store = s.store
  tiers : t.tiers = s.tiers
  procs : ∀ x, (t.tile x).procs = (s.tile x).procs

theorem Queued.refl (s : State) : Queued s s := ⟨rfl, rfl, fun _ => rfl⟩
theorem Queued.trans {s t u : State} (h : Queued s t) (h' : Queued t u) : Queued s u :=
  ⟨h'.store.trans h.store, h'.tiers.trans h.tiers, fun x => (h'.procs x).trans (h.procs x)⟩
theorem Queued.each {α : Type} {f : State → α → State} (h : ∀ s x, Queued s (f s x)) (l : List α) (s : State) : Queued s (s.each f l) :=
  State.each_pred (fun t => Queued s t) f (fun t x ht => ht.trans (h t x)) l s (.refl s)

theorem Queued.ite {s a b : State} {c : Prop} [Decidable c] (ha : Queued s a) (hb : Queued s b) : Queued s (if c then a else b) := by
  split
  · exact ha
  · exact hb

theorem queued_queueChange (u row : Nat) (tag job : Option Nat) (pair : Nat) (n : Int) : Queued s (s.queueChange u row tag job pair n) := by
  refine ⟨rfl, rfl, fun x => ?_⟩
  unfold State.queueChange
  rw [State.setTile_get]
  split
  · rw [‹x = u / 8›]
  · rfl

theorem queued_queueRepair (u row : Nat) : Queued s (s.queueRepair u row) := by
  unfold State.queueRepair
  dsimp only
  refine .trans (.trans ?_ (queued_queueChange _ u row _ _ 0 0)) (.ite (queued_queueChange _ _ _ _ _ _ _) (.refl _))
  exact .ite ⟨rfl, rfl, fun _ => rfl⟩ (.refl s)

/-! ### Sweeps (R130 to R133) -/

/-- What the end of a sweep leaves of the tile's procedures: the sweep is gone, or its procedure does not sweep any more. -/
def State.sweptOut (s : State) (t : Nat) (ps : List TierProc) : Prop :=
  (s.tile t).procs = ps ∨ ∃ q, (s.tile t).procs = q :: ps ∧ q.stage ≠ .sweeping

/-- A sweep that ends changes no memory. -/
theorem State.endSweep_keeps {t : Nat} {p : TierProc} {ps : List TierProc} (h : (s.tile t).procs = p :: ps) (q : TierProc) :
    SameMem s (s.endSweep t q) ∧ (s.endSweep t q).sweptOut t ps := by
  have hdone (v : State) (hv : v.tiles = s.tiles) : (v.tile t).procs = p :: ps := by rw [State.tile, hv]; exact h
  have hwrite (v : State) (hv : v.tiles = s.tiles) (hm : SameMem s v) :
      SameMem s ((v.beginWrite t q).2.modHead t fun _ => (v.beginWrite t q).1) ∧
        ((v.beginWrite t q).2.modHead t fun _ => (v.beginWrite t q).1).sweptOut t ps := by
    obtain ⟨hm', ht', hstage⟩ := v.beginWrite_keeps t q
    rw [State.modHead_eq _ (hdone _ (ht'.trans hv))]
    refine ⟨(hm.trans hm').trans (sameMem_setProcs _ _ _), .inr ⟨_, ?_, hstage⟩⟩
    rw [State.setProcs_procs, if_pos rfl]
  unfold State.endSweep
  dsimp only
  split
  · generalize hv : (if (s.sweepable (t * 8 + q.tier) && decide (s.rf (blockReg (tileBlock t) 0x2004) 31 16 < q.exc)) = true then
      s.raise 0x0133 1 (t * 8 + q.tier) else s) = v
    have hsv : SameMem s v ∧ v.tiles = s.tiles := by
      rw [← hv]
      split
      · exact ⟨sameMem_raise s _ _ _, State.raise_tiles ..⟩
      · exact ⟨.refl s, rfl⟩
    generalize hw : State.setRf _ _ 20 20 0 = w
    have hvw : SameMem v w ∧ w.tiles = v.tiles := hw ▸ ⟨(sameMem_setTier v _ _).trans (sameMem_setRf _ _ _ _ _), rfl⟩
    rw [State.dropHead_eq w (hdone w (hvw.2.trans hsv.2))]
    refine ⟨(hsv.1.trans hvw.1).trans (sameMem_setProcs _ _ _), .inl ?_⟩
    rw [State.setProcs_procs, if_pos rfl]
  · exact hwrite _ rfl (sameMem_setRf s _ _ _ _)
  · exact hwrite s rfl (.refl s)
  · rw [State.modHead_eq s h]
    refine ⟨sameMem_setProcs _ _ _, .inr ⟨{ p with stage := .finished }, ?_, fun he => by cases he⟩⟩
    rw [State.setProcs_procs, if_pos rfl]

/-- One row of a sweep has been read: the tile's procedures are q and those after it. -/
def State.goOn (t : Nat) (q : TierProc) : State :=
  let v := s.modHead t fun _ => q
  if (v.sweepRow t q).isNone then v.endSweep t q else v

theorem State.goOn_keeps {t : Nat} {p : TierProc} {ps : List TierProc} (h : (s.tile t).procs = p :: ps) (q : TierProc) :
    SameMem s (s.goOn t q) ∧ (((s.goOn t q).tile t).procs = ps ∨ ∃ q', ((s.goOn t q).tile t).procs = q' :: ps ∧ (q'.stage = .sweeping → q'.row = q.row)) := by
  unfold State.goOn
  rw [State.modHead_eq s h]
  generalize hv : s.setProcs t (q :: ps) = v
  have hm : SameMem s v := hv ▸ sameMem_setProcs s t _
  have hp : (v.tile t).procs = q :: ps := by rw [← hv, State.setProcs_procs, if_pos rfl]
  obtain ⟨hm', hend⟩ := v.endSweep_keeps hp q
  dsimp only
  split
  · refine ⟨hm.trans hm', hend.imp_right ?_⟩
    rintro ⟨q', h1, h2⟩
    exact ⟨q', h1, fun h3 => absurd h3 h2⟩
  · exact ⟨hm, .inr ⟨q, hp, fun _ => rfl⟩⟩

/-- A swept row is read and judged, its deviations are reported, and its repair is queued (R131 to R133). -/
def State.sweepOne (t : Nat) (p : TierProc) (errs : List MemErr) (row : Nat) : State :=
  let u := t * 8 + p.tier
  let b := tileBlock t
  let read := ((s.memErrs errs).upkSpend t p.tier (s.upkFree t)).verifyRow u row
  let vals := read.1
  let w := read.2
  let exc := w.exceptions u row (w.rf (blockReg b 0x2000) 21 16) vals
  let low := vals.any fun (_, _, l) => decide (l ≤ w.rf (blockReg b 0x2000) 24 22)
  let x := w.reportRow u row true (w.deviations u row vals) [] (exc.filter fun q => decide (q < 1024))
  let y := match p.kind with
    | .sweep => if exc.isEmpty then x else x.queueRepair u row
    | _ => x
  y.goOn t { p with row := row + 1, exc := p.exc + exc.length, low := p.low + b2n low, rows := if exc.isEmpty then p.rows else p.rows ++ [row] }

theorem State.sweepOne_keeps {t : Nat} {p : TierProc} {ps : List TierProc} (h : (s.tile t).procs = p :: ps) (errs : List MemErr) (row : Nat) :
    OnlyStacks s (s.sweepOne t p errs row) ∧ (((s.sweepOne t p errs row).tile t).procs = ps ∨
      ∃ q, ((s.sweepOne t p errs row).tile t).procs = q :: ps ∧ (q.stage = .sweeping → q.row = row + 1)) := by
  have herr := reported_memErrs s errs
  obtain ⟨c, n, hspend⟩ := (s.memErrs errs).upkSpend_eq t p.tier (s.upkFree t)
  unfold State.sweepOne
  dsimp only
  rw [hspend]
  generalize hv : (s.memErrs errs).setTile t _ = v
  have hsv : OnlyStacks s v := herr.toOnlyStacks.trans (hv ▸ (sameMem_setTile _ t _).onlyStacks)
  have hpv : (v.tile t).procs = p :: ps := by rw [← hv, State.setTile_get, if_pos rfl, herr.tile]; exact h
  obtain ⟨l, hl⟩ := v.verifyRow_eq (t * 8 + p.tier) row
  rw [hl]
  dsimp only
  generalize hw : ({ v with draws := v.draws + 1056 } : State) = w
  have hvw : Reported v w := hw ▸ .of_mem (.of_store rfl) rfl
  generalize State.exceptions _ _ _ _ _ = exc
  generalize hx : w.reportRow _ _ _ _ _ _ = x
  have hwx : Reported w x := hx ▸ reported_reportRow w _ _ _ _ _ _
  have hpx : (x.tile t).procs = p :: ps := by rw [hwx.tile, hvw.tile, hpv]
  have hsx : OnlyStacks s x := hsv.trans (hvw.toOnlyStacks.trans hwx.toOnlyStacks)
  have hrep : Queued x (match p.kind with | .sweep => if exc.isEmpty = true then x else x.queueRepair (t * 8 + p.tier) row | _ => x) := by
    split
    · split
      · exact .refl x
      · exact queued_queueRepair x _ _
    · exact .refl x
  obtain ⟨hm, hgo⟩ := State.goOn_keeps _ ((hrep.procs t).trans hpx)
    { p with row := row + 1, exc := p.exc + exc.length, low := p.low + b2n (l.any fun y => decide (y.2.2 ≤ w.rf (blockReg (tileBlock t) 0x2000) 24 22)),
             rows := if exc.isEmpty then p.rows else p.rows ++ [row] }
  exact ⟨hsx.trans ((OnlyStacks.of_store hrep.store).trans hm.onlyStacks), hgo⟩
end

theorem execSweepRead_eq {s : State} {t : TileId} {errs : List MemErr} {p : TierProc} {ps : List TierProc} (h : (s.tile t.val).procs = p :: ps)
    (hst : p.stage = .sweeping) (hg : s.otherGrant t.val = true) : execSweepRead { what := t, errs := errs } s =
      .next (match s.sweepRow t.val p with
        | none => s.endSweep t.val p
        | some row => if s.rowFolds (t.val * 8 + p.tier) row then s else s.sweepOne t.val p errs row) := by
  have hc : (p.stage == .sweeping && s.otherGrant t.val) = true := by rw [hst, hg]; rfl
  simp only [execSweepRead, h]
  rw [hc, whenever_true]
  cases s.sweepRow t.val p with
  | none => rfl
  | some row =>
    refine congrArg Host.Outcome.next (congrArg (ite _ s) ?_)
    simp only [State.sweepOne, State.goOn] <;> generalize State.verifyRow _ _ _ = x <;> cases p.kind <;> rfl

/-- SWEEP_READ. -/
theorem completes_sweepRead {s : State} {t : TileId} {errs : List MemErr} {p : TierProc} {ps : List TierProc} (h : (s.tile t.val).procs = p :: ps)
    (hst : p.stage = .sweeping) (hg : s.otherGrant t.val = true) : Completes (.sweepRead { what := t, errs := errs }) s fun t' =>
      ((∀ b a, t'.rdByte (.bs b) a = s.rdByte (.bs b) a) ∧ (∀ a, t'.rdByte .host a = s.rdByte .host a) ∧ (∀ k, t'.norm k = s.norm k)) ∧
      (∀ k, t'.cell k = s.cell k) ∧
      ∀ row, s.sweepRow t.val p = some row → s.rowFolds (t.val * 8 + p.tier) row = false →
        (t'.tile t.val).procs = ps ∨ ∃ q, (t'.tile t.val).procs = q :: ps ∧ (q.stage = .sweeping → q.row = row + 1) := by
  refine completes_of_tileAfter rfl (execSweepRead_eq h hst hg) fun w hw => ?_
  have hall {u : State} (hu : OnlyStacks s u) (hw : Refilled u w) :
      ((∀ b a, w.rdByte (.bs b) a = s.rdByte (.bs b) a) ∧ (∀ a, w.rdByte .host a = s.rdByte .host a) ∧ (∀ k, w.norm k = s.norm k)) ∧
      ∀ k, w.cell k = s.cell k := by
    obtain ⟨hcells, hblock, hhost, hnorms⟩ := hu.trans hw.mem.onlyStacks
    exact ⟨⟨hblock, hhost, hnorms⟩, hcells⟩
  cases hrow : s.sweepRow t.val p with
  | none =>
    rw [hrow] at hw
    obtain ⟨h1, h2⟩ := hall (s.endSweep_keeps h p).1.onlyStacks hw
    exact ⟨h1, h2, fun _ hn => by cases hn⟩
  | some row =>
    rw [hrow] at hw
    dsimp only at hw ⊢
    cases hf : s.rowFolds (t.val * 8 + p.tier) row with
    | true =>
      rw [hf, if_pos rfl] at hw
      obtain ⟨h1, h2⟩ := hall (.refl s) hw
      exact ⟨h1, h2, fun r hr hn => by cases hr; rw [hf] at hn; cases hn⟩
    | false =>
      rw [hf, if_neg Bool.false_ne_true] at hw
      obtain ⟨hs, hp⟩ := s.sweepOne_keeps h errs row
      obtain ⟨h1, h2⟩ := hall hs hw
      exact ⟨h1, h2, fun r hr _ => by cases hr; rw [hw.procs]; exact hp⟩

end Sys2Proof.Machine
end

section
namespace Sys2Proof.Machine

/-! ### ERASE_SUB_PULSE (R35, R42, R600) -/

theorem le_erasedTo (key d level : Nat) : level ≤ erasedTo key d level := by
  simp only [erasedTo]
  split
  · exact le_refl _
  · omega

/-- Cells of K have been raised; nothing else but the draws has changed. -/
structure Raised (K : Nat → Prop) (s t : State) : Prop where
  rest : ∃ c d, t = { s with store := { s.store with cells := c }, draws := d }
  le   : ∀ k, s.cell k ≤ t.cell k
  out  : ∀ k, ¬ K k → t.cell k = s.cell k

/-- One sub-pulse on the first m cells of tier u, of n cells to a tier. -/
def State.eraseFirst (s : State) (u n m : Nat) : State :=
  s.each (fun st i => st.setCell (u * n + i) (erasedTo (u * n + i) (s.draws + i) (s.cell (u * n + i)))) (List.range m)

theorem State.eraseCells_eq (s : State) (u : Nat) : s.eraseCells u = { s.eraseFirst u 2162688 2162688 with draws := s.draws + 2162688 } := rfl

theorem raised_eraseFirst (s : State) (u : Nat) {n m : Nat} (hm : m ≤ n) : Raised (fun k => k / n = u) s (s.eraseFirst u n m) := by
  refine State.each_pred_mem (fun t => Raised (fun k => k / n = u) s t) _ _ (fun t i hi ht => ?_) s
    ⟨⟨_, _, rfl⟩, fun _ => le_refl _, fun _ _ => rfl⟩
  obtain ⟨⟨c, d, he⟩, hle, hout⟩ := ht
  have hkey : (u * n + i) / n = u := by
    have hi := List.mem_range.mp hi
    rw [Nat.mul_comm, Nat.mul_add_div (by omega), Nat.div_eq_of_lt (by omega), Nat.add_zero]
  refine ⟨⟨_, d, by rw [he]; rfl⟩, fun k => ?_, fun k hk => ?_⟩
  · rw [State.setCell_get]
    split
    · rw [‹k = _›]; exact le_erasedTo _ _ _
    · exact hle k
  · rw [State.setCell_get, if_neg fun he => hk (by rw [he]; exact hkey)]
    exact hout k hk

theorem Raised.setDraws {K : Nat → Prop} {s t : State} (h : Raised K s t) (d : Nat) : Raised K s { t with draws := d } := by
  obtain ⟨⟨c, _, rfl⟩, hle, hout⟩ := h
  exact ⟨⟨c, d, rfl⟩, hle, hout⟩

/-- A sub-pulse on a tier raises cells of its own (R35, R600). -/
theorem raised_eraseCells (s : State) (u : Nat) : Raised (fun k => k / 2162688 = u) s (s.eraseCells u) := by
  rw [State.eraseCells_eq]
  exact (raised_eraseFirst s u (le_refl 2162688)).setDraws _

/-- The head procedure has given one more sub-pulse (R35, R36). -/
def TierProc.pulsed (p : TierProc) : TierProc :=
  { p with pulses := p.pulses + 1, verify := decide (8 ≤ p.pulses + 1), extra := if 8 ≤ p.pulses then p.extra + 1 else p.extra }

/-- One sub-pulse on the tier that the head procedure erases. -/
def State.subPulse (s : State) (t : Nat) (p : TierProc) : State :=
  ((s.upkSpend t (p.eraseUnit t % 8) (s.upkFree t)).eraseCells (p.eraseUnit t)).modHead t TierProc.pulsed

theorem execEraseSubPulse_eq {s : State} {t : TileId} {p : TierProc} {ps : List TierProc} (h : (s.tile t.val).procs = p :: ps)
    (hst : p.stage = .erasing) (hv : p.verify = false) (hg : s.otherGrant t.val = true) (hh : (s.tile t.val).tempHold = false) :
    execEraseSubPulse t s = .next (s.subPulse t.val p) := by
  have hc : (p.stage == .erasing && !p.verify && s.otherGrant t.val && !(s.tile t.val).tempHold) = true := by rw [hst, hv, hg, hh]; rfl
  simp only [execEraseSubPulse, h]
  rw [hc, whenever_true]
  unfold State.subPulse
  generalize State.eraseCells _ _ = v
  rfl

/-- ERASE_SUB_PULSE. -/
theorem completes_eraseSubPulse {s : State} {t : TileId} {p : TierProc} {ps : List TierProc} (h : (s.tile t.val).procs = p :: ps)
    (hst : p.stage = .erasing) (hv : p.verify = false) (hg : s.otherGrant t.val = true) (hh : (s.tile t.val).tempHold = false) :
    Completes (.eraseSubPulse t) s fun t' =>
      (∀ sp a, t'.rdByte sp a = s.rdByte sp a) ∧ (∀ k, s.cell k ≤ t'.cell k) ∧
      (∀ k, k / 2162688 ≠ p.eraseUnit t.val → t'.cell k = s.cell k) ∧
      (∃ q, (t'.tile t.val).procs = q :: ps ∧ q.pulses = p.pulses + 1 ∧ (8 ≤ q.pulses → q.verify = true)) := by
  refine ⟨_, execEraseSubPulse_eq h hst hv hg hh, ?_⟩
  unfold State.subPulse
  obtain ⟨c, n, hspend⟩ := s.upkSpend_eq t.val (p.eraseUnit t.val % 8) (s.upkFree t.val)
  rw [hspend]
  generalize hu : s.setTile t.val _ = u
  have hsu : SameMem s u := hu ▸ sameMem_setTile s t.val _
  have hpu : (u.tile t.val).procs = p :: ps := by rw [← hu, State.setTile_get, if_pos rfl]; exact h
  obtain ⟨⟨c, d, he⟩, hle, hout⟩ := raised_eraseCells u (p.eraseUnit t.val)
  generalize u.eraseCells (p.eraseUnit t.val) = w at he hle hout ⊢
  have hpw : (w.tile t.val).procs = p :: ps := by rw [he]; exact hpu
  rw [State.modHead_eq w hpw]
  have hset := sameMem_setProcs w t.val (p.pulsed :: ps)
  refine ⟨fun sp a => ?_, fun k => ?_, fun k hk => ?_, p.pulsed, ?_, rfl, fun h8 => decide_eq_true h8⟩
  · rw [hset.bytes, ← hsu.bytes, he]
    cases sp <;> rfl
  · rw [hset.cells, ← hsu.cells]
    exact hle k
  · rw [hset.cells, ← hsu.cells]
    exact hout k hk
  · rw [State.setProcs_procs, if_pos rfl]

/-- Settles O13: each command by the lemma on it; cells move only in a pulse round, where the pairs name them, and in a sub-pulse. -/
theorem tileProgrammingTouchesOneRow : Obligations.TileProgrammingTouchesOneRow := by
  unfold Obligations.TileProgrammingTouchesOneRow
  exact fun s t => ⟨fun _ _ hr hg hh hm hv => completes_programPulse hr hg hh hm hv, fun _ _ hr hv hg => completes_verifyRead hr hv hg,
    fun _ _ _ h hst hg => completes_sweepRead h hst hg, fun _ _ h hst hv hg hh => completes_eraseSubPulse h hst hv hg hh⟩
end Sys2Proof.Machine
end

section
namespace Sys2Proof.Machine

/-! ### Tiers that others' upkeep leaves alone (R126, R134 to R136) -/

/-- No memory has changed, nor any tile's procedures; and of the tiers outside U neither what they hold nor what they show. -/
structure Apart (U : Nat → Prop) (s t : State) : Prop where
  mem   : SameMem s t
  procs : ∀ x, (t.tile x).procs = (s.tile x).procs
  tier  : ∀ u, ¬ U u → t.tier u = s.tier u
  shows : ∀ u, ¬ U u → t.tierState u = s.tierState u
  reads : ∀ u, ¬ U u → t.readEn (u / 8) (u % 8) = s.readEn (u / 8) (u % 8)

/-- The tier holds its piece, to be read: RESIDENT, or RETIRED when its erases are spent (R40, R135). -/
def State.liveTier (s : State) (erases u : Nat) : Prop :=
  s.tierState u = (if 10000 ≤ erases then stRetired else stResident) ∧ s.readEn (u / 8) (u % 8) = true

namespace Apart
variable {U V : Nat → Prop} {s t u : State}
theorem refl (U : Nat → Prop) (s : State) : Apart U s s := ⟨.refl s, fun _ => rfl, fun _ _ => rfl, fun _ _ => rfl, fun _ _ => rfl⟩
theorem trans (h : Apart U s t) (h' : Apart U t u) : Apart U s u :=
  ⟨h.mem.trans h'.mem, fun x => (h'.procs x).trans (h.procs x), fun v hv => (h'.tier v hv).trans (h.tier v hv),
    fun v hv => (h'.shows v hv).trans (h.shows v hv), fun v hv => (h'.reads v hv).trans (h.reads v hv)⟩
theorem mono (h : Apart U s t) (hV : ∀ u, U u → V u) : Apart V s t :=
  ⟨h.mem, h.procs, fun v hv => h.tier v fun hu => hv (hV v hu), fun v hv => h.shows v fun hu => hv (hV v hu), fun v hv => h.reads v fun hu => hv (hV v hu)⟩
theorem each {α : Type} {f : State → α → State} (h : ∀ s x, Apart U s (f s x)) (l : List α) (s : State) : Apart U s (s.each f l) :=
  State.each_pred (fun t => Apart U s t) f (fun t x ht => ht.trans (h t x)) l s (.refl U s)
/-- Registers apart from those of tiers and of the tiles' tier words do not matter. -/
theorem of_regs (hm : SameMem s t) (hp : ∀ x, (t.tile x).procs = (s.tile x).procs) (ht : t.tiers = s.tiers)
    (hu : ∀ u, t.reg (tierReg u) = s.reg (tierReg u)) (hl : ∀ x, t.reg (tileReg x 0xC) = s.reg (tileReg x 0xC)) : Apart U s t :=
  ⟨hm, hp, fun _ _ => by rw [State.tier, ht]; rfl, fun v _ => State.rf_congr (hu v) _ _, fun v _ => State.rbit_congr (hl (v / 8)) _⟩
theorem of_queued (h : Queued s t) : Apart U s t :=
  .of_regs (.of_store h.store) h.procs h.tiers (fun _ => State.reg_of_store h.store _) fun _ => State.reg_of_store h.store _
theorem live (h : Apart U s t) {e v : Nat} (hv : ¬ U v) (hl : s.liveTier e v) : t.liveTier e v := ⟨(h.shows v hv).trans hl.1, (h.reads v hv).trans hl.2⟩
end Apart

theorem Refilled.live {s t : State} (h : Refilled s t) {e v : Nat} (hl : s.liveTier e v) : t.liveTier e v :=
  ⟨(h.tierState v).trans hl.1, (h.readEn _ _).trans hl.2⟩

theorem tileReg_inj {t t' x : Nat} (h : tileReg t x = tileReg t' x) : t = t' := by
  unfold tileReg blockBase at h
  omega

section
variable (s : State)

theorem apart_raise (U : Nat → Prop) (c k u : Nat) : Apart U s (s.raise c k u) :=
  .of_regs (sameMem_raise s c k u) (fun x => by rw [State.raise_tile]) (State.raise_tiers ..) (fun v => s.report_reg_of_ne _ (tierReg_ne_regionReg v))
    fun x => s.report_reg_of_ne _ fun g => tileReg_ne_regionReg x g (by decide)

/-- Fields of a tier's word beside its state. -/
theorem apart_setTierField (U : Nat → Prop) (u v : Nat) {hi lo : Nat} (hle : lo ≤ hi) (hhi : hi < 32) (hd : hi < 16 ∨ 18 < lo) :
    Apart U s (s.setRf (tierReg u) hi lo v) := by
  refine ⟨sameMem_setRf s _ _ _ _, fun _ => rfl, fun _ _ => rfl, fun w _ => ?_, fun w _ => ?_⟩
  · by_cases h : w = u
    · rw [h]
      exact State.setRf_rf_other s _ _ _ _ _ _ hhi hle (by decide) hd.symm
    · exact State.rf_congr (State.setRf_reg_ne _ _ _ _ _ _ fun he => h (tierReg_inj he)) _ _
  · exact State.rbit_congr (State.setRf_reg_ne _ _ _ _ _ _ (tierReg_ne_tileReg u _ _ (by decide)).symm) _

theorem apart_setHeadroom (U : Nat → Prop) (u v : Nat) : Apart U s (s.setHeadroom u v) := by
  have h := apart_setTierField s U u v (hi := 15) (lo := 0) (by decide) (by decide) (.inl (by decide))
  simp only [State.setHeadroom]
  split
  · exact h.trans (apart_raise _ U _ _ _)
  · exact h

theorem apart_setTierState (u v : Nat) : Apart (· = u) s (s.setTierState u v) :=
  ⟨sameMem_setRf s _ _ _ _, fun _ => rfl, fun _ _ => rfl, fun _ hw => State.rf_congr (State.setRf_reg_ne _ _ _ _ _ _ fun he => hw (tierReg_inj he)) _ _,
    fun _ _ => State.rbit_congr (State.setRf_reg_ne _ _ _ _ _ _ (tierReg_ne_tileReg u _ _ (by decide)).symm) _⟩

theorem apart_setTier (u : Nat) (I : TierInfo) : Apart (· = u) s (s.setTier u I) :=
  ⟨sameMem_setTier s u I, fun _ => rfl, fun _ hw => (State.setTier_get _ _ _ _).trans (if_neg hw), fun _ _ => rfl, fun _ _ => rfl⟩

theorem apart_writeResidency (U : Nat → Prop) (u : Nat) : Apart U s (s.writeResidency u) :=
  .of_regs (sameMem_writeResidency s u) (fun _ => rfl) rfl (fun _ => rfl) fun _ => rfl

/-- READ_EN and the layout bit of a tier are bits of their own. -/
theorem State.setTierWord_readEn (t i v : Nat) {u : Nat} (hi : i < 32) (h : u / 8 ≠ t ∨ u % 8 ≠ i) :
    (s.setRf (tileReg t 0xC) i i v).readEn (u / 8) (u % 8) = s.readEn (u / 8) (u % 8) := by
  by_cases ht : u / 8 = t
  · rw [ht]
    exact State.setRf_rbit_other s _ v hi (h.resolve_left fun hn => hn ht)
  · exact State.rbit_congr (State.setRf_reg_ne _ _ _ _ _ _ fun he => ht (tileReg_inj he)) _

theorem apart_setTierReadEn (u : Nat) (on : Bool) : Apart (· = u) s (s.setTierReadEn u on) :=
  ⟨sameMem_setRf s _ _ _ _, fun _ => rfl, fun _ _ => rfl,
    fun w _ => State.rf_congr (State.setRf_reg_ne _ _ _ _ _ _ (tierReg_ne_tileReg w _ _ (by decide))) _ _,
    fun w hw => s.setTierWord_readEn _ _ _ (by omega) (by omega)⟩

theorem State.setTierReadEn_get (u : Nat) (on : Bool) : (s.setTierReadEn u on).readEn (u / 8) (u % 8) = on :=
  (State.setRf_rbit_same s _ _ (by omega)).trans (by cases on <;> rfl)

theorem apart_setLayout (U : Nat → Prop) (u v : Nat) : Apart U s (s.setRf (tileReg (u / 8) 0xC) (8 + u % 8) (8 + u % 8) v) :=
  ⟨sameMem_setRf s _ _ _ _, fun _ => rfl, fun _ _ => rfl,
    fun w _ => State.rf_congr (State.setRf_reg_ne _ _ _ _ _ _ (tierReg_ne_tileReg w _ _ (by decide))) _ _,
    fun w _ => s.setTierWord_readEn _ _ _ (by omega) (by omega)⟩

/-! A tier becomes RESIDENT, or free. -/

theorem apart_makeResident (u h : Nat) : Apart (· = u) s (s.makeResident u h) := by
  rw [State.makeResident_eq]
  exact ((apart_setTierState s u _).trans ((apart_setTier _ u _).trans ((apart_writeResidency _ _ _).trans ((apart_setLayout _ _ u _).trans
    (apart_setTierReadEn _ u _))))).trans (apart_setHeadroom _ _ u h)

theorem State.resume_tier (u : Nat) : (s.resume u).tier u = { s.tier u with sweepS := s.sweepInterval } := by
  have hpart (v : State) : (v.writeResidency u).tier u = v.tier u := rfl
  unfold State.resume
  dsimp only
  rw [State.setTierReadEn, State.setReadEn, State.setRf_tier, State.setRf_tier, hpart, State.setTier_get, if_pos rfl]

theorem State.makeResident_tier (u h : Nat) : (s.makeResident u h).tier u = { s.tier u with sweepS := s.sweepInterval } := by
  rw [State.makeResident_eq, (apart_setHeadroom (s.resume u) (fun _ => False) u h).tier u id, State.resume_tier]

/-- A tier that becomes RESIDENT is read from then on (R134, R135). -/
theorem State.makeResident_live (u h : Nat) : (s.makeResident u h).liveTier (s.tier u).erases u := by
  rw [State.makeResident_eq]
  refine (apart_setHeadroom (s.resume u) (fun _ => False) u h).live id ⟨?_, State.setTierReadEn_get _ u true⟩
  have hreg (a : Nat) (v : State) (w : Nat) : (v.setRf (tileReg (u / 8) 0xC) a a w).tierState u = v.tierState u :=
    State.rf_congr (State.setRf_reg_ne _ _ _ _ _ _ (tierReg_ne_tileReg u _ _ (by decide))) _ _
  refine (hreg _ _ _).trans ((hreg _ _ _).trans ?_)
  show (s.setTierState u _).tierState u = _
  rw [State.setTierState_get _ _ _ _ (by split <;> decide), if_pos rfl]

theorem apart_makeFree (u : Nat) : Apart (· = u) s (s.makeFree u) := by
  rw [State.makeFree_eq]
  have hword (v : State) (n : Nat) : Apart (· = u) v (v.setRn (tierReg u) n) :=
    ⟨sameMem_setRn v _ _, fun _ => rfl, fun _ _ => rfl, fun w hw => State.rf_congr ((State.setRn_reg _ _ _ _).trans (if_neg fun he => hw (tierReg_inj he))) _ _,
      fun w _ => State.rbit_congr ((State.setRn_reg _ _ _ _).trans (if_neg (tierReg_ne_tileReg u _ _ (by decide)).symm)) _⟩
  exact (apart_setTierReadEn s u false).trans ((apart_setLayout _ _ u _).trans ((hword _ _).trans ((apart_setTier _ u _).trans (apart_writeResidency _ _ u))))

theorem State.makeFree_readEn (u : Nat) : (s.makeFree u).readEn (u / 8) (u % 8) = false := by
  rw [State.makeFree_eq]
  refine (State.rbit_congr (s := (s.setTierReadEn u false).setRf (tileReg (u / 8) 0xC) (8 + u % 8) (8 + u % 8) 0) ?_ _).trans ?_
  · exact (State.setRn_reg _ _ _ _).trans (if_neg (tierReg_ne_tileReg u _ _ (by decide)).symm)
  · exact ((s.setTierReadEn u false).setTierWord_readEn _ _ _ (by omega) (by omega)).trans (s.setTierReadEn_get u false)

theorem State.makeFree_tiles (u : Nat) : (s.makeFree u).tiles = s.tiles := rfl
end

/-! ### ERASE_VERIFY (R35, R36) -/

/-- The erase of a tier is closed, and its completion journalled. -/
def State.closeErase (s : State) (u : Nat) : State :=
  let v := (s.setTier u { s.tier u with eraseOpen := false }).jErase u (s.tier u).erases true
  if (s.tier u).erases = 10000 then v.raise 0x0121 1 u else v

theorem State.closeErase_keeps (s : State) (u : Nat) : SameMem s (s.closeErase u) ∧ ((s.closeErase u).tier u).eraseOpen = false := by
  unfold State.closeErase
  dsimp only
  generalize hv : State.jErase _ u _ true = v
  have hm : SameMem s v := hv ▸ (sameMem_setTier s u _).trans (sameMem_jErase _ _ _ _)
  have he : (v.tier u).eraseOpen = false := by
    have ht : v.tier u = { s.tier u with eraseOpen := false } := by
      rw [← hv, State.jErase, State.jWrite_tier, State.setTier_get, if_pos rfl]
    rw [ht]
  split
  · exact ⟨hm.trans (sameMem_raise v _ _ _), by rw [State.raise_tier]; exact he⟩
  · exact ⟨hm, he⟩

/-- What follows an erase that passed: the tier is left free, or its write begins. -/
theorem State.erased_keeps (s : State) (t : Nat) (p : TierProc) (c : Bool) (f : TierProc → TierProc) :
    let w := if c then (s.dropHead t).makeFree (p.eraseUnit t) else (s.showLoading t p).modHead t f
    SameMem s w ∧ (w.tier (p.eraseUnit t)).eraseOpen = (s.tier (p.eraseUnit t)).eraseOpen := by
  intro w
  cases c with
  | true =>
    refine ⟨(sameMem_setTile s t _).trans (apart_makeFree _ _).mem, ?_⟩
    show (((s.dropHead t).makeFree (p.eraseUnit t)).tier (p.eraseUnit t)).eraseOpen = _
    rw [State.makeFree_tier, if_pos rfl]
    rfl
  | false =>
    obtain ⟨hm, -, ht⟩ := s.showLoading_keeps t p
    have hmod (v : State) : SameMem v (v.modHead t f) ∧ (v.modHead t f).tiers = v.tiers := by
      unfold State.modHead
      split
      · exact ⟨sameMem_setProcs v _ _, rfl⟩
      · exact ⟨.refl v, rfl⟩
    obtain ⟨hm', ht'⟩ := hmod (s.showLoading t p)
    refine ⟨hm.trans hm', ?_⟩
    show (((s.showLoading t p).modHead t f).tier _).eraseOpen = _
    rw [State.tier, ht', ht]
    rfl

/-- ERASE_VERIFY. -/
theorem completes_eraseVerify {s : State} {t : TileId} {p : TierProc} {ps : List TierProc} (h : (s.tile t.val).procs = p :: ps)
    (hst : p.stage = .erasing) (hv : p.verify = true) (hr : (s.tile t.val).read = none) : Completes (.eraseVerify t) s fun t' => SameMem s t' ∧
      (if s.eraseOk (p.eraseUnit t.val) = true then (t'.tier (p.eraseUnit t.val)).eraseOpen = false
       else if p.extra < 4 then (t'.tile t.val).procs = { p with verify := false } :: ps
       else (t'.tile t.val).procs = ps) := by
  have hc : (p.stage == .erasing && p.verify && (s.tile t.val).read.isNone) = true := by rw [hst, hv, hr]; rfl
  have hex : execEraseVerify t s = .next (if s.eraseOk (p.eraseUnit t.val) then
      (if p.kind == .load && p.skip then ((s.closeErase (p.eraseUnit t.val)).dropHead t.val).makeFree (p.eraseUnit t.val)
       else ((s.closeErase (p.eraseUnit t.val)).showLoading t.val p).modHead t.val fun p => { p with stage := .writing, row := 0, verify := false })
      else if p.extra < 4 then s.modHead t.val fun p => { p with verify := false }
      else (s.raise 0x0123 1 (p.eraseUnit t.val)).dropHead t.val) := by
    simp only [execEraseVerify, h]
    rw [hc, whenever_true]
    rfl
  refine completes_of_tileAfter rfl hex fun w hw => ?_
  rw [hw.tier, hw.procs]
  by_cases hok : s.eraseOk (p.eraseUnit t.val) = true
  · rw [if_pos hok] at hw ⊢
    rw [if_pos hok]
    obtain ⟨hm, he⟩ := s.closeErase_keeps (p.eraseUnit t.val)
    obtain ⟨hm', he'⟩ := (s.closeErase (p.eraseUnit t.val)).erased_keeps t.val p (p.kind == .load && p.skip)
      fun p => { p with stage := .writing, row := 0, verify := false }
    exact ⟨(hm.trans hm').trans hw.mem, he'.trans he⟩
  · rw [if_neg hok] at hw ⊢
    rw [if_neg hok]
    by_cases hx : p.extra < 4
    · rw [if_pos hx] at hw ⊢
      rw [if_pos hx]
      rw [State.modHead_eq s h] at hw ⊢
      exact ⟨(sameMem_setProcs s _ _).trans hw.mem, by rw [State.setProcs_procs, if_pos rfl]⟩
    · rw [if_neg hx] at hw ⊢
      rw [if_neg hx]
      have hp : ((s.raise 0x0123 1 (p.eraseUnit t.val)).tile t.val).procs = p :: ps := by rw [State.raise_tile]; exact h
      rw [State.dropHead_eq _ hp] at hw ⊢
      exact ⟨((sameMem_raise s _ _ _).trans (sameMem_setProcs _ _ _)).trans hw.mem, by rw [State.setProcs_procs, if_pos rfl]⟩

/-! ### SWEEP_DUE (R130) -/

/-- SWEEP_DUE. -/
theorem completes_sweepDue {s : State} {u : TileTierId}
    (hst : s.tierState u.val = stResident ∨ s.tierState u.val = stRetired ∧ s.readEn (u.val / 8) (u.val % 8) = true)
    (hs : (s.tier u.val).sweepS = 0) (hb : s.rbit (tierReg u.val) 20 = false) :
    Completes (.sweepDue u) s fun t' => SameMem s t' ∧ t'.rbit (tierReg u.val) 20 = true ∧ t'.tiers = s.tiers ∧
      ∃ p ∈ (t'.tile (u.val / 8)).procs, p.kind = .sweep ∧ p.tier = u.val % 8 ∧ p.stage = .sweeping := by
  have hsw : s.sweepable u.val = true := by
    unfold State.sweepable
    obtain h | ⟨h1, h2⟩ := hst
    · rw [h]; rfl
    · rw [h1, h2]; rfl
  refine completes_of_whenever (t := (s.setRf (tierReg u.val) 20 20 1).setProcs (u.val / 8) ((s.tile (u.val / 8)).procs ++ [newProc .sweep (u.val % 8) .sweeping]))
    rfl (by rw [hsw, hs, hb]; rfl) ⟨?_, ?_, rfl, newProc .sweep (u.val % 8) .sweeping, ?_, rfl, rfl, rfl⟩
  · exact (sameMem_setRf s _ _ _ _).trans (sameMem_setProcs _ _ _)
  · exact State.setRf_rbit_same s _ 1 (by decide)
  · rw [State.setProcs_procs, if_pos rfl]
    exact List.mem_append_right _ (List.mem_singleton_self _)

/-! ### TIER_LOAD_DONE (R134, R135) -/

/-- TIER_LOAD_DONE. -/
theorem completes_tierLoadDone {s : State} {u : TileTierId} {p : TierProc} {rest : List TierProc}
    (hp : pickFirst (fun p => p.kind == .load && p.tier == u.val % 8 && p.stage == .finished) (s.tile (u.val / 8)).procs = some (p, rest))
    (hds : (s.tier u.val).dslice = true → (s.tile (twinUnit u.val / 8)).writes (u.val % 8) = false) (hf : s.foldDue u.val = false) :
    Completes (.tierLoadDone u) s fun t' => SameMem s t' ∧ t'.liveTier (s.tier u.val).erases u.val ∧
      (t'.tile (u.val / 8)).procs = rest ∧ (t'.tier u.val).lastErase = false := by
  have hc : (!((s.tier u.val).dslice && (s.tile (twinUnit u.val / 8)).writes (u.val % 8)) && !s.foldDue u.val) = true := by
    rw [hf]
    cases h : (s.tier u.val).dslice with
    | true => rw [hds h]; rfl
    | false => rfl
  obtain ⟨v, hv⟩ : ∃ v, v = (s.setTier u.val { s.tier u.val with lastErase := false }).setProcs (u.val / 8) rest := ⟨_, rfl⟩
  have hex : execTierLoadDone u s = .next (v.makeResident u.val (v.rf (blockReg (tileBlock (u.val / 8)) 0x2004) 15 0)) := by
    simp only [execTierLoadDone, hp]
    rw [hc, whenever_true, hv]
  have htier : v.tier u.val = { s.tier u.val with lastErase := false } := by
    rw [hv]
    exact (State.setTier_get _ _ _ _).trans (if_pos rfl)
  have hmem : SameMem s v := hv ▸ (sameMem_setTier s _ _).trans (sameMem_setProcs _ _ _)
  refine completes_of_tileAfter rfl hex fun w hw => ⟨(hmem.trans (sameMem_makeResident v _ _)).trans hw.mem, ?_, ?_, ?_⟩
  · have h := v.makeResident_live u.val (v.rf (blockReg (tileBlock (u.val / 8)) 0x2004) 15 0)
    rw [htier] at h
    exact hw.live h
  · rw [hw.procs, (apart_makeResident v _ _).procs, hv, State.setProcs_procs, if_pos rfl]
  · rw [hw.tier, State.makeResident_tier, htier]
end Sys2Proof.Machine
end

section
namespace Sys2Proof.Machine

/-! ### COPPICE_SWAP (R126) -/

/-- Tile x has moved what tier `old` held to tier `new` (R126). -/
structure Moved (old new x : Nat) (s w : State) : Prop where
  tensor  : (w.tier (x * 8 + new)).tensor = (s.tier (x * 8 + old)).tensor
  shadow  : (w.tier (x * 8 + new)).shadow = (s.tier (x * 8 + old)).shadow
  freed   : (w.tier (x * 8 + old)).tensor = none
  live    : w.liveTier (s.tier (x * 8 + new)).erases (x * 8 + new)
  closed  : w.readEn x old = false
  procs   : (w.tile x).procs = ((s.tile x).procs.drop 1).filter (fun q => !(q.kind == .sweep && q.tier == old))
  carries : (w.tile x).carries = ((s.tile x).readdress old new).carries

/-- Nothing of a memory has changed, and nothing of a tile or of its tiers but at tile t. -/
structure Elsewhere (t : Nat) (s w : State) : Prop where
  mem   : SameMem s w
  tile  : ∀ x, x ≠ t → w.tile x = s.tile x
  tier  : ∀ v, v / 8 ≠ t → w.tier v = s.tier v
  shows : ∀ v, v / 8 ≠ t → w.tierState v = s.tierState v
  reads : ∀ v, v / 8 ≠ t → w.readEn (v / 8) (v % 8) = s.readEn (v / 8) (v % 8)

theorem Elsewhere.trans {t : Nat} {s v w : State} (h : Elsewhere t s v) (h' : Elsewhere t v w) : Elsewhere t s w :=
  ⟨h.mem.trans h'.mem, fun x hx => (h'.tile x hx).trans (h.tile x hx), fun u hu => (h'.tier u hu).trans (h.tier u hu),
    fun u hu => (h'.shows u hu).trans (h.shows u hu), fun u hu => (h'.reads u hu).trans (h.reads u hu)⟩

theorem Apart.elsewhere {U : Nat → Prop} {t : Nat} {s w : State} (h : Apart U s w) (hU : ∀ v, U v → v / 8 = t) (ht : w.tiles = s.tiles) : Elsewhere t s w :=
  ⟨h.mem, fun _ _ => by rw [State.tile, ht]; rfl, fun v hv => h.tier v fun hu => hv (hU v hu), fun v hv => h.shows v fun hu => hv (hU v hu),
    fun v hv => h.reads v fun hu => hv (hU v hu)⟩

theorem elsewhere_setTile (s : State) (t : Nat) (T : Tile) : Elsewhere t s (s.setTile t T) :=
  ⟨sameMem_setTile s t T, fun _ hx => (State.setTile_get _ _ _ _).trans (if_neg hx), fun _ _ => rfl, fun _ _ => rfl, fun _ _ => rfl⟩

namespace Moved
variable {old new x t : Nat} {s v w : State}

theorem after (h : Moved old new x s v) (h' : Elsewhere t v w) (hx : x ≠ t) (hold : old < 8) (hnew : new < 8) : Moved old new x s w := by
  have hn : (x * 8 + new) / 8 ≠ t := by omega
  have ho : (x * 8 + old) / 8 ≠ t := by omega
  have hread := h'.reads _ ho
  rw [show (x * 8 + old) / 8 = x by omega, show (x * 8 + old) % 8 = old by omega] at hread
  exact ⟨by rw [h'.tier _ hn, h.tensor], by rw [h'.tier _ hn, h.shadow], by rw [h'.tier _ ho, h.freed],
    ⟨(h'.shows _ hn).trans h.live.1, (h'.reads _ hn).trans h.live.2⟩, hread.trans h.closed, by rw [h'.tile x hx, h.procs], by rw [h'.tile x hx, h.carries]⟩

theorem before (h : Moved old new x v w) (h' : Elsewhere t s v) (hx : x ≠ t) (hold : old < 8) (hnew : new < 8) : Moved old new x s w := by
  have hn := h'.tier (x * 8 + new) (by omega)
  have ho := h'.tier (x * 8 + old) (by omega)
  have hT := h'.tile x hx
  obtain ⟨h1, h2, h3, h4, h5, h6, h7⟩ := h
  rw [ho] at h1 h2
  rw [hn] at h4
  rw [hT] at h6 h7
  exact ⟨h1, h2, h3, h4, h5, h6, h7⟩

theorem refilled (h : Moved old new x s v) (h' : Refilled v w) : Moved old new x s w :=
  ⟨by rw [h'.tier, h.tensor], by rw [h'.tier, h.shadow], by rw [h'.tier, h.freed], h'.live h.live, (h'.readEn x old).trans h.closed,
    by rw [h'.procs, h.procs], by rw [h'.carries, h.carries]⟩
end Moved

section
variable (s : State) (t old new : Nat)

/-- The new tier's record is that of the old one, and the tile's carries follow it. -/
def State.movedRecord : State :=
  let I := s.tier (t * 8 + old)
  (s.setTile t ((s.tile t).readdress old new)).setTier (t * 8 + new)
    { s.tier (t * 8 + new) with
      tensor := I.tensor, piece := I.piece, dslice := I.dslice, rows := I.rows,
      cols := I.cols, sigma := I.sigma, shadow := I.shadow, fold := I.fold, lastErase := false }

/-- The tensor's record names the new tier. -/
def State.movedPiece : State :=
  match (s.tier (t * 8 + old)).tensor with
  | some n => (s.movedRecord t old new).setTensor n (movePiece ((s.movedRecord t old new).tensor n) (t * 8 + old) (t * 8 + new))
  | none => s.movedRecord t old new

/-- The new tier is RESIDENT, and the old one free. -/
def State.swappedTiers : State :=
  let v := s.movedPiece t old new
  (v.makeResident (t * 8 + new) (v.rf (blockReg (tileBlock t) 0x2004) 15 0)).makeFree (t * 8 + old)

theorem State.swapTier_eq : s.swapTier t old new =
    let v := (s.swappedTiers t old new).dropHead t
    v.setProcs t ((v.tile t).procs.filter fun p => !(p.kind == .sweep && p.tier == old)) := rfl

theorem State.movedPiece_cases : s.movedPiece t old new = s.movedRecord t old new ∨
    ∃ n x, s.movedPiece t old new = (s.movedRecord t old new).setTensor n x := by
  unfold State.movedPiece
  split
  · exact .inr ⟨_, _, rfl⟩
  · exact .inl rfl

theorem State.movedPiece_tile : (s.movedPiece t old new).tile t = (s.tile t).readdress old new := by
  have hrec : (s.movedRecord t old new).tile t = (s.tile t).readdress old new := (State.setTile_get _ _ _ _).trans (if_pos rfl)
  obtain he | ⟨n, x, he⟩ := s.movedPiece_cases t old new
  · rw [he, hrec]
  · rw [he]; exact hrec

theorem State.movedPiece_tier (u : Nat) : (s.movedPiece t old new).tier u = (s.movedRecord t old new).tier u := by
  obtain he | ⟨n, x, he⟩ := s.movedPiece_cases t old new
  · rw [he]
  · rw [he]; rfl

theorem State.movedRecord_tier (u : Nat) : (s.movedRecord t old new).tier u = if u = t * 8 + new then
    { s.tier (t * 8 + new) with
      tensor := (s.tier (t * 8 + old)).tensor, piece := (s.tier (t * 8 + old)).piece, dslice := (s.tier (t * 8 + old)).dslice,
      rows := (s.tier (t * 8 + old)).rows, cols := (s.tier (t * 8 + old)).cols, sigma := (s.tier (t * 8 + old)).sigma,
      shadow := (s.tier (t * 8 + old)).shadow, fold := (s.tier (t * 8 + old)).fold, lastErase := false }
    else s.tier u := State.setTier_get _ _ _ _

variable {old new} (hold : old < 8) (hnew : new < 8) (hne : new ≠ old)
include hnew

theorem elsewhere_movedPiece : Elsewhere t s (s.movedPiece t old new) := by
  have hrec : Elsewhere t s (s.movedRecord t old new) :=
    (elsewhere_setTile s t _).trans ((apart_setTier _ _ _).elsewhere (fun v hv => by rw [hv]; omega) rfl)
  obtain he | ⟨n, x, he⟩ := s.movedPiece_cases t old new
  · rw [he]; exact hrec
  · rw [he]
    exact hrec.trans ⟨.of_store rfl, fun _ _ => rfl, fun _ _ => rfl, fun _ _ => rfl, fun _ _ => rfl⟩

include hold hne

/-- The tiers of one tile's swap. -/
theorem State.swappedTiers_keeps : let w := s.swappedTiers t old new
    Elsewhere t s w ∧ w.tile t = (s.tile t).readdress old new ∧ (w.tier (t * 8 + new)).tensor = (s.tier (t * 8 + old)).tensor ∧
    (w.tier (t * 8 + new)).shadow = (s.tier (t * 8 + old)).shadow ∧ (w.tier (t * 8 + old)).tensor = none ∧
    w.liveTier (s.tier (t * 8 + new)).erases (t * 8 + new) ∧ w.readEn t old = false := by
  intro w
  have hv := elsewhere_movedPiece s t (old := old) hnew
  have htile := s.movedPiece_tile t old new
  have htier := (s.movedPiece_tier t old new (t * 8 + new)).trans ((s.movedRecord_tier t old new _).trans (if_pos rfl))
  have hw : w = ((s.movedPiece t old new).makeResident (t * 8 + new)
    ((s.movedPiece t old new).rf (blockReg (tileBlock t) 0x2004) 15 0)).makeFree (t * 8 + old) := rfl
  generalize s.movedPiece t old new = v at hv htile htier hw
  generalize v.rf (blockReg (tileBlock t) 0x2004) 15 0 = n at hw
  have hres := apart_makeResident v (t * 8 + new) n
  have hlive := v.makeResident_live (t * 8 + new) n
  have hrtier := v.makeResident_tier (t * 8 + new) n
  have hrtiles := v.makeResident_tiles (t * 8 + new) n
  generalize v.makeResident (t * 8 + new) n = x at hres hlive hrtier hrtiles hw
  have hfree := apart_makeFree x (t * 8 + old)
  have hftier := x.makeFree_tier (t * 8 + old)
  have hread := x.makeFree_readEn (t * 8 + old)
  have hftiles := x.makeFree_tiles (t * 8 + old)
  rw [← hw] at hfree hftier hread hftiles
  have hwtile : w.tile t = v.tile t := by rw [State.tile, hftiles, hrtiles]; rfl
  have hnu : t * 8 + new ≠ t * 8 + old := by omega
  have hwnew : w.tier (t * 8 + new) = { v.tier (t * 8 + new) with sweepS := v.sweepInterval } := by rw [hftier, if_neg hnu, hrtier]
  refine ⟨hv.trans ((hres.elsewhere (fun u hu => by rw [hu]; omega) hrtiles).trans (hfree.elsewhere (fun u hu => by rw [hu]; omega) hftiles)), ?_, ?_, ?_, ?_, ?_, ?_⟩
  · rw [hwtile, htile]
  · rw [hwnew, htier]
  · rw [hwnew, htier]
  · rw [hftier, if_pos rfl]; rfl
  · rw [htier] at hlive
    exact hfree.live hnu hlive
  · rw [show (t * 8 + old) / 8 = t by omega, show (t * 8 + old) % 8 = old by omega] at hread
    exact hread

/-- One tile's swap. -/
theorem State.swapTier_keeps : Elsewhere t s (s.swapTier t old new) ∧ Moved old new t s (s.swapTier t old new) := by
  rw [State.swapTier_eq]
  obtain ⟨helse, htile, htensor, hshadow, hfreed, hlive, hclosed⟩ := s.swappedTiers_keeps t hold hnew hne
  generalize s.swappedTiers t old new = w at helse htile htensor hshadow hfreed hlive hclosed ⊢
  dsimp only
  have hdrop : (w.dropHead t).tile t = { w.tile t with procs := (w.tile t).procs.drop 1 } := (State.setTile_get _ _ _ _).trans (if_pos rfl)
  refine ⟨helse.trans ((elsewhere_setTile w t _).trans (elsewhere_setTile _ t _)), htensor, hshadow, hfreed, hlive, hclosed, ?_, ?_⟩
  · rw [State.setProcs_procs, if_pos rfl, hdrop, htile]
    rfl
  · rw [State.setProcs, State.setTile_get, if_pos rfl, hdrop, htile]
end

theorem twinTile_ne (t : Nat) : twinUnit (t * 8) / 8 ≠ t := by
  unfold twinUnit
  split <;> omega

/-- A tile at which a coppice into a free tier may swap: no read and no row, and the swap is its next step (R126). -/
def State.swapReady (s : State) (k x : Nat) : Bool :=
  (s.tile x).read.isNone && (s.tile x).row.isNone && (match (s.tile x).procs with | q :: _ => q.stage == .swapping && q.tier == k | [] => false)

theorem State.swapReady_of {s : State} {k x : Nat} (h : (s.tile x).read = none ∧ (s.tile x).row = none ∧
    ∃ q qs, (s.tile x).procs = q :: qs ∧ q.stage = .swapping ∧ q.tier = k) : s.swapReady k x = true := by
  obtain ⟨h1, h2, q, qs, h3, h4, h5⟩ := h
  simp [State.swapReady, h1, h2, h3, h4, h5]

/-- COPPICE_SWAP, given that it is due. -/
theorem execCoppiceSwap_eq {s : State} {t : TileId} {p : TierProc} {ps : List TierProc} {new : Nat} (hp : (s.tile t.val).procs = p :: ps)
    (hk : p.kind = .coppiceFree new) (hi : s.swapReady p.tier t.val = true)
    (hi' : (s.tier (t.val * 8 + p.tier)).dslice = true → s.swapReady p.tier (twinUnit (t.val * 8) / 8) = true)
    (hf : s.foldDue (t.val * 8 + p.tier) = false) : execCoppiceSwap t s =
      .next (if (s.tier (t.val * 8 + p.tier)).dslice then (s.swapTier t.val p.tier new).swapTier (twinUnit (t.val * 8) / 8) p.tier new
        else s.swapTier t.val p.tier new) := by
  have hc : (s.swapReady p.tier t.val && (!(s.tier (t.val * 8 + p.tier)).dslice || s.swapReady p.tier (twinUnit (t.val * 8) / 8)) &&
      !s.foldDue (t.val * 8 + p.tier)) = true := by
    rw [hi, hf]
    cases h : (s.tier (t.val * 8 + p.tier)).dslice with
    | true => rw [hi' h]; rfl
    | false => rfl
  have he : execCoppiceSwap t s = whenever (s.swapReady p.tier t.val && (!(s.tier (t.val * 8 + p.tier)).dslice || s.swapReady p.tier (twinUnit (t.val * 8) / 8)) &&
      !s.foldDue (t.val * 8 + p.tier)) s (if (s.tier (t.val * 8 + p.tier)).dslice then
        (s.swapTier t.val p.tier new).swapTier (twinUnit (t.val * 8) / 8) p.tier new else s.swapTier t.val p.tier new) := by
    unfold execCoppiceSwap State.swapReady
    simp only [hp, hk] <;> rfl
  rw [he, hc, whenever_true]

/-- COPPICE_SWAP. -/
theorem completes_coppiceSwap {s : State} {t : TileId} {p : TierProc} {ps : List TierProc} {new : Nat} (hp : (s.tile t.val).procs = p :: ps)
    (hk : p.kind = .coppiceFree new) (hold : p.tier < 8) (hnew : new < 8) (hne : new ≠ p.tier) (hi : s.swapReady p.tier t.val = true)
    (hi' : (s.tier (t.val * 8 + p.tier)).dslice = true → s.swapReady p.tier (twinUnit (t.val * 8) / 8) = true)
    (hf : s.foldDue (t.val * 8 + p.tier) = false) : Completes (.coppiceSwap t) s fun t' => SameMem s t' ∧ Moved p.tier new t.val s t' ∧
      ((s.tier (t.val * 8 + p.tier)).dslice = true → Moved p.tier new (twinUnit (t.val * 8) / 8) s t') := by
  refine completes_of_tileAfter rfl (execCoppiceSwap_eq hp hk hi hi' hf) fun w hw => ?_
  obtain ⟨helse, hmoved⟩ := s.swapTier_keeps t.val hold hnew hne
  have hvt := twinTile_ne t.val
  cases h : (s.tier (t.val * 8 + p.tier)).dslice with
  | false =>
    rw [h, if_neg Bool.false_ne_true] at hw
    exact ⟨helse.mem.trans hw.mem, hmoved.refilled hw, fun h' => by cases h'⟩
  | true =>
    rw [h, if_pos rfl] at hw
    obtain ⟨helse', hmoved'⟩ := (s.swapTier t.val p.tier new).swapTier_keeps (twinUnit (t.val * 8) / 8) hold hnew hne
    exact ⟨(helse.mem.trans helse'.mem).trans hw.mem, (hmoved.after helse' hvt.symm hold hnew).refilled hw,
      fun _ => (hmoved'.before helse hvt hold hnew).refilled hw⟩
end Sys2Proof.Machine
end

section
namespace Sys2Proof.Machine

/-! ### Coppices that begin (R125 to R127, R41) -/

section
variable (s : State)

theorem sameMem_pushCoppice (u : Nat) (free : Option Nat) (skip : Bool) : SameMem s (s.pushCoppice u free skip) := by
  have hwrite (v : State) (t : Nat) (p : TierProc) (l : List TierProc) : SameMem v ((v.beginWrite t p).2.setProcs t ((v.beginWrite t p).1 :: l)) :=
    (v.beginWrite_keeps t p).1.trans (sameMem_setProcs _ _ _)
  cases free with
  | some k =>
    simp only [State.pushCoppice]
    split
    · exact hwrite s _ _ _
    · exact sameMem_setProcs s _ _
  | none =>
    have hbase : SameMem s (((s.setHold u true).setTierState u stRenewing).writeResidency u) :=
      (sameMem_setRf s _ _ _ _).trans ((sameMem_setRf _ _ _ _ _).trans (sameMem_writeResidency _ _))
    simp only [State.pushCoppice]
    generalize ((s.setHold u true).setTierState u stRenewing).writeResidency u = v at hbase ⊢
    split
    · exact hbase.trans ((sameMem_setRf v _ _ _ _).trans (hwrite _ _ _ _))
    · exact hbase.trans (sameMem_setProcs v _ _)

theorem sameMem_startCoppice (u : Nat) (skip inPlace : Bool) : SameMem s (s.startCoppice u skip inPlace) := by
  simp only [State.startCoppice]
  generalize (if inPlace then none else s.freeTier (evenUnit (s.tier u).dslice u / 8) (s.tier u).dslice) = free
  split
  · exact .refl s
  · split
    · exact sameMem_raise s _ _ _
    · split
      · exact (sameMem_pushCoppice s _ _ _).trans (sameMem_pushCoppice _ _ _ _)
      · exact sameMem_pushCoppice s _ _ _

/-! ### ADOPTION_SWEEP_DONE (R136) -/

/-- The adoption sweep of a tier that has ended, and the procedures beside it. -/
def State.adopted (v : Nat) : Option (TierProc × List TierProc) :=
  pickFirst (fun p => p.kind == .adopt && p.tier == v % 8 && p.stage == .finished) (s.tile (v / 8)).procs

/-- The procedures of a tile but for the sweep that has ended. -/
def State.endAdopt (x : Nat × Option (TierProc × List TierProc)) : State :=
  match x.2 with
  | some (_, rest) => s.setProcs (x.1 / 8) rest
  | none => s

/-- A swept tier becomes RESIDENT, its exceptions queued for repair (R136). -/
def State.adoptTier (x : Nat × Option (TierProc × List TierProc)) : State :=
  match x.2 with
  | some (p, _) =>
    let v := s.makeResident x.1 (s.rf (blockReg (x.1 / 512) 0x2004) 15 0)
    (v.setHeadroom x.1 (v.rf (blockReg (x.1 / 512) 0x2004) 15 0 - p.low)).each (fun s r => s.queueRepair x.1 r) p.rows
  | none => s

theorem State.endAdopt_keeps (x : Nat × Option (TierProc × List TierProc)) : SameMem s (s.endAdopt x) ∧ (s.endAdopt x).tiers = s.tiers ∧
    ∀ k, k ≠ x.1 / 8 → ((s.endAdopt x).tile k).procs = (s.tile k).procs := by
  unfold State.endAdopt
  split
  · exact ⟨sameMem_setProcs s _ _, rfl, fun k hk => (State.setProcs_procs _ _ _ _).trans (if_neg hk)⟩
  · exact ⟨.refl s, rfl, fun _ _ => rfl⟩

theorem State.endAdopt_procs {v : Nat} {p : TierProc} {rest : List TierProc} : ((s.endAdopt (v, some (p, rest))).tile (v / 8)).procs = rest :=
  (State.setProcs_procs _ _ _ _).trans (if_pos rfl)

theorem apart_adoptTier (x : Nat × Option (TierProc × List TierProc)) : Apart (· = x.1) s (s.adoptTier x) := by
  unfold State.adoptTier
  split
  · exact (apart_makeResident s _ _).trans ((apart_setHeadroom _ _ _ _).trans (.each (fun s r => .of_queued (queued_queueRepair s _ r)) _ _))
  · exact .refl _ s

/-- Repairs and headroom leave the tier as it became (R136). -/
theorem State.adoptTier_live {v : Nat} {p : TierProc} {rest : List TierProc} : (s.adoptTier (v, some (p, rest))).liveTier (s.tier v).erases v ∧
    ((s.adoptTier (v, some (p, rest))).tier v).erases = (s.tier v).erases := by
  generalize hw : s.makeResident v (s.rf (blockReg (v / 512) 0x2004) 15 0) = w
  have hafter : Apart (fun _ => False) w (s.adoptTier (v, some (p, rest))) := by
    rw [← hw]
    exact (apart_setHeadroom _ _ _ _).trans (.each (fun s r => .of_queued (queued_queueRepair s _ r)) _ _)
  refine ⟨hafter.live id (hw ▸ s.makeResident_live v _), ?_⟩
  rw [hafter.tier v id, ← hw, State.makeResident_tier]
end

/-- The tiers of the piece, each with its sweep. -/
def State.adoptees (s : State) (units : List Nat) : List (Nat × Option (TierProc × List TierProc)) := units.map fun v => (v, s.adopted v)

/-- What a piece's sweeps lead to: adopted, or coppiced when a tier has too many exceptions. -/
def State.adoptAll (s : State) (e limit : Nat) (units : List Nat) : State :=
  let bad := units.filter fun v => match s.adopted v with | some (p, _) => decide (limit < p.exc) | none => false
  let u := s.each State.endAdopt (s.adoptees units)
  if bad.isEmpty then
    let v := u.each State.adoptTier (s.adoptees units)
    if 10000 ≤ (v.tier e).erases then v.startCoppice e true false else v
  else (u.each (fun s v => s.raise 0x0134 1 v) bad).startCoppice e true false

theorem sameMem_adoptAll (s : State) (e limit : Nat) (units : List Nat) : SameMem s (s.adoptAll e limit units) := by
  unfold State.adoptAll
  dsimp only
  have hu : SameMem s (s.each State.endAdopt (s.adoptees units)) := SameMem.each (fun s x => (s.endAdopt_keeps x).1) _ s
  generalize s.each State.endAdopt (s.adoptees units) = u at hu ⊢
  split
  · have hv : SameMem u (u.each State.adoptTier (s.adoptees units)) := SameMem.each (fun s x => (apart_adoptTier s x).mem) _ u
    generalize u.each State.adoptTier (s.adoptees units) = v at hv ⊢
    split
    · exact (hu.trans hv).trans (sameMem_startCoppice v _ _ _)
    · exact hu.trans hv
  · exact hu.trans ((SameMem.each (fun s v => sameMem_raise s _ _ v) _ u).trans (sameMem_startCoppice _ _ _ _))

/-- The tiers of the tiles in a list, one in each tile. -/
def apartTiles (units : List Nat) : Prop := ∀ v ∈ units, ∀ w ∈ units, w ≠ v → v / 8 ≠ w / 8

section
variable {s : State} {units : List Nat} (hn : units.Nodup)
include hn

theorem State.adoptees_nodup : (s.adoptees units).Nodup := hn.map fun _ _ h => congrArg Prod.fst h

/-- Each tier's sweep leaves its tile's procedures. -/
theorem State.each_endAdopt_procs (ha : apartTiles units) {v : Nat} (hv : v ∈ units) {p : TierProc} {rest : List TierProc} (h : s.adopted v = some (p, rest)) :
    ((s.each State.endAdopt (s.adoptees units)).tile (v / 8)).procs = rest := by
  refine State.each_at (x := (v, s.adopted v)) (P := fun _ => True) (Q := fun t => (t.tile (v / 8)).procs = rest) (State.adoptees_nodup hn)
    (List.mem_map.mpr ⟨v, hv, rfl⟩) (fun _ _ _ _ _ => trivial) (fun t _ => ?self) (fun t y hy hne ht => ?after) trivial
  case self => rw [h]; exact t.endAdopt_procs
  case after =>
    obtain ⟨w, hw, rfl⟩ := List.mem_map.mp hy
    exact ((t.endAdopt_keeps _).2.2 _ (ha v hv w hw fun he => hne (by rw [he]))).trans ht

/-- Each tier becomes RESIDENT, and stays so while the others do. -/
theorem State.each_adoptTier_live (u : State) {v : Nat} (hv : v ∈ units) {p : TierProc} {rest : List TierProc} (h : s.adopted v = some (p, rest)) :
    (u.each State.adoptTier (s.adoptees units)).liveTier (u.tier v).erases v ∧
    ((u.each State.adoptTier (s.adoptees units)).tier v).erases = (u.tier v).erases := by
  have hother {y : Nat × Option (TierProc × List TierProc)} (hy : y ∈ s.adoptees units) (hne : y ≠ (v, s.adopted v)) : ¬ v = y.1 := by
    obtain ⟨w, hw, rfl⟩ := List.mem_map.mp hy
    exact fun he => hne (by rw [show v = w from he])
  refine State.each_at (x := (v, s.adopted v)) (P := fun t => (t.tier v).erases = (u.tier v).erases)
    (Q := fun t => t.liveTier (u.tier v).erases v ∧ (t.tier v).erases = (u.tier v).erases) (State.adoptees_nodup hn)
    (List.mem_map.mpr ⟨v, hv, rfl⟩) (fun t y hy hne ht => ?before) (fun t ht => ?self) (fun t y hy hne ht => ?after) rfl
  case before => rw [(apart_adoptTier t y).tier v (hother hy hne), ht]
  case self =>
    obtain ⟨h1, h2⟩ := t.adoptTier_live (v := v) (p := p) (rest := rest)
    rw [ht] at h1 h2
    rw [h]
    exact ⟨h1, h2⟩
  case after =>
    have hap := apart_adoptTier t y
    exact ⟨hap.live (hother hy hne) ht.1, by rw [hap.tier v (hother hy hne), ht.2]⟩

/-- A piece without too many exceptions, whose erases are not spent, is adopted (R136). -/
theorem State.adoptAll_adopts (ha : apartTiles units) {e limit : Nat} (he : e ∈ units) (hworn : (s.tier e).erases < 10000)
    (hall : ∀ v ∈ units, (s.adopted v).isSome = true) (hexc : ∀ v ∈ units, ∀ p rest, s.adopted v = some (p, rest) → p.exc ≤ limit)
    {v : Nat} (hv : v ∈ units) :
    (s.adoptAll e limit units).liveTier (s.tier v).erases v ∧
    ∀ p rest, s.adopted v = some (p, rest) → ((s.adoptAll e limit units).tile (v / 8)).procs = rest := by
  have hgood : units.filter (fun v => match s.adopted v with | some (p, _) => decide (limit < p.exc) | none => false) = [] := by
    refine List.filter_eq_nil_iff.mpr fun w hw => ?_
    cases h : s.adopted w with
    | none => exact Bool.false_ne_true
    | some x => simpa using hexc w hw x.1 x.2 h
  obtain ⟨⟨q, rq⟩, hq⟩ := Option.isSome_iff_exists.mp (hall e he)
  obtain ⟨⟨p, rp⟩, hp⟩ := Option.isSome_iff_exists.mp (hall v hv)
  have htiers : (s.each State.endAdopt (s.adoptees units)).tiers = s.tiers := State.each_keeps State.tiers _ (fun s x => (s.endAdopt_keeps x).2.1) _ s
  have hut (w : Nat) : (s.each State.endAdopt (s.adoptees units)).tier w = s.tier w := by rw [State.tier, htiers]; rfl
  have hprocs := State.each_endAdopt_procs hn ha hv hp
  unfold State.adoptAll
  dsimp only
  rw [hgood]
  generalize s.each State.endAdopt (s.adoptees units) = u at hut hprocs ⊢
  obtain ⟨hlive, -⟩ := State.each_adoptTier_live hn u hv hp
  obtain ⟨-, herases⟩ := State.each_adoptTier_live hn u he hq
  have hkeep : ((u.each State.adoptTier (s.adoptees units)).tile (v / 8)).procs = (u.tile (v / 8)).procs :=
    State.each_keeps (fun t => (t.tile (v / 8)).procs) _ (fun t x => (apart_adoptTier t x).procs _) _ u
  rw [hut] at hlive herases
  rw [List.isEmpty_nil, if_pos rfl, if_neg (by rw [herases]; omega)]
  refine ⟨hlive, fun p' rest' h => ?_⟩
  rw [hkeep, hprocs]
  rw [hp] at h
  cases h
  rfl
end

theorem pieceUnits_spec (ds : Bool) (e : Nat) : e ∈ pieceUnits ds e ∧ (pieceUnits ds e).Nodup ∧ apartTiles (pieceUnits ds e) := by
  cases ds with
  | false =>
    refine ⟨List.mem_singleton_self e, List.nodup_singleton e, fun v hv w hw hne => ?_⟩
    exact absurd ((List.mem_singleton.mp hw).trans (List.mem_singleton.mp hv).symm) hne
  | true =>
    refine ⟨List.mem_cons_self, by simp [pieceUnits], fun v hv w hw hne => ?_⟩
    have hmem {x : Nat} (hx : x ∈ pieceUnits true e) : x = e ∨ x = e + 8 := by simpa [pieceUnits] using hx
    have h1 := hmem hv
    have h2 := hmem hw
    omega

theorem execAdoptionSweepDone_eq {s : State} {u : TileTierId}
    (h : ∀ v ∈ pieceUnits (s.tier u.val).dslice (evenUnit (s.tier u.val).dslice u.val), (s.adopted v).isSome = true) :
    execAdoptionSweepDone u s = .next (s.adoptAll (evenUnit (s.tier u.val).dslice u.val)
      (s.rf (blockReg (evenUnit (s.tier u.val).dslice u.val / 512) 0x2008) 31 16) (pieceUnits (s.tier u.val).dslice (evenUnit (s.tier u.val).dslice u.val))) := by
  have hc : ((pieceUnits (s.tier u.val).dslice (evenUnit (s.tier u.val).dslice u.val)).all fun v => (s.adopted v).isSome) = true := List.all_eq_true.mpr h
  have he : execAdoptionSweepDone u s = whenever ((pieceUnits (s.tier u.val).dslice (evenUnit (s.tier u.val).dslice u.val)).all fun v => (s.adopted v).isSome) s
      (s.adoptAll (evenUnit (s.tier u.val).dslice u.val) (s.rf (blockReg (evenUnit (s.tier u.val).dslice u.val / 512) 0x2008) 31 16)
        (pieceUnits (s.tier u.val).dslice (evenUnit (s.tier u.val).dslice u.val))) := rfl
  rw [he, hc, whenever_true]

/-- ADOPTION_SWEEP_DONE. -/
theorem completes_adoptionSweepDone {s : State} {u : TileTierId} {e : Nat} {units : List Nat} (hu : e = evenUnit (s.tier u.val).dslice u.val)
    (hunits : units = pieceUnits (s.tier u.val).dslice e) (h : ∀ v ∈ units, (s.adopted v).isSome = true) :
    Completes (.adoptionSweepDone u) s fun t' => SameMem s t' ∧
      ((s.tier e).erases < 10000 → (∀ v ∈ units, ∀ p rest, s.adopted v = some (p, rest) → p.exc ≤ s.rf (blockReg (e / 512) 0x2008) 31 16) →
        ∀ v ∈ units, t'.liveTier (s.tier v).erases v ∧ ∀ p rest, s.adopted v = some (p, rest) → (t'.tile (v / 8)).procs = rest) := by
  subst hu hunits
  refine completes_of_tileAfter rfl (execAdoptionSweepDone_eq h) fun w hw => ⟨(sameMem_adoptAll s _ _ _).trans hw.mem, fun hworn hexc v hv => ?_⟩
  obtain ⟨he, hn, ha⟩ := pieceUnits_spec (s.tier u.val).dslice (evenUnit (s.tier u.val).dslice u.val)
  obtain ⟨hlive, hprocs⟩ := State.adoptAll_adopts hn ha he hworn h hexc hv
  exact ⟨hw.live hlive, fun p rest hp => (hw.procs _).trans (hprocs p rest hp)⟩
end Sys2Proof.Machine
end

section
namespace Sys2Proof.Machine

/-! ### Tiles while records are released (R274) -/

section
variable (s : State)

theorem State.freeEntry_tiles (h : Nat) : (s.freeEntry h).tiles = s.tiles := by
  simp only [State.freeEntry]
  split <;> rfl

theorem State.releaseRecord_tiles (r : ActRec) : (s.releaseRecord r).tiles = s.tiles := by
  simp only [State.releaseRecord]
  split
  · rfl
  · split
    · exact State.freeEntry_tiles _ _
    · rfl

theorem State.pageOut_tiles (u : State) (j : Nat) (r : ActRec) (x : Nat × Nat) : (u.pageOut j r s x).tiles = s.tiles := by
  simp only [State.pageOut]
  split <;> split <;> simp

theorem State.pageIn_tiles (u : State) (j : Nat) (r : ActRec) (x : Nat × Nat) : (u.pageIn j r s x).tiles = s.tiles := by
  simp only [State.pageIn]
  split <;> split <;> simp

theorem State.offloadDone_tiles (j : Nat) (r : ActRec) : (s.offloadDone j r []).tiles = s.tiles := by
  obtain ⟨u, hu⟩ : ∃ u, u = s.dropTokens r.region (pagerReq r.handle) := ⟨_, rfl⟩
  have hsu : u.tiles = s.tiles := by rw [hu]; rfl
  have hout : (u.each (u.pageOut j r) r.pages.zipIdx).tiles = u.tiles := State.each_keeps State.tiles _ (fun t x => t.pageOut_tiles u j r x) _ u
  unfold State.offloadDone
  rw [show s.memErrs [] = s from rfl, ← hu, ← hsu]
  dsimp only
  split
  · exact State.raiseJ_tiles ..
  · by_cases h6 : r.state = 6
    · rw [if_pos h6]
      exact hout
    · rw [if_neg h6]
      exact hout

theorem State.prefetchDone_tiles (j : Nat) (r : ActRec) : (s.prefetchDone j r []).tiles = s.tiles := by
  obtain ⟨u, hu⟩ : ∃ u, u = s.dropTokens r.region (pagerReq r.handle) := ⟨_, rfl⟩
  have hsu : u.tiles = s.tiles := by rw [hu]; rfl
  have hin : (u.each (u.pageIn j r) r.pages.zipIdx).tiles = u.tiles := State.each_keeps State.tiles _ (fun t x => t.pageIn_tiles u j r x) _ u
  unfold State.prefetchDone
  rw [show s.memErrs [] = s from rfl, ← hu, ← hsu]
  dsimp only
  split
  · exact State.raiseJ_tiles ..
  · exact hin

theorem State.finishTransfers_tiles (j : Nat) (p : ActRec → Bool) : (s.finishTransfers j p).tiles = s.tiles := by
  unfold State.finishTransfers
  split
  · rfl
  · refine State.each_keeps State.tiles _ (fun t r => ?_) _ s
    split
    · exact t.offloadDone_tiles j r
    · split
      · exact t.prefetchDone_tiles j r
      · rfl

theorem State.releaseRecords_tiles (j : Nat) (p : ActRec → Bool) : (s.releaseRecords j p).tiles = s.tiles := by
  rw [State.releaseRecords_eq]
  exact (State.each_keeps State.tiles _ (fun t r => t.releaseRecord_tiles r) _ _).trans (s.finishTransfers_tiles j p)
end

/-! ### The abort of a micro-batch (R112, R118, R259, R274) -/

/-- What the abort of a micro-batch leaves: cells, registers but the overflow counts, the tiles' fence timers, and which
micro-batches have been aborted. -/
structure Aborts (s t : State) : Prop where
  cells   : ∀ k, t.cell k = s.cell k
  regs    : ∀ a, (∀ g, a ≠ regionReg g 0x5004) → t.reg a = s.reg a
  timers  : ∀ x, (t.tile x).fenceMs = (s.tile x).fenceMs
  aborted : ∀ k, (t.slot k).aborted = (s.slot k).aborted

namespace Aborts
variable {s t u : State}
theorem refl (s : State) : Aborts s s := ⟨fun _ => rfl, fun _ _ => rfl, fun _ => rfl, fun _ => rfl⟩
theorem trans (h : Aborts s t) (h' : Aborts t u) : Aborts s u :=
  ⟨fun k => (h'.cells k).trans (h.cells k), fun a ha => (h'.regs a ha).trans (h.regs a ha), fun x => (h'.timers x).trans (h.timers x),
    fun k => (h'.aborted k).trans (h.aborted k)⟩
theorem each {α : Type} {f : State → α → State} (h : ∀ s x, Aborts s (f s x)) (l : List α) (s : State) : Aborts s (s.each f l) :=
  State.each_pred (fun t => Aborts s t) f (fun t x ht => ht.trans (h t x)) l s (.refl s)
end Aborts

section
variable (s : State)

theorem aborts_setSlot (j : Nat) {x : Slot} (h : x.aborted = (s.slot j).aborted) : Aborts s (s.setSlot j x) := by
  refine ⟨fun _ => rfl, fun _ _ => rfl, fun _ => rfl, fun k => ?_⟩
  rw [State.setSlot_get]
  split
  · rw [‹k = j›, h]
  · rfl

theorem aborts_closeTiles (j : Nat) (o : OpenMb) (ts : List Nat) : Aborts s (s.closeTiles j o ts) := by
  have hone (t : State) (x : Nat) : Aborts t (t.setTile x ((t.tile x).closeFence o.epoch)) := by
    refine ⟨fun _ => rfl, fun _ _ => rfl, fun y => ?_, fun _ => rfl⟩
    rw [State.setTile_get]
    split
    · rw [‹y = x›]; rfl
    · rfl
  simp only [State.closeTiles]
  exact (Aborts.each hone _ s).trans (aborts_setSlot _ j rfl)

theorem aborts_releaseRecords (j : Nat) (p : ActRec → Bool) : Aborts s (s.releaseRecords j p) := by
  have hp := paged_releaseRecords s j p
  refine ⟨(calm_releaseRecords s j p).cells, hp.regs, fun x => ?_, fun k => ?_⟩
  · rw [State.tile, s.releaseRecords_tiles j p]
    rfl
  · obtain ⟨l, hl⟩ := hp.slots k
    rw [hl]

/-- The fences that a running micro-batch holds are closed. -/
def State.closeMb (j mb step : Nat) : State :=
  match (s.slot j).openMb mb step with
  | some o => s.closeTiles j o o.tiles
  | none => s

/-- A micro-batch's requests in each block, as they stand, count as run. -/
def State.tiesAborted (j step : Nat) (unrun : Nat → List Nat) : State :=
  s.each (fun s b => s.each (fun s x => s.tieAborted b j (s.tieBuf b j x) step) (unrun b)) (List.range 256)

theorem State.abortMb_eq (j mb step : Nat) : ∃ unrun,
    s.abortMb j mb step = ((s.closeMb j mb step).tiesAborted j step unrun).releaseRecords j fun r => r.mb == mb && r.step == step := ⟨_, rfl⟩

theorem State.tieAborted_eq (b j buf step : Nat) : ∃ l, s.tieAborted b j buf step = s.setSlot j { s.slot j with ties := l } := ⟨_, rfl⟩

theorem still_tiesAborted (j step : Nat) (unrun : Nat → List Nat) : Still s (s.tiesAborted j step unrun) :=
  .each (fun s b => .each (fun s x => by
    obtain ⟨l, he⟩ := s.tieAborted_eq b j (s.tieBuf b j x) step
    rw [he]
    exact still_setSlot s j _ rfl (List.Subset.refl _)) (unrun b) s) _ s

theorem aborts_tiesAborted (j step : Nat) (unrun : Nat → List Nat) : Aborts s (s.tiesAborted j step unrun) :=
  .each (fun s b => .each (fun s x => by
    obtain ⟨l, he⟩ := s.tieAborted_eq b j (s.tieBuf b j x) step
    rw [he]
    exact aborts_setSlot s j rfl) (unrun b) s) _ s

theorem aborts_abortMb (j mb step : Nat) : Aborts s (s.abortMb j mb step) := by
  obtain ⟨unrun, he⟩ := s.abortMb_eq j mb step
  have hclose : Aborts s (s.closeMb j mb step) := by
    unfold State.closeMb
    split
    · exact aborts_closeTiles s _ _ _
    · exact .refl s
  rw [he]
  exact hclose.trans ((aborts_tiesAborted _ _ _ _).trans (aborts_releaseRecords _ _ _))

theorem aborts_each_abortMb (j : Nat) (l : List OpenMb) : Aborts s (s.each (fun s o => s.abortMb j o.mb o.step) l) :=
  State.each_pred (fun t => Aborts s t) _ (fun t o ht => ht.trans (aborts_abortMb t j o.mb o.step)) l s (.refl s)

/-- No record of the job is in transfer. -/
def State.untransferred (j : Nat) : Prop := ∀ x ∈ (s.slot j).acts, x.state ≠ 1 ∧ x.state ≠ 4 ∧ x.state ≠ 6

theorem still_releaseRecords {j : Nat} (h : s.untransferred j) (p : ActRec → Bool) : Still s (s.releaseRecords j p) := by
  rw [State.releaseRecords_eq, State.finishTransfers_eq_of_none fun r hr _ => h r hr]
  exact (Still.each (fun s r => (s.releaseRecord_keeps r).2) _ s).trans (still_setSlot _ _ _ rfl (List.filter_subset_self _))

theorem still_abortMb {j : Nat} (h : s.untransferred j) (mb step : Nat) : Still s (s.abortMb j mb step) := by
  obtain ⟨unrun, he⟩ := s.abortMb_eq j mb step
  have hclose : Still s (s.closeMb j mb step) := by
    unfold State.closeMb
    split
    · exact still_closeTiles s _ _ _
    · exact .refl s
  have hties : Still s ((s.closeMb j mb step).tiesAborted j step unrun) :=
    hclose.trans (still_tiesAborted _ _ _ _)
  rw [he]
  exact hties.trans (still_releaseRecords _ (fun x hx => h x (hties.acts j hx)) _)

/-- Micro-batches aborted in turn, while the job has no transfer. -/
theorem still_each_abortMb {j : Nat} (h : s.untransferred j) (l : List OpenMb) : Still s (s.each (fun s o => s.abortMb j o.mb o.step) l) :=
  State.each_pred (fun t => Still s t) _ (fun t o ht => ht.trans (still_abortMb t (fun x hx => h x (ht.acts j hx)) o.mb o.step)) l s (.refl s)
end

/-! ### FENCE_TIMEOUT (R118) -/

/-- A carry's fence is not satisfied. -/
def Tile.fenced (T : Tile) (c : RowCarry) : Bool := match c.tag with | some g => !T.fenceOk g | none => false

/-- The micro-batches that keep a fence of tile t up to epoch e. -/
def State.blocking (s : State) (t j e : Nat) : List OpenMb := (s.slot j).open_.filter fun o => o.tiles.contains t && decide (o.epoch < e)

/-- The timeout is told: its status bit, and its event. -/
def State.fenceLate (s : State) (t j : Nat) : State :=
  ((s.setTile t { s.tile t with fenceMs := 0 }).setBit (blockReg (tileBlock t) 0x200C) 3).raiseJ 0x0230 2 (tileBlock t) j 0

theorem State.fenceLate_keeps (s : State) (t j : Nat) : let u := s.fenceLate t j
    SameMem s u ∧ (∀ k, u.slot k = s.slot k) ∧ u.rbit (blockReg (tileBlock t) 0x200C) 3 = true ∧ (u.tile t).fenceMs = 0 := by
  intro u
  obtain ⟨v, hv⟩ : ∃ v, v = (s.setTile t { s.tile t with fenceMs := 0 }).setBit (blockReg (tileBlock t) 0x200C) 3 := ⟨_, rfl⟩
  have hu : u = v.raiseJ 0x0230 2 (tileBlock t) j 0 := by rw [hv]; rfl
  refine ⟨?_, fun k => ?_, ?_, ?_⟩
  · rw [hu, hv]
    exact (sameMem_setTile s t _).trans ((sameMem_setRf _ _ _ _ _).trans (sameMem_report _ _))
  · rw [hu, State.raiseJ_slot, hv]
    rfl
  · have hreg : u.reg (blockReg (tileBlock t) 0x200C) = v.reg (blockReg (tileBlock t) 0x200C) := by
      rw [hu]
      exact v.report_reg_of_ne _ fun g => blockReg_ne_regionReg (by decide) (by decide) (by decide)
    rw [State.rbit_congr hreg, hv]
    exact State.setBit_rbit _ _ _ (by decide)
  · have htile : v.tile t = { s.tile t with fenceMs := 0 } := by
      rw [hv]
      exact (State.setTile_get _ _ _ _).trans (if_pos rfl)
    rw [hu, State.raiseJ_tile, htile]

/-- What the timeout does to the micro-batches that block carry c. -/
def State.fenceTimeout (s : State) (t : Nat) (c : RowCarry) : State :=
  let j := c.job.getD 0
  let u := s.fenceLate t j
  let os := u.blocking t j (c.tag.getD 0)
  let v := u.each (fun s o => s.abortMb j o.mb o.step) os
  v.setSlot j { v.slot j with aborted := (v.slot j).aborted ++ os.map fun o => o.mb }

theorem execFenceTimeout_match (t : TileId) (s : State) : execFenceTimeout t s =
    match (s.tile t.val).carries.filter (s.tile t.val).fenced with
    | [] => .next s
    | c :: _ => whenever (decide (s.rf (blockReg (tileBlock t.val) 0x2008) 15 0 ≤ (s.tile t.val).fenceMs)) s (s.fenceTimeout t.val c) := rfl

theorem execFenceTimeout_late {s : State} {t : TileId} {c : RowCarry} {r : List RowCarry} (hc : (s.tile t.val).carries.filter (s.tile t.val).fenced = c :: r)
    (hms : s.rf (blockReg (tileBlock t.val) 0x2008) 15 0 ≤ (s.tile t.val).fenceMs) : execFenceTimeout t s = .next (s.fenceTimeout t.val c) := by
  rw [execFenceTimeout_match, hc]
  dsimp only
  rw [decide_eq_true hms, whenever_true]

/-- FENCE_TIMEOUT. -/
theorem completes_fenceTimeout {s : State} {t : TileId} {c : RowCarry} {r : List RowCarry} (hc : (s.tile t.val).carries.filter (s.tile t.val).fenced = c :: r)
    (hms : s.rf (blockReg (tileBlock t.val) 0x2008) 15 0 ≤ (s.tile t.val).fenceMs) :
    Completes (.fenceTimeout t) s fun t' => (∀ k, t'.cell k = s.cell k) ∧
      (s.untransferred (c.job.getD 0) → SameMem s t') ∧ t'.rbit (blockReg (tileBlock t.val) 0x200C) 3 = true ∧
      (t'.tile t.val).fenceMs = 0 ∧
      (t'.slot (c.job.getD 0)).aborted = (s.slot (c.job.getD 0)).aborted ++ (s.blocking t.val (c.job.getD 0) (c.tag.getD 0)).map fun o => o.mb := by
  refine ⟨_, execFenceTimeout_late hc hms, ?_⟩
  unfold State.fenceTimeout
  dsimp only
  generalize c.job.getD 0 = j
  obtain ⟨hmem, hslots, hbit, hzero⟩ := s.fenceLate_keeps t.val j
  have hos : (s.fenceLate t.val j).blocking t.val j (c.tag.getD 0) = s.blocking t.val j (c.tag.getD 0) := by
    rw [State.blocking, hslots]
    rfl
  rw [hos]
  generalize s.blocking t.val j (c.tag.getD 0) = os
  generalize s.fenceLate t.val j = v at hmem hslots hbit hzero ⊢
  generalize hu : v.each (fun s o => s.abortMb j o.mb o.step) os = u
  have hab : Aborts v u := by
    rw [← hu]
    exact aborts_each_abortMb v j os
  refine ⟨fun k => (hab.cells k).trans (hmem.cells k), fun hno => ?_, ?_, ?_, ?_⟩
  · have hstill : Still v u := by
      rw [← hu]
      exact still_each_abortMb v (fun x hx => hno x (by rwa [hslots] at hx)) os
    exact hmem.trans (hstill.mem.trans (.of_store rfl))
  · exact (State.rbit_congr (hab.regs _ fun g => blockReg_ne_regionReg (by decide) (by decide) (by decide)) 3).trans hbit
  · exact (hab.timers t.val).trans hzero
  · rw [State.setSlot_get, if_pos rfl, hab.aborted, hslots]

/-- Settles O14: each command by the lemma on it; what follows a tile's command leaves tiers, procedures and carries as they are. -/
theorem tileUpkeepMilestones : Obligations.TileUpkeepMilestones := by
  unfold Obligations.TileUpkeepMilestones
  intro s
  refine ⟨fun _ _ _ h hst hv hr => completes_eraseVerify h hst hv hr, fun _ hst hs hb => completes_sweepDue hst hs hb, fun t p ps new hp hk hold hnew hne => ?_,
    fun _ _ _ hp hds hf => completes_tierLoadDone hp hds hf, fun _ h => completes_adoptionSweepDone rfl rfl h, fun _ _ _ hc hms => completes_fenceTimeout hc hms⟩
  intro v ds idle moved hi hi' hf
  obtain ⟨w, hex, hmem, hmoved, hmoved'⟩ := completes_coppiceSwap hp hk hold hnew hne (State.swapReady_of hi) (fun hd => State.swapReady_of (hi' hd)) hf
  have hmove {x : Nat} (h : Moved p.tier new x s w) : moved w x := ⟨h.tensor, h.shadow, h.freed, h.live, h.closed, h.procs, h.carries⟩
  exact ⟨w, hex, hmem, hmove hmoved, fun hd => hmove (hmoved' hd)⟩
end Sys2Proof.Machine
end
